-- ==== Sys2Proof/Word.lean ====
section
/-! DEFINITION. The words of the machine: 64-bit register words (R614), 32-bit lanes and bytes. -/

namespace Sys2Proof

/-- A register or scalar word. -/
abbrev Word := BitVec 64
/-- A 32-bit lane, instruction word or FP32 pattern. -/
abbrev Half := BitVec 32
/-- One byte of memory. -/
abbrev Byte := BitVec 8

end Sys2Proof
end

