-- ==== Sys2Proof/Machine/Assoc.lean ====
section
/-! DEFINITION. Sparse tables: a list of key and value pairs with a default for every unlisted key. -/

namespace Sys2Proof.Machine

/-- A sparse table; the first pair of a key counts. -/
abbrev Assoc (κ α : Type) := List (κ × α)

namespace Assoc

variable {κ α : Type} [DecidableEq κ]

/-- The value listed for a key. -/
def find (k : κ) : Assoc κ α → Option α
  | [] => none
  | (j, v) :: t => if k = j then some v else find k t

/-- The value of a key, d where none is listed. -/
def at_ (t : Assoc κ α) (d : α) (k : κ) : α := (find k t).getD d

/-- The table with a key's value replaced, in its place or at the end. -/
def put (k : κ) (v : α) : Assoc κ α → Assoc κ α
  | [] => [(k, v)]
  | (j, w) :: t => if k = j then (k, v) :: t else (j, w) :: put k v t

/-- The table without a key. -/
def drop_ (k : κ) (t : Assoc κ α) : Assoc κ α := t.filter (fun p => p.1 ≠ k)

end Assoc

end Sys2Proof.Machine
end

