-- ==== Sys2Proof/Machine/Reg.lean ====
section
/-! DEFINITION. The names the register map is written with: dies, cores, ports, the fault classes and
sources of R512 and R513, the 16 register blocks of R7, and one constructor of `Reg` per register of
chapter 15 (R618 to R631). -/

namespace Sys2Proof.Machine

/-- The two compute dies (R7). -/
abbrev Die := Fin 2
/-- Logical core q = 4c + k of a die (R141). -/
abbrev CoreId := Fin 32
/-- A cluster of a die (R16). -/
abbrev Cluster := Fin 8
/-- A context slot of a core (R330). -/
abbrev SlotId := Fin 4
/-- A ring or span port: 0 E, 1 W, 2 SE, 3 SW, 4 SPAN0, 5 SPAN1 (R389). -/
abbrev Port := Fin 6

/-- The nine fault classes (R512). -/
inductive FaultClass where
  | data | link | sched | sync | power | thermal | security | config | host
  deriving DecidableEq, Repr

/-- The fault sources (R513). -/
inductive Source where
  | blockCheck
  | copySubstituted
  | unbacked
  | expander
  | storeUe
  | sramUnrepaired
  | hbmUe
  | stackRetired
  | stackSecond
  | lpdLost
  | indexTable
  | gradPoison
  | remotePoison
  | recordBad
  | reportBad
  | dieSilent
  | dieInternal
  | hubInternal
  | pinReadback
  | portFailed
  | spareFailed
  | frameBad
  | partMismatch
  | arcLost
  | windowLost
  | ctrlLost
  | stepLate
  | stepMisuse
  | rateLow
  | stepFull
  | doneErr
  | mcastTimeout
  | layerOrder
  | misuse
  | barMisuse
  | ctrSat
  | crdUnder
  | sigBad
  | barBroken
  | phaseLost
  | stageLostDie
  | stageLostHub
  | inputRange
  | capping
  | uncalibrated
  | tjHigh
  | tjCritDie
  | tjCritHub
  | coolant
  | hbmCrit
  | imageRejected
  | rollbackRejected
  | revoked
  | fuseBad
  | writeRejected
  | windowViolation
  | addressHigh
  | engineReject
  | illegalWord
  | xlate
  | stepInvalid
  | dmaDesc
  | windowRefused
  | formation
  | restoreFailed
  | view
  | spanDiscard
  | loadRejected
  | expertUnlock
  | accessShape
  | feedReject
  | msgBad
  | msgRole
  | sessionZero
  | ackBeyond
  deriving DecidableEq, Repr

/-- The register blocks, in the order of their number n (R7). -/
inductive Block where
  | mod | eng | scv | wst | ast | pst | fdx | dma | sync | circ | hbm | lpd | mld | fcu | ptc | sec
  deriving DecidableEq, Repr

/-- Every register of the module (chapter 15). A register of a compute-die block carries its die; a
die-0-only register (R292, R388, R147) carries none. -/
inductive Reg where
  | modIdent  -- MOD.IDENT
  | modTopology  -- MOD.TOPOLOGY
  | engCoreStatus (d : Die) (q : CoreId)  -- ENG.CORE_STATUS
  | engFreezeDry (d : Die) (q : CoreId)  -- ENG.FREEZE_DRY
  | engFreezeTile (d : Die) (q : CoreId)  -- ENG.FREEZE_TILE
  | engFreezeDrain (d : Die) (q : CoreId)  -- ENG.FREEZE_DRAIN
  | engRetired (d : Die) (q : CoreId)  -- ENG.RETIRED
  | engRejectWord (d : Die) (q : CoreId)  -- ENG.REJECT_WORD
  | engCtrl (d : Die)  -- ENG.CTRL
  | engFusedLo (d : Die)  -- ENG.FUSED_LO
  | engFusedHi (d : Die)  -- ENG.FUSED_HI
  | engCoreMap (d : Die)  -- ENG.CORE_MAP
  | engGradeMask  -- ENG.GRADE_MASK
  | scvCoreCtrl (d : Die) (q : CoreId)  -- SCV.CORE_CTRL
  | scvIssueStall (d : Die) (q : CoreId)  -- SCV.ISSUE_STALL
  | scvCtx (d : Die) (q : CoreId) (x : SlotId)  -- SCV.CTX_x
  | scvCtxPc (d : Die) (q : CoreId) (x : SlotId)  -- SCV.CTX_PC_x
  | scvCtxCmd (d : Die) (q : CoreId)  -- SCV.CTX_CMD
  | scvCtrl (d : Die)  -- SCV.CTRL
  | scvBeat (d : Die)  -- SCV.BEAT
  | scvTime (d : Die)  -- SCV.TIME
  | scvRate (d : Die)  -- SCV.RATE
  | scvSchedCtrl (d : Die)  -- SCV.SCHED_CTRL
  | scvStepStatus (d : Die)  -- SCV.STEP_STATUS
  | scvStepAbort (d : Die)  -- SCV.STEP_ABORT
  | scvStepLogA (d : Die) (i : Fin 16)  -- SCV.STEP_LOG_i_A
  | scvStepLogB (d : Die) (i : Fin 16)  -- SCV.STEP_LOG_i_B
  | wstStoreCtrl (d : Die)  -- WST.STORE_CTRL
  | wstCtrl (d : Die)  -- WST.CTRL
  | wstErrCount (d : Die)  -- WST.ERR_COUNT
  | wstErrAddr (d : Die)  -- WST.ERR_ADDR
  | wstRepairSel (d : Die)  -- WST.REPAIR_SEL
  | wstRepairEntry (d : Die)  -- WST.REPAIR_ENTRY
  | wstRepairStatus (d : Die)  -- WST.REPAIR_STATUS
  | wstJobTag (d : Die)  -- WST.JOB_TAG
  | wstBistCtrl (d : Die)  -- WST.BIST_CTRL
  | wstBistStatus (d : Die)  -- WST.BIST_STATUS
  | wstNarrowStall (d : Die)  -- WST.NARROW_STALL
  | astCtrl (d : Die)  -- AST.CTRL
  | astErrCount (d : Die)  -- AST.ERR_COUNT
  | astErrAddr (d : Die)  -- AST.ERR_ADDR
  | astRepairSel (d : Die)  -- AST.REPAIR_SEL
  | astRepairEntry (d : Die)  -- AST.REPAIR_ENTRY
  | astRepairStatus (d : Die)  -- AST.REPAIR_STATUS
  | pstCtrl (d : Die)  -- PST.CTRL
  | pstErrCount (d : Die)  -- PST.ERR_COUNT
  | pstErrAddr (d : Die)  -- PST.ERR_ADDR
  | pstRepairSel (d : Die)  -- PST.REPAIR_SEL
  | pstRepairEntry (d : Die)  -- PST.REPAIR_ENTRY
  | pstRepairStatus (d : Die)  -- PST.REPAIR_STATUS
  | fdxFeedStatus (d : Die) (q : CoreId)  -- FDX.FEED_STATUS
  | fdxPortHold (d : Die) (q : CoreId)  -- FDX.PORT_HOLD
  | fdxFeedStall (d : Die) (q : CoreId)  -- FDX.FEED_STALL
  | fdxExpStatus (d : Die) (q : CoreId)  -- FDX.EXP_STATUS
  | fdxExpBlocks (d : Die) (q : CoreId)  -- FDX.EXP_BLOCKS
  | fdxExpBehind (d : Die) (q : CoreId)  -- FDX.EXP_BEHIND
  | fdxCtrl (d : Die)  -- FDX.CTRL
  | fdxCompCtrl (d : Die)  -- FDX.COMP_CTRL
  | fdxLowratio (d : Die)  -- FDX.LOWRATIO
  | fdxMcastCtrl (d : Die)  -- FDX.MCAST_CTRL
  | fdxMcastStatus (d : Die)  -- FDX.MCAST_STATUS
  | fdxMcastWait (d : Die)  -- FDX.MCAST_WAIT
  | fdxEpcTag (d : Die) (t : Fin 16)  -- FDX.EPC_TAG_t
  | fdxEpcLen (d : Die) (t : Fin 16) (w : Fin 16)  -- FDX.EPC_LEN_t
  | dmaQstatus (d : Die) (c : Cluster)  -- DMA.QSTATUS_c
  | dmaErrDesc (d : Die) (c : Cluster)  -- DMA.ERR_DESC_c
  | dmaDoneCount (d : Die) (c : Cluster)  -- DMA.DONE_COUNT_c
  | dmaPost (d : Die) (c : Cluster)  -- DMA.POST_c
  | dmaTxnRes (d : Die) (c : Cluster)  -- DMA.TXN_RES_c
  | dmaCtrl (d : Die)  -- DMA.CTRL
  | dmaTxnCore (d : Die)  -- DMA.TXN_CORE
  | dmaTxnStatus (d : Die)  -- DMA.TXN_STATUS
  | dmaRwinA (w : Fin 64)  -- DMA.RWIN_w_A
  | dmaRwinB (w : Fin 64)  -- DMA.RWIN_w_B
  | dmaRimpA (i : Fin 16)  -- DMA.RIMP_i_A
  | dmaRimpB (i : Fin 16)  -- DMA.RIMP_i_B
  | syncCtr (d : Die) (n : Fin 8192)  -- SYNC.CTR_n
  | syncCtrl (d : Die)  -- SYNC.CTRL
  | syncStatus (d : Die)  -- SYNC.STATUS
  | syncXlSel (d : Die)  -- SYNC.XL_SEL
  | syncXlEntry (d : Die)  -- SYNC.XL_ENTRY
  | syncCrdMap (d : Die) (w : Fin 64)  -- SYNC.CRD_MAP_w
  | syncCrdFb (d : Die) (w : Fin 64)  -- SYNC.CRD_FB_w
  | syncBarA (d : Die) (b : Fin 64)  -- SYNC.BAR_b_A
  | syncBarB (d : Die) (b : Fin 64)  -- SYNC.BAR_b_B
  | syncBarC (b : Fin 64)  -- SYNC.BAR_b_C
  | syncBarD (b : Fin 64)  -- SYNC.BAR_b_D
  | circRingConf  -- CIRC.RING_CONF
  | circPosition  -- CIRC.POSITION
  | circPeriodTarget  -- CIRC.PERIOD_TARGET
  | circPhase  -- CIRC.PHASE
  | circWindow  -- CIRC.WINDOW
  | circArc  -- CIRC.ARC
  | circUpdate  -- CIRC.UPDATE
  | circCtrl  -- CIRC.CTRL
  | circPartE  -- CIRC.PART_E
  | circPartW  -- CIRC.PART_W
  | circStatus  -- CIRC.STATUS
  | circCohort (c : Fin 8)  -- CIRC.COHORT_c
  | circPortCtrl (n : Port)  -- CIRC.PORT_CTRL_n
  | circPortStatus (n : Port)  -- CIRC.PORT_STATUS_n
  | circPortPeer (n : Port)  -- CIRC.PORT_PEER_n
  | circPortEpoch (n : Port)  -- CIRC.PORT_EPOCH_n
  | circPartSe  -- CIRC.PART_SE
  | circPartSw  -- CIRC.PART_SW
  | circLinkCtrl  -- CIRC.LINK_CTRL
  | circAdmit  -- CIRC.ADMIT
  | circForm  -- CIRC.FORM
  | circBypass  -- CIRC.BYPASS
  | circSplice  -- CIRC.SPLICE
  | circReinjA  -- CIRC.REINJ_A
  | circReinjB  -- CIRC.REINJ_B
  | circReinjCtrl  -- CIRC.REINJ_CTRL
  | circStreamLen  -- CIRC.STREAM_LEN
  | circOwn (r : Fin 16)  -- CIRC.OWN_r
  | circLaneA (n : Port) (p : Fin 34)  -- CIRC.LANE_n_p_A
  | circLaneB (n : Port) (p : Fin 34)  -- CIRC.LANE_n_p_B
  | hbmCtrl (d : Die)  -- HBM.CTRL
  | hbmRetrainCtrl (d : Die)  -- HBM.RETRAIN_CTRL
  | hbmRetireCtrl (d : Die)  -- HBM.RETIRE_CTRL
  | hbmStackStatus (d : Die) (i : Fin 4)  -- HBM.STACK_i_STATUS
  | hbmStackErr (d : Die) (i : Fin 4)  -- HBM.STACK_i_ERR
  | hbmStackCmd (d : Die) (i : Fin 4)  -- HBM.STACK_i_CMD
  | lpdCtrl  -- LPD.CTRL
  | lpdRetrainCtrl  -- LPD.RETRAIN_CTRL
  | lpdBack  -- LPD.BACK
  | lpdOpt  -- LPD.OPT
  | lpdPark  -- LPD.PARK
  | lpdChStatus (k : Fin 16)  -- LPD.CH_k_STATUS
  | mldCtrl  -- MLD.CTRL
  | mldLinkCtrl  -- MLD.LINK_CTRL
  | mldLinkStatus  -- MLD.LINK_STATUS
  | mldSvcCtrl  -- MLD.SVC_CTRL
  | mldSvcStatus  -- MLD.SVC_STATUS
  | mldSvcCounts  -- MLD.SVC_COUNTS
  | fcuCtrl  -- FCU.CTRL
  | fcuStatus  -- FCU.STATUS
  | fcuAck  -- FCU.ACK
  | fcuPin  -- FCU.PIN
  | fcuInject  -- FCU.INJECT
  | fcuLogSel  -- FCU.LOG_SEL
  | fcuLogData (w : Fin 8)  -- FCU.LOG_DATA_w
  | fcuClass (k : FaultClass)  -- FCU.CLASS_k
  | fcuReact (src : Source)  -- FCU.REACT_ID
  | fcuCount (src : Source)  -- FCU.COUNT_ID
  | ptcCtrl  -- PTC.CTRL
  | ptcReady  -- PTC.READY
  | ptcInput  -- PTC.INPUT
  | ptcCap  -- PTC.CAP
  | ptcDieV (d : Die)  -- PTC.DIE_d_V
  | ptcTherm  -- PTC.THERM
  | ptcThermCtrl  -- PTC.THERM_CTRL
  | ptcStage (s : Fin 9)  -- PTC.STAGE_s
  | ptcTbTime  -- PTC.TB_TIME
  | ptcTbConf  -- PTC.TB_CONF
  | ptcTbSet  -- PTC.TB_SET
  | ptcTbStatus  -- PTC.TB_STATUS
  | ptcCalCmd  -- PTC.CAL_CMD
  | ptcCalStatus  -- PTC.CAL_STATUS
  | ptcCalFunc (f : Fin 9)  -- PTC.CAL_FUNC_f
  | secCtrl  -- SEC.CTRL
  | secStatus  -- SEC.STATUS
  | secFuseCmd  -- SEC.FUSE_CMD
  | secAttCmd  -- SEC.ATT_CMD
  | secUpdStatus  -- SEC.UPD_STATUS
  | secRecCtrl  -- SEC.REC_CTRL
  | secRecStatus  -- SEC.REC_STATUS
  | secIdHash (w : Fin 4)  -- SEC.ID_HASH_w
  | secImageDigest (w : Fin 4)  -- SEC.IMAGE_DIGEST_w
  | secNonce (w : Fin 4)  -- SEC.NONCE_w
  deriving DecidableEq, Repr

/-- In which view a field is visible (R18, R498): P only in the privileged view, U in both. -/
inductive FView where
  | p | u
  deriving DecidableEq, Repr

/-- The level of a field (R18, R499). -/
inductive FLevel where
  | basic | expert
  deriving DecidableEq, Repr

/-- How a field is accessed (R18). -/
inductive FAccess where
  | ro | rw | wo | w1c
  deriving DecidableEq, Repr

/-- One field of a register map: bits high to low, view, level and access (R18). -/
structure Fld where
  hi : Nat
  lo : Nat
  view : FView
  level : FLevel
  access : FAccess
  deriving DecidableEq, Repr

end Sys2Proof.Machine
end

