-- ==== Sys2Proof/Machine/StateDie.lean ====
section
/-! DEFINITION. The state of a compute die that has no register of its own: contexts, engines, feeders,
stores, DMA, synchronisation (chapters 03 to 08). -/

namespace Sys2Proof.Machine

/-- The six states of a context slot (R330). -/
inductive CtxState where
  | empty | ready | wait | stopped | saving | restoring
  deriving DecidableEq, Repr

/-- One address region of a context (R334). -/
structure Region where
  cbase : Nat
  mbase : Nat
  size : Nat
  r : Bool
  w : Bool
  a : Bool
  x : Bool
  deriving DecidableEq, Repr

/-- What a waiting context waits for (R330, WAITCAUSE of R338). -/
inductive WaitCond where
  | counter (vid phys mode value timeout pd : Nat)
  | beat (target : Nat)
  | time (target : Nat)
  | efence
  | pflush
  /-- A full queue: 0 issue queue, 1 feed queue, 2 tile requests, 3 bus queue, 4 DMA posts, 5 signal queue,
  6 combining buffer. -/
  | queueFull (which : Nat)
  /-- A scalar register 0 to 31, or vector register 32 + n, that a load is still to bring. -/
  | operand (reg : Nat)
  | branch (readyBeat : Nat)
  | tileOrder (word : Word)
  deriving DecidableEq, Repr

/-- The number formats that the vector unit converts to (R152, R153). -/
inductive VecFmt where
  | fp32 | bf16 | e5m2 | e4m3 | int8 | uint8
  deriving DecidableEq, Repr

/-- The element type that a wide access of the vector unit names (R219): none, BF16 or FP32. -/
inductive ElemType where
  | none_ | bf16 | fp32
  deriving DecidableEq, Repr

/-- The effect of a register, predicate, compare or move operation (R308; log entry 11): a register, a predicate or a
vector register takes a value, a vector one computed from the vector registers named; a vector register is read from or
written to memory (R202), or converted (R152); or a word of the listed encodings (R133, R213, R291, R309, R351), which is judged by its fields (R310); or a reserved opcode. -/
inductive ScalarOp where
  | reg (rd : Fin 32) (v : Word)
  | pred (p : Fin 8) (b : Bool)
  | vec (vd : Fin 32) (bytes : List Byte) (vs : List (Fin 32))
  | vread (vd : Fin 32) (addr size : Nat)
  | vwrite (vs : Fin 32) (addr size : Nat) (elem : ElemType)
  | vcvt (vd vs : Fin 32) (src dst : VecFmt)
  | word (w : Half)
  | illegal
  deriving DecidableEq, Repr

/-- A context slot (R330, R333, R377). -/
structure Ctx where
  st : CtxState
  cause : Nat
  prio : Nat
  /-- PRIO written on this beat; it takes effect on the next one (R338). -/
  prioNext : Option Nat
  pc : Nat
  s : Assoc (Fin 32) Word
  /-- The scalar registers that carry a poison mark (R10, R227, R531). -/
  bad : List (Fin 32)
  p : Nat
  regions : Assoc (Fin 8) Region
  xl : Assoc Nat Nat
  last : Nat
  lastVid : Nat
  waiting : Option WaitCond
  /-- Which stall counter each waiting beat adds to (R134, R211, R261, R270): 0 none, 1 ISSUE_STALL, 2 FEED_STALL,
  3 NARROW_STALL. -/
  stall : Nat
  /-- The first die beat on which its next instruction may issue (R308). -/
  nextAt : Nat
  /-- The latest beat charged to its stall counter. -/
  stalledAt : Option Nat
  /-- The order stamp of its latest issue; none where it has not issued since it was loaded (R332). -/
  lastIssue : Option Nat
  /-- A STOP command waits for the narrow accesses of the context (R336). -/
  stopReq : Bool
  /-- The context was READY or WAIT when last stopped (R335). -/
  ran : Bool
  /-- The save area of a SAVE or RESTORE in progress. -/
  area : Nat
  deriving DecidableEq, Repr

/-- A context slot at reset: EMPTY (R338), its registers zero (log entry 4). -/
def Ctx.empty : Ctx :=
  { st := .empty, cause := 0, prio := 0, prioNext := none, pc := 0, s := [], bad := [], p := 0, regions := [], xl := [], last := 0,
    lastVid := 0, waiting := none, stall := 0, nextAt := 0, stalledAt := none, lastIssue := none, stopReq := false,
    ran := false, area := 0 }

/-- The kind of a tile (R103). -/
inductive TileKind where
  | k8 | b4 | bf16
  deriving DecidableEq, Repr

/-- An active tile (R102, R103). -/
structure Tile where
  kind : TileKind
  bytes : List Byte
  poison : Bool
  deriving DecidableEq, Repr

/-- A shadow tile: the transfers it holds and the kind of the source that fills it (R110). -/
structure Shadow where
  kind : TileKind
  transfers : List (List Byte)
  poison : Bool
  deriving DecidableEq, Repr

/-- One accumulator slot of every lane of an engine, with the slot's poison bit (R101, R122). -/
structure AccSlot where
  lanes : List Half
  poison : Bool
  deriving DecidableEq, Repr

/-- One engine (R101, R102, R120). -/
structure Engine where
  active : Option Tile
  shadow : Option Shadow
  slots : Assoc Nat AccSlot
  intType : Bool
  deriving DecidableEq, Repr

/-- An engine after reset: no active tile (R103); its slots zero and of FP32 type (log entry 5). -/
def Engine.reset : Engine := { active := none, shadow := none, slots := [], intType := false }

/-- A queued engine word with the context that pushed it and the die beat of the push (R134). -/
structure EngWord where
  word : Word
  slot : SlotId
  stamp : Nat
  beat : Nat
  deriving DecidableEq, Repr

/-- An entry of the activation feeder queue (R105). -/
structure ActRow where
  bytes : List Byte
  poison : Bool
  deriving DecidableEq, Repr

/-- One transfer of the tile path (R104). -/
structure Transfer where
  kind : TileKind
  bytes : List Byte
  poison : Bool
  deriving DecidableEq, Repr

/-- A line in a core's receive buffer (R258): its request, what the expander or the tile path has not yet taken of it, and
the beat on which it reaches the buffer (R259). -/
structure RxLine where
  req : Nat
  bytes : List (Byte × Bool)
  at_ : Nat
  deriving DecidableEq, Repr

/-- The engine form a request expects (R180): byte tiles, Brass-4 tiles or BF16 tiles. -/
abbrev EKind := TileKind

/-- A request in a core's tile and expander queue (R270). -/
inductive TileReq where
  /-- TFEED of staged tiles (R268): the next tile and transfer to read, and the beat from which the read is issued. -/
  | tfeed (psoff count : Nat) (kind : TileKind) (tile xfer issue : Nat)
  /-- XPAND of a local block (R269): the stored bytes it reads in all, once it has begun, those read and not yet taken by
  the expander, and those taken. -/
  | xpand (addr : Nat) (stage : Bool) (psoff e : Nat) (ekind : EKind) (want : Option Nat) (got data : List (Byte × Bool))
  /-- A multicast delivery whose header the bus has not read (R262). -/
  | mcast (req : Nat) (stage : Bool) (psoff e : Nat) (ekind : EKind)
  /-- A multicast delivery that passes through the expander: the bytes it has taken, each with its poison mark, and the
  lines still to come (R262). -/
  | expand (req : Nat) (stage : Bool) (psoff e : Nat) (ekind : EKind) (data : List (Byte × Bool)) (left : Nat)
  /-- Poisoned zero output through the expander (R260, R263). -/
  | zeros (req : Nat) (stage : Bool) (psoff e : Nat) (ekind : EKind)
  /-- A multicast delivery of lines past the expander, to the tile path or to a line of the partial-sum store on: the lines
  still to come (R259, R262). -/
  | lines (req : Nat) (kind : TileKind) (left : Nat) (stage : Option Nat)
  deriving DecidableEq, Repr

/-- An activation feed (R271) with its progress. -/
structure Feed where
  rows : Nat
  rb : Nat
  addr : Nat
  count : Nat
  stride : Nat
  repeats : Nat
  next : Nat
  pass : Nat
  deriving DecidableEq, Repr

/-- An entry of the drain buffer: the line of the core's partial-sum store, whether it accumulates, and, once the read
half of its read-modify-write is served, the beat of its write-back (R205, R222). -/
structure DrainEntry where
  line : Nat
  acc : Bool
  back : Option Nat
  deriving DecidableEq, Repr

/-- An entry of the combining buffer: a line's module address, its pending bytes by offset (R211), and the slots and
stamps of the writes gathered in it (R325). -/
structure CombEntry where
  line : Nat
  bytes : Assoc Nat (Byte × Bool)
  who : List (SlotId × Nat)
  deriving DecidableEq, Repr

/-- A signal in a core's signal queue (R353). -/
structure SigEntry where
  slot : SlotId
  phys : Nat
  scope : Nat
  win : Nat
  inc : Nat
  stamp : Nat
  /-- The die beat on which it was issued. -/
  beat : Nat
  deriving DecidableEq, Repr

/-- What belongs to a core and to no context (R135, R291, R333). -/
structure Core where
  issueQ : List EngWord
  engines : Assoc (Fin 4) Engine
  actQ : List ActRow
  actReserved : Nat
  feeds : List Feed
  treqs : List TileReq
  rx : List RxLine
  /-- The tile order (R266): the engines of one cycle, the position i, and whether tile i has its first
  of two transfers. -/
  tord : List (Fin 4)
  tordPos : Nat
  tordHalf : Bool
  /-- Expander output waiting for the tile path (R267). -/
  expOut : List Transfer
  /-- The expander's output of the request it serves is still being delivered (R187). -/
  expBusy : Bool
  /-- A staged transfer read by the tile path, and the first beat on which it may be written (R268). -/
  tileIn : Option (Transfer × Nat)
  drains : List DrainEntry
  combine : List CombEntry
  sigQ : List SigEntry
  /-- Vector registers, each with its poison mark (R227). -/
  vregs : Assoc (Fin 32) ActRow
  /-- Rows done of the instruction at the queue head, once it has issued (R107, R131). -/
  prog : Option Nat
  /-- The first engine beat on which the next instruction may issue (R107). -/
  nextIssue : Nat
  /-- Frozen beats since the die left reset (R303). -/
  engFrozen : Nat
  /-- The die beat on which the scalar core last issued an instruction (R308). -/
  issuedAt : Option Nat
  deriving DecidableEq, Repr

/-- A core at reset. -/
def Core.reset : Core :=
  { issueQ := [], engines := [], actQ := [], actReserved := 0, feeds := [], treqs := [], rx := [],
    tord := [0], tordPos := 0, tordHalf := false, expOut := [], expBusy := false, tileIn := none, drains := [],
    combine := [], sigQ := [], vregs := [], prog := none, nextIssue := 0, engFrozen := 0, issuedAt := none }

/-- What an access does at its line (R202, R218, R219). -/
inductive AccKind where
  | read | write | bitSet | bitClear
  /-- Accumulate of FP32 (true) or BF16 (false) elements. -/
  | acc (fp32 : Bool)
  deriving DecidableEq, Repr

/-- Who asked for an access and where its data goes (R198, R207). -/
inductive AccDest where
  /-- A narrow load into a scalar register; sx says whether it is sign-extended. -/
  | scalar (d : Die) (q : CoreId) (x : SlotId) (rd : Fin 32) (sx : Bool)
  /-- A narrow or vector write of a context. -/
  | store (d : Die) (q : CoreId) (x : SlotId)
  /-- A vector-unit read into a vector register, from a byte of it on. -/
  | vector (d : Die) (q : CoreId) (x : SlotId) (vd : Fin 32) (off : Nat)
  /-- An activation feeder access filling rows queue entries of rb bytes each (R271). -/
  | feeder (d : Die) (q : CoreId) (rows rb : Nat)
  /-- A combining-buffer entry's wide write (R211). -/
  | combine (d : Die) (q : CoreId)
  /-- A read of the expander for its XPAND (R269). -/
  | expander (d : Die) (q : CoreId)
  /-- A STAGE write of a core: of the expander's output, or of a line of a request that bypasses it (R198). -/
  | stage (d : Die) (q : CoreId) (req : Option Nat)
  /-- An access of a running descriptor to its own die's stores; a read names where its data goes (R198, R277). -/
  | dma (d : Die) (c : Cluster) (number : Nat) (into : Option (Nat × AccKind))
  /-- The read of a posted descriptor, for the core that posted it (R212, R275). -/
  | post (d : Die) (c : Cluster) (q : Option CoreId)
  /-- The access of a transaction of the other die d, with its stamp; exch: it is the activation exchange (R91, R289). -/
  | txn (d : Die) (exch : Bool)
  /-- The access of a remote frame that has come (R93, R196). -/
  | remote
  deriving DecidableEq, Repr

/-- A store access issued and not yet complete (R201, R207). -/
structure Access where
  stamp : Nat
  kind : AccKind
  addr : Nat
  size : Nat
  data : List (Byte × Bool)
  dest : AccDest
  /-- Served by Electrum port B (R215). -/
  portB : Bool
  /-- The beat on which it was issued, and once served the beat on which it returns (R207). -/
  issue : Nat
  ret : Nat
  served : Bool
  deriving DecidableEq, Repr

/-- A read-modify-write awaiting its write-back (R205): bank key, class and write-back beat. -/
structure Rmw where
  bank : Nat
  cls : Nat
  beat : Nat
  deriving DecidableEq, Repr

/-- The three stores (R194). -/
inductive Store where
  | wst | ast | pst
  deriving DecidableEq, Repr

/-- A use of a die's stores on the present beat: a slot of a bank, by bank key and class, with 8 for Electrum port B
(R197, R215); a core's port into a unit (R200); a lane of the weight bus, with 32 and above for the zero lines of a request, and its
delivery to a core (R257, R258, R260); a core's tile path (R104); a DMA's line (R284). -/
inductive SlotUse where
  | bank (key cls : Nat)
  | port (q : CoreId) (unit : Nat)
  | lane (n : Nat)
  | sub (n : Nat) (q : CoreId)
  | tile (q : CoreId)
  | dma (c : Cluster)
  deriving DecidableEq, Repr

/-- A write served on the present beat, which takes effect at the beat's end, in the order of its class (R206, R217). -/
structure Effect where
  cls : Nat
  kind : AccKind
  addr : Nat
  data : List (Byte × Bool)
  deriving DecidableEq, Repr

/-- A queued scrub or poison write-back of a protection word (R226). -/
structure Scrub where
  store : Store
  word : Nat
  deriving DecidableEq, Repr

/-- One line of the region under test (R229). -/
structure BistLine where
  saved : Bool
  march : Nat
  failed : Bool
  restored : Bool
  deriving DecidableEq, Repr

/-- A forced repair in progress (R238): bank key, entry and row, and whether the row's line has been saved. -/
structure Forced where
  key : Nat
  entry : Nat
  row : Nat
  saved : Bool
  deriving DecidableEq, Repr

/-- The background test engine of a die (R228 to R234). -/
structure Bist where
  running : Bool
  started : Bool
  startBeat : Nat
  /-- The beat on which the last region finished. -/
  endBeat : Nat
  /-- The region under test was taken out of turn. -/
  extra : Bool
  lines : List BistLine
  /-- A region to be tested next, out of turn (R226). -/
  outOfTurn : Option Nat
  /-- The region after the one under test. -/
  next : Nat
  /-- Rows with a corrected error in this pass (R226), by bank key and row as it is served (R235). -/
  ceRows : List (Nat × Nat)
  /-- Forced repairs, oldest first. -/
  forced : List Forced
  deriving DecidableEq, Repr

/-- One of the eight repair entries of a bank (R235, R246). -/
structure RepairEntry where
  valid : Bool
  bad : Bool
  source : Nat
  row : Nat
  deriving DecidableEq, Repr

/-- The state of a block-table entry (R254). -/
inductive BlockState where
  | landing | resident | forwarding
  deriving DecidableEq, Repr

/-- One stretch of the weight window: a block with its table entry, or the skipped end of a slice (R251, R254). -/
structure WinEntry where
  skip : Bool
  id : Nat
  addr : Nat
  size : Nat
  /-- The window bytes before addr left unused by the pre-skew (R252). -/
  gap : Nat
  use : Nat
  state : BlockState
  west : Bool
  sseq : Nat
  layer : Nat
  grad : Bool
  sealed_ : Bool
  /-- The bytes of the plain form of a gradient block, held in the window from addr (R175); 0 otherwise. -/
  plain : Nat
  /-- The stored block arrived failing its check, and is forwarded unchanged (R34, R532). -/
  failed : Bool
  /-- The second copy that R167 places; never forwarded. -/
  copy : Bool
  /-- Bytes still to land. -/
  left : Nat
  /-- The header of a gradient block, kept for re-encoding; of another block, the backing copy that is forwarded in
  its place (R37). -/
  header : List Byte
  /-- The stored bytes still to be written when its last byte lands; once its first frame has left, the bytes that
  are sent. -/
  landing : List Byte
  /-- Port and entry of the credits returned when it is resident (R402). -/
  credits : List (Port × Nat)
  /-- Frames of it sent (R399). -/
  sent : Nat
  /-- The number of the layer run of its stream that it landed in, 0 before the first (R48, R662). -/
  run : Nat
  deriving DecidableEq, Repr

/-- A request of the die weight bus (R259 to R265). -/
structure BusReq where
  id : Nat
  gacc : Bool
  core : CoreId
  block : Nat
  cmask : Nat
  stage : Bool
  psoff : Nat
  ndone : Nat
  e : Nat
  ekind : EKind
  lines : Bool
  lfirst : Nat
  lcount : Nat
  /-- The beat of its issue. -/
  since : Nat
  /-- Looked up and taken into the subscribers' queues, and the block-table entry found. -/
  active : Bool
  found : Option WinEntry
  /-- It waited WAIT_LIMIT beats for its block (R260). -/
  timedOut : Bool
  /-- The source line of a GACC that has been read and not yet accumulated (R265). -/
  buf : Option (List (Byte × Bool))
  /-- Lines served so far, and lines in all. -/
  served : Nat
  total : Nat
  /-- The lines are poisoned zeros (R260, R263). -/
  zero : Bool
  /-- The header has been read and checked (R263). -/
  checked : Bool
  /-- The block passes through the expander. -/
  expand : Bool
  deriving DecidableEq, Repr

/-- An open step (R321). -/
structure Step where
  id : Nat
  mask : Nat
  opened : Nat
  deadline : Option Nat
  arrived : Nat
  frozen : Assoc Nat Nat
  late : Bool
  deriving DecidableEq, Repr

/-- A pending arrival at a step or barrier (R325, R370). -/
structure Arrival where
  core : CoreId
  slot : SlotId
  /-- The step ID, or the barrier object. -/
  target : Nat
  stamp : Nat
  /-- The die beat on which it was issued. -/
  beat : Nat
  /-- The step it was meant for has been aborted (R327). -/
  stale : Bool
  deriving DecidableEq, Repr

/-- A signal packet (R357): its four words. -/
structure SigPacket where
  w0 : Word
  w1 : Word
  w2 : Word
  w3 : Word
  deriving DecidableEq, Repr

/-- The identity of a transfer (R358, R405): source kind (0 bridge, 1 ring, 2 span), sender and number. -/
structure XferId where
  kind : Nat
  sender : Nat
  number : Nat
  deriving DecidableEq, Repr

/-- A packet held until NPKT packets of its transfer are written (R358). -/
structure HeldSig where
  packet : SigPacket
  xfer : XferId
  deriving DecidableEq, Repr

/-- A posted descriptor (R275): once it has been read, its words and its translated addresses (R281, R334). -/
structure Post where
  addr : Nat
  /-- The descriptor has been read. -/
  ready : Bool
  /-- The context that posted it, as it then stood; none for the privileged view. -/
  ctx : Option Ctx
  words : List Word
  poison : Bool
  /-- Translation of SRC, DST, ARG and SIG_VID succeeded in the issuing context. -/
  ok : Bool
  src : Nat
  dst : Nat
  arg : Nat
  sigPhys : Nat
  /-- The stamp of its post. -/
  stamp : Nat
  deriving DecidableEq, Repr

/-- A running descriptor (R281, R284). -/
structure Running where
  post : Post
  number : Nat
  /-- The beat on which it started (R279). -/
  start : Nat
  /-- Packets of its transfer to the other die, and RWR frames through remote windows (R358). -/
  bridged : Nat
  frames : Nat
  /-- It met poison (R282), and whether REMOTE_POISON has been raised for it (R533). -/
  met : Bool
  remotePoison : Bool
  /-- A BLOCKS descriptor still reads its index table; nothing has moved (R278). -/
  checking : Bool
  /-- Source stretches that are still to be read as wholes: rows of a PACK, blocks, parts of a table (R277). -/
  rows : List (Nat × Nat)
  /-- Bytes of the present stretch read so far, and how many it has. -/
  got : List (Byte × Bool)
  need : Nat
  /-- Where the next stored block goes, and how many have gone (R277). -/
  dst : Nat
  done : Nat
  deriving DecidableEq, Repr

/-- A cluster DMA (R275, R284). -/
structure Dma where
  queue : List Post
  active : List Running
  /-- Descriptors numbered so far. -/
  nextNumber : Nat
  /-- Transfer number and descriptor address of completed descriptors whose signal went through a window (R360). -/
  signalled : Assoc Nat Nat
  deriving DecidableEq, Repr

/-- A cluster DMA at reset. -/
def Dma.reset : Dma := { queue := [], active := [], nextNumber := 0, signalled := [] }

/-- Who holds or wants a tracker entry (R290). -/
inductive TxnOwner where
  | dma (c : Cluster) | cores
  deriving DecidableEq, Repr

/-- A transaction, waiting or issued (R289). -/
structure Txn where
  owner : TxnOwner
  /-- Its stamp of issue order. -/
  stamp : Nat
  fromPool : Bool
  issued : Bool
  /-- Its answer has come through its remote window. -/
  returned : Bool
  kind : AccKind
  addr : Nat
  size : Nat
  data : List (Byte × Bool)
  /-- The core access it serves. -/
  dest : Option AccDest
  /-- The number of the descriptor it belongs to, and its packet index in the transfer (R405). -/
  number : Nat
  pkt : Nat
  /-- Where the data of a DMA read goes, with the kind of write there; none for a stretch that is gathered whole. -/
  into : Option (Nat × AccKind)
  deriving DecidableEq, Repr

/-- A CONSUME issued on the present beat and judged at its end (R345, R363). -/
structure Consume where
  core : Fin 32
  slot : Fin 4
  phys : Nat
  inc : Nat
  deriving DecidableEq, Repr

/-- A CREAD issued on the present beat: it writes the counter as it stands at the beat's end (R345, R355). -/
structure CtrRead where
  core : Fin 32
  slot : Fin 4
  rd : Fin 32
  phys : Nat
  deriving DecidableEq, Repr

/-- A barrier object of a die whose children have all arrived, and the beat on which it releases or sends its arrival up
(R373). -/
structure BarDue where
  due : Nat
  obj : Fin 64
  deriving DecidableEq, Repr

/-- What belongs to a die and to no core. -/
structure DieSt where
  accs : List Access
  rmws : List Rmw
  scrubs : List Scrub
  bist : Bist
  window : List WinEntry
  head : Nat
  busQ : List BusReq
  nextReq : Nat
  steps : List Step
  stepArr : List Arrival
  barArr : List Arrival
  barDue : List BarDue
  consumes : List Consume
  reads : List CtrRead
  heldSigs : List HeldSig
  xferPkts : Assoc XferId Nat
  /-- Signal packets that have come to this die's synchronisation unit and wait for it (R357, R373). -/
  bridge : List HeldSig
  txns : List Txn
  /-- The next stamp of issue order on the die. -/
  stamp : Nat
  /-- Beats and time at the start of the present rate interval (R305). -/
  rateBeat : Nat
  /-- Thousandths of a beat that have passed of the present beat (R301, R304). -/
  phase : Nat
  /-- A CAL_MHZ value that takes effect on the next beat (R305). -/
  calNew : Option Nat
  /-- Slots and ports used on the present beat, and the writes served on it (R200, R206). -/
  used : List SlotUse
  effects : List Effect
  /-- Steps closed on the present beat: ID and the two words of the record (R329). -/
  closedNow : List (Nat × Word × Word)
  /-- The compute die is stopped by PASS (R418, R519). -/
  stopped : Bool
  deriving DecidableEq, Repr

/-- The test engine at reset. -/
def Bist.reset : Bist :=
  { running := false, started := false, startBeat := 0, endBeat := 0, extra := false, lines := [], outOfTurn := none, next := 0,
    ceRows := [], forced := [] }

/-- A die at reset. -/
def DieSt.reset : DieSt :=
  { accs := [], rmws := [], scrubs := [], bist := Bist.reset, window := [], head := 0, busQ := [],
    nextReq := 0, steps := [], stepArr := [], barArr := [], barDue := [], consumes := [], reads := [], heldSigs := [], xferPkts := [], bridge := [],
    txns := [], stamp := 0, rateBeat := 0, phase := 0, calNew := none, used := [], effects := [], closedNow := [], stopped := false }

end Sys2Proof.Machine
end

