-- ==== Sys2Proof/Machine/StateHub.lean ====
section
/-! DEFINITION. The state of the hub that has no register of its own (chapters 01 and 09 to 14, 16). -/

namespace Sys2Proof.Machine

/-- A context named as the originating context of a fault (R516). -/
structure CtxRef where
  die : Die
  core : CoreId
  slot : SlotId
  deriving DecidableEq, Repr

/-- A fault report on its way to the FCU (R506, R508). -/
structure Report where
  src : Source
  /-- 0 and 1 the compute dies, 2 the hub (R508). -/
  die : Nat
  unit : Nat
  block : Block
  addr : Nat
  ctx : Option CtxRef
  tag : Nat
  detail : Nat
  injected : Bool
  /-- The hub timebase at its detection (R525, R660). -/
  found : Nat
  deriving DecidableEq, Repr

/-- A record of the log: its eight words as stored, whether it has been sent in an EVENT message, and
whether RECORD_BAD was raised for it (R508 to R511). -/
structure LogEntry where
  words : List Word
  sent : Bool
  badSeen : Bool
  deriving DecidableEq, Repr

/-- A record that ACKED_SEQ of its class has not reached (R522, R523), and whether the service has acknowledged it
(R524). -/
structure Unacked where
  seq : Nat
  cls : FaultClass
  level : Nat
  pin : Bool
  acked : Bool
  deriving DecidableEq, Repr

/-- Who makes a register access (R498). -/
inductive Writer where
  /-- A MGMT message of a session. -/
  | mgmt
  /-- The service sequencer. -/
  | svc
  /-- A JOB message. -/
  | job
  /-- The management target (R643). -/
  | target
  /-- A context, through its regions. -/
  | ctx (d : Die) (q : CoreId) (x : SlotId)
  deriving DecidableEq, Repr

/-- A register access that waits for a block reset (R518, R617). -/
structure HeldAccess where
  writer : Writer
  addr : Nat
  /-- The value of a write; none for a read. -/
  value : Option Word
  /-- The register a context's load waits for. -/
  rd : Option (Fin 32)
  /-- RTAG and SESSION of the message that REG_RSP answers. -/
  reply : Option (Nat × Nat)
  deriving DecidableEq, Repr

/-- What a remote packet carries (R396, R405): a write, a read, an answer, a signal, or the opening, closing and
revoking of a window. -/
inductive RemoteKind where
  | rwr | rrd | rrsp | sig | openReq | openRsp | revoke
  deriving DecidableEq, Repr

/-- A packet of the remote path, with the fields of its head (R405): on its way out it carries its route (R299). -/
structure RemotePkt where
  kind : RemoteKind
  /-- 0 ring East, 1 ring West, 2 SPAN0, 3 SPAN1 (R299). -/
  route : Nat
  /-- The window slot at the source. -/
  win : Nat
  srcRing : Nat
  srcPos : Nat
  srcDie : Nat
  tgtRing : Nat
  tgtPos : Nat
  xfer : Nat
  pkt : Nat
  op : Nat
  etype : Nat
  len : Nat
  addr : Nat
  data : List Byte
  packet : Option SigPacket
  /-- Of an opening: its job, permissions and size (R287). Of an answer: 0 good, 1 refused. -/
  job : Nat
  perm : Nat
  size : Nat
  status : Nat
  deriving DecidableEq, Repr

/-- A packet of a kind with every field zero. -/
def RemotePkt.blank (k : RemoteKind) : RemotePkt :=
  { kind := k, route := 0, win := 0, srcRing := 0, srcPos := 0, srcDie := 0, tgtRing := 0, tgtPos := 0, xfer := 0,
    pkt := 0, op := 0, etype := 0, len := 0, addr := 0, data := [], packet := none, job := 0, perm := 0, size := 0,
    status := 0 }

/-- A remote frame whose access to a die's stores is in progress: the die, the access's stamp, the port the frame came by, and
whether it is the last of its transaction (R93, R405). -/
structure Inbound where
  die : Die
  stamp : Nat
  port : Port
  pkt : RemotePkt
  eot : Bool
  deriving DecidableEq, Repr

/-- The FCU (R507 to R528). -/
structure Fcu where
  nextSeq : Nat
  log : Assoc Nat LogEntry
  unacked : List Unacked
  /-- Records of a session-less time that wait to be sent, oldest first (R511). -/
  events : List (List Word)
  /-- Reports held before the FCU runs (R660), and those beyond 16. -/
  held : List Report
  heldOver : List Report
  /-- Level-1 and higher records whose service handler has not completed (R524). -/
  handlers : List Unacked
  /-- The class whose level-5 decision is pending (R525). -/
  holdClass : Option FaultClass
  /-- Block resets in progress (R518). -/
  resets : List (Block × Die)
  /-- Register accesses that wait for a block reset. -/
  waiting : List HeldAccess
  /-- The last pin sensing differed from the driven pair (R527). -/
  mismatch : Bool
  /-- When the level-5 decision that is pending was taken (R520). -/
  holdAt : Nat
  /-- When each die's heartbeat was last received, and the dies whose silence has been raised (R506). -/
  beats : Assoc Die Nat
  silent : List Die
  deriving DecidableEq, Repr

/-- The FCU after power-on or RESET_N (R507: records are numbered from 1). -/
def Fcu.reset : Fcu :=
  { nextSeq := 1, log := [], unacked := [], events := [], held := [], heldOver := [], handlers := [],
    holdClass := none, resets := [], waiting := [], mismatch := false, holdAt := 0, beats := [], silent := [] }

/-- A fuse blow (R596, R597): the rollback counter up to a step, or the revocation of a key slot. -/
inductive FuseOp where
  | advance (target : Nat)
  | revoke (slot : Nat)
  deriving DecidableEq, Repr

/-- The fused contents of a module (R138, R146, R237, R582, R583). -/
structure Fuses where
  stepping : Nat
  grade : Nat
  /-- Physical engines fused off, 0 to 127 on each die (R146). -/
  offEngines : List (Die × Nat)
  /-- Factory repairs: die, bank key and row (R237). -/
  repairs : List (Die × Nat × Nat)
  /-- Rollback steps taken, and revoked key slots. -/
  rollback : Nat
  revoked : List Nat
  /-- A pair left half-blown (R583, R598). -/
  half : Option FuseOp
  deriving DecidableEq, Repr

/-- Error patterns of a protection word (R223, R224): flipped symbols or bits, and the poison pair's flips. -/
structure Upset where
  syms : List (Nat × Nat)
  pair : Nat
  deriving DecidableEq, Repr

/-! ### Frames and ports (chapter 09) -/

/-- What a frame carries (R395, R396, R398). -/
inductive FrameBody where
  | block (sseq sub : Nat) (sot eot : Bool) (bytes : List Byte)
  | remote (p : RemotePkt)
  | note (code : Nat) (w0 w1 w2 : Word)
  | link (code : Nat) (w0 w1 w2 : Word)
  deriving DecidableEq, Repr

/-- A frame with the arc and role of its partition entry (R395). -/
structure Frame where
  arc : Nat
  role : Nat
  body : FrameBody
  /-- Of a frame passed through: the port and partition entry whose credit is returned when it leaves (R402). -/
  credit : Option (Port × Nat)
  deriving DecidableEq, Repr

/-- What the link layer reads of an arriving frame (R395, R397): the port and physical lane it came on, its header
fields, the symbols corrected and the codewords not correctable in it, and whether its FCRC matched. -/
structure RxHead where
  port : Port
  phys : Nat
  arc : Nat
  role : Nat
  lseq : Nat
  lack : Nat
  cpart : Nat
  ccnt : Nat
  corr : Nat
  uncorr : Nat
  fcrc : Bool
  /-- Its TYPE, or the code of a LINK or NOTE frame, is reserved (R396, R398). -/
  reserved : Bool
  deriving DecidableEq, Repr

/-- What the link layer reads of a frame of the control link (R474, R475): the lane it came on, TYPE, TAG, SUB, SOT, EOT,
LSEQ, LACK, CCNT, the codewords not correctable in it, and whether its FCRC matched. ARC, ROLE and CPART are 0. -/
structure CtrlHead where
  lane : Fin 4
  typ : Nat
  tag : Nat
  sub : Nat
  sot : Bool
  eot : Bool
  lseq : Nat
  lack : Nat
  ccnt : Nat
  uncorr : Nat
  fcrc : Bool
  deriving DecidableEq, Repr

/-- A control frame is good as any other (R397, R475). -/
def CtrlHead.good (h : CtrlHead) : Bool := h.uncorr == 0 && h.fcrc

/-- A frame of a ring or span port, or of the control link. -/
inductive LinkHead where
  | port (h : RxHead)
  | ctrl (h : CtrlHead)
  deriving DecidableEq, Repr

/-- A ring or span port, or the control link. -/
inductive LinkPort where
  | port (p : Port)
  | ctrl
  deriving DecidableEq, Repr

/-- A frame is good when all of its codewords decode and its FCRC matches (R397). -/
def RxHead.good (h : RxHead) : Bool := h.uncorr == 0 && h.fcrc

/-- A frame sent and not acknowledged (R401), with the partition entry whose credit it used. -/
structure SentFrame where
  lane : Nat
  lseq : Nat
  frame : Frame
  deriving DecidableEq, Repr

/-- A substitution of a logical lane in progress at its receiver (R412). -/
structure Subst where
  logical : Nat
  old : Nat
  spare : Nat
  hard : Bool
  deriving DecidableEq, Repr

/-- What a port holds beside its registers (R393, R401, R402, R410, R412). -/
structure PortSt where
  /-- When training began. -/
  trainSince : Nat
  /-- Frames waiting to leave, oldest first. -/
  out : List Frame
  /-- Frames sent and not acknowledged, oldest first. -/
  unacked : List SentFrame
  /-- When each logical lane last made LACK progress, or began to have frames outstanding (R401). -/
  progress : Assoc Nat Nat
  /-- Of the unacknowledged frames, those to be sent again (R401). -/
  resend : List (Nat × Nat)
  /-- The next LSEQ of each logical lane, and the next one expected on it from the peer. -/
  lseq : Assoc Nat Nat
  rx : Assoc Nat Nat
  /-- Credits to be returned to the peer, by its partition entry (R402). -/
  owed : Assoc Nat Nat
  /-- The highest SSEQ of each stream of each arc of which the peer has acknowledged a frame (R423), by twice the arc plus
  the stream. -/
  ackHi : Assoc Nat Nat
  /-- The peer's ID has come, and this module's ID has left, since training (R409). -/
  idIn : Bool
  idOut : Bool
  /-- Departure there and arrival here of the peer's last TS frame (R398). -/
  tsIn : Option (Nat × Nat)
  /-- Credits of each partition entry. -/
  credits : Assoc Nat Nat
  /-- The peer's announced table. -/
  peerPart : Word
  announced : Bool
  /-- The next lane of each entry's rotation (R404). -/
  rot : Assoc Nat Nat
  /-- Frames of other groups sent on each logical lane since one of the fourth group, while one waits (R406). -/
  since4 : Assoc Nat Nat
  /-- The sender's map: logical lane to physical lane where it is not the first one. -/
  tx : Assoc Nat Nat
  txFailed : List Nat
  /-- Lanes sent on two physical lanes: logical, spare (R412). -/
  dual : List (Nat × Nat)
  sub : Option Subst
  subQ : List (Nat × Bool)
  /-- The latest ADAPT request of each lane, and the coefficients of each transmitter (R410). -/
  adaptAt : Assoc Nat Nat
  coeff : Assoc (Nat × Nat) Int
  /-- The time of the latest TS frame sent. -/
  tsSent : Nat
  /-- The port's transmitters are silent (R519). -/
  silent : Bool
  deriving DecidableEq, Repr

/-- A port after reset. -/
def PortSt.reset : PortSt :=
  { trainSince := 0, out := [], unacked := [], progress := [], resend := [], lseq := [], rx := [], owed := [], ackHi := [],
    idIn := false, idOut := false, tsIn := none, credits := [], peerPart := 0, announced := false,
    rot := [], since4 := [], tx := [], txFailed := [], dual := [], sub := none, subQ := [], adaptAt := [], coeff := [],
    tsSent := 0, silent := false }

/-- A port that trains anew: its sender keeps the map of its lanes and the lanes that have FAILED (R393, R394). -/
def PortSt.renewed (x : PortSt) : PortSt := { PortSt.reset with tx := x.tx, txFailed := x.txFailed }

/-! ### Circulation (chapters 01 and 09) -/

/-- A stored block as it came whole to the hub (R399, R404). -/
structure Blk where
  sseq : Nat
  bytes : List Byte
  /-- Its size is not one R399 allows. -/
  badSize : Bool
  /-- Port and entry of the credit of each of its frames (R402). -/
  credits : List (Port × Nat)
  deriving DecidableEq, Repr

/-- A block being rebuilt from its frames (R404). -/
structure Rebuild where
  sseq : Nat
  frames : Assoc Nat (List Byte)
  credits : List (Port × Nat)
  /-- The index of the last frame, once it has come. -/
  last : Option Nat
  deriving DecidableEq, Repr

/-- A layer whose blocks land or hold passes, with its pass list (R48, R662). -/
structure LayerRun where
  /-- Runs of a stream are numbered from 1 in the order of their heads. -/
  number : Nat
  layer : Nat
  cohorts : List (Fin 8)
  landed : Bool
  deriving DecidableEq, Repr

/-- One of the two streams: 0 East, 1 West. -/
abbrev StreamId := Fin 2

/-- What the circulator keeps of a stream (R43, R48, R57, R404, R424, R662). -/
structure StreamSt where
  /-- The last SSEQ received whole, and whether that block was a gradient block. -/
  last : Option Nat
  lastGrad : Bool
  building : List Rebuild
  /-- Blocks received and not yet landing, in order. -/
  arrivals : List Blk
  layer : Option Nat
  runs : List LayerRun
  /-- Runs begun so far. -/
  runCount : Nat
  firstLayer : Option Nat
  lastLayer : Option Nat
  /-- When the head of the first layer last came, how many have come, and the circuit measured and not yet shown
  (R42, R43). -/
  headAt : Option Nat
  heads : Nat
  circuit : Option Nat
  /-- The blocks held here, in the order in which they are forwarded (R31): die and window address. -/
  order : List (Die × Nat)
  /-- Blocks whose first frame has been passed on and whose last has not (R429). -/
  passing : List Nat
  /-- The first block of the stream has landed since the switch of a splice (R426). -/
  begun : Bool
  /-- Blocks passed since the switch of a splice (R426). -/
  passed : Nat
  deriving DecidableEq, Repr

/-- A stream at reset. -/
def StreamSt.reset : StreamSt :=
  { last := none, lastGrad := false, building := [], arrivals := [], layer := none, runs := [], runCount := 0, firstLayer := none,
    lastLayer := none, headAt := none, heads := 0, circuit := none, order := [], passing := [], begun := false,
    passed := 0 }

/-- Re-injection at D (R423, R424). -/
structure Reinj where
  /-- SSEQ_HI is awaited, or known. -/
  hi : Option Nat
  /-- Gap blocks staged whole, and the bytes received of each staging slot. -/
  staged : List Nat
  got : Assoc Nat Nat
  /-- The next gap block to be landed, and those landed. -/
  next : Nat
  /-- Blocks staged from U behind the gap. -/
  later : List Blk
  /-- Members that have sent GAP_DONE. -/
  done : List Nat
  note : Nat
  since : Nat
  /-- Blocks asked of the control node, and those asked a second time. -/
  asked : List Nat
  again : List Nat
  /-- Bounds of further gaps that wait for the present one: stream and SSEQ_HI. -/
  bounds : List (StreamId × Nat)
  deriving DecidableEq, Repr

/-- A remote frame of the arc that waits while the position holds its streams (R661): its head, the partition entry whose
credit it withholds, whether it is the last of its transaction, and its packet. -/
structure HeldRemote where
  head : RxHead
  entry : Nat
  eot : Bool
  pkt : RemotePkt
  deriving DecidableEq, Repr

/-- The circulator and the ring. -/
structure Circ where
  streams : Assoc StreamId StreamSt
  ports : Assoc Port PortSt
  reinj : Reinj
  /-- Notes already acted on: code, origin, number (R398). -/
  seen : List (Nat × Nat × Nat)
  nextNote : Nat
  /-- Positions of the arc that are bypassed (R419), and spare stations that have joined it (R429). -/
  bypassed : List Nat
  joined : List Nat
  /-- Positions whose path has been restored and that stand by, no member until they are spliced (R422, R427). -/
  standing : List Nat
  /-- Positions of the arcs nested in the span (R61): no register or note tells them; they are fixed when CIRC.ARC is
  written (log entry 23). -/
  nested : List Nat
  /-- OWN entries written while circulation ran, in that order: those of an interim owner (R419, R429). -/
  interim : List (Fin 16)
  /-- GAP_DONE notes that follow the stage frames still to be sent (R424). -/
  doneNotes : List (Word × Word)
  /-- When the upstream neighbour was last heard, and since when its offset has stayed within 4 ns (R314). -/
  tbHeard : Nat
  tbBand : Nat
  /-- Formation (R416): this module is the anchor; the position it has taken; when it began. -/
  anchor : Bool
  taken : Option Nat
  formSince : Nat
  /-- Segments named by the FORM note (R398). -/
  formSegs : Nat
  /-- RESTORE_E or RESTORE_W has been written and its switch-over is awaited (R422). -/
  restoring : List Port
  /-- When each cohort entered its state, and when its last token was drawn. -/
  entered : Assoc (Fin 8) Nat
  tokenAt : Assoc (Fin 8) Nat
  /-- Backing copies not yet captured of owned ranges (R38, R39, R429), as stream and SSEQ. -/
  uncaptured : List (StreamId × Nat)
  /-- New versions not yet put in place of a circulating copy (R72): stream, BLOCK_ID, slot of the backing copy. -/
  due : List (StreamId × Nat × Nat)
  /-- Update mode (R69 to R73): 0 the forward wave may begin, 1 it has begun, 2 the backward wave may begin, 3 it has
  begun. -/
  wave : Nat
  /-- The forward pass of the running step has retired here, and its barrier has been released (R70). -/
  fwdOver : Bool
  released : Bool
  /-- A head has gone by unused since the next wave became due: the next one is that wave (R69, R70; log entry 24). -/
  skipped : Bool
  /-- This first member issues the gradient block of every West block that passes: the first circuit of its backward
  wave (R71). -/
  issuing : Bool
  /-- Owned West blocks, by SSEQ, whose gradient of the running step has passed here: 1 once it has, 2 once its block
  has come round again (R72, R74). -/
  grads : Assoc Nat Nat
  /-- Circulation has run here since reset (R417, R661). -/
  ran : Bool
  /-- Remote frames that wait while the position holds its streams (R661). -/
  heldRemote : List HeldRemote
  /-- When a block frame last passed or landed (R80). -/
  heardAt : Option Nat
  deriving DecidableEq, Repr

/-- Circulation at reset. -/
def Circ.reset : Circ :=
  { streams := [], ports := [],
    reinj := { hi := none, staged := [], got := [], next := 0, later := [], done := [], note := 0, since := 0, asked := [], again := [], bounds := [] },
    seen := [], nextNote := 0, bypassed := [], joined := [], standing := [], nested := [], interim := [], doneNotes := [], tbHeard := 0, tbBand := 0, anchor := false, taken := none, formSince := 0, formSegs := 0, restoring := [],
    entered := [], tokenAt := [], uncaptured := [], due := [], wave := 0, fwdOver := false, released := false,
    skipped := false, issuing := false, grads := [], ran := false, heldRemote := [], heardAt := none }

/-! ### Memory tiers (chapter 10) -/

/-- What the memory controllers keep beside their registers (R450 to R457). Targets of retraining are numbered
32 n + c for pseudo-channel c of stack n, and 1000 + k for LPDDR5X channel k. -/
structure TierSt where
  /-- Targets of which a retrain step runs, and when each target's latest step began (R450). -/
  steps : List Nat
  stepAt : Assoc Nat Nat
  /-- When the latest request of each target ended (R450). -/
  lastBusy : Assoc Nat Nat
  failRuns : Assoc Nat Nat
  /-- Times of uncorrectable events in the last second, by stack or 1000 + channel. -/
  ueTimes : Assoc Nat (List Nat)
  /-- When each stack entered RETIRING. -/
  retiring : Assoc Nat Nat
  /-- Stacks retired since bring-up. -/
  retired : List Nat
  deriving DecidableEq, Repr

/-! ### Power, calibration and bring-up (chapter 13) -/

/-- What the power, timebase and calibration controller keeps beside its registers. -/
structure Pow where
  /-- The module is off (R546, R557). -/
  off : Bool
  /-- Bring-up phases finished (R570): 0 ROM, 1 Image, 2 CTRL, 3 LPD, 4 HBM, 5 DIE, 6 Service, 7 Ring. -/
  phases : List Nat
  /-- REFCLK has failed and has not yet been valid for 1 ms (R645). -/
  refclkBad : Bool
  /-- The module reset that bring-up follows was a level-5 one, which keeps the FCU's state (R520). -/
  kept : Bool
  /-- The cap point and the thermal point in mV, and when each last moved (R551, R556). -/
  capPoint : Nat
  capAt : Nat
  capping : Bool
  thermPoint : Nat
  thermAt : Nat
  thermCapping : Bool
  /-- Since when the power has stayed above LIMIT_W with both dies at 600 mV, and below LIMIT_W - 20 W (R551). -/
  floorSince : Option Nat
  underSince : Option Nat
  /-- Since when every junction has read below TJ_CAP - 3, the input has been out of range, and the inlet has been
  out of range (R548, R556). -/
  coolSince : Option Nat
  vinSince : Option Nat
  inletSince : Option Nat
  /-- Conditions that are raised once (R548): 0 input, 1 capping, 2 coolant, 3 to 5 the junctions of die 0, die 1 and
  the hub, 6 the floor of capping. None while the condition holds; otherwise when it ended. -/
  begun : Assoc Nat (Option Nat)
  /-- Since when the rail of each die has been within 5 mV of EFF_MV, and when CAL_MHZ was last raised (R553, R559). -/
  railSince : Assoc Die Nat
  raisedAt : Assoc Die Nat
  /-- CAL_MHZ may be raised since the last raise of the rail (R553). -/
  settled : List Die
  /-- When the present rate interval began (R305). -/
  rateAt : Assoc Die Nat
  /-- Units of each calibration function that its live calibration has passed over, and when a value last moved by more
  than one step (R566). -/
  calUnits : List (Nat × Nat)
  calMoved : Assoc Nat Nat
  /-- The rate correction of the timebase in parts per million, and the millionths of a nanosecond that have passed of the
  present one (R315). -/
  tbRate : Int
  tbPhase : Nat
  deriving DecidableEq, Repr

/-- The controller at reset. -/
def Pow.reset : Pow :=
  { off := false, phases := [], refclkBad := false, kept := false, capPoint := 850, capAt := 0, capping := false, thermPoint := 850,
    thermAt := 0, thermCapping := false, floorSince := none, underSince := none, coolSince := none, vinSince := none, inletSince := none,
    begun := [], railSince := [], raisedAt := [], settled := [], rateAt := [], calUnits := [], calMoved := [], tbRate := 0, tbPhase := 0 }

/-! ### Security (chapter 14) -/

/-- A configuration record in the active bank (R602 to R605): of a calibration function, or of a repaired row. -/
structure ConfRec where
  /-- TYPE is CAL; otherwise REPAIR. -/
  cal : Bool
  key : Nat
  payload : List Byte
  /-- Not killed (R604). -/
  live : Bool
  /-- Written by a SAVE (R564). -/
  user : Bool
  deriving DecidableEq, Repr

/-- The flash and the security block (R582 to R613). -/
structure Sec where
  /-- Image region of the flash (R587): each byte is kept complemented, so that an erased byte is not listed. -/
  flash : List Host.Cell
  /-- Hub firmware memory: the image that runs, or is received in recovery (R590, R591). -/
  firmware : List Host.Cell
  /-- Stretches written since the last COMMIT or ABORT, and sectors erased since the update began (R592, R594). -/
  written : List (Nat × Nat)
  erased : List Nat
  /-- An update of the flash image has begun that is not VALID (R594, R595). -/
  torn : Bool
  /-- The image size of a COMMIT being checked. -/
  verifying : Option Nat
  recovery : Bool
  /-- IMAGE_REQ is due (R591), whether it repeats, and when it was last sent. -/
  reqDue : Bool
  reqRepeat : Bool
  reqAt : Nat
  /-- The REJECT_CAUSE that started recovery (R593). -/
  cause : Nat
  /-- The fuses were found inconsistent, so no image is verified (R583). -/
  fuseBad : Bool
  /-- Records of the active bank in order, its BANK_GEN, and a reclaim in progress (R602, R607). -/
  recs : List ConfRec
  gen : Nat
  reclaiming : Bool
  /-- Repairs to be recorded: die, bank key and row (R606). -/
  repairDue : List (Die × Nat × Nat)
  /-- The identity certificate's key index and bytes 4 to 7 (R586). -/
  certKey : Nat
  certIdent : Nat
  /-- A fuse blow in progress and when it began (R596 to R598). -/
  blow : Option FuseOp
  blowAt : Nat
  /-- The function whose SAVE or ERASE is running, and whether it is a SAVE (R564, R565). -/
  calOp : Option (Nat × Bool)
  /-- An EXPERT_UNLOCK has been set since power-on (R600). -/
  unlocked : Bool
  deriving DecidableEq, Repr

/-- The nine factory calibration records (R562; log entry 6). -/
def factoryRecs : List ConfRec :=
  (List.range 9).map (fun f => { cal := true, key := f, payload := List.replicate 8 0, live := true, user := false })

/-- The security block at reset, with the flash as log entry 6 gives it. -/
def Sec.reset : Sec :=
  { flash := [], firmware := [], written := [], erased := [], torn := false, verifying := none, recovery := false, reqDue := false,
    reqRepeat := false, reqAt := 0, cause := 0, fuseBad := false, recs := factoryRecs, gen := 1, reclaiming := false, repairDue := [], certKey := 0,
    certIdent := 0x7A080110, blow := none, blowAt := 0, calOp := none, unlocked := false }

/-! ### The management connector (chapter 16) -/

/-- TAP instructions (R646). -/
inductive TapInstr where
  | bypass | idcode | samplePreload | extest | extestPulse | extestTrain | clamp | highz
  deriving DecidableEq, Repr

/-- The management target and the TAP (R639 to R647). -/
structure Mgmt where
  /-- POS5 to POS0 as read in the ROM phase (R640), 1 where open. -/
  straps : Nat
  /-- Selected module address (R642). -/
  sel : Nat
  /-- Whether the latest transfer was acknowledged, and what it returned. -/
  acked : Bool
  reply : List Byte
  /-- The dynamic I3C address. -/
  dynamic : Option Nat
  /-- The instruction the TAP executes, and the word its data register shows. -/
  tap : TapInstr
  tapData : Nat
  deriving DecidableEq, Repr

/-- The management connector at reset. -/
def Mgmt.reset : Mgmt :=
  { straps := 0, sel := 0, acked := false, reply := [], dynamic := none, tap := .bypass, tapData := 0 }

/-! ### The on-module service (chapter 11) -/

/-- What the service reads of a message that has come (R477): whether its complements, trailer, reserved bits and
TYPE are good, and its ROLE, SESSION and RTAG; and the frame of it that has come (R474), none once the control link hands
the message on whole and in turn (log entry 54). -/
structure MsgHead where
  frame : Option CtrlHead
  ok : Bool
  role : Nat
  session : Nat
  rtag : Nat
  deriving DecidableEq, Repr

/-- A message sent on the uplink (R477). -/
structure UpMsg where
  typ : Nat
  rtag : Nat
  session : Nat
  mseq : Nat
  body : List Byte
  deriving DecidableEq, Repr

/-- A frame sent on the control link and not acknowledged (R401, R475): a frame of a message, by its place among those handed
to the link and its SUB, or a NAK of a lane. -/
structure CtrlSent where
  lane : Nat
  lseq : Nat
  frame : Nat × Nat ⊕ Nat
  deriving DecidableEq, Repr

/-- A message being rebuilt from its frames (R404, R475): the low bits of its MSEQ, the frames that have come, and the last
one's SUB. -/
structure CtrlBuild where
  tag : Nat
  subs : List Nat
  last : Option Nat
  deriving DecidableEq, Repr

/-- The link layer of the control link (R474, R475). -/
structure CtrlSt where
  /-- The next LSEQ of each lane, sent and expected. -/
  lseq : Assoc Nat Nat
  rx : Assoc Nat Nat
  unacked : List CtrlSent
  /-- Of the unacknowledged frames, those to be sent again. -/
  resend : List (Nat × Nat)
  /-- When each lane last made LACK progress, or began to have frames outstanding. -/
  progress : Assoc Nat Nat
  credits : Nat
  /-- Credits to be returned. -/
  owed : Nat
  /-- Lanes on which NAK is to be sent. -/
  naks : List Nat
  /-- The lane of the next frame, the message it belongs to, and its SUB. -/
  rot : Nat
  next : Nat
  part : Nat
  building : List CtrlBuild
  /-- The low bits of the MSEQ of the message handed on next. -/
  turn : Nat
  /-- When each lane last carried a good frame. -/
  heard : Assoc Nat Nat
  deriving DecidableEq, Repr

/-- The control link's link layer before it links. -/
def CtrlSt.reset : CtrlSt :=
  { lseq := [], rx := [], unacked := [], resend := [], progress := [], credits := 0, owed := 0, naks := [], rot := 0
    next := 0, part := 0, building := [], turn := 0, heard := [] }

/-- The five states of a sequence (R481). -/
inductive SeqState where
  | queued | prefill | decode | ending | parked
  deriving DecidableEq, Repr

/-- A sequence (R481 to R495). -/
structure Seq where
  id : Nat
  st : SeqState
  /-- The PROMPT's first 352 bytes. -/
  head : List Byte
  /-- The token array: the prompt with NEXT_INDEX generated tokens, then the tokens drawn here. -/
  toks : List Nat
  /-- Length of the array as it came. -/
  base : Nat
  cohort : Option (Fin 8)
  rows : Nat
  /-- Prompt positions in chunks already given. -/
  done : Nat
  stack : Nat
  pages : List Nat
  /-- 2 MiB slots of the PARK region. -/
  park : List Nat
  committed : Nat
  gstate : Nat
  parkReq : Bool
  /-- It goes straight to DECODE when admitted (R481). -/
  unparking : Bool
  cancelReq : Bool
  /-- SEQ_END has been sent. -/
  ended : Bool
  deriving DecidableEq, Repr

/-- A token of the commit log (R494). -/
structure LogTok where
  id : Nat
  idx : Nat
  tok : Nat
  fin : Bool
  deriving DecidableEq, Repr

/-- A CONT chain not yet complete (R483). -/
structure Chain where
  id : Nat
  head : List Byte
  toks : List Nat
  deriving DecidableEq, Repr

/-- A BLOCK_REQ not yet answered (R497). -/
structure BlockReq where
  stream : StreamId
  first : Nat
  count : Nat
  dest : Nat
  deriving DecidableEq, Repr

/-- The service (R476 to R497). -/
structure Mld where
  nextUp : Nat
  jobSet : Bool
  vocab : Nat
  /-- In order of arrival. -/
  seqs : List Seq
  chains : List Chain
  log : List LogTok
  /-- Messages handed to the control link, oldest first. -/
  sent : List UpMsg
  ctrl : CtrlSt
  /-- SEQ_ENDs made while no session exists: id, reason, count. -/
  held : List (Nat × Nat × Nat)
  blockReqs : List BlockReq
  /-- JOB of the accepted JOB message. -/
  job : Nat
  deriving DecidableEq, Repr

/-- The service at reset. -/
def Mld.reset : Mld :=
  { nextUp := 0, jobSet := false, vocab := 0, seqs := [], chains := [], log := [], sent := [], ctrl := CtrlSt.reset, held := [],
    blockReqs := [], job := 0 }

end Sys2Proof.Machine
end

