-- ==== Sys2Proof/Syntax.lean ====
section
/-! DEFINITION. The commands of the module: one constructor per row of the command table, with the row's operands. A
measurement, an arriving frame or message, an upset of a memory word and the outcome of a training are operands
(log entries 1 and 12). First the rows with operands, then those without, each in the table's order, so that compiled
code can build every command. -/

namespace Sys2Proof

open Machine

/-- A command (log entry 1). -/
inductive Instr where
  /-- ROM_PHASE (R570): The boot ROM runs, reads fuses and straps, loads the THERM and VREG records and starts the FCU, which then drives 1/0. -/
  | romPhase (bad : Bool) (straps : Nat)
  /-- CTRL_PHASE (R570): Mladlin link training runs, and the phase finishes at LINKED or 1 s after it starts. -/
  | ctrlPhase (linked : Bool)
  /-- LPD_PHASE (R570): LPDDR5X channels train with the LPD record and set their LPD_CH bits. -/
  | lpdPhase (bad : List Nat)
  /-- HBM_PHASE (R570): Stages 1–4 ramp to SET_MV and the HBM3E controllers train their stacks, retiring any stack that fails with CAUSE INIT. -/
  | hbmPhase (bad : List Nat)
  /-- DIE_PHASE (R570): Stores are initialized, the DIE0 and DIE1 records load, live calibration begins and background test starts. -/
  | diePhase (bad : List Die)
  /-- RING_PHASE (R570): The near, skip and span ports train with the RING and OPTICS records. -/
  | ringPhase (ports : List (Port × List Nat))
  /-- PHASE_LOSS (R548): A converter phase exceeds its current limit, fails to share current for 1 ms or reports a driver fault; it is switched off and PHASE_LOST or STAGE_LOST is raised. -/
  | phaseLoss (k : Fin 9) (i : Nat)
  /-- POWER_MEASURE (R550): Every 10 µs the input power is formed as a 100 µs average, and capping engages when it exceeds LIMIT_W. -/
  | powerMeasure (vin iin pin : Nat)
  /-- THERMAL_SENSOR_READ (R555): Junction sensors are read every 100 µs, and TJ_HIGH and the critical sources are raised on their thresholds. -/
  | thermalSensorRead (t0 t1 th : Int)
  /-- COOLANT_READ (R555): The inlet and outlet coolant sensors are read every 100 ms. -/
  | coolantRead (inlet outlet : Int)
  /-- RAIL_SETTLED (R553): ACT_MV has been within 5 mV of a raised EFF_MV for 100 µs, so CAL_MHZ may be raised. -/
  | railSettled (d : Die)
  /-- CAL_TICK (R559): Every 1 ms the controller trims each delay replica toward the measured value and recomputes CAL_MHZ. -/
  | calTick (d : Die) (pred : Nat) (big : Bool)
  /-- VREG_REZERO (R558): Every 1 s the current-sense offsets are re-zeroed against each stage's summed measurement. -/
  | vregRezero (big : Bool)
  /-- OPTICS_BIAS_TRACK (R558): Every 10 ms the laser bias of the optical ports is tracked. -/
  | opticsBiasTrack (big : Bool)
  /-- RATE_INTERVAL_END (R305): At the end of each 1 ms interval MEAS_MHZ is refreshed, and a RATE_MISS or FLOOR_MISS is judged. -/
  | rateIntervalEnd (d : Die)
  /-- SET_MV_WRITE (R554): A write of a die voltage set point, checked for range and step, changes EFF_MV. -/
  | setMvWrite (d : Die) (mv : Nat)
  /-- CAL_SAVE (R564): CAL_CMD SAVE starts writing a function's live values as its new record. -/
  | calSave (f : Fin 9)
  /-- CAL_SAVE_DONE (R564): The record write completes, so the function's STATE becomes USER and a die function leaves UNCAL. -/
  | calSaveDone (payload : List Byte)
  /-- CAL_ERASE (R565): CAL_CMD ERASE removes the record, puts the function into UNCAL and raises UNCALIBRATED. -/
  | calErase (f : Fin 9)
  /-- SELECT (R642): The management-target SELECT command sets the module address to read. -/
  | select (addr : Nat)
  /-- REGISTER_WRITE (R18): A write to a register that has no row of its own, judged against its field rules, view, level and reservation. -/
  | registerWrite (w : Writer) (a v : Word)
  /-- EXPERT_UNLOCK (R500): A write changing EXPERT_UNLOCK from 0 to 1 unlocks the block's expert fields and logs a CONFIG record. -/
  | expertUnlock (b : Block) (d : Die)
  /-- ENG_CLR_COUNTS (R145): ENG.CTRL.CLR_COUNTS clears every engine counter of the die. -/
  | engClrCounts (d : Die)
  /-- SCV_CLR_COUNTS (R149): SCV.CTRL.CLR_COUNTS clears ISSUE_STALL, STEP_STATUS.LATE and MISUSE on the die. -/
  | scvClrCounts (d : Die)
  /-- FDX_CLR_COUNTS (R189): FDX.CTRL.CLR_COUNTS clears the expander and feeder counters of the die. -/
  | fdxClrCounts (d : Die)
  /-- DMA_CLR_COUNTS (R298): DMA.CTRL.CLR_COUNTS clears DONE_COUNT and TXN_STATUS.WAITS on the die. -/
  | dmaClrCounts (d : Die)
  /-- STORE_CLR_COUNTS (R244): CLR_COUNTS of WST, AST or PST clears ERR_COUNT and ERR_ADDR, and in WST also NARROW_STALL and OVERRUNS. -/
  | storeClrCounts (d : Die) (st : Store)
  /-- SYNC_CLR_COUNTS (R384): SYNC.CTRL.CLR_COUNTS clears MISUSE and UNDER. -/
  | syncClrCounts (d : Die)
  /-- HBM_CLR_COUNTS (R467): HBM.CTRL.CLR_COUNTS clears the block's error and FORCED counters. -/
  | hbmClrCounts (d : Die)
  /-- GRADE_MASK_WRITE (R140): A write of ENG.GRADE_MASK.GRADE changes the presented grade and masks engines, if quiet and within the fused grade. -/
  | gradeMaskWrite (g : Nat)
  /-- CORE_RUN (R148): Writing RUN = 1 lets the scalar core select its contexts. -/
  | coreRun (d : Die) (q : CoreId)
  /-- CORE_HALT (R148): Writing RUN = 0 halts the scalar core after its current instruction while queued engine words still issue. -/
  | coreHalt (d : Die) (q : CoreId)
  /-- QLIMIT_WRITE (R148): A write changing QLIMIT sets the issue queue depth, rejected while QDEPTH is nonzero. -/
  | qlimitWrite (d : Die) (q : CoreId) (n : Nat)
  /-- SCALAR_OP (R308): A register, predicate, compare or move instruction issues, with its result usable on the next beat. -/
  | scalarOp (d : Die) (q : CoreId) (op : ScalarOp) (srcs : List (Fin 32))
  /-- BRANCH (R308): A branch issues, and a taken branch holds its context for 8 beats. -/
  | branch (d : Die) (q : CoreId) (taken : Bool) (target : Nat)
  /-- NARROW_LOAD (R210): A scalar narrow load through the Pewter view is issued under the die's narrow policy. -/
  | narrowLoad (d : Die) (q : CoreId) (rd : Fin 32) (addr : Nat) (lg : Fin 4) (sx : Bool) (srcs : List (Fin 32))
  /-- NARROW_STORE (R210): A scalar narrow store, bit-set, bit-clear or accumulate is issued, and under combining policy a plain store enters the combining buffer. -/
  | narrowStore (d : Die) (q : CoreId) (addr : Nat) (lg : Fin 4) (v : Word) (srcs : List (Fin 32))
  /-- PFLUSH (R213): PFLUSH waits until the core's combining buffer is empty and all its writes have taken effect. -/
  | pflush (d : Die) (q : CoreId)
  /-- COMBINE_ENTRY_WRITE (R211): A combining-buffer entry is written to its line as a wide write in a permitted slot. -/
  | combineEntryWrite (d : Die) (q : CoreId)
  /-- STORE_ACCESS_SERVE (R206): A store access is served in a slot of its class at its bank and takes effect on that beat. -/
  | storeAccessServe (d : Die) (i : Nat) (u : Upset)
  /-- STORE_READ_RETURN (R207): A read's data or a write's acknowledgement returns to the requester on its return beat. -/
  | storeReadReturn (d : Die) (i : Nat)
  /-- RMW_WRITEBACK (R205): The merged line of a read-modify-write is written back in the next slot of its class at the same bank. -/
  | rmwWriteback (d : Die) (i : Nat)
  /-- SCRUB_WRITEBACK (R226): A queued scrub or poison write-back is written in the bank's class 7 slot. -/
  | scrubWriteback (d : Die)
  /-- DRAIN_ENTRY_WRITE (R222): A drain-buffer entry is written to the partial-sum store in a class 0 slot of its bank. -/
  | drainEntryWrite (d : Die) (q : CoreId) (i : Nat)
  /-- STORE_CLEAR (R240): WST.CTRL.CLEAR starts clearing all three stores of a quiet die and abandons any test region. -/
  | storeClear (d : Die)
  /-- STORE_CLEAR_DONE (R240): The clear ends, JOB_TAG.ANY becomes 1 and CLEAR_BUSY falls. -/
  | storeClearDone (d : Die)
  /-- STORE_CTRL_WRITE (R243): A write of INVAR or NPOLICY changes the die's latency mode or narrow policy, rejected unless the die is quiet. -/
  | storeCtrlWrite (d : Die) (invar combining : Bool)
  /-- BIST_REGION_START (R231): INTERVAL beats after the last region start, or when an overrunning region ends, the test engine starts the next region. -/
  | bistRegionStart (d : Die)
  /-- BIST_SAVE (R229): A line of the region is read into the shadow buffer in a class 7 slot, and its accesses are redirected there. -/
  | bistSave (d : Die) (i : Nat) (u : Upset)
  /-- BIST_MARCH_OP (R229): One march operation runs on a line in a class 7 slot, and a differing read fails the line. -/
  | bistMarchOp (d : Die) (i : Nat) (differs : Bool)
  /-- BIST_RESTORE (R229): A line is written back from the shadow buffer into its row or a spare row, and redirection ends. -/
  | bistRestore (d : Die) (i : Nat)
  /-- REPAIR_FORCE (R238): An expert write of VALID = 1 to a free repair entry forces a repair of the named row. -/
  | repairForce (d : Die) (st : Store) (row : Nat)
  /-- EISSUE (R134): EISSUE pushes an engine word onto the core's issue queue, stalling when it is full. -/
  | eissue (d : Die) (q : CoreId) (sA : Fin 32)
  /-- EFENCE (R136): EFENCE waits until the context's earlier engine instructions have retired with their last drain final. -/
  | efence (d : Die) (q : CoreId)
  /-- ESTAT (R133): ESTAT copies ENG.CORE_STATUS into a scalar register. -/
  | estat (d : Die) (q : CoreId) (sD : Fin 32)
  /-- NOP (R108): An engine NOP occupies the core for its span with padded beats only. -/
  | nop (d : Die) (q : CoreId)
  /-- MMA_F8 (R118): An MMA.F8 instruction issues from the queue head, loads or keeps its tile and streams its rows through the pipeline. -/
  | mmaF8 (d : Die) (q : CoreId)
  /-- MMA_I8 (R118): An MMA.I8 instruction issues and computes INT8 products into INT32 slots. -/
  | mmaI8 (d : Die) (q : CoreId)
  /-- MMA_B4 (R118): An MMA.B4 instruction issues and multiplies FP8 rows by Brass-4 tiles. -/
  | mmaB4 (d : Die) (q : CoreId)
  /-- MMA_BF16 (R118): An MMA.BF16 instruction issues and computes BF16 products in four groups per row. -/
  | mmaBf16 (d : Die) (q : CoreId)
  /-- DIST_L1 (R118): A DIST.L1 instruction issues and sums absolute differences. -/
  | distL1 (d : Die) (q : CoreId)
  /-- DIST_L2 (R118): A DIST.L2 instruction issues and sums squared differences. -/
  | distL2 (d : Die) (q : CoreId)
  /-- CMP_MIN (R118): A CMP.MIN instruction issues and takes minima of sums. -/
  | cmpMin (d : Die) (q : CoreId)
  /-- CMP_MAX (R118): A CMP.MAX instruction issues and takes maxima of sums. -/
  | cmpMax (d : Die) (q : CoreId)
  /-- CMP_EQC (R118): A CMP.EQC instruction issues and counts equal elements. -/
  | cmpEqc (d : Die) (q : CoreId)
  /-- TOPK_SEL (R125): A TOPK.SEL instruction issues and writes the K highest eligible keys of each engine's tile as records. -/
  | topkSel (d : Die) (q : CoreId)
  /-- SLIDE (R127): A SLIDE instruction issues and shifts the active tile by one lane row per beat with a zero or queued fill row. -/
  | slide (d : Die) (q : CoreId)
  /-- AFEED (R271): AFEED queues an activation feed on the core's feed queue after its issue checks. -/
  | afeed (d : Die) (q : CoreId) (sA sB : Fin 32)
  /-- AFEED_ACCESS_ISSUE (R273): The feeder issues its next access once queue entries are free and the slot matches, reserving entries. -/
  | afeedAccessIssue (d : Die) (q : CoreId)
  /-- WTORD (R266): WTORD loads the tile order once the tile path holds no partial tile. -/
  | wtord (d : Die) (q : CoreId) (sA : Fin 32)
  /-- MCAST (R262): MCAST queues a multicast request on the die's bus queue after its issue checks. -/
  | mcast (d : Die) (q : CoreId) (sA sB : Fin 32)
  /-- BUS_REQUEST_LOOKUP (R259): A queued bus request is looked up in the block table and takes an entry in every subscriber's tile request queue, or waits. -/
  | busRequestLookup (d : Die) (i : Nat)
  /-- BUS_LINE_SERVE (R259): A weight-bus lane serves a line of a request in a class 4 slot when every subscriber has a free receive line. -/
  | busLineServe (d : Die) (i : Nat)
  /-- MCAST_TIMEOUT (R260): A request whose block is not resident within WAIT_LIMIT beats delivers poisoned zeros and raises a SCHED fault. -/
  | mcastTimeout (d : Die) (i : Nat)
  /-- GACC (R265): GACC queues an accumulation of partial-sum lines into a resident gradient block. -/
  | gacc (d : Die) (q : CoreId) (sA sB : Fin 32)
  /-- GACC_LINE_ACCUMULATE (R265): A source line is read and accumulated into the gradient block's plain form by read-modify-write. -/
  | gaccLineAccumulate (d : Die) (i : Nat)
  /-- XPAND (R269): XPAND queues an expander request for a local block to INLINE or STAGE. -/
  | xpand (d : Die) (q : CoreId) (sA sB : Fin 32)
  /-- TFEED (R268): TFEED queues a read of staged tiles from the core's partial-sum store into shadow tiles. -/
  | tfeed (d : Die) (q : CoreId) (sA : Fin 32)
  /-- EXPANDER_REQUEST_START (R181): The expander takes the next request, checks the block header and decodes the block to exactly E bytes of engine form. -/
  | expanderRequestStart (d : Die) (q : CoreId)
  /-- TILE_TRANSFER (R104): The tile path writes one transfer into the next engine's shadow tile in tile order when that tile is free. -/
  | tileTransfer (d : Die) (q : CoreId)
  /-- DPOST (R275): DPOST empties the combining buffer and posts a descriptor to the cluster DMA queue. -/
  | dpost (d : Die) (q : CoreId) (sA : Fin 32)
  /-- DMA_POST (R297): A privileged write of DMA.POST_c posts the descriptor at ADDR. -/
  | dmaPost (d : Die) (c : Cluster) (addr : Nat)
  /-- DSTAT (R291): DSTAT copies DMA.QSTATUS_c into a scalar register. -/
  | dstat (d : Die) (q : CoreId) (sD : Fin 32)
  /-- DMA_COPY (R277): A COPY descriptor starts, is checked, and moves rows of bytes, accumulating when ETYPE is set. -/
  | dmaCopy (d : Die) (c : Cluster)
  /-- DMA_FILL (R277): A FILL descriptor starts and writes its pattern over each row. -/
  | dmaFill (d : Die) (c : Cluster)
  /-- DMA_PACK (R277): A PACK descriptor starts and compresses each row into one stored block. -/
  | dmaPack (d : Die) (c : Cluster)
  /-- DMA_BLOCKS (R277): A BLOCKS descriptor starts and copies indexed blocks, verifying each one. -/
  | dmaBlocks (d : Die) (c : Cluster)
  /-- DMA_DESCRIPTOR_COMPLETE (R281): Every write of a descriptor has taken effect, so it completes and sends its signal. -/
  | dmaDescriptorComplete (d : Die) (c : Cluster) (i : Nat)
  /-- TRANSACTION_ISSUE (R290): A transaction takes a tracker entry from its reserve or the pool and is issued, or waits. -/
  | transactionIssue (d : Die) (i : Nat)
  /-- TRANSACTION_COMPLETE (R289): A transaction's data or completion returns and its tracker entry is freed. -/
  | transactionComplete (d : Die) (i : Nat) (u : Upset)
  /-- WINDOW_OPEN (R286): A write of OPEN = 1 in CLOSED moves the window to OPENING and sends the open request. -/
  | windowOpen (w : Fin 64) (v : Word)
  /-- WINDOW_OPEN_REQUEST (R287): A target receives an open request and accepts or refuses it against its import entries. -/
  | windowOpenRequest (ring pos : Nat) (path : Fin 64 × Fin 4) (base size perm job : Nat)
  /-- WINDOW_OPEN_REPLY (R286): The target's reply arrives and the window moves to OPEN or REFUSED. -/
  | windowOpenReply (w : Fin 64) (accepted : Bool)
  /-- WINDOW_OPEN_TIMEOUT (R286): No reply within 100 µs moves the window to REFUSED with a CONFIG fault. -/
  | windowOpenTimeout (w : Fin 64)
  /-- WINDOW_CLOSE (R286): A write of OPEN = 0 moves an OPEN window to CLOSING, or a REFUSED or LOST window to CLOSED. -/
  | windowClose (w : Fin 64)
  /-- RIMP_WRITE (R300): A write to an import entry updates it and revokes any open window it covers. -/
  | rimpWrite (i : Fin 16) (second : Bool) (v : Word)
  /-- BEATS (R309): BEATS copies the die beat count into a scalar register. -/
  | beats (d : Die) (q : CoreId) (sD : Fin 32)
  /-- TIME (R309): TIME copies the die's timebase replica into a scalar register. -/
  | time (d : Die) (q : CoreId) (sD : Fin 32)
  /-- BWAIT (R309): BWAIT waits until the die beat count reaches a target. -/
  | bwait (d : Die) (q : CoreId) (sA : Fin 32)
  /-- TWAIT (R309): TWAIT waits until the timebase replica reaches a target. -/
  | twait (d : Die) (q : CoreId) (sA : Fin 32)
  /-- CONTEXT_READY (R331): The condition a waiting context needs now holds, so it moves from WAIT to READY. -/
  | contextReady (d : Die) (q : CoreId) (x : SlotId)
  /-- STEP (R322): STEP opens a step with an ID, participant mask and deadline, or stops its context on failure. -/
  | step (d : Die) (q : CoreId) (sA sB : Fin 32)
  /-- STEPEND (R325): STEPEND records a pending arrival at a step, or is ignored as misuse. -/
  | stepend (d : Die) (q : CoreId) (sA : Fin 32)
  /-- STEP_ARRIVAL (R325): A pending arrival takes effect once its earlier engine work has retired and its writes have taken effect, closing the step on the last one. -/
  | stepArrival (d : Die) (i : Nat)
  /-- STEP_DEADLINE (R326): The replica reaches an open step's deadline, raising STEP_LATE once and counting LATE. -/
  | stepDeadline (d : Die) (id : Nat)
  /-- STEP_ABORT (R327): A write of SCV.STEP_ABORT closes the named open step with status ABORTED. -/
  | stepAbort (d : Die) (id : Nat)
  /-- START (R336): The START command moves a STOPPED slot to READY. -/
  | start (d : Die) (q : CoreId) (x : SlotId)
  /-- STOP (R336): The STOP command requests that a READY or WAIT slot stop. -/
  | stop (d : Die) (q : CoreId) (x : SlotId)
  /-- STOP_TAKES_EFFECT (R336): Once the context's narrow accesses have returned, the STOP takes effect and the slot is STOPPED. -/
  | stopTakesEffect (d : Die) (q : CoreId) (x : SlotId)
  /-- SAVE (R336): The SAVE command starts writing a STOPPED context to its save area. -/
  | save (d : Die) (q : CoreId) (x : SlotId) (addr : Nat)
  /-- SAVE_DONE (R331): The save area is complete and the slot becomes EMPTY. -/
  | saveDone (d : Die) (q : CoreId) (x : SlotId)
  /-- RESTORE (R336): The RESTORE command starts loading an EMPTY slot from a save area. -/
  | restore (d : Die) (q : CoreId) (x : SlotId) (addr : Nat)
  /-- RESTORE_DONE (R335): The save area is loaded and checked, so the slot becomes STOPPED with CAUSE RESTORED, or EMPTY with a CONFIG fault. -/
  | restoreDone (d : Die) (q : CoreId) (x : SlotId)
  /-- DISCARD (R336): The DISCARD command empties a STOPPED slot. -/
  | discard (d : Die) (q : CoreId) (x : SlotId)
  /-- TS (R408): A received TS frame gives the upstream offset, on which alignment corrects the timebase or changes state. -/
  | ts (h : RxHead) (w0 w1 w2 : Word)
  /-- TB_CONF_WRITE (R314): A write of MASTER or UPSTREAM moves the alignment state. -/
  | tbConfWrite (v : Word)
  /-- TB_SET (R318): A write of TB_SET at the master steps its timebase forward. -/
  | tbSet (ns : Word)
  /-- SIGNAL (R353): SIGNAL places a signal in the core's signal queue. -/
  | signal (d : Die) (q : CoreId) (sA : Fin 32)
  /-- SIGNAL_DEPART (R353): A queued signal leaves once its context's earlier writes have taken effect, updating a local counter or sending a signal packet. -/
  | signalDepart (d : Die) (q : CoreId)
  /-- SIGNAL_PACKET (R357): A signal packet arrives at its receiving die and is checked against its complements. -/
  | signalPacket (d : Die)
  /-- FENCED_SIGNAL_APPLY (R358): A packet's NPKT data packets have been written, so its counter update is applied. -/
  | fencedSignalApply (d : Die) (i : Nat)
  /-- WAIT (R354): WAIT waits for a counter or credit condition, with an optional timeout. -/
  | wait (d : Die) (q : CoreId) (sA sB : Fin 32) (pD : Fin 8)
  /-- WAIT_TIMEOUT (R354): The replica reaches a wait's TIMEOUT while the condition does not hold, ending it with pD = 0. -/
  | waitTimeout (d : Die) (q : CoreId) (x : SlotId)
  /-- CONSUME (R363): CONSUME is judged against a credit pair's available count and applied, refused or saturated. -/
  | consume (d : Die) (q : CoreId) (sA : Fin 32)
  /-- CREAD (R355): CREAD reads a counter into a scalar register. -/
  | cread (d : Die) (q : CoreId) (sD sA : Fin 32)
  /-- BARRIVE (R370): BARRIVE records a pending barrier arrival for its core. -/
  | barrive (d : Die) (q : CoreId) (sA : Fin 32)
  /-- BARRIER_ARRIVAL (R371): The arrival takes effect at its node, setting the child bit and completing or releasing nodes upward. -/
  | barrierArrival (d : Die) (i : Nat)
  /-- BARRIER_RELEASE_PACKET (R373): A barrier release packet arrives, clearing child bits, re-arming and adding 1 to the release count. -/
  | barrierReleasePacket (d : Die)
  /-- BARRIER_ARM (R368): Writing ARM = 1 arms a barrier object in OFF or BROKEN. -/
  | barrierArm (d : Die) (b : Fin 64) (v : Word)
  /-- BARRIER_DISARM (R387): Writing DISARM = 1 moves a barrier object to OFF and clears its masks. -/
  | barrierDisarm (d : Die) (b : Fin 64)
  /-- BARRIER_FORCE (R376): Writing FORCE = 1 on a BROKEN object adds 1 to its release count. -/
  | barrierForce (d : Die) (b : Fin 64)
  /-- COUNTER_WRITE (R379): A privileged write of SYNC.CTR_n raises a counter's value, or is rejected when lower. -/
  | counterWrite (d : Die) (n : Fin 8192) (v : Word)
  /-- SYNC_CLEAR (R379): SYNC.CTRL.CLEAR zeroes counters, turns barriers OFF and clears credit maps on a quiet die. -/
  | syncClear (d : Die)
  /-- XL_ENTRY_WRITE (R350): A write of SYNC.XL_ENTRY sets a slot's VID translation while the slot is STOPPED or EMPTY. -/
  | xlEntryWrite (d : Die) (v : Word)
  /-- COHORT_WRITE (R53): A write of CIRC.COHORT_c sets HOLD and, under its rules, ROWS_MAX. -/
  | cohortWrite (c : Fin 8) (hold : Bool) (rowsMax : Nat)
  /-- COHORT_RELEASE (R45): Writing RELEASE = 1 to a HELD cohort discards its rows and moves it to FREE. -/
  | cohortRelease (c : Fin 8)
  /-- BLOCK_FRAME (R404): A BLOCK frame arrives good and in order, and is rebuilt into its block for landing or pass-through. -/
  | blockFrame (h : RxHead) (sot eot : Bool) (q sub : Nat) (bytes : List Byte)
  /-- FRAME_TRANSMIT (R402): A hub sends a frame on a partition entry's lanes once it holds a credit and the block window allows. -/
  | frameTransmit (p : LinkPort) (e : Fin 4)
  /-- IDLE (R396): An IDLE frame arrives carrying LACK and credits. -/
  | idle (h : LinkHead)
  /-- BLOCK_LANDING_START (R33): A block begins landing in the weight window once the bytes held are below capacity and a block-table entry is free. -/
  | blockLandingStart (x : StreamId)
  /-- BLOCK_RESIDENT (R253): A block's last byte has taken effect, so it becomes resident, takes its use count and counts the landing counter. -/
  | blockResident (d : Die) (i : Nat)
  /-- LAYER_RETIRE (R662): All blocks of a layer have landed and reached use count 0, so the cohorts on its pass list retire from it and change state. -/
  | layerRetire (x : StreamId)
  /-- BLOCK_FORWARDED (R255): A forwarding block's last byte has left the hub, so its entry and window bytes are freed. -/
  | blockForwarded (x : StreamId)
  /-- GRADIENT_APPLY (R72): The owner applies the optimizer update from a sealed gradient and replaces its backing and West copies. -/
  | gradientApply (d : Die) (i : Nat) (block : List Byte) (opt : List (Nat × List Byte))
  /-- SAMPLE_COMPLETE (R487): The service has drawn the next token of every row of a SAMPLE cohort, which then moves to WAIT_E. -/
  | sampleComplete (c : Fin 8) (rows : List (Nat × Bool × List Nat))
  /-- PORT_SIGNAL_DETECT (R409): Signal appears on an enabled port, which starts training. -/
  | portSignalDetect (p : Port)
  /-- PORT_TRAINED (R409): Every logical lane of the port is ACTIVE, so the port moves to IDENT. -/
  | portTrained (p : Port) (spares : List Nat)
  /-- PORT_TRAIN_TIMEOUT (R409): Training has not finished in 100 ms, so the port is FAILED with CAUSE TRAIN. -/
  | portTrainTimeout (p : Port)
  /-- PORT_ENABLE (R436): Writing PORT_CTRL.ENABLE = 1 lets the port train and run. -/
  | portEnable (p : Port)
  /-- PORT_DISABLE (R409): Writing PORT_CTRL.ENABLE = 0 takes the port DOWN. -/
  | portDisable (p : Port)
  /-- ID (R409): A LINK ID frame arrives, moving the port to UP or to FAILED on a ring or epoch mismatch, and updating PORT_PEER. -/
  | id (h : RxHead) (w0 w2 : Word)
  /-- LANE_SILENCE (R411): A lane has lost lock or received no good frame for 4 µs, starting a hard substitution or a port loss. -/
  | laneSilence (p : Port) (lanes : List Nat)
  /-- LANE_UNCORR_LIMIT (R411): SUB_UNCORR uncorrectable codewords within 1 ms start a soft substitution. -/
  | laneUncorrLimit (p : Port) (l n : Nat)
  /-- LANE_MARGIN_LOW (R411): MARGIN has stayed below SUB_MARGIN for 10 ms, starting a soft substitution. -/
  | laneMarginLow (p : Port) (l margin : Nat)
  /-- FORCE_SUB (R438): An expert write of FORCE_SUB starts substitution of an ACTIVE lane. -/
  | forceSub (p : Port) (l : Fin 34)
  /-- SUBST (R412): A SUBST frame arrives at the sender, which starts sending the logical lane on both old and spare lanes. -/
  | subst (h : RxHead) (w0 : Word)
  /-- SUBST_DONE (R412): A SUBST_DONE frame arrives, so the sender stops the old lane, marks it FAILED and makes the spare ACTIVE. -/
  | substDone (h : RxHead) (w0 : Word)
  /-- ADAPT (R410): An ADAPT frame arrives and the transmitter applies one coefficient step at a codeword boundary. -/
  | adapt (h : RxHead) (w0 : Word)
  /-- ADAPT_REQUEST (R410): At most every 100 µs a receiver sends an ADAPT request for a lane. -/
  | adaptRequest (p : Port) (l idx : Nat) (up : Bool)
  /-- NAK (R401): A NAK frame arrives and the sender resends from the expected LSEQ. -/
  | nak (h : LinkHead) (w0 : Word)
  /-- PART_ANN (R402): A PART_ANN frame arrives with the peer's partition table and initial credits. -/
  | partAnn (h : RxHead) (w0 w1 : Word)
  /-- LINK_RETRY_TIMEOUT (R401): No LACK progress for RETRY_NS makes the sender resend from its oldest unacknowledged frame. -/
  | linkRetryTimeout (p : LinkPort) (lane : Nat)
  /-- RWR (R405): An RWR frame arrives and is delivered to its target address, staged, passed on or refused. -/
  | rwr (h : RxHead) (headOk eot : Bool) (p : RemotePkt)
  /-- RRD (R405): An RRD frame arrives and starts a read at the target. -/
  | rrd (h : RxHead) (headOk : Bool) (p : RemotePkt)
  /-- RRSP (R405): An RRSP frame arrives with read data or a write completion. -/
  | rrsp (h : RxHead) (headOk : Bool) (p : RemotePkt)
  /-- SIG (R405): A SIG frame arrives and its signal packet is handed to the synchronisation unit. -/
  | sig (h : RxHead) (headOk : Bool) (p : RemotePkt)
  /-- ADMIT (R414): A write of CIRC.ADMIT.STATE ADMITTED admits the module once it has attested and holds a nonzero EPOCH. -/
  | admitModule (ring epoch : Nat)
  /-- FORM_START (R416): Writing CIRC.FORM START makes the module the anchor at position 0, which sends FORM East. -/
  | formStart (segments : Nat)
  /-- FORM (R416): A FORM note arrives, and the module takes its position and sends FORM onward, or completes formation at the anchor. -/
  | form (h : RxHead) (w0 : Word)
  /-- RESTORE_SWITCHOVER (R422): Every frame sent on the skip port has been acknowledged, so sending moves to the near port and RESTORE notes go out. -/
  | restoreSwitchover (east : Bool)
  /-- BYPASS (R419): A BYPASS note arrives, and the member lowers ARC_ACTIVE, recomputes its live members and breaks windows, barriers and update steps. -/
  | bypass (h : RxHead) (w0 : Word)
  /-- RESTORE_NOTE (R422): A RESTORE note arrives and the member updates the arc's members. -/
  | restoreNote (h : RxHead) (w0 : Word)
  /-- GAP_BOUND (R423): A GAP_BOUND note gives D the SSEQ_HI of the failed hub, fixing the gap. -/
  | gapBound (h : RxHead) (w0 : Word)
  /-- GAP_REQ (R424): A GAP_REQ note makes each live member send its owned gap blocks to D's staging as stage RWR frames and then GAP_DONE. -/
  | gapReq (h : RxHead) (w0 w1 w2 : Word)
  /-- GAP_DONE (R424): A GAP_DONE note arrives at D, which requests missing blocks from the control node once every member has answered. -/
  | gapDone (h : RxHead) (w0 w1 : Word)
  /-- SPLICE (R429): A SPLICE note arrives, and members raise ARC_ACTIVE and break barriers and update steps. -/
  | splice (h : RxHead) (w0 : Word)
  /-- SPLICED (R429): A SPLICED note arrives, and the interim owner clears its OWN entries and frees their copies. -/
  | spliced (h : RxHead) (w0 : Word)
  /-- RETRAIN_STEP_START (R450): The controller starts a retrain step on a target whose queue has been idle for GAP_NS. -/
  | retrainStepStart (t : Nat)
  /-- RETRAIN_STEP_FORCED (R451): PERIOD_US elapses with no gap, forcing a retrain step and counting FORCED. -/
  | retrainStepForced (t : Nat)
  /-- RETRAIN_STEP_END (R451): A retrain step ends, keeping its settings on lock or counting a failure toward retirement. -/
  | retrainStepEnd (t : Nat) (lock : Bool)
  /-- HBM_TEMP_READ (R444): Every 1 ms each stack's temperature is read, and the catastrophic flag triggers retirement. -/
  | hbmTempRead (n : Fin 8) (temp : Nat) (crit : Bool)
  /-- HBM_RETIRE (R470): An expert write of STACK_i_CMD.RETIRE starts retiring an UP stack with CAUSE COMMAND. -/
  | hbmRetire (n : Fin 8)
  /-- STACK_RETIRED (R453): All stack transactions complete or 2 µs pass, so the stack is RETIRED, its supply switched off and STACK_RETIRED raised. -/
  | stackRetired (n : Fin 8)
  /-- HELLO (R479): A HELLO with nonzero SESSION starts a session, which replies HELLO and resends logged tokens and waiting records. -/
  | hello (h : MsgHead)
  /-- JOB (R478): A JOB message sets the job and vocabulary size for admission. -/
  | job (h : MsgHead) (job vocab : Nat)
  /-- LOAD (R497): A LOAD message writes its data at ADDR through the hub, or into BACK when permitted. -/
  | load (h : MsgHead) (addr : Word) (data : List Byte)
  /-- PROMPT (R486): A PROMPT message is checked and queued, unparked or refused, and answered with ADMIT_RSP. -/
  | prompt (h : MsgHead) (b : List Byte)
  /-- ACK (R494): An ACK message commits tokens below UPTO for each named sequence. -/
  | ack (h : MsgHead) (entries : List (Nat × Nat))
  /-- EVICT_CANCEL (R481): EVICT CANCEL ends a queued or parked sequence, or one at its next opportunity, with SEQ_END CANCEL. -/
  | evictCancel (h : MsgHead) (id : Nat)
  /-- EVICT_PARK (R460): EVICT PARK parks a decoding sequence at its cohort's next WAIT_E by moving its pages to LPDDR5X. -/
  | evictPark (h : MsgHead) (id : Nat)
  /-- REG_RD (R498): A REG_RD message reads one register in its role's view and is answered with REG_RSP. -/
  | regRd (h : MsgHead) (a : Word)
  /-- REG_WR (R498): A REG_WR message writes one register in its role's view and is answered with REG_RSP. -/
  | regWr (h : MsgHead) (a v : Word)
  /-- DUMP_REQ (R380): A DUMP_REQ message makes the module send the sync dump image in DUMP messages. -/
  | dumpReq (h : MsgHead) (mask : Nat)
  /-- FAULT_REPORT (R515): A fault report reaches the FCU, which records it, escalates its level and carries out the reaction. -/
  | faultReport (given : Option Report) (bad : Bool)
  /-- BLOCK_RESET_COMPLETE (R518): A level-3 block reset completes and waiting register accesses proceed. -/
  | blockResetComplete (b : Block) (d : Die)
  /-- DIE_HEARTBEAT (R506): A compute die's heartbeat arrives on the fault path. -/
  | dieHeartbeat (d : Die)
  /-- HEARTBEAT_TIMEOUT (R506): No heartbeat from a die for 10 µs raises DIE_SILENT. -/
  | heartbeatTimeout (d : Die)
  /-- FAULT_ACK (R523): A write of FCU.ACK acknowledges records of the named classes up to SEQ. -/
  | faultAck (classes seq : Nat)
  /-- PIN_SENSE (R527): Every 1 µs the FCU senses both pins and raises PIN_READBACK on a new mismatch. -/
  | pinSense (a b : Bool)
  /-- FAULT_INJECT (R543): A write of FCU.INJECT raises the named source as an injected report. -/
  | faultInject (id die unit block detail : Nat)
  /-- FUSE_ADVANCE (R596): FUSE_CMD ADVANCE starts blowing rollback steps up to the target. -/
  | fuseAdvance (target : Nat)
  /-- FUSE_REVOKE_SLOT (R597): FUSE_CMD REVOKE_SLOT starts blowing a key slot's revocation pair. -/
  | fuseRevokeSlot (k : Nat)
  /-- IMAGE_DATA (R592): An IMAGE DATA message writes image bytes into firmware memory in recovery, or into the flash image region. -/
  | imageData (h : MsgHead) (off : Nat) (data : List Byte)
  /-- IMAGE_COMMIT (R594): An IMAGE COMMIT starts checking the received image, or the flash image, under R589. -/
  | imageCommit (h : MsgHead) (total : Nat)
  /-- IMAGE_ABORT (R594): An IMAGE ABORT returns the update state to IDLE. -/
  | imageAbort (h : MsgHead)
  /-- RECLAIM (R607): A reclaim starts by expert command or when the active bank has less than 512 KiB free, copying live records to the other bank. -/
  | reclaim (byCommand : Bool)
  /-- EPC_TABLE_VALIDATE (R193): A write setting FDX.EPC_TAG_t.VALID is checked for a valid code table and makes the table usable. -/
  | epcTableValidate (d : Die) (t : Fin 16) (width tag : Nat)
  /-- EPC_TABLE_INVALIDATE (R193): A write clearing VALID withdraws the table from blocks whose headers are read afterwards. -/
  | epcTableInvalidate (d : Die) (t : Fin 16)
  /-- REVOKE_NOTIFY (R287): The notice sent by a target that has revoked an import reaches the source, whose covered windows move to LOST. -/
  | revokeNotify (ring pos : Nat) (w : Fin 64) (base : Nat)
  /-- PACKET_REFUSAL (R283): A target's refusal of a remote packet reaches the source, aborting the descriptor with CAUSE 1011 or losing a scalar signal with a CONFIG fault. -/
  | packetRefusal (d : Die) (w : Fin 64) (xfer pkt : Nat)
  /-- I3C_DYNAMIC_ADDRESS (R642): The I3C controller's dynamic address assignment gives the management target a dynamic address. -/
  | i3cDynamicAddress (addr : Nat)
  /-- POWER_ON (R546): Input has been at least 54.0 V for 100 ms after being off, so the module powers on and bring-up begins. -/
  | powerOn
  /-- IMAGE_PHASE (R590): The boot ROM checks the flash image header, streams and hashes the body, verifies the signature and starts the image, or starts recovery on failure. -/
  | imagePhase
  /-- SERVICE_PHASE (R570): The service sequencer starts once both DIE bits are set. -/
  | servicePhase
  /-- INPUT_LOSS (R546): The input has been below 50.0 V for 100 µs or above 70.0 V for 10 µs, so every converter stops and the module is off. -/
  | inputLoss
  /-- INPUT_RANGE (R548): The input has stayed outside 56.0–66.0 V for 1 ms, which raises INPUT_RANGE. -/
  | inputRange
  /-- CAP_STEP_DOWN (R551): Every 100 µs while power exceeds LIMIT_W, the cap point falls by 5 mV down to 600 mV. -/
  | capStepDown
  /-- CAP_STEP_UP (R551): Every 1 ms after power has stayed below LIMIT_W − 20 W for 1 ms, the cap point rises by 5 mV until capping ends at 850 mV. -/
  | capStepUp
  /-- CAP_FLOOR (R551): Both dies have been at 600 mV and over the limit for 10 ms, so CAP.FLOOR is set and CAPPING is raised with DETAIL 0010. -/
  | capFloor
  /-- THERMAL_STEP_DOWN (R556): Every 100 ms while a sensor is above TJ_CAP, the thermal point of both dies falls by 5 mV. -/
  | thermalStepDown
  /-- THERMAL_STEP_UP (R556): Every 1 s after every sensor has read below TJ_CAP − 3 °C for 1 s, the thermal point rises by 5 mV. -/
  | thermalStepUp
  /-- THERMAL_TRIP (R557): A die sensor reaches 125 °C, and an independent comparator stops every converter within 10 µs. -/
  | thermalTrip
  /-- COOLANT_OUT_OF_RANGE (R548): The inlet has stayed outside 20–45 °C for 10 s, which raises COOLANT. -/
  | coolantOutOfRange
  /-- RESET_N (R641): RESET_N held low for at least 10 µs causes a module reset that clears FCU state and restarts bring-up at the ROM phase. -/
  | resetN
  /-- REFCLK_LOSS (R645): REFCLK has been missing or off frequency for 2 µs, so HUB_INTERNAL is raised at level 5. -/
  | refclkLoss
  /-- READ (R643): The management-target READ command makes a view-U access to the selected register and returns status and data. -/
  | read
  /-- STRAPS (R642): The management-target STRAPS command returns the position straps, READY.IMAGE and FAULT_A. -/
  | straps
  /-- TAP_BYPASS (R646): The TAP BYPASS instruction. -/
  | tapBypass
  /-- TAP_IDCODE (R646): The TAP IDCODE instruction returns the stepping, PART_ID and fixed code. -/
  | tapIdcode
  /-- TAP_SAMPLE_PRELOAD (R646): The TAP SAMPLE/PRELOAD instruction. -/
  | tapSamplePreload
  /-- TAP_EXTEST (R647): The TAP EXTEST instruction, executed as BYPASS while the module is admitted. -/
  | tapExtest
  /-- TAP_EXTEST_PULSE (R647): The IEEE 1149.6 EXTEST_PULSE instruction, executed as BYPASS while the module is admitted. -/
  | tapExtestPulse
  /-- TAP_EXTEST_TRAIN (R647): The IEEE 1149.6 EXTEST_TRAIN instruction, executed as BYPASS while the module is admitted. -/
  | tapExtestTrain
  /-- TAP_CLAMP (R647): The TAP CLAMP instruction, executed as BYPASS while the module is admitted. -/
  | tapClamp
  /-- TAP_HIGHZ (R647): The TAP HIGHZ instruction, executed as BYPASS while the module is admitted. -/
  | tapHighz
  /-- LPD_CLR_COUNTS (R467): LPD.CTRL.CLR_COUNTS clears the block's error and FORCED counters. -/
  | lpdClrCounts
  /-- MLD_CLR_COUNTS (R502): MLD.CTRL.CLR_COUNTS clears SVC_COUNTS, RETRIES and STALE. -/
  | mldClrCounts
  /-- FCU_CLR_COUNTS (R540): FCU.CTRL.CLR_COUNTS clears every FCU.COUNT and STATUS.LOST. -/
  | fcuClrCounts
  /-- PTC_CLR_COUNTS (R574): PTC.CTRL.CLR_COUNTS clears CAP.EVENTS, PEAK_W, RATE_MISS and FLOOR_MISS. -/
  | ptcClrCounts
  /-- TS_SEND (R408): Every 8 µs the hub sends a TS frame on lane 0 of each near and skip port in service. -/
  | tsSend
  /-- TB_LOCK (R314): The offset has stayed within ±4 ns for 1 ms, so the state moves from ACQUIRE to LOCKED. -/
  | tbLock
  /-- TB_UPSTREAM_TIMEOUT (R314): No upstream timestamp for 100 µs moves alignment to the ALT port or to HOLDOVER. -/
  | tbUpstreamTimeout
  /-- BARRIER_ARRIVAL_PACKET (R373): A barrier arrival packet from another die or module reaches its parent node. -/
  | barrierArrivalPacket
  /-- CIRC_ENABLE (R78): A write of RING_CONF.ENABLE = 1 starts circulation and claims the stores for the job, or is rejected. -/
  | circEnable
  /-- CIRC_DISABLE (R661): A write of ENABLE = 0 holds the arc's streams at the position without losing blocks. -/
  | circDisable
  /-- PERIOD_REFRESH (R42): Once per circuit PERIOD_NS is refreshed and PERIOD_SHORT is set or cleared. -/
  | periodRefresh
  /-- ADMISSION_TICK (R482): At least every 1 ms the service admits queued sequences into FREE cohorts with ROWS_MAX of at least 32. -/
  | admissionTick
  /-- REVOKE (R414): A write of CIRC.ADMIT.STATE REVOKED revokes the module and raises REVOKED. -/
  | revoke
  /-- FORM_TIMEOUT (R416): FORM has not returned within 10 ms, so formation FAILED. -/
  | formTimeout
  /-- SKIP_E (R418): CMD SKIP_E at p − 1 bypasses its East neighbour over the skip link. -/
  | skipE
  /-- SKIP_W (R418): CMD SKIP_W at p + 1 bypasses its West neighbour over the skip link. -/
  | skipW
  /-- PASS (R519): CMD PASS stops the compute dies, makes the hub pass all traffic and takes the module out of the ring. -/
  | pass
  /-- RESTORE_E (R422): CMD RESTORE_E starts returning a SKIP_E path to the near port. -/
  | restoreE
  /-- RESTORE_W (R422): CMD RESTORE_W starts returning a SKIP_W path to the near port. -/
  | restoreW
  /-- REINJ_TIMEOUT (R424): TIMEOUT_MS passes without every GAP_DONE, so D requests the unstaged gap blocks from the control node. -/
  | reinjTimeout
  /-- SPLICE_ARM (R428): Writing SPLICE.ARM = 1 moves a STANDBY module to ARMED. -/
  | spliceArm
  /-- SPLICE_ABORT (R426): Writing SPLICE.ABORT = 1 returns an ARMED or ABORTED module to STANDBY. -/
  | spliceAbort
  /-- CTRL_LIGHT_DETECT (R476): Light is present on an enabled CTRL link, which starts training. -/
  | ctrlLightDetect
  /-- CTRL_LINKED (R476): All four CTRL lanes carry good frames, so the link is LINKED. -/
  | ctrlLinked
  /-- CTRL_LOST (R476): A CTRL lane has had no good frame for LOST_MS, so the link is LOST with a LINK fault. -/
  | ctrlLost
  /-- RESET_HOLD_EXPIRY (R520): RESET_HOLD_US after a level-5 decision, the module performs a module reset keeping the FCU state. -/
  | resetHoldExpiry
  /-- SERVICE_HANDLER_DONE (R524): The service handler for a level-1 record completes and acknowledges it when the class's SVC_ACK is 1. -/
  | serviceHandlerDone
  /-- PIN_RELEASE (R528): A write of FCU.PIN.RELEASE returns FAULT_A/FAULT_B to 1/0 when no pin record is unacknowledged. -/
  | pinRelease
  /-- RESUME (R537): A write of FCU.CTRL.RESUME clears SCHED_BROKEN once no cohort runs or is held and no context runs. -/
  | resume
  /-- FUSE_BLOW_DONE (R596): A fuse blow completes after 1 ms per step and the counter or revocation updates. -/
  | fuseBlowDone
  /-- ATTEST_GO (R599): Writing ATT_CMD.GO requests a signed attestation report. -/
  | attestGo
  /-- ATTEST (R600): The signed report is sent in an ATTEST message, ATT_BUSY clears and ATTESTED is set. -/
  | attest
  /-- IMAGE_REQ (R591): In recovery, IMAGE_REQ is sent at session start and every 1 s until image data arrives. -/
  | imageReq
  /-- IMAGE_VERIFY_DONE (R594): Image verification ends, so the recovery image runs or the flash update state becomes VALID or INVALID. -/
  | imageVerifyDone
  /-- REPAIR_RECORD_WRITE (R606): Within 1 s of an in-service repair a REPAIR record is written to flash, or DROPPED counts when there is no room. -/
  | repairRecordWrite
  /-- RECLAIM_COMPLETE (R607): The new bank header is written and the old bank is erased. -/
  | reclaimComplete
  /-- CAL_ERASE_DONE (R565): The flash operation of an ERASE completes, so CAL_STATUS.BUSY falls and a further SAVE or ERASE is accepted again. -/
  | calEraseDone
  /-- REFCLK_RESTORED (R645): REFCLK has been valid for 1 ms, which releases the ROM phase held after a REFCLK-loss reset. -/
  | refclkRestored
  /-- SMBUS_ALERT_RESPONSE (R643): A read of the SMBus Alert Response Address while SMB_ALERT_N is low is answered with the target's own address. -/
  | smbusAlertResponse
  deriving DecidableEq, Repr

end Sys2Proof
end

