-- ==== Sys2Proof/Decode.lean ====
section
/-! DEFINITION. The command a word of the command table spells. -/

namespace Sys2Proof

/-- No row of the command table gives bits, so no word spells a command (log entry 20). -/
def decodeTableWord (_nbits _w : Nat) : Option Instr := none

end Sys2Proof
end

