-- ==== Sys2Proof/Machine/Bits.lean ====
section
/-! DEFINITION. Bit fields, saturating counts and byte order. -/

namespace Sys2Proof.Machine

/-- Bits hi to lo of a word, as a number. -/
def bitsOf (w : Word) (hi lo : Nat) : Nat := (w.toNat / 2 ^ lo) % 2 ^ (hi + 1 - lo)

/-- The word with ones at bits hi to lo. -/
def maskOf (hi lo : Nat) : Word := BitVec.ofNat 64 ((2 ^ (hi + 1 - lo) - 1) * 2 ^ lo)

/-- The word with bits hi to lo replaced by the low bits of v. -/
def putBits (w : Word) (hi lo v : Nat) : Word :=
  (w &&& ~~~(maskOf hi lo)) ||| BitVec.ofNat 64 ((v % 2 ^ (hi + 1 - lo)) * 2 ^ lo)

/-- Bits hi to lo of a 32-bit word. -/
def bitsOf32 (w : Half) (hi lo : Nat) : Nat := (w.toNat / 2 ^ lo) % 2 ^ (hi + 1 - lo)

/-- A count of the given width that stays at its top value (R18, saturating). -/
def satAdd (width v n : Nat) : Nat := min (v + n) (2 ^ width - 1)

/-- A number as n little-endian bytes. -/
def leBytes : Nat → Nat → List Byte
  | 0, _ => []
  | n + 1, v => BitVec.ofNat 8 v :: leBytes n (v / 256)

/-- The number that little-endian bytes spell. -/
def ofLe : List Byte → Nat
  | [] => 0
  | b :: bs => b.toNat + 256 * ofLe bs

/-- A number of the given width read as two's complement. -/
def toSigned (width v : Nat) : Int :=
  if v < 2 ^ (width - 1) then (v : Int) else (v : Int) - 2 ^ width

/-- An integer narrowed to the given width in two's complement. -/
def ofSigned (width : Nat) (v : Int) : Nat := (v % 2 ^ width).toNat

end Sys2Proof.Machine
end

