-- ==== Sys2Proof/Machine/Num.lean ====
section
/-! DEFINITION. The element formats, their exact values, and rounding into a format (R150 to R158, R121). -/

namespace Sys2Proof.Machine

/-- The exact value of an element: a NaN, an infinity, or (-1)^neg * m * 2^e with the sign of a zero kept. -/
inductive Val where
  | nan
  | inf (neg : Bool)
  | fin (neg : Bool) (m : Nat) (e : Int)
  deriving DecidableEq, Repr

namespace Val

/-- Plus zero. -/
def zero : Val := .fin false 0 0

/-- An integer. -/
def ofInt (i : Int) : Val := .fin (decide (i < 0)) i.natAbs 0

/-- E4M3 (R150): no infinity, NaN at S.1111.111. -/
def ofE4M3 (b : Nat) : Val :=
  let s := decide (b / 128 % 2 = 1); let e := b / 8 % 16; let m := b % 8
  if e = 15 ∧ m = 7 then .nan else if e = 0 then .fin s m (-9) else .fin s (8 + m) ((e : Int) - 10)

/-- E5M2 (R150). -/
def ofE5M2 (b : Nat) : Val :=
  let s := decide (b / 128 % 2 = 1); let e := b / 4 % 32; let m := b % 4
  if e = 31 then (if m = 0 then .inf s else .nan)
  else if e = 0 then .fin s m (-16) else .fin s (4 + m) ((e : Int) - 17)

/-- FP32 (R150). -/
def ofFp32 (w : Nat) : Val :=
  let s := decide (w / 2147483648 % 2 = 1); let e := w / 8388608 % 256; let m := w % 8388608
  if e = 255 then (if m = 0 then .inf s else .nan)
  else if e = 0 then .fin s m (-149) else .fin s (8388608 + m) ((e : Int) - 150)

/-- BF16: the upper half of an FP32 word (R151). -/
def ofBf16 (w : Nat) : Val := ofFp32 (w % 65536 * 65536)

/-- Twice the E2M1 magnitude of a code (R155). -/
def e2m1Twice (c : Nat) : Nat :=
  match c % 8 with | 0 => 0 | 1 => 1 | 2 => 2 | 3 => 3 | 4 => 4 | 5 => 6 | 6 => 8 | _ => 12

/-- A Brass-4 element: code c, shared exponent x, group offset o (R156). -/
def ofBrass4 (c x o : Nat) : Val :=
  if x = 255 then .nan else .fin (decide (c / 8 % 2 = 1)) (e2m1Twice c) ((x : Int) - 128 - (o : Int))

/-- The value with its sign turned. -/
def neg : Val → Val
  | .nan => .nan
  | .inf s => .inf (!s)
  | .fin s m e => .fin (!s) m e

/-- The magnitude. -/
def abs : Val → Val
  | .nan => .nan
  | .inf _ => .inf false
  | .fin _ m e => .fin false m e

/-- Whether the value is a zero. -/
def isZero : Val → Bool
  | .fin _ 0 _ => true
  | _ => false

/-- The exact product; 0 times infinity is NaN (R121). -/
def mul : Val → Val → Val
  | .nan, _ => .nan
  | _, .nan => .nan
  | .inf a, .inf b => .inf (a != b)
  | .inf a, .fin b m _ => if m = 0 then .nan else .inf (a != b)
  | .fin b m _, .inf a => if m = 0 then .nan else .inf (a != b)
  | .fin a m e, .fin b n f => .fin (a != b) (m * n) (e + f)

/-- The signed mantissa of a finite value at exponent e (at or below its own). -/
def at_ (e : Int) : Val → Int
  | .fin s m f => let v : Int := (m : Int) * 2 ^ (f - e).toNat; if s then -v else v
  | _ => 0

/-- The exponent of a finite value. -/
def exp : Val → Int
  | .fin _ _ e => e
  | _ => 0

/-- The exact sum of a list (R119, R121): NaN for a NaN or for opposite infinities; a zero sum is -0 only
when every term is -0. -/
def sum (l : List Val) : Val :=
  if l.any (fun v => v == .nan) then .nan
  else
    let pos := l.any (fun v => v == .inf false)
    let ngt := l.any (fun v => v == .inf true)
    if pos && ngt then .nan
    else if pos then .inf false
    else if ngt then .inf true
    else
      let e := l.foldl (fun a v => min a v.exp) 0
      let t := l.foldl (fun a v => a + v.at_ e) (0 : Int)
      if t = 0 then .fin (!l.isEmpty && l.all (fun v => match v with | .fin true 0 _ => true | _ => false)) 0 0
      else .fin (decide (t < 0)) t.natAbs e

/-- Whether a is below b in the order of values, -0 below +0 (R121). Neither is a NaN. -/
def below (a b : Val) : Bool :=
  match a, b with
  | .inf true, .inf true => false
  | .inf true, _ => true
  | _, .inf true => false
  | .inf false, _ => false
  | _, .inf false => true
  | .fin s m e, .fin t n f =>
    if m = 0 ∧ n = 0 then s && !t
    else let g := min e f; decide ((Val.fin s m e).at_ g < (Val.fin t n f).at_ g)
  | _, _ => false

/-- Whether two values are numerically equal: +0 equals -0, a NaN equals nothing (R121). -/
def same (a b : Val) : Bool :=
  match a, b with
  | .nan, _ => false
  | _, .nan => false
  | .inf s, .inf t => s == t
  | .fin s m e, .fin t n f => let g := min e f; decide ((Val.fin s m e).at_ g = (Val.fin t n f).at_ g)
  | _, _ => false

/-- The lower of two, NaN where either is (R121). -/
def minV (a b : Val) : Val := if a == .nan || b == .nan then .nan else if below b a then b else a

/-- The higher of two, NaN where either is (R121). -/
def maxV (a b : Val) : Val := if a == .nan || b == .nan then .nan else if below a b then b else a

end Val

/-- n / 2^k rounded to nearest, ties to even. -/
def rneShift (n k : Nat) : Nat :=
  let q := n / 2 ^ k; let r := n % 2 ^ k
  if 2 * r > 2 ^ k ∨ (2 * r = 2 ^ k ∧ q % 2 = 1) then q + 1 else q

/-- The magnitude bits (exponent and mantissa fields) of m * 2^e rounded to nearest even into a format with
mb mantissa bits and the given bias, subnormals kept, the exponent unbounded above (R152). -/
def roundBits (mb : Nat) (bias : Int) (m : Nat) (e : Int) : Nat :=
  if m = 0 then 0
  else
    let low : Int := 1 - bias - mb
    let qe : Int := max (e + (Nat.log2 m : Int) - mb) low
    let n := if e ≥ qe then m * 2 ^ (e - qe).toNat else rneShift m (qe - e).toNat
    (qe - low).toNat * 2 ^ mb + n

/-- A value rounded to FP32 (R121, R152, R153). -/
def toFp32 : Val → Nat
  | .nan => 0x7FC00000
  | .inf s => 0x7F800000 + s.toNat * 0x80000000
  | .fin s m e => min (roundBits 23 127 m e) 0x7F800000 + s.toNat * 0x80000000

/-- A value rounded to BF16 (R152, R153). -/
def toBf16 : Val → Nat
  | .nan => 0x7FC0
  | .inf s => 0x7F80 + s.toNat * 0x8000
  | .fin s m e => min (roundBits 7 127 m e) 0x7F80 + s.toNat * 0x8000

/-- A value rounded to E5M2 (R153): a finite overflow saturates, an infinity stays one. -/
def toE5M2 : Val → Nat
  | .nan => 0x7F
  | .inf s => 0x7C + s.toNat * 0x80
  | .fin s m e => min (roundBits 2 15 m e) 0x7B + s.toNat * 0x80

/-- A value rounded to E4M3 (R153): a finite overflow saturates, an infinity becomes the NaN. -/
def toE4M3 : Val → Nat
  | .nan => 0x7F
  | .inf _ => 0x7F
  | .fin s m e => min (roundBits 3 7 m e) 0x7E + s.toNat * 0x80

/-- A finite value rounded to an integer, ties to even (R153). -/
def toInteger : Val → Int
  | .fin s m e =>
    let n := if e ≥ 0 then m * 2 ^ e.toNat else rneShift m (-e).toNat
    if s then -(n : Int) else n
  | _ => 0

/-- A value converted to INT8 (R153). -/
def toInt8 : Val → Int
  | .nan => 0
  | .inf s => if s then -128 else 127
  | v => max (-128) (min 127 (toInteger v))

/-- A value converted to UINT8 (R153). -/
def toUint8 : Val → Int
  | .nan => 0
  | .inf s => if s then 0 else 255
  | v => max 0 (min 255 (toInteger v))

/-- An INT32 sum held at its bounds, with whether it saturated (R120). -/
def satInt32 (i : Int) : Int × Bool :=
  if i < -2147483648 then (-2147483648, true) else if i > 2147483647 then (2147483647, true) else (i, false)

/-- An FP32 accumulate of a stored and a written element (R220). -/
def accFp32 (a b : Nat) : Nat := toFp32 (Val.sum [Val.ofFp32 a, Val.ofFp32 b])

/-- A BF16 accumulate of a stored element and a written value (R220). -/
def accBf16 (a : Nat) (v : Val) : Nat := toBf16 (Val.sum [Val.ofBf16 a, v])

end Sys2Proof.Machine
end

