-- ==== Sys2Proof/Machine/Block.lean ====
section
/-! DEFINITION. Stored blocks (R161 to R178): check values, headers, codecs, compressors, index tables. -/

namespace Sys2Proof.Machine

/-- One step of CRC-32C over a byte, reflected (R162). -/
def crcByte (c : Nat) (b : Byte) : Nat :=
  (List.range 8).foldl (fun c _ => if c % 2 = 1 then c / 2 ^^^ 0x82F63B78 else c / 2) (c ^^^ b.toNat)

/-- CRC-32C (Castagnoli) of bytes in ascending address order (R162). -/
def crc32c (bs : List Byte) : Nat := bs.foldl crcByte 0xFFFFFFFF ^^^ 0xFFFFFFFF

/-- The 32-bit complement. -/
def not32 (v : Nat) : Nat := 0xFFFFFFFF - v % 2 ^ 32

/-- A block's header as read (R162). -/
structure Header where
  id : Nat
  layer : Nat
  die : Nat
  ndie : Nat
  grad : Bool
  sealed_ : Bool
  colgrp : Nat
  codec : Nat
  kind : Nat
  table : Nat
  ttag : Nat
  plainLen : Nat
  compLen : Nat
  stepTag : Nat
  bscale : Nat
  /-- Every bit shown as 0 reads 0. -/
  zeros : Bool
  /-- HCHK and NHCHK agree with bytes 0 to 23. -/
  checked : Bool
  deriving DecidableEq, Repr

/-- Bits hi to lo of a number. -/
def nbits (w hi lo : Nat) : Nat := w / 2 ^ lo % 2 ^ (hi + 1 - lo)

/-- The header that 32 bytes hold (R162). -/
def parseHeader (bs : List Byte) : Header :=
  let w (i : Nat) : Nat := ofLe ((bs.drop (8 * i)).take 8)
  let c := crc32c (bs.take 24)
  { id := nbits (w 0) 63 32, layer := nbits (w 0) 31 23, die := nbits (w 0) 22 22, ndie := nbits (w 0) 21 21
    grad := nbits (w 0) 20 20 = 1, sealed_ := nbits (w 0) 19 19 = 1, colgrp := nbits (w 0) 15 0
    codec := nbits (w 1) 63 60, kind := nbits (w 1) 59 56, table := nbits (w 1) 55 52, ttag := nbits (w 1) 47 32
    plainLen := nbits (w 1) 31 16, compLen := nbits (w 1) 15 0
    stepTag := nbits (w 2) 63 48, bscale := nbits (w 2) 47 40
    zeros := nbits (w 0) 18 16 = 0 ∧ nbits (w 1) 51 48 = 0 ∧ nbits (w 2) 39 0 = 0
    checked := nbits (w 3) 63 32 = c ∧ nbits (w 3) 31 0 = not32 c }

/-- The 32 bytes of a header with its check (R162). -/
def Header.bytes (h : Header) : List Byte :=
  let w0 := h.id % 2 ^ 32 * 2 ^ 32 + h.layer % 512 * 2 ^ 23 + h.die % 2 * 2 ^ 22 + h.ndie % 2 * 2 ^ 21
    + h.grad.toNat * 2 ^ 20 + h.sealed_.toNat * 2 ^ 19 + h.colgrp % 65536
  let w1 := h.codec % 16 * 2 ^ 60 + h.kind % 16 * 2 ^ 56 + h.table % 16 * 2 ^ 52 + h.ttag % 65536 * 2 ^ 32
    + h.plainLen % 65536 * 65536 + h.compLen % 65536
  let w2 := h.stepTag % 65536 * 2 ^ 48 + h.bscale % 256 * 2 ^ 40
  let b := leBytes 8 w0 ++ leBytes 8 w1 ++ leBytes 8 w2
  let c := crc32c b
  b ++ leBytes 8 (c * 2 ^ 32 + not32 c)

/-- The stored size that a payload length gives (R161). -/
def storedSize (compLen : Nat) : Nat := 32 + 32 * ((compLen + 8 + 31) / 32)

/-- The KIND is one R163 lists. -/
def kindListed (k : Nat) : Bool := decide (k ≤ 6 ∨ k = 15)

/-- The PLAIN_LEN rule of a KIND (R163). -/
def plainLenOk (k n : Nat) : Bool :=
  if k ≤ 3 then decide (n % 1024 = 0 ∧ 1024 ≤ n ∧ n ≤ 16384)
  else if k = 4 then decide (n % 2048 = 0 ∧ 2048 ≤ n ∧ n ≤ 16384)
  else if k = 5 then decide (n % 2208 = 0 ∧ 2208 ≤ n ∧ n ≤ 15456)
  else decide (n % 32 = 0 ∧ 32 ≤ n ∧ n ≤ 16384)

/-- The header checks of R181. -/
def Header.ok (h : Header) : Bool :=
  h.checked && decide (h.ndie ≠ h.die) && h.zeros && kindListed h.kind && decide (h.codec ≤ 2)
    && !(h.codec == 1 && h.kind == 15) && plainLenOk h.kind h.plainLen
    && decide (1 ≤ h.compLen ∧ h.compLen ≤ 16384)
    && (if h.codec = 0 then decide (h.compLen = h.plainLen) else decide (h.compLen < h.plainLen))
    && (if h.kind = 6 then decide (h.bscale ≠ 255) else decide (h.bscale = 0))
    && (h.grad || decide (h.stepTag = 0))

/-- The block is RAW of an engine kind (KIND 0000 to 0100, R179). -/
def Header.rawEngine (h : Header) : Bool := decide (h.codec = 0 ∧ h.kind ≤ 4)

/-- A coded block below the ratio threshold (R168). -/
def Header.lowRatio (h : Header) : Bool := decide (h.codec ≠ 0 ∧ 100 * h.plainLen < 105 * h.compLen)

/-- Whether a stored block passes its check bits: BCHK and NBCHK (R165). -/
def blockPasses (bs : List Byte) : Bool :=
  let n := bs.length
  let c := crc32c (bs.take (n - 8))
  decide (ofLe ((bs.drop (n - 8)).take 4) = c ∧ ofLe (bs.drop (n - 4)) = not32 c)

/-- Header and payload assembled into a stored block with zero pad and its trailer (R161, R165). -/
def assemble (h : Header) (payload : List Byte) : List Byte :=
  let body := { h with compLen := payload.length }.bytes ++ payload
  let full := body ++ List.replicate (storedSize payload.length - 8 - body.length) (0 : Byte)
  let c := crc32c full
  full ++ leBytes 4 c ++ leBytes 4 (not32 c)

/-! ### Codecs -/

/-- What a decoder produced: the plain bytes decoded, the error cause of R182 (0 none), and how many bytes had
been decoded when the error was found. -/
structure Decoded where
  out : List Byte
  cause : Nat
  good : Nat
  deriving DecidableEq, Repr

/-- ZRUN tokens expanded (R174), with a bound on tokens and the output still allowed; the output in reverse. -/
def zrunGo (plain : Nat) : Nat → List Byte → List Byte → Nat → Decoded
  | 0, _, acc, n => ⟨acc.reverse, 6, n⟩
  | fuel + 1, p, acc, n =>
    match p with
    | [] => if n < plain then ⟨acc.reverse, 6, n⟩ else ⟨acc.reverse, 0, n⟩
    | t :: ts =>
      if n ≥ plain then ⟨acc.reverse, 5, n⟩
      else
        let k := t.toNat
        if k < 128 then
          let lit := ts.take (k + 1)
          let fits := lit.take (plain - n)
          if lit.length < k + 1 then ⟨(fits.reverse ++ acc).reverse, 4, n + fits.length⟩
          else if n + (k + 1) > plain then ⟨(fits.reverse ++ acc).reverse, 5, n + fits.length⟩
          else zrunGo plain fuel (ts.drop (k + 1)) (lit.reverse ++ acc) (n + (k + 1))
        else
          let z := if k < 192 then k - 127 else (k - 191) * 64
          if n + z > plain then ⟨(List.replicate (plain - n) (0 : Byte) ++ acc).reverse, 5, plain⟩
          else zrunGo plain fuel ts (List.replicate z (0 : Byte) ++ acc) (n + z)

/-- A ZRUN payload decoded (R174). -/
def zrunDecode (plain : Nat) (p : List Byte) : Decoded := zrunGo plain (p.length + 1) p [] 0

/-- A byte's bits, most significant first. -/
def bitsMsb (b : Byte) : List Bool := (List.range 8).map (fun i => b.getLsbD (7 - i))

/-- Bits packed most significant first into bytes, the last padded with zero bits (R172). -/
def packMsb : Nat → List Bool → List Byte
  | 0, _ => []
  | fuel + 1, bs =>
    if bs.isEmpty then []
    else
      let b := bs.take 8
      BitVec.ofNat 8 ((b ++ List.replicate (8 - b.length) false).foldl (fun n x => 2 * n + x.toNat) 0)
        :: packMsb fuel (bs.drop 8)

/-- An EPC table: symbol width, tag and code lengths, as it stands valid (R173). -/
structure EpcTable where
  width : Nat
  tag : Nat
  lens : List Nat
  deriving DecidableEq, Repr

/-- How many symbols have a code length. -/
def lenCount (lens : List Nat) (n : Nat) : Nat := lens.countP (fun x => x = n)

/-- The first code word of a length by the canonical rule of RFC 1951 (R173). -/
def firstCode (lens : List Nat) : Nat → Nat
  | 0 => 0
  | n + 1 => (firstCode lens n + (if n = 0 then 0 else lenCount lens n)) * 2

/-- The code word of a symbol (R173): its length and value; none where it does not occur. -/
def codeWord (lens : List Nat) (sym : Nat) : Option (Nat × Nat) :=
  match lens[sym]? with
  | none => none
  | some 0 => none
  | some n => some (n, firstCode lens n + lenCount (lens.take sym) n)

/-- The symbol of a code word of a length, if there is one. -/
def symbolOf (lens : List Nat) (n code : Nat) : Option Nat :=
  let f := firstCode lens n
  if code < f ∨ f + lenCount lens n ≤ code then none
  else (lens.zipIdx.filter (fun p => p.1 = n))[code - f]?.map (fun p => p.2)

/-- Whether some code word is longer than n bits and begins with the n bits of a value. -/
def startsCode (lens : List Nat) (n code : Nat) : Bool :=
  (List.range 16).any (fun l =>
    let k := 2 ^ (l - n)
    decide (n < l) && decide (firstCode lens l < (code + 1) * k) && decide (code * k < firstCode lens l + lenCount lens l))

/-- One symbol read from a bit string: the symbol and the rest. An error is 4 (CODE) as soon as no code word begins
with the bits read, and 6 (SHORT) where the bits end within a code word (R182, R193). -/
def readSym (lens : List Nat) : Nat → Nat → Nat → List Bool → Except Nat (Nat × List Bool)
  | 0, _, _, _ => .error 4
  | fuel + 1, n, code, bs =>
    match bs with
    | [] => .error 6
    | b :: rest =>
      let code := 2 * code + b.toNat
      match symbolOf lens (n + 1) code with
      | some s => .ok (s, rest)
      | none => if startsCode lens (n + 1) code then readSym lens fuel (n + 1) code rest else .error 4

/-- Symbols read until a count is reached: the symbols in reverse, the bits left and the error (0 none). -/
def readSyms (lens : List Nat) : Nat → List Bool → List Nat → List Nat × List Bool × Nat
  | 0, bs, acc => (acc, bs, 0)
  | k + 1, bs, acc =>
    match readSym lens 15 0 0 bs with
    | .ok (s, rest) => readSyms lens k rest (s :: acc)
    | .error e => (acc, bs, e)

/-- The symbol bits and residual bits of a KIND (R171). -/
def epcWidths (kind : Nat) : Nat × Nat :=
  match kind with
  | 1 => (5, 3) | 4 => (8, 8) | 5 => (4, 0) | _ => (4, 4)

/-- The element of a symbol and a residual (R171). -/
def epcJoin (kind sym res : Nat) : Nat :=
  match kind with
  | 0 | 6 => res / 8 * 128 + sym * 8 + res % 8
  | 1 => res / 4 * 128 + sym * 4 + res % 4
  | 4 => res / 128 * 32768 + sym * 128 + res % 128
  | 5 => sym
  | _ => sym * 16 + res

/-- The symbol and the residual of an element (R171). -/
def epcSplit (kind v : Nat) : Nat × Nat :=
  match kind with
  | 0 | 6 => (v / 8 % 16, v / 128 * 8 + v % 8)
  | 1 => (v / 4 % 32, v / 128 * 4 + v % 4)
  | 4 => (v / 128 % 256, v / 32768 * 128 + v % 128)
  | 5 => (v % 16, 0)
  | _ => (v / 16, v % 16)

/-- Elements of a plain length (R171). -/
def epcCount (kind plain : Nat) : Nat :=
  match kind with
  | 4 => plain / 2 | 5 => plain / 2208 * 4096 | _ => plain

/-- A number from the first n bits, most significant first, and the rest. -/
def takeBits (n : Nat) (bs : List Bool) : Nat × List Bool :=
  ((bs.take n).foldl (fun v b => 2 * v + b.toNat) 0, bs.drop n)

/-- Numbers of n bits each, k of them. -/
def takeMany (n : Nat) : Nat → List Bool → List Nat
  | 0, _ => []
  | k + 1, bs => (takeBits n bs).1 :: takeMany n k (bs.drop n)

/-- Nibbles paired into bytes, the even one low (R159). -/
def pairNibbles : List Nat → List Byte
  | a :: b :: t => BitVec.ofNat 8 (a % 16 + b % 16 * 16) :: pairNibbles t
  | _ => []

/-- Brass-4 plain form from code bytes and planes, panel by panel (R159): stops with the codes. -/
def joinPanels (codes planes : List Byte) : Nat → List Byte
  | 0 => []
  | k + 1 =>
    let c := codes.take 2048
    if c.length < 2048 then c
    else c ++ planes.take 160 ++ joinPanels (codes.drop 2048) (planes.drop 160) k

/-- An EPC payload decoded (R171 to R173). -/
def epcDecode (kind plain : Nat) (lens : List Nat) (p : List Byte) : Decoded :=
  let n := epcCount kind plain
  let rw := (epcWidths kind).2
  let panels := if kind = 5 then plain / 2208 else 0
  let planes := p.take (160 * panels)
  let p := p.drop (160 * panels)
  let resLen := (n * rw + 7) / 8
  if planes.length < 160 * panels ∨ p.length < resLen then ⟨[], 6, 0⟩
  else
    let res := if rw = 0 then List.replicate n 0 else takeMany rw n ((p.take resLen).flatMap bitsMsb)
    let r := readSyms lens n ((p.drop resLen).flatMap bitsMsb) []
    let els := (r.1.reverse.zip res).map (fun e => epcJoin kind e.1 e.2)
    let out := match kind with
      | 4 => els.flatMap (fun v => leBytes 2 v)
      | 5 => joinPanels (pairNibbles els) planes panels
      | _ => els.map (fun v => BitVec.ofNat 8 v)
    if r.2.2 ≠ 0 then ⟨out, r.2.2, out.length⟩
    else if r.2.1.length > 7 ∨ r.2.1.any id then ⟨out, 5, out.length⟩
    else ⟨out, 0, out.length⟩

/-- A RAW payload (R169). -/
def rawDecode (plain : Nat) (p : List Byte) : Decoded :=
  if p.length < plain then ⟨p, 6, p.length⟩ else ⟨p.take plain, 0, plain⟩

/-- A payload decoded by its CODEC. -/
def decodePayload (h : Header) (lens : List Nat) (p : List Byte) : Decoded :=
  match h.codec with
  | 0 => rawDecode h.plainLen p
  | 1 => epcDecode h.kind h.plainLen lens p
  | _ => zrunDecode h.plainLen p

/-! ### Brass-4 -/

/-- The check nibble of a row's exponent and offset bytes (R157). -/
def scaleCheck (x o : Byte) : Nat :=
  (bitsMsb x ++ bitsMsb o).foldl (fun c b =>
    let top := c / 8 % 2
    let c' := c * 2 % 16
    if top ≠ b.toNat then c' ^^^ 3 else c') 0

/-- Whether every row of a panel passes its K check (R157). -/
def panelPasses (p : List Byte) : Bool :=
  (List.range 64).all (fun l =>
    let k := (p.getD (2176 + l / 2) 0).toNat
    scaleCheck (p.getD (2048 + l) 0) (p.getD (2112 + l) 0) == (if l % 2 = 0 then k % 16 else k / 16))

/-- The two tiles of a panel in engine form (R160): code and scale transfer of tile A, then of tile B. -/
def panelTransfers (p : List Byte) : List (List Byte) :=
  let codes (o : Nat) : List Byte := (List.range 64).flatMap (fun l => (p.drop (32 * l + o)).take 16)
  let scale (sh : Nat) : List Byte := (List.range 64).flatMap (fun l =>
    [p.getD (2048 + l) 0, BitVec.ofNat 8 ((p.getD (2112 + l) 0).toNat / sh % 16)])
  [codes 0, scale 1, codes 16, scale 16]

/-- Panels of a plain form. -/
def panelsOf (bs : List Byte) : Nat → List (List Byte)
  | 0 => []
  | k + 1 => bs.take 2208 :: panelsOf (bs.drop 2208) k

/-! ### The compressors (R177) -/

/-- A byte list cut into literal tokens of at most 128 (R177). -/
def literals : Nat → List Byte → List Byte
  | 0, _ => []
  | fuel + 1, bs =>
    if bs.isEmpty then []
    else
      let l := bs.take 128
      BitVec.ofNat 8 (l.length - 1) :: l ++ literals fuel (bs.drop 128)

/-- Tokens of a run of zeros: long ones first, then at most one short (R177). -/
def zeroTokens (n : Nat) : List Byte :=
  let q := n / 64
  List.replicate (q / 64) (0xFF : Byte) ++ (if q % 64 = 0 then [] else [BitVec.ofNat 8 (191 + q % 64)])
    ++ (if n % 64 = 0 then [] else [BitVec.ofNat 8 (127 + n % 64)])

/-- The number of zero bytes a list begins with. -/
def leadZeros : List Byte → Nat
  | [] => 0
  | b :: t => if b = 0 then leadZeros t + 1 else 0

/-- The ZRUN payload: literals pending in reverse, then the rest (R177). -/
def zrunEncode : Nat → List Byte → List Byte → List Byte
  | 0, lit, bs => literals (lit.length + bs.length) (lit.reverse ++ bs)
  | fuel + 1, lit, bs =>
    match bs with
    | [] => literals lit.length lit.reverse
    | b :: t =>
      let z := leadZeros (b :: t)
      if 2 ≤ z then literals lit.length lit.reverse ++ zeroTokens z ++ zrunEncode fuel [] ((b :: t).drop z)
      else zrunEncode fuel (b :: lit) t

/-- The elements of a plain form (R171). -/
def epcElements (kind : Nat) (bs : List Byte) : List Nat :=
  match kind with
  | 4 => (List.range (bs.length / 2)).map (fun i => ofLe ((bs.drop (2 * i)).take 2))
  | 5 => (panelsOf bs (bs.length / 2208)).flatMap (fun p => (p.take 2048).flatMap (fun b => [b.toNat % 16, b.toNat / 16]))
  | _ => bs.map (fun b => b.toNat)

/-- The EPC payload (R172); none where a symbol has no code word. -/
def epcEncode (kind : Nat) (lens : List Nat) (bs : List Byte) : Option (List Byte) :=
  let els := (epcElements kind bs).map (epcSplit kind)
  let words := els.map (fun e => codeWord lens e.1)
  if words.any (fun w => w == none) then none
  else
    let msb (n v : Nat) : List Bool := (List.range n).map (fun i => v.testBit (n - 1 - i))
    let planes := if kind = 5 then (panelsOf bs (bs.length / 2208)).flatMap (fun p => p.drop 2048) else []
    let res := els.flatMap (fun e => msb (epcWidths kind).2 e.2)
    let syms := words.flatMap (fun w => match w with | some (n, c) => msb n c | none => [])
    some (planes ++ packMsb (res.length + 1) res ++ packMsb (syms.length + 1) syms)

/-- A compressor's choice for a plain form (R177, R168): codec and payload. The table is the one that
FDX.COMP_CTRL selects, where it may be used. -/
def compress (kind : Nat) (table : Option EpcTable) (zrunOff : Bool) (bs : List Byte) : Nat × List Byte :=
  let epc := match table with
    | some t => if kind ≠ 15 ∧ t.width = (epcWidths kind).1 then epcEncode kind t.lens bs else none
    | none => none
  let zr := if zrunOff then none else some (zrunEncode (bs.length + 1) [] bs)
  let best : Option (Nat × List Byte) :=
    match epc, zr with
    | some e, some z => if e.length < z.length then some (1, e) else some (2, z)
    | some e, none => some (1, e)
    | none, some z => some (2, z)
    | none, none => none
  match best with
  | some (c, p) => if 100 * bs.length < 105 * p.length then (0, bs) else (c, p)
  | none => (0, bs)

/-- A plain form compressed into a stored block (R161, R177). -/
def compressBlock (h : Header) (tableIdx : Nat) (table : Option EpcTable) (zrunOff : Bool) (bs : List Byte) : List Byte :=
  let r := compress h.kind table zrunOff bs
  let h := { h with codec := r.1, plainLen := bs.length,
                    table := if r.1 = 1 then tableIdx else 0,
                    ttag := if r.1 = 1 then (table.map (fun t => t.tag)).getD 0 else 0 }
  assemble h r.2

/-- The scale exponent of the scaled E4M3 kind for a list of values (R170). -/
def scaleExponent (vs : List Val) : Nat :=
  let fits (b : Nat) : Bool := vs.all (fun v => match v with
    | .fin _ m e => let g := min e ((b : Int) - 127)
                    decide ((Val.fin false m e).at_ g ≤ (Val.fin false 448 ((b : Int) - 127)).at_ g)
    | _ => true)
  ((List.range 255).find? fits).getD 254

/-- A value times a power of two. -/
def Val.scale (v : Val) (k : Int) : Val :=
  match v with | .fin s m e => .fin s m (e + k) | v => v

/-- Values in the scaled E4M3 kind: BSCALE and the element bytes (R170). -/
def scaledEncode (vs : List Val) : Nat × List Byte :=
  let b := scaleExponent vs
  (b, vs.map (fun v => BitVec.ofNat 8 (toE4M3 (v.scale (127 - (b : Int))))))

/-- Scaled E4M3 bytes as exact values (R170). -/
def scaledDecode (bscale : Nat) (bs : List Byte) : List Val :=
  bs.map (fun b => (Val.ofE4M3 b.toNat).scale ((bscale : Int) - 127))

/-! ### Index tables (R178) -/

/-- The 32-bit words of an index table from its bytes. -/
def wordsOf32 (bs : List Byte) : List Nat := (List.range (bs.length / 4)).map (fun i => ofLe ((bs.drop (4 * i)).take 4))

/-- Whether an index table of n + 4 words passes its check and R178. -/
def indexOk (ws : List Nat) : Bool :=
  let n := ws.getD 0 0
  let c := crc32c ((ws.take (n + 2)).flatMap (fun w => leBytes 4 w))
  decide (1 ≤ n ∧ n ≤ 2 ^ 24) && decide (ws.length = n + 4)
    && decide (ws.getD (n + 2) 0 = c ∧ ws.getD (n + 3) 0 = not32 c) && decide (ws.getD 1 1 = 0)
    && (List.range n).all (fun i =>
      let a := ws.getD (i + 1) 0; let b := ws.getD (i + 2) 0
      decide (a + 64 ≤ b ∧ b ≤ a + 16448 ∧ (b - a) % 32 = 0))

end Sys2Proof.Machine
end

