-- ==== Sys2Proof/Config.lean ====
section
/-! DEFINITION. The values the spec leaves open, as constants without a body: nothing in Lean can evaluate one
or prove a value of it (log entries 10, 14 to 19). -/

namespace Sys2Proof

/-- How far above its floor and CAL_MHZ the beat rate of a die lies at a moment, in Mbeat/s: the rate is a measured
quantity (R304, R305). -/
opaque Config.beatSurplus : Nat → Nat

/-- How far a die's replica lags the timebase, up to 16 ns (R312). -/
opaque Config.replicaLag : Nat → Nat

/-- Engine-form bytes that have left the expander when it finds an error or a poison mark (R182, R183). -/
opaque Config.bytesLeft : Nat → Nat

/-- A byte that no rule gives. -/
opaque Config.freeByte : Nat → Byte

/-- The positions of the arcs nested in a span (R61): no register or note tells them to a member. -/
opaque Config.nestedPositions : Nat → List Nat

/-- The silence after which streams no longer pass a position, in ns (R80). -/
opaque Config.streamSilence : Nat

/-- A number that no rule gives. -/
opaque Config.freeNat : Nat → Nat

/-- The code of a bypass kind in a BYPASS or RESTORE note, for a PASS (0), a SKIP (1), and a SKIP with which the arc
is lost (2): the field is named and its codes are not given (R398). -/
opaque Config.noteKind : Nat → Nat

/-- KV pages of a sequence of so many positions: the KV bytes of one position are the model's (R459, R485). -/
opaque Config.kvPages : Nat → Nat

/-- The exponential of an FP32 word, as an FP32 word (R487). -/
opaque Config.expFp32 : Nat → Nat

/-- SHA3-256, as a number of 256 bits, little-endian (R582 to R600). -/
opaque Config.sha3 : List Byte → Nat

/-- Whether a signature over a digest verifies under a public key: public key, digest, signature (R589). -/
opaque Config.mldsaVerify : List Byte → Nat → List Byte → Bool

/-- Byte i of a signature made under the identity key over a digest, with fresh entropy: digest, entropy, i (R585). -/
opaque Config.signByte : Nat → Nat → Nat → Byte

/-- Byte i of the identity public key (R584), of the signature in the identity certificate (R586), and the fused
hash of a key slot (R582). -/
opaque Config.identityByte : Nat → Byte
opaque Config.certByte : Nat → Byte
opaque Config.keyHash : Nat → Nat

/-- The revision of the boot ROM (R609). -/
opaque Config.romRev : Nat → Nat

end Sys2Proof
end

