-- ==== Sys2Proof/Machine/RegMap.lean ====
section
/-! DEFINITION. The register map of the module: the field tables of every chapter (bits, view, level and
access as R18 orders them), the reset word of every register, and its address (R7, R614 to R631). The
value of a field marked fused, loaded or presented is computed where the register is read. -/

namespace Sys2Proof.Machine

/-- The class code (R512). -/
def FaultClass.code : FaultClass → Nat
  | .data => 1 | .link => 2 | .sched => 3 | .sync => 4 | .power => 5 | .thermal => 6 | .security => 7
  | .config => 8 | .host => 9

/-- The class of a code (R512); codes 0 and 10 to 15 are reserved. -/
def FaultClass.ofCode : Nat → Option FaultClass
  | 1 => some .data | 2 => some .link | 3 => some .sched | 4 => some .sync | 5 => some .power
  | 6 => some .thermal | 7 => some .security | 8 => some .config | 9 => some .host | _ => none

/-- The nine classes. -/
def FaultClass.all : List FaultClass :=
  [.data, .link, .sched, .sync, .power, .thermal, .security, .config, .host]

/-- The 12-bit ID of a source (R513). -/
def Source.id : Source → Nat
  | .blockCheck => 0x101
  | .copySubstituted => 0x102
  | .unbacked => 0x103
  | .expander => 0x104
  | .storeUe => 0x105
  | .sramUnrepaired => 0x106
  | .hbmUe => 0x107
  | .stackRetired => 0x108
  | .stackSecond => 0x109
  | .lpdLost => 0x10A
  | .indexTable => 0x10B
  | .gradPoison => 0x10C
  | .remotePoison => 0x10D
  | .recordBad => 0x10E
  | .reportBad => 0x10F
  | .dieSilent => 0x110
  | .dieInternal => 0x111
  | .hubInternal => 0x112
  | .pinReadback => 0x113
  | .portFailed => 0x201
  | .spareFailed => 0x202
  | .frameBad => 0x203
  | .partMismatch => 0x204
  | .arcLost => 0x205
  | .windowLost => 0x206
  | .ctrlLost => 0x207
  | .stepLate => 0x301
  | .stepMisuse => 0x302
  | .rateLow => 0x303
  | .stepFull => 0x304
  | .doneErr => 0x305
  | .mcastTimeout => 0x306
  | .layerOrder => 0x307
  | .misuse => 0x401
  | .barMisuse => 0x402
  | .ctrSat => 0x403
  | .crdUnder => 0x404
  | .sigBad => 0x405
  | .barBroken => 0x406
  | .phaseLost => 0x501
  | .stageLostDie => 0x502
  | .stageLostHub => 0x503
  | .inputRange => 0x504
  | .capping => 0x505
  | .uncalibrated => 0x506
  | .tjHigh => 0x601
  | .tjCritDie => 0x602
  | .tjCritHub => 0x603
  | .coolant => 0x604
  | .hbmCrit => 0x605
  | .imageRejected => 0x701
  | .rollbackRejected => 0x702
  | .revoked => 0x703
  | .fuseBad => 0x704
  | .writeRejected => 0x801
  | .windowViolation => 0x802
  | .addressHigh => 0x803
  | .engineReject => 0x804
  | .illegalWord => 0x805
  | .xlate => 0x806
  | .stepInvalid => 0x807
  | .dmaDesc => 0x808
  | .windowRefused => 0x809
  | .formation => 0x80A
  | .restoreFailed => 0x80B
  | .view => 0x80C
  | .spanDiscard => 0x80D
  | .loadRejected => 0x80E
  | .expertUnlock => 0x80F
  | .accessShape => 0x810
  | .feedReject => 0x811
  | .msgBad => 0x901
  | .msgRole => 0x902
  | .sessionZero => 0x903
  | .ackBeyond => 0x904

/-- The default level of a source (R513). -/
def Source.defaultLevel : Source → Nat
  | .copySubstituted | .capping | .expertUnlock => 0
  | .stepFull | .illegalWord | .xlate | .stepInvalid => 2
  | .sramUnrepaired | .stackSecond | .lpdLost | .dieSilent | .dieInternal | .stageLostDie | .inputRange | .tjCritDie => 4
  | .hubInternal | .stageLostHub | .tjCritHub | .fuseBad => 5
  | .blockCheck | .unbacked | .expander | .storeUe | .hbmUe | .stackRetired | .indexTable | .gradPoison | .remotePoison | .recordBad | .reportBad | .pinReadback | .portFailed | .spareFailed | .frameBad | .partMismatch | .arcLost | .windowLost | .ctrlLost | .stepLate | .stepMisuse | .rateLow | .doneErr | .mcastTimeout | .layerOrder | .misuse | .barMisuse | .ctrSat | .crdUnder | .sigBad | .barBroken | .phaseLost | .uncalibrated | .tjHigh | .coolant | .hbmCrit | .imageRejected | .rollbackRejected | .revoked | .writeRejected | .windowViolation | .addressHigh | .engineReject | .dmaDesc | .windowRefused | .formation | .restoreFailed | .view | .spanDiscard | .loadRejected | .accessShape | .feedReject | .msgBad | .msgRole | .sessionZero | .ackBeyond => 1

/-- Every source, in ascending ID (R513). -/
def Source.all : List Source :=
  [.blockCheck, .copySubstituted, .unbacked, .expander, .storeUe, .sramUnrepaired, .hbmUe, .stackRetired, .stackSecond, .lpdLost, .indexTable, .gradPoison, .remotePoison, .recordBad, .reportBad, .dieSilent, .dieInternal, .hubInternal, .pinReadback, .portFailed, .spareFailed, .frameBad, .partMismatch, .arcLost, .windowLost, .ctrlLost, .stepLate, .stepMisuse, .rateLow, .stepFull, .doneErr, .mcastTimeout, .layerOrder, .misuse, .barMisuse, .ctrSat, .crdUnder, .sigBad, .barBroken, .phaseLost, .stageLostDie, .stageLostHub, .inputRange, .capping, .uncalibrated, .tjHigh, .tjCritDie, .tjCritHub, .coolant, .hbmCrit, .imageRejected, .rollbackRejected, .revoked, .fuseBad, .writeRejected, .windowViolation, .addressHigh, .engineReject, .illegalWord, .xlate, .stepInvalid, .dmaDesc, .windowRefused, .formation, .restoreFailed, .view, .spanDiscard, .loadRejected, .expertUnlock, .accessShape, .feedReject, .msgBad, .msgRole, .sessionZero, .ackBeyond]

/-- The class of a source: bits 11:8 of its ID (R513). -/
def Source.cls (s : Source) : FaultClass :=
  match s.id / 256 with
  | 1 => .data | 2 => .link | 3 => .sched | 4 => .sync | 5 => .power | 6 => .thermal | 7 => .security
  | 8 => .config | _ => .host

/-- The source of an ID, none where R513 gives none. -/
def Source.ofId (id : Nat) : Option Source := Source.all.find? (fun s => s.id == id)

/-- The fixed minimum level (R514). -/
def Source.minLevel (s : Source) : Nat := if s.defaultLevel ≥ 4 then s.defaultLevel else 0

/-- Whether the source leaves the hub intact (R514). -/
def Source.hubIntact (s : Source) : Bool :=
  !(s == .hubInternal || s == .stageLostHub || s == .inputRange || s == .tjCritHub || s == .fuseBad)

/-- The number n of a block (R7). -/
def Block.num : Block → Nat
  | .mod => 0 | .eng => 1 | .scv => 2 | .wst => 3 | .ast => 4 | .pst => 5 | .fdx => 6 | .dma => 7
  | .sync => 8 | .circ => 9 | .hbm => 10 | .lpd => 11 | .mld => 12 | .fcu => 13 | .ptc => 14 | .sec => 15

/-- The block of a number (R7): blocks 16 to 255 are reserved. -/
def Block.ofNum : Nat → Option Block
  | 0 => some .mod | 1 => some .eng | 2 => some .scv | 3 => some .wst | 4 => some .ast | 5 => some .pst
  | 6 => some .fdx | 7 => some .dma | 8 => some .sync | 9 => some .circ | 10 => some .hbm | 11 => some .lpd
  | 12 => some .mld | 13 => some .fcu | 14 => some .ptc | 15 => some .sec | _ => none

/-- Whether the block sits on the compute dies and so has a half per die (R7). -/
def Block.onDies : Block → Bool
  | .eng | .scv | .wst | .ast | .pst | .fdx | .dma | .sync | .hbm => true
  | .mod | .circ | .lpd | .mld | .fcu | .ptc | .sec => false

namespace F

def modIdent_PART_ID : Fld := ⟨31, 16, .u, .basic, .ro⟩
def modIdent_STEPPING : Fld := ⟨15, 8, .u, .basic, .ro⟩
def modIdent_GRADE_FUSED : Fld := ⟨7, 4, .u, .basic, .ro⟩
def modIdent_GRADE_PRESENTED : Fld := ⟨3, 0, .u, .basic, .ro⟩
def modTopology_ENG_D1 : Fld := ⟨47, 40, .u, .basic, .ro⟩
def modTopology_ENG_D0 : Fld := ⟨39, 32, .u, .basic, .ro⟩
def modTopology_STACKS : Fld := ⟨23, 16, .u, .basic, .ro⟩
def modTopology_LPD_CH : Fld := ⟨15, 0, .u, .basic, .ro⟩
def engCoreStatus_PRESENT : Fld := ⟨35, 32, .u, .basic, .ro⟩
def engCoreStatus_QDEPTH : Fld := ⟨19, 16, .u, .basic, .ro⟩
def engCoreStatus_REJ_CAUSE : Fld := ⟨15, 12, .u, .basic, .ro⟩
def engCoreStatus_SAT : Fld := ⟨7, 7, .u, .basic, .w1c⟩
def engCoreStatus_POISONED : Fld := ⟨6, 6, .u, .basic, .w1c⟩
def engCoreStatus_REJECTED : Fld := ⟨5, 5, .u, .basic, .w1c⟩
def engCoreStatus_FROZEN : Fld := ⟨4, 4, .u, .basic, .ro⟩
def engCoreStatus_BUSY : Fld := ⟨3, 3, .u, .basic, .ro⟩
def engFreezeDry_COUNT : Fld := ⟨47, 0, .u, .basic, .ro⟩
def engFreezeTile_COUNT : Fld := ⟨47, 0, .u, .basic, .ro⟩
def engFreezeDrain_COUNT : Fld := ⟨47, 0, .u, .basic, .ro⟩
def engRetired_COUNT : Fld := ⟨47, 0, .u, .basic, .ro⟩
def engRejectWord_WORD : Fld := ⟨63, 0, .u, .basic, .ro⟩
def engCtrl_ZGATE_OFF : Fld := ⟨2, 2, .p, .expert, .rw⟩
def engCtrl_CLR_COUNTS : Fld := ⟨1, 1, .p, .basic, .wo⟩
def engCtrl_EXPERT_UNLOCK : Fld := ⟨0, 0, .p, .basic, .rw⟩
def engFusedLo_ENGINES : Fld := ⟨63, 0, .p, .basic, .ro⟩
def engFusedHi_ENGINES : Fld := ⟨63, 0, .p, .basic, .ro⟩
def engCoreMap_MAP : Fld := ⟨63, 0, .p, .basic, .ro⟩
def engGradeMask_GRADE : Fld := ⟨3, 0, .p, .expert, .rw⟩
def scvCoreCtrl_QLIMIT : Fld := ⟨7, 4, .p, .expert, .rw⟩
def scvCoreCtrl_RUN : Fld := ⟨0, 0, .p, .basic, .rw⟩
def scvIssueStall_COUNT : Fld := ⟨47, 0, .u, .basic, .ro⟩
def scvCtx_CAUSE : Fld := ⟨39, 36, .p, .basic, .ro⟩
def scvCtx_WAITCAUSE : Fld := ⟨35, 32, .p, .basic, .ro⟩
def scvCtx_PRIO : Fld := ⟨5, 4, .p, .basic, .rw⟩
def scvCtx_STATE : Fld := ⟨2, 0, .p, .basic, .ro⟩
def scvCtxPc_PC : Fld := ⟨47, 0, .p, .basic, .ro⟩
def scvCtxCmd_CMD : Fld := ⟨63, 61, .p, .basic, .wo⟩
def scvCtxCmd_CTX : Fld := ⟨49, 48, .p, .basic, .wo⟩
def scvCtxCmd_ADDR : Fld := ⟨47, 0, .p, .basic, .wo⟩
def scvCtrl_CLR_COUNTS : Fld := ⟨1, 1, .p, .basic, .wo⟩
def scvCtrl_EXPERT_UNLOCK : Fld := ⟨0, 0, .p, .basic, .rw⟩
def scvBeat_COUNT : Fld := ⟨63, 0, .u, .basic, .ro⟩
def scvTime_NS : Fld := ⟨63, 0, .u, .basic, .ro⟩
def scvRate_UNCAL : Fld := ⟨32, 32, .u, .basic, .ro⟩
def scvRate_MEAS_MHZ : Fld := ⟨31, 16, .u, .basic, .ro⟩
def scvRate_CAL_MHZ : Fld := ⟨15, 0, .u, .basic, .ro⟩
def scvSchedCtrl_MIN_RATE_MHZ : Fld := ⟨31, 16, .p, .basic, .rw⟩
def scvSchedCtrl_MARGIN_PCT : Fld := ⟨8, 0, .p, .expert, .rw⟩
def scvStepStatus_LATE : Fld := ⟨63, 48, .u, .basic, .ro⟩
def scvStepStatus_MISUSE : Fld := ⟨47, 32, .u, .basic, .ro⟩
def scvStepStatus_OPEN : Fld := ⟨12, 8, .u, .basic, .ro⟩
def scvStepStatus_RATE_LOW : Fld := ⟨4, 4, .u, .basic, .ro⟩
def scvStepStatus_LOG_NEXT : Fld := ⟨3, 0, .u, .basic, .ro⟩
def scvStepAbort_ID : Fld := ⟨15, 0, .p, .basic, .wo⟩
def scvStepLogA_ID : Fld := ⟨63, 48, .u, .basic, .ro⟩
def scvStepLogA_STATUS : Fld := ⟨47, 46, .u, .basic, .ro⟩
def scvStepLogA_DURATION_NS : Fld := ⟨31, 0, .u, .basic, .ro⟩
def scvStepLogB_LATE_NS : Fld := ⟨63, 32, .u, .basic, .ro⟩
def scvStepLogB_FREEZE_MAX : Fld := ⟨31, 0, .u, .basic, .ro⟩
def wstStoreCtrl_QUIET : Fld := ⟨3, 3, .u, .basic, .ro⟩
def wstStoreCtrl_NPOLICY : Fld := ⟨1, 1, .p, .basic, .rw⟩
def wstStoreCtrl_INVAR : Fld := ⟨0, 0, .p, .basic, .rw⟩
def wstCtrl_CLEAR_BUSY : Fld := ⟨3, 3, .u, .basic, .ro⟩
def wstCtrl_CLEAR : Fld := ⟨2, 2, .p, .basic, .wo⟩
def wstCtrl_CLR_COUNTS : Fld := ⟨1, 1, .p, .basic, .wo⟩
def wstCtrl_EXPERT_UNLOCK : Fld := ⟨0, 0, .p, .basic, .rw⟩
def wstErrCount_CE : Fld := ⟨63, 40, .u, .basic, .ro⟩
def wstErrCount_UE : Fld := ⟨39, 24, .u, .basic, .ro⟩
def wstErrCount_SCRUB : Fld := ⟨23, 0, .u, .basic, .ro⟩
def wstErrAddr_KIND : Fld := ⟨63, 62, .u, .basic, .ro⟩
def wstErrAddr_ADDR : Fld := ⟨47, 0, .u, .basic, .ro⟩
def wstRepairSel_UNIT : Fld := ⟨23, 16, .p, .basic, .rw⟩
def wstRepairSel_BANK : Fld := ⟨9, 4, .p, .basic, .rw⟩
def wstRepairSel_ENTRY : Fld := ⟨2, 0, .p, .basic, .rw⟩
def wstRepairEntry_VALID : Fld := ⟨15, 15, .p, .expert, .rw⟩
def wstRepairEntry_BAD : Fld := ⟨14, 14, .p, .basic, .ro⟩
def wstRepairEntry_SOURCE : Fld := ⟨13, 12, .p, .basic, .ro⟩
def wstRepairEntry_ROW : Fld := ⟨9, 0, .p, .expert, .rw⟩
def wstRepairStatus_USED : Fld := ⟨63, 48, .u, .basic, .ro⟩
def wstRepairStatus_EXHAUSTED : Fld := ⟨47, 40, .u, .basic, .ro⟩
def wstRepairStatus_UNREPAIRED : Fld := ⟨39, 32, .u, .basic, .ro⟩
def wstJobTag_ANY : Fld := ⟨16, 16, .u, .basic, .ro⟩
def wstJobTag_JOB : Fld := ⟨15, 0, .u, .basic, .ro⟩
def wstBistCtrl_INTERVAL : Fld := ⟨39, 16, .p, .expert, .rw⟩
def wstBistCtrl_ENABLE : Fld := ⟨0, 0, .p, .basic, .rw⟩
def wstBistStatus_PASSES : Fld := ⟨63, 48, .u, .basic, .ro⟩
def wstBistStatus_OVERRUNS : Fld := ⟨47, 32, .u, .basic, .ro⟩
def wstBistStatus_REGION : Fld := ⟨16, 0, .u, .basic, .ro⟩
def wstNarrowStall_COUNT : Fld := ⟨47, 0, .u, .basic, .ro⟩
def astCtrl_CLEAR_BUSY : Fld := ⟨3, 3, .u, .basic, .ro⟩
def astCtrl_CLEAR : Fld := ⟨2, 2, .p, .basic, .wo⟩
def astCtrl_CLR_COUNTS : Fld := ⟨1, 1, .p, .basic, .wo⟩
def astCtrl_EXPERT_UNLOCK : Fld := ⟨0, 0, .p, .basic, .rw⟩
def astErrCount_CE : Fld := ⟨63, 40, .u, .basic, .ro⟩
def astErrCount_UE : Fld := ⟨39, 24, .u, .basic, .ro⟩
def astErrCount_SCRUB : Fld := ⟨23, 0, .u, .basic, .ro⟩
def astErrAddr_KIND : Fld := ⟨63, 62, .u, .basic, .ro⟩
def astErrAddr_ADDR : Fld := ⟨47, 0, .u, .basic, .ro⟩
def astRepairSel_UNIT : Fld := ⟨23, 16, .p, .basic, .rw⟩
def astRepairSel_BANK : Fld := ⟨9, 4, .p, .basic, .rw⟩
def astRepairSel_ENTRY : Fld := ⟨2, 0, .p, .basic, .rw⟩
def astRepairEntry_VALID : Fld := ⟨15, 15, .p, .expert, .rw⟩
def astRepairEntry_BAD : Fld := ⟨14, 14, .p, .basic, .ro⟩
def astRepairEntry_SOURCE : Fld := ⟨13, 12, .p, .basic, .ro⟩
def astRepairEntry_ROW : Fld := ⟨9, 0, .p, .expert, .rw⟩
def astRepairStatus_USED : Fld := ⟨63, 48, .u, .basic, .ro⟩
def astRepairStatus_EXHAUSTED : Fld := ⟨47, 40, .u, .basic, .ro⟩
def astRepairStatus_UNREPAIRED : Fld := ⟨39, 32, .u, .basic, .ro⟩
def pstCtrl_CLEAR_BUSY : Fld := ⟨3, 3, .u, .basic, .ro⟩
def pstCtrl_CLEAR : Fld := ⟨2, 2, .p, .basic, .wo⟩
def pstCtrl_CLR_COUNTS : Fld := ⟨1, 1, .p, .basic, .wo⟩
def pstCtrl_EXPERT_UNLOCK : Fld := ⟨0, 0, .p, .basic, .rw⟩
def pstErrCount_CE : Fld := ⟨63, 40, .u, .basic, .ro⟩
def pstErrCount_UE : Fld := ⟨39, 24, .u, .basic, .ro⟩
def pstErrCount_SCRUB : Fld := ⟨23, 0, .u, .basic, .ro⟩
def pstErrAddr_KIND : Fld := ⟨63, 62, .u, .basic, .ro⟩
def pstErrAddr_ADDR : Fld := ⟨47, 0, .u, .basic, .ro⟩
def pstRepairSel_UNIT : Fld := ⟨23, 16, .p, .basic, .rw⟩
def pstRepairSel_BANK : Fld := ⟨9, 4, .p, .basic, .rw⟩
def pstRepairSel_ENTRY : Fld := ⟨2, 0, .p, .basic, .rw⟩
def pstRepairEntry_VALID : Fld := ⟨15, 15, .p, .expert, .rw⟩
def pstRepairEntry_BAD : Fld := ⟨14, 14, .p, .basic, .ro⟩
def pstRepairEntry_SOURCE : Fld := ⟨13, 12, .p, .basic, .ro⟩
def pstRepairEntry_ROW : Fld := ⟨9, 0, .p, .expert, .rw⟩
def pstRepairStatus_USED : Fld := ⟨63, 48, .u, .basic, .ro⟩
def pstRepairStatus_EXHAUSTED : Fld := ⟨47, 40, .u, .basic, .ro⟩
def pstRepairStatus_UNREPAIRED : Fld := ⟨39, 32, .u, .basic, .ro⟩
def fdxFeedStatus_AQ_ENTRIES : Fld := ⟨46, 40, .u, .basic, .ro⟩
def fdxFeedStatus_AFEEDS : Fld := ⟨34, 32, .u, .basic, .ro⟩
def fdxFeedStatus_TREQS : Fld := ⟨26, 24, .u, .basic, .ro⟩
def fdxFeedStatus_RXLINES : Fld := ⟨18, 16, .u, .basic, .ro⟩
def fdxFeedStatus_TORD_POS : Fld := ⟨7, 4, .u, .basic, .ro⟩
def fdxFeedStatus_TORD_N : Fld := ⟨3, 0, .u, .basic, .ro⟩
def fdxPortHold_COUNT : Fld := ⟨47, 0, .u, .basic, .ro⟩
def fdxFeedStall_COUNT : Fld := ⟨47, 0, .u, .basic, .ro⟩
def fdxExpStatus_ERR_CAUSE : Fld := ⟨19, 16, .u, .basic, .ro⟩
def fdxExpStatus_ERROR : Fld := ⟨2, 2, .u, .basic, .w1c⟩
def fdxExpStatus_STAGING : Fld := ⟨1, 1, .u, .basic, .ro⟩
def fdxExpStatus_BUSY : Fld := ⟨0, 0, .u, .basic, .ro⟩
def fdxExpBlocks_COUNT : Fld := ⟨47, 0, .u, .basic, .ro⟩
def fdxExpBehind_COUNT : Fld := ⟨47, 0, .u, .basic, .ro⟩
def fdxCtrl_CLR_COUNTS : Fld := ⟨1, 1, .p, .basic, .wo⟩
def fdxCtrl_EXPERT_UNLOCK : Fld := ⟨0, 0, .p, .basic, .rw⟩
def fdxCompCtrl_TBL_B4 : Fld := ⟨35, 32, .p, .basic, .rw⟩
def fdxCompCtrl_TBL_BF16 : Fld := ⟨31, 28, .p, .basic, .rw⟩
def fdxCompCtrl_TBL_INT8 : Fld := ⟨27, 24, .p, .basic, .rw⟩
def fdxCompCtrl_TBL_E5M2 : Fld := ⟨23, 20, .p, .basic, .rw⟩
def fdxCompCtrl_TBL_E4M3 : Fld := ⟨19, 16, .p, .basic, .rw⟩
def fdxCompCtrl_ZRUN_OFF : Fld := ⟨2, 2, .p, .expert, .rw⟩
def fdxCompCtrl_EPC_OFF : Fld := ⟨1, 1, .p, .expert, .rw⟩
def fdxLowratio_COUNT : Fld := ⟨47, 0, .u, .basic, .ro⟩
def fdxMcastCtrl_WAIT_LIMIT : Fld := ⟨31, 0, .p, .expert, .rw⟩
def fdxMcastStatus_TIMEOUTS : Fld := ⟨63, 48, .u, .basic, .ro⟩
def fdxMcastStatus_DONE_ERRS : Fld := ⟨47, 32, .u, .basic, .ro⟩
def fdxMcastStatus_RESIDENT : Fld := ⟨20, 6, .u, .basic, .ro⟩
def fdxMcastStatus_BUSQ : Fld := ⟨5, 0, .u, .basic, .ro⟩
def fdxMcastWait_COUNT : Fld := ⟨47, 0, .u, .basic, .ro⟩
def fdxEpcTag_VALID : Fld := ⟨31, 31, .p, .basic, .rw⟩
def fdxEpcTag_WIDTH : Fld := ⟨19, 16, .p, .basic, .rw⟩
def fdxEpcTag_TAG : Fld := ⟨15, 0, .p, .basic, .rw⟩
def fdxEpcLen_LENGTHS : Fld := ⟨63, 0, .p, .basic, .rw⟩
def dmaQstatus_CAUSE : Fld := ⟨15, 12, .u, .basic, .ro⟩
def dmaQstatus_POISON : Fld := ⟨10, 10, .u, .basic, .w1c⟩
def dmaQstatus_ERROR : Fld := ⟨9, 9, .u, .basic, .w1c⟩
def dmaQstatus_ACTIVE : Fld := ⟨8, 6, .u, .basic, .ro⟩
def dmaQstatus_QDEPTH : Fld := ⟨5, 0, .u, .basic, .ro⟩
def dmaErrDesc_ADDR : Fld := ⟨47, 0, .u, .basic, .ro⟩
def dmaDoneCount_COUNT : Fld := ⟨47, 0, .u, .basic, .ro⟩
def dmaPost_ADDR : Fld := ⟨47, 0, .p, .basic, .wo⟩
def dmaTxnRes_COUNT : Fld := ⟨13, 0, .p, .expert, .rw⟩
def dmaCtrl_CLR_COUNTS : Fld := ⟨1, 1, .p, .basic, .wo⟩
def dmaCtrl_EXPERT_UNLOCK : Fld := ⟨0, 0, .p, .basic, .rw⟩
def dmaTxnCore_COUNT : Fld := ⟨13, 0, .p, .expert, .rw⟩
def dmaTxnStatus_WAITS : Fld := ⟨63, 48, .u, .basic, .ro⟩
def dmaTxnStatus_POOL_FREE : Fld := ⟨29, 16, .u, .basic, .ro⟩
def dmaTxnStatus_INUSE : Fld := ⟨13, 0, .u, .basic, .ro⟩
def dmaRwinA_STATE : Fld := ⟨63, 61, .p, .basic, .ro⟩
def dmaRwinA_ROUTE : Fld := ⟨59, 58, .p, .basic, .rw⟩
def dmaRwinA_PERM : Fld := ⟨57, 55, .p, .basic, .rw⟩
def dmaRwinA_SIZE : Fld := ⟨54, 50, .p, .basic, .rw⟩
def dmaRwinA_TARGET_POS : Fld := ⟨49, 41, .p, .basic, .rw⟩
def dmaRwinA_TARGET_RING : Fld := ⟨40, 38, .p, .basic, .rw⟩
def dmaRwinA_OPEN : Fld := ⟨0, 0, .p, .basic, .rw⟩
def dmaRwinB_REMOTE_BASE : Fld := ⟨47, 0, .p, .basic, .rw⟩
def dmaRimpA_VALID : Fld := ⟨63, 63, .p, .basic, .rw⟩
def dmaRimpA_PERM : Fld := ⟨62, 60, .p, .basic, .rw⟩
def dmaRimpA_SIZE : Fld := ⟨59, 55, .p, .basic, .rw⟩
def dmaRimpA_BASE : Fld := ⟨47, 0, .p, .basic, .rw⟩
def dmaRimpB_JOB : Fld := ⟨63, 48, .p, .basic, .rw⟩
def dmaRimpB_ANY_SRC : Fld := ⟨13, 13, .p, .basic, .rw⟩
def dmaRimpB_SRC_RING : Fld := ⟨11, 9, .p, .basic, .rw⟩
def dmaRimpB_SRC_POS : Fld := ⟨8, 0, .p, .basic, .rw⟩
def syncCtr_SAT : Fld := ⟨63, 63, .p, .basic, .w1c⟩
def syncCtr_UNDER : Fld := ⟨62, 62, .p, .basic, .w1c⟩
def syncCtr_VALUE : Fld := ⟨47, 0, .p, .basic, .rw⟩
def syncCtrl_CLEAR : Fld := ⟨2, 2, .p, .basic, .wo⟩
def syncCtrl_CLR_COUNTS : Fld := ⟨1, 1, .p, .basic, .wo⟩
def syncCtrl_EXPERT_UNLOCK : Fld := ⟨0, 0, .p, .basic, .rw⟩
def syncStatus_MISUSE : Fld := ⟨63, 48, .u, .basic, .ro⟩
def syncStatus_UNDER : Fld := ⟨47, 32, .u, .basic, .ro⟩
def syncStatus_LAST_SRC : Fld := ⟨31, 28, .u, .basic, .ro⟩
def syncStatus_LAST_PHYS : Fld := ⟨12, 0, .u, .basic, .ro⟩
def syncXlSel_CORE : Fld := ⟨20, 16, .p, .basic, .rw⟩
def syncXlSel_SLOT : Fld := ⟨13, 12, .p, .basic, .rw⟩
def syncXlSel_VID : Fld := ⟨11, 0, .p, .basic, .rw⟩
def syncXlEntry_VALID : Fld := ⟨15, 15, .p, .basic, .rw⟩
def syncXlEntry_S : Fld := ⟨14, 14, .p, .basic, .rw⟩
def syncXlEntry_W : Fld := ⟨13, 13, .p, .basic, .rw⟩
def syncXlEntry_PHYS : Fld := ⟨12, 0, .p, .basic, .rw⟩
def syncCrdMap_PAIRS : Fld := ⟨63, 0, .p, .basic, .rw⟩
def syncCrdFb_PAIRS : Fld := ⟨63, 0, .p, .basic, .rw⟩
def syncBarA_CMASK : Fld := ⟨63, 32, .p, .basic, .rw⟩
def syncBarA_ARRIVED : Fld := ⟨31, 0, .p, .basic, .ro⟩
def syncBarB_STATE : Fld := ⟨63, 61, .p, .basic, .ro⟩
def syncBarB_LEVEL : Fld := ⟨60, 58, .p, .basic, .rw⟩
def syncBarB_DMASK : Fld := ⟨57, 56, .p, .basic, .rw⟩
def syncBarB_DARR : Fld := ⟨55, 54, .p, .basic, .ro⟩
def syncBarB_FORCE : Fld := ⟨51, 51, .p, .expert, .wo⟩
def syncBarB_DISARM : Fld := ⟨50, 50, .p, .basic, .wo⟩
def syncBarB_ARM : Fld := ⟨49, 49, .p, .basic, .wo⟩
def syncBarB_SEG_HOST : Fld := ⟨48, 40, .p, .basic, .rw⟩
def syncBarB_RING_HOST : Fld := ⟨39, 31, .p, .basic, .rw⟩
def syncBarC_RING_MASK : Fld := ⟨63, 32, .p, .basic, .rw⟩
def syncBarC_RING_ARR : Fld := ⟨31, 0, .p, .basic, .ro⟩
def syncBarD_SEG_MASK : Fld := ⟨63, 48, .p, .basic, .rw⟩
def syncBarD_SEG_ARR : Fld := ⟨47, 32, .p, .basic, .ro⟩
def circRingConf_SEGMENTS : Fld := ⟨47, 40, .p, .basic, .rw⟩
def circRingConf_MODE : Fld := ⟨31, 30, .p, .basic, .rw⟩
def circRingConf_ARC_ACTIVE : Fld := ⟨29, 20, .u, .basic, .ro⟩
def circRingConf_ENABLE : Fld := ⟨0, 0, .p, .basic, .rw⟩
def circPosition_VALID : Fld := ⟨31, 31, .u, .basic, .ro⟩
def circPosition_SPARE : Fld := ⟨30, 30, .u, .basic, .ro⟩
def circPosition_POS : Fld := ⟨8, 0, .u, .basic, .ro⟩
def circPeriodTarget_NS : Fld := ⟨39, 0, .p, .basic, .rw⟩
def circPhase_OFFSET_NS : Fld := ⟨63, 32, .u, .basic, .ro⟩
def circPhase_PERIOD_NS : Fld := ⟨31, 0, .u, .basic, .ro⟩
def circWindow_RESERVE_KIB : Fld := ⟨47, 32, .p, .expert, .rw⟩
def circWindow_CAP_KIB : Fld := ⟨17, 0, .p, .basic, .ro⟩
def circArc_JOB : Fld := ⟨63, 48, .p, .basic, .rw⟩
def circArc_FIRST : Fld := ⟨47, 39, .p, .basic, .rw⟩
def circArc_LAST : Fld := ⟨38, 30, .p, .basic, .rw⟩
def circArc_INDEX : Fld := ⟨29, 25, .p, .basic, .rw⟩
def circArc_SPLIT : Fld := ⟨24, 16, .p, .basic, .rw⟩
def circArc_VALID : Fld := ⟨0, 0, .p, .basic, .rw⟩
def circUpdate_STEP : Fld := ⟨63, 32, .u, .basic, .ro⟩
def circUpdate_DAMAGED : Fld := ⟨3, 3, .u, .basic, .ro⟩
def circUpdate_SYNC : Fld := ⟨2, 2, .p, .expert, .rw⟩
def circUpdate_GRAD_FMT : Fld := ⟨1, 0, .p, .expert, .rw⟩
def circCtrl_EXPERT_UNLOCK : Fld := ⟨0, 0, .p, .basic, .rw⟩
def circPartE_VALID3 : Fld := ⟨63, 63, .p, .basic, .rw⟩
def circPartE_ARC3 : Fld := ⟨62, 58, .p, .basic, .rw⟩
def circPartE_ROLE3 : Fld := ⟨57, 56, .p, .basic, .rw⟩
def circPartE_COUNT3 : Fld := ⟨53, 48, .p, .basic, .rw⟩
def circPartE_VALID2 : Fld := ⟨47, 47, .p, .basic, .rw⟩
def circPartE_ARC2 : Fld := ⟨46, 42, .p, .basic, .rw⟩
def circPartE_ROLE2 : Fld := ⟨41, 40, .p, .basic, .rw⟩
def circPartE_COUNT2 : Fld := ⟨37, 32, .p, .basic, .rw⟩
def circPartE_VALID1 : Fld := ⟨31, 31, .p, .basic, .rw⟩
def circPartE_ARC1 : Fld := ⟨30, 26, .p, .basic, .rw⟩
def circPartE_ROLE1 : Fld := ⟨25, 24, .p, .basic, .rw⟩
def circPartE_COUNT1 : Fld := ⟨21, 16, .p, .basic, .rw⟩
def circPartE_VALID0 : Fld := ⟨15, 15, .p, .basic, .rw⟩
def circPartE_ARC0 : Fld := ⟨14, 10, .p, .basic, .rw⟩
def circPartE_ROLE0 : Fld := ⟨9, 8, .p, .basic, .rw⟩
def circPartE_COUNT0 : Fld := ⟨5, 0, .p, .basic, .rw⟩
def circPartW_VALID3 : Fld := ⟨63, 63, .p, .basic, .rw⟩
def circPartW_ARC3 : Fld := ⟨62, 58, .p, .basic, .rw⟩
def circPartW_ROLE3 : Fld := ⟨57, 56, .p, .basic, .rw⟩
def circPartW_COUNT3 : Fld := ⟨53, 48, .p, .basic, .rw⟩
def circPartW_VALID2 : Fld := ⟨47, 47, .p, .basic, .rw⟩
def circPartW_ARC2 : Fld := ⟨46, 42, .p, .basic, .rw⟩
def circPartW_ROLE2 : Fld := ⟨41, 40, .p, .basic, .rw⟩
def circPartW_COUNT2 : Fld := ⟨37, 32, .p, .basic, .rw⟩
def circPartW_VALID1 : Fld := ⟨31, 31, .p, .basic, .rw⟩
def circPartW_ARC1 : Fld := ⟨30, 26, .p, .basic, .rw⟩
def circPartW_ROLE1 : Fld := ⟨25, 24, .p, .basic, .rw⟩
def circPartW_COUNT1 : Fld := ⟨21, 16, .p, .basic, .rw⟩
def circPartW_VALID0 : Fld := ⟨15, 15, .p, .basic, .rw⟩
def circPartW_ARC0 : Fld := ⟨14, 10, .p, .basic, .rw⟩
def circPartW_ROLE0 : Fld := ⟨9, 8, .p, .basic, .rw⟩
def circPartW_COUNT0 : Fld := ⟨5, 0, .p, .basic, .rw⟩
def circStatus_JUNCTION_MISSES : Fld := ⟨63, 48, .u, .basic, .ro⟩
def circStatus_PERIOD_SHORT : Fld := ⟨1, 1, .u, .basic, .ro⟩
def circStatus_RUNNING : Fld := ⟨0, 0, .u, .basic, .ro⟩
def circCohort_STATE : Fld := ⟨63, 61, .u, .basic, .ro⟩
def circCohort_CLASS : Fld := ⟨60, 59, .u, .basic, .ro⟩
def circCohort_LAYER : Fld := ⟨56, 48, .u, .basic, .ro⟩
def circCohort_ROWS : Fld := ⟨47, 39, .u, .basic, .ro⟩
def circCohort_ROWS_MAX : Fld := ⟨38, 30, .p, .basic, .rw⟩
def circCohort_RELEASE : Fld := ⟨1, 1, .p, .basic, .wo⟩
def circCohort_HOLD : Fld := ⟨0, 0, .p, .basic, .rw⟩
def circPortCtrl_ENABLE : Fld := ⟨0, 0, .p, .basic, .rw⟩
def circPortStatus_STATE : Fld := ⟨63, 61, .u, .basic, .ro⟩
def circPortStatus_CAUSE : Fld := ⟨59, 56, .u, .basic, .ro⟩
def circPortStatus_LOGICAL : Fld := ⟨45, 40, .u, .basic, .ro⟩
def circPortStatus_SPARES_FREE : Fld := ⟨39, 38, .u, .basic, .ro⟩
def circPortStatus_RETRIES : Fld := ⟨31, 0, .u, .basic, .ro⟩
def circPortPeer_PEER_FP : Fld := ⟨63, 32, .p, .basic, .ro⟩
def circPortPeer_PEER_RING : Fld := ⟨31, 29, .p, .basic, .ro⟩
def circPortPeer_PEER_POS : Fld := ⟨28, 20, .p, .basic, .ro⟩
def circPortPeer_PEER_PORT : Fld := ⟨19, 17, .p, .basic, .ro⟩
def circPortPeer_PEER_POS_VALID : Fld := ⟨16, 16, .p, .basic, .ro⟩
def circPortPeer_PEER_EPOCH : Fld := ⟨15, 8, .p, .basic, .ro⟩
def circPortPeer_PEER_ADMITTED : Fld := ⟨0, 0, .p, .basic, .ro⟩
def circPortEpoch_PEER_EPOCH_FULL : Fld := ⟨31, 0, .p, .basic, .ro⟩
def circPartSe_VALID3 : Fld := ⟨63, 63, .p, .basic, .rw⟩
def circPartSe_ARC3 : Fld := ⟨62, 58, .p, .basic, .rw⟩
def circPartSe_ROLE3 : Fld := ⟨57, 56, .p, .basic, .rw⟩
def circPartSe_COUNT3 : Fld := ⟨53, 48, .p, .basic, .rw⟩
def circPartSe_VALID2 : Fld := ⟨47, 47, .p, .basic, .rw⟩
def circPartSe_ARC2 : Fld := ⟨46, 42, .p, .basic, .rw⟩
def circPartSe_ROLE2 : Fld := ⟨41, 40, .p, .basic, .rw⟩
def circPartSe_COUNT2 : Fld := ⟨37, 32, .p, .basic, .rw⟩
def circPartSe_VALID1 : Fld := ⟨31, 31, .p, .basic, .rw⟩
def circPartSe_ARC1 : Fld := ⟨30, 26, .p, .basic, .rw⟩
def circPartSe_ROLE1 : Fld := ⟨25, 24, .p, .basic, .rw⟩
def circPartSe_COUNT1 : Fld := ⟨21, 16, .p, .basic, .rw⟩
def circPartSe_VALID0 : Fld := ⟨15, 15, .p, .basic, .rw⟩
def circPartSe_ARC0 : Fld := ⟨14, 10, .p, .basic, .rw⟩
def circPartSe_ROLE0 : Fld := ⟨9, 8, .p, .basic, .rw⟩
def circPartSe_COUNT0 : Fld := ⟨5, 0, .p, .basic, .rw⟩
def circPartSw_VALID3 : Fld := ⟨63, 63, .p, .basic, .rw⟩
def circPartSw_ARC3 : Fld := ⟨62, 58, .p, .basic, .rw⟩
def circPartSw_ROLE3 : Fld := ⟨57, 56, .p, .basic, .rw⟩
def circPartSw_COUNT3 : Fld := ⟨53, 48, .p, .basic, .rw⟩
def circPartSw_VALID2 : Fld := ⟨47, 47, .p, .basic, .rw⟩
def circPartSw_ARC2 : Fld := ⟨46, 42, .p, .basic, .rw⟩
def circPartSw_ROLE2 : Fld := ⟨41, 40, .p, .basic, .rw⟩
def circPartSw_COUNT2 : Fld := ⟨37, 32, .p, .basic, .rw⟩
def circPartSw_VALID1 : Fld := ⟨31, 31, .p, .basic, .rw⟩
def circPartSw_ARC1 : Fld := ⟨30, 26, .p, .basic, .rw⟩
def circPartSw_ROLE1 : Fld := ⟨25, 24, .p, .basic, .rw⟩
def circPartSw_COUNT1 : Fld := ⟨21, 16, .p, .basic, .rw⟩
def circPartSw_VALID0 : Fld := ⟨15, 15, .p, .basic, .rw⟩
def circPartSw_ARC0 : Fld := ⟨14, 10, .p, .basic, .rw⟩
def circPartSw_ROLE0 : Fld := ⟨9, 8, .p, .basic, .rw⟩
def circPartSw_COUNT0 : Fld := ⟨5, 0, .p, .basic, .rw⟩
def circLinkCtrl_RETRY_NS : Fld := ⟨63, 48, .p, .expert, .rw⟩
def circLinkCtrl_SUB_UNCORR : Fld := ⟨47, 40, .p, .expert, .rw⟩
def circLinkCtrl_SUB_MARGIN : Fld := ⟨39, 32, .p, .expert, .rw⟩
def circLinkCtrl_SUB_AUTO : Fld := ⟨0, 0, .p, .basic, .rw⟩
def circAdmit_STATE : Fld := ⟨63, 62, .p, .basic, .rw⟩
def circAdmit_RING_ID : Fld := ⟨61, 59, .p, .basic, .rw⟩
def circAdmit_EPOCH : Fld := ⟨31, 0, .p, .basic, .rw⟩
def circForm_STATE : Fld := ⟨63, 61, .u, .basic, .ro⟩
def circForm_CAUSE : Fld := ⟨60, 57, .u, .basic, .ro⟩
def circForm_SEGMENTS : Fld := ⟨47, 40, .p, .basic, .rw⟩
def circForm_START : Fld := ⟨0, 0, .p, .basic, .wo⟩
def circBypass_MODE : Fld := ⟨63, 61, .u, .basic, .ro⟩
def circBypass_ARC_LOST : Fld := ⟨60, 60, .u, .basic, .ro⟩
def circBypass_BYP_POS : Fld := ⟨59, 51, .u, .basic, .ro⟩
def circBypass_CMD : Fld := ⟨50, 48, .p, .basic, .wo⟩
def circBypass_AUTO : Fld := ⟨0, 0, .p, .basic, .rw⟩
def circSplice_STATE : Fld := ⟨63, 61, .u, .basic, .ro⟩
def circSplice_CAPTURED : Fld := ⟨31, 8, .u, .basic, .ro⟩
def circSplice_ARM : Fld := ⟨1, 1, .p, .basic, .wo⟩
def circSplice_ABORT : Fld := ⟨0, 0, .p, .basic, .wo⟩
def circReinjA_FIRST : Fld := ⟨63, 40, .u, .basic, .ro⟩
def circReinjA_LAST : Fld := ⟨39, 16, .u, .basic, .ro⟩
def circReinjA_STATE : Fld := ⟨15, 13, .u, .basic, .ro⟩
def circReinjA_STREAM : Fld := ⟨12, 12, .u, .basic, .ro⟩
def circReinjB_RECEIVED : Fld := ⟨63, 40, .u, .basic, .ro⟩
def circReinjB_RELOADED : Fld := ⟨39, 16, .u, .basic, .ro⟩
def circReinjB_GAPS : Fld := ⟨15, 0, .u, .basic, .ro⟩
def circReinjCtrl_STAGE_MIB : Fld := ⟨63, 48, .p, .expert, .rw⟩
def circReinjCtrl_TIMEOUT_MS : Fld := ⟨47, 40, .p, .expert, .rw⟩
def circReinjCtrl_STAGE_BASE : Fld := ⟨39, 0, .p, .expert, .rw⟩
def circStreamLen_NB_W : Fld := ⟨47, 24, .p, .basic, .rw⟩
def circStreamLen_NB_E : Fld := ⟨23, 0, .p, .basic, .rw⟩
def circOwn_VALID : Fld := ⟨63, 63, .p, .basic, .rw⟩
def circOwn_STREAM : Fld := ⟨62, 62, .p, .basic, .rw⟩
def circOwn_FIRST : Fld := ⟨47, 24, .p, .basic, .rw⟩
def circOwn_COUNT : Fld := ⟨23, 0, .p, .basic, .rw⟩
def circLaneA_STATE : Fld := ⟨63, 61, .u, .basic, .ro⟩
def circLaneA_LOGICAL : Fld := ⟨60, 55, .u, .basic, .ro⟩
def circLaneA_MARGIN : Fld := ⟨54, 47, .u, .basic, .ro⟩
def circLaneA_CORR_SYM : Fld := ⟨31, 0, .u, .basic, .ro⟩
def circLaneB_UNCORR_CW : Fld := ⟨63, 48, .u, .basic, .ro⟩
def circLaneB_NAKS : Fld := ⟨47, 32, .u, .basic, .ro⟩
def circLaneB_FORCE_SUB : Fld := ⟨0, 0, .p, .expert, .wo⟩
def hbmCtrl_CLR_COUNTS : Fld := ⟨1, 1, .p, .basic, .wo⟩
def hbmCtrl_EXPERT_UNLOCK : Fld := ⟨0, 0, .p, .basic, .rw⟩
def hbmRetrainCtrl_PERIOD_US : Fld := ⟨31, 16, .p, .expert, .rw⟩
def hbmRetrainCtrl_GAP_NS : Fld := ⟨7, 0, .p, .expert, .rw⟩
def hbmRetireCtrl_AUTO : Fld := ⟨8, 8, .p, .expert, .rw⟩
def hbmRetireCtrl_UE_LIMIT : Fld := ⟨7, 0, .p, .expert, .rw⟩
def hbmStackStatus_STATE : Fld := ⟨63, 61, .u, .basic, .ro⟩
def hbmStackStatus_PENDING : Fld := ⟨60, 60, .u, .basic, .ro⟩
def hbmStackStatus_CAUSE : Fld := ⟨59, 56, .u, .basic, .ro⟩
def hbmStackStatus_LANES_REPAIRED : Fld := ⟨23, 16, .u, .basic, .ro⟩
def hbmStackStatus_TEMP : Fld := ⟨15, 8, .u, .basic, .ro⟩
def hbmStackErr_CE : Fld := ⟨63, 32, .u, .basic, .ro⟩
def hbmStackErr_UE : Fld := ⟨31, 16, .u, .basic, .ro⟩
def hbmStackErr_FORCED : Fld := ⟨15, 0, .u, .basic, .ro⟩
def hbmStackCmd_RETIRE : Fld := ⟨0, 0, .p, .expert, .wo⟩
def lpdCtrl_CLR_COUNTS : Fld := ⟨1, 1, .p, .basic, .wo⟩
def lpdCtrl_EXPERT_UNLOCK : Fld := ⟨0, 0, .p, .basic, .rw⟩
def lpdRetrainCtrl_PERIOD_US : Fld := ⟨31, 16, .p, .expert, .rw⟩
def lpdRetrainCtrl_GAP_NS : Fld := ⟨7, 0, .p, .expert, .rw⟩
def lpdBack_BASE : Fld := ⟨63, 36, .p, .basic, .rw⟩
def lpdBack_SIZE_MIB : Fld := ⟨35, 17, .p, .basic, .rw⟩
def lpdOpt_BASE : Fld := ⟨63, 36, .p, .basic, .rw⟩
def lpdOpt_SIZE_MIB : Fld := ⟨35, 17, .p, .basic, .rw⟩
def lpdPark_BASE : Fld := ⟨63, 36, .p, .basic, .rw⟩
def lpdPark_SIZE_MIB : Fld := ⟨35, 17, .p, .basic, .rw⟩
def lpdChStatus_STATE : Fld := ⟨63, 61, .u, .basic, .ro⟩
def lpdChStatus_LINK_UE : Fld := ⟨47, 32, .u, .basic, .ro⟩
def lpdChStatus_LINK_CE : Fld := ⟨31, 16, .u, .basic, .ro⟩
def lpdChStatus_FORCED : Fld := ⟨15, 0, .u, .basic, .ro⟩
def mldCtrl_CLR_COUNTS : Fld := ⟨1, 1, .p, .basic, .wo⟩
def mldCtrl_EXPERT_UNLOCK : Fld := ⟨0, 0, .p, .basic, .rw⟩
def mldLinkCtrl_RETRY_NS : Fld := ⟨63, 48, .p, .expert, .rw⟩
def mldLinkCtrl_LOST_MS : Fld := ⟨47, 40, .p, .expert, .rw⟩
def mldLinkCtrl_ENABLE : Fld := ⟨0, 0, .p, .basic, .rw⟩
def mldLinkStatus_STATE : Fld := ⟨63, 61, .u, .basic, .ro⟩
def mldLinkStatus_LANES_UP : Fld := ⟨55, 52, .u, .basic, .ro⟩
def mldLinkStatus_SESSION : Fld := ⟨47, 32, .u, .basic, .ro⟩
def mldLinkStatus_RETRIES : Fld := ⟨31, 16, .u, .basic, .ro⟩
def mldLinkStatus_STALE : Fld := ⟨15, 0, .u, .basic, .ro⟩
def mldSvcCtrl_KV_RESERVE_MIB : Fld := ⟨63, 48, .p, .expert, .rw⟩
def mldSvcCtrl_PREFILL_MAX : Fld := ⟨40, 32, .p, .basic, .rw⟩
def mldSvcCtrl_COMMIT_LAG : Fld := ⟨24, 18, .p, .basic, .rw⟩
def mldSvcCtrl_SAMPLE_BUDGET_US : Fld := ⟨17, 1, .p, .basic, .rw⟩
def mldSvcCtrl_ADMIT : Fld := ⟨0, 0, .p, .basic, .rw⟩
def mldSvcStatus_LOG_USED : Fld := ⟨63, 49, .u, .basic, .ro⟩
def mldSvcStatus_QUEUED : Fld := ⟨48, 36, .u, .basic, .ro⟩
def mldSvcStatus_RESIDENT : Fld := ⟨35, 25, .u, .basic, .ro⟩
def mldSvcStatus_PARKED : Fld := ⟨24, 9, .u, .basic, .ro⟩
def mldSvcCounts_LAGGED : Fld := ⟨63, 32, .u, .basic, .ro⟩
def mldSvcCounts_SAMPLE_OVER : Fld := ⟨31, 16, .u, .basic, .ro⟩
def mldSvcCounts_ACK_ERRS : Fld := ⟨15, 0, .u, .basic, .ro⟩
def fcuCtrl_RESET_HOLD_US : Fld := ⟨47, 32, .p, .expert, .rw⟩
def fcuCtrl_RESUME : Fld := ⟨2, 2, .p, .basic, .wo⟩
def fcuCtrl_CLR_COUNTS : Fld := ⟨1, 1, .p, .basic, .wo⟩
def fcuCtrl_EXPERT_UNLOCK : Fld := ⟨0, 0, .p, .basic, .rw⟩
def fcuStatus_LOST : Fld := ⟨63, 32, .u, .basic, .ro⟩
def fcuStatus_LOG_USED : Fld := ⟨31, 21, .u, .basic, .ro⟩
def fcuStatus_HOLD : Fld := ⟨7, 7, .u, .basic, .ro⟩
def fcuStatus_OFF_RING : Fld := ⟨6, 6, .u, .basic, .ro⟩
def fcuStatus_SCHED_BROKEN : Fld := ⟨5, 5, .u, .basic, .ro⟩
def fcuStatus_LEVEL_MAX : Fld := ⟨2, 0, .u, .basic, .ro⟩
def fcuAck_CLASSES : Fld := ⟨63, 55, .p, .basic, .wo⟩
def fcuAck_SEQ : Fld := ⟨31, 0, .p, .basic, .wo⟩
def fcuPin_DRIVEN_A : Fld := ⟨7, 7, .u, .basic, .ro⟩
def fcuPin_DRIVEN_B : Fld := ⟨6, 6, .u, .basic, .ro⟩
def fcuPin_SENSED_A : Fld := ⟨5, 5, .u, .basic, .ro⟩
def fcuPin_SENSED_B : Fld := ⟨4, 4, .u, .basic, .ro⟩
def fcuPin_RELEASE : Fld := ⟨0, 0, .p, .basic, .wo⟩
def fcuInject_ID : Fld := ⟨63, 52, .p, .expert, .wo⟩
def fcuInject_DIE : Fld := ⟨51, 50, .p, .expert, .wo⟩
def fcuInject_UNIT : Fld := ⟨49, 42, .p, .expert, .wo⟩
def fcuInject_BLOCK : Fld := ⟨39, 32, .p, .expert, .wo⟩
def fcuInject_DETAIL : Fld := ⟨31, 0, .p, .expert, .wo⟩
def fcuLogSel_NEXT : Fld := ⟨25, 16, .p, .basic, .ro⟩
def fcuLogSel_INDEX : Fld := ⟨9, 0, .p, .basic, .rw⟩
def fcuLogData_WORD : Fld := ⟨63, 0, .p, .basic, .ro⟩
def fcuClass_ACKED_SEQ : Fld := ⟨63, 32, .p, .basic, .ro⟩
def fcuClass_UNACK_LEVEL : Fld := ⟨18, 16, .u, .basic, .ro⟩
def fcuClass_SVC_ACK : Fld := ⟨2, 2, .p, .basic, .rw⟩
def fcuClass_ESC_EN : Fld := ⟨0, 0, .p, .expert, .rw⟩
def fcuReact_HUB_INTACT : Fld := ⟨10, 10, .p, .basic, .ro⟩
def fcuReact_MIN : Fld := ⟨9, 7, .p, .basic, .ro⟩
def fcuReact_DEFAULT : Fld := ⟨6, 4, .p, .basic, .ro⟩
def fcuReact_LEVEL : Fld := ⟨2, 0, .p, .expert, .rw⟩
def fcuCount_COUNT : Fld := ⟨47, 0, .u, .basic, .ro⟩
def ptcCtrl_CLR_COUNTS : Fld := ⟨1, 1, .p, .basic, .wo⟩
def ptcCtrl_EXPERT_UNLOCK : Fld := ⟨0, 0, .p, .basic, .rw⟩
def ptcReady_NREADY : Fld := ⟨63, 32, .u, .basic, .ro⟩
def ptcReady_CAL : Fld := ⟨12, 12, .u, .basic, .ro⟩
def ptcReady_SVC : Fld := ⟨11, 11, .u, .basic, .ro⟩
def ptcReady_SPAN : Fld := ⟨10, 10, .u, .basic, .ro⟩
def ptcReady_RING : Fld := ⟨9, 9, .u, .basic, .ro⟩
def ptcReady_DIE1 : Fld := ⟨8, 8, .u, .basic, .ro⟩
def ptcReady_DIE0 : Fld := ⟨7, 7, .u, .basic, .ro⟩
def ptcReady_HBM1 : Fld := ⟨6, 6, .u, .basic, .ro⟩
def ptcReady_HBM0 : Fld := ⟨5, 5, .u, .basic, .ro⟩
def ptcReady_LPD : Fld := ⟨4, 4, .u, .basic, .ro⟩
def ptcReady_CTRL : Fld := ⟨3, 3, .u, .basic, .ro⟩
def ptcReady_FCU : Fld := ⟨2, 2, .u, .basic, .ro⟩
def ptcReady_IMAGE : Fld := ⟨1, 1, .u, .basic, .ro⟩
def ptcReady_ROM : Fld := ⟨0, 0, .u, .basic, .ro⟩
def ptcInput_VIN : Fld := ⟨63, 48, .u, .basic, .ro⟩
def ptcInput_IIN : Fld := ⟨47, 32, .u, .basic, .ro⟩
def ptcInput_PIN_W : Fld := ⟨31, 16, .u, .basic, .ro⟩
def ptcInput_PEAK_W : Fld := ⟨15, 0, .u, .basic, .ro⟩
def ptcCap_LIMIT_W : Fld := ⟨47, 38, .p, .basic, .rw⟩
def ptcCap_EVENTS : Fld := ⟨31, 16, .u, .basic, .ro⟩
def ptcCap_FLOOR : Fld := ⟨3, 3, .u, .basic, .ro⟩
def ptcCap_THERMAL : Fld := ⟨2, 2, .u, .basic, .ro⟩
def ptcCap_POWER : Fld := ⟨1, 1, .u, .basic, .ro⟩
def ptcDieV_ACT_MV : Fld := ⟨47, 38, .u, .basic, .ro⟩
def ptcDieV_EFF_MV : Fld := ⟨37, 28, .u, .basic, .ro⟩
def ptcDieV_SET_MV : Fld := ⟨9, 0, .p, .expert, .rw⟩
def ptcTherm_TJ_D0 : Fld := ⟨63, 56, .u, .basic, .ro⟩
def ptcTherm_TJ_D1 : Fld := ⟨55, 48, .u, .basic, .ro⟩
def ptcTherm_TJ_HUB : Fld := ⟨47, 40, .u, .basic, .ro⟩
def ptcTherm_INLET : Fld := ⟨39, 32, .u, .basic, .ro⟩
def ptcTherm_OUTLET : Fld := ⟨31, 24, .u, .basic, .ro⟩
def ptcThermCtrl_TJ_CAP : Fld := ⟨15, 8, .p, .expert, .rw⟩
def ptcStage_STATE : Fld := ⟨63, 61, .u, .basic, .ro⟩
def ptcStage_PHASES : Fld := ⟨55, 48, .u, .basic, .ro⟩
def ptcStage_WORKING : Fld := ⟨47, 40, .u, .basic, .ro⟩
def ptcStage_LOST_MASK : Fld := ⟨31, 0, .u, .basic, .ro⟩
def ptcTbTime_NS : Fld := ⟨63, 0, .u, .basic, .ro⟩
def ptcTbConf_ALT_VALID : Fld := ⟨6, 6, .p, .basic, .rw⟩
def ptcTbConf_ALT : Fld := ⟨5, 4, .p, .basic, .rw⟩
def ptcTbConf_UPSTREAM : Fld := ⟨3, 2, .p, .basic, .rw⟩
def ptcTbConf_MASTER : Fld := ⟨0, 0, .p, .basic, .rw⟩
def ptcTbSet_NS : Fld := ⟨63, 0, .p, .expert, .wo⟩
def ptcTbStatus_STATE : Fld := ⟨63, 61, .u, .basic, .ro⟩
def ptcTbStatus_OFFSET_NS : Fld := ⟨31, 0, .u, .basic, .ro⟩
def ptcCalCmd_CMD : Fld := ⟨63, 62, .p, .expert, .wo⟩
def ptcCalCmd_FUNC : Fld := ⟨51, 48, .p, .expert, .wo⟩
def ptcCalStatus_BUSY : Fld := ⟨63, 63, .u, .basic, .ro⟩
def ptcCalStatus_FUNC : Fld := ⟨59, 56, .u, .basic, .ro⟩
def ptcCalStatus_RATE_MISS : Fld := ⟨47, 32, .u, .basic, .ro⟩
def ptcCalStatus_FLOOR_MISS : Fld := ⟨31, 16, .u, .basic, .ro⟩
def ptcCalStatus_UNCAL : Fld := ⟨8, 0, .u, .basic, .ro⟩
def ptcCalFunc_STATE : Fld := ⟨63, 61, .u, .basic, .ro⟩
def ptcCalFunc_CONVERGED : Fld := ⟨60, 60, .u, .basic, .ro⟩
def secCtrl_EXPERT_UNLOCK : Fld := ⟨0, 0, .p, .basic, .rw⟩
def secStatus_BOOT_SRC : Fld := ⟨63, 62, .u, .basic, .ro⟩
def secStatus_KEY_SLOT : Fld := ⟨61, 60, .u, .basic, .ro⟩
def secStatus_REVOKED : Fld := ⟨59, 56, .u, .basic, .ro⟩
def secStatus_IMAGE_SVN : Fld := ⟨55, 48, .u, .basic, .ro⟩
def secStatus_FUSE_CTR : Fld := ⟨47, 40, .u, .basic, .ro⟩
def secStatus_CERT_VALID : Fld := ⟨39, 39, .u, .basic, .ro⟩
def secStatus_ATT_BUSY : Fld := ⟨38, 38, .u, .basic, .ro⟩
def secStatus_ATTESTED : Fld := ⟨37, 37, .u, .basic, .ro⟩
def secStatus_ROM_REV : Fld := ⟨31, 24, .u, .basic, .ro⟩
def secStatus_REJECT_CAUSE : Fld := ⟨23, 20, .u, .basic, .ro⟩
def secFuseCmd_OP : Fld := ⟨63, 62, .p, .expert, .wo⟩
def secFuseCmd_ARG : Fld := ⟨7, 0, .p, .expert, .wo⟩
def secAttCmd_GO : Fld := ⟨0, 0, .p, .basic, .wo⟩
def secUpdStatus_STATE : Fld := ⟨63, 61, .u, .basic, .ro⟩
def secUpdStatus_CAUSE : Fld := ⟨60, 57, .u, .basic, .ro⟩
def secUpdStatus_BYTES : Fld := ⟨25, 0, .u, .basic, .ro⟩
def secRecCtrl_AUTO_REPAIR : Fld := ⟨1, 1, .p, .basic, .rw⟩
def secRecCtrl_RECLAIM : Fld := ⟨0, 0, .p, .expert, .wo⟩
def secRecStatus_BANK : Fld := ⟨63, 63, .u, .basic, .ro⟩
def secRecStatus_LIVE : Fld := ⟨60, 48, .u, .basic, .ro⟩
def secRecStatus_DROPPED : Fld := ⟨47, 32, .u, .basic, .ro⟩
def secRecStatus_FREE_KIB : Fld := ⟨10, 0, .u, .basic, .ro⟩
def secIdHash_HASH : Fld := ⟨63, 0, .u, .basic, .ro⟩
def secImageDigest_DIGEST : Fld := ⟨63, 0, .u, .basic, .ro⟩
def secNonce_NONCE : Fld := ⟨63, 0, .p, .basic, .rw⟩

end F

/-- The fields of every register, most significant first (R18). -/
def Reg.fields : Reg → List Fld
  | .modIdent => [F.modIdent_PART_ID, F.modIdent_STEPPING, F.modIdent_GRADE_FUSED, F.modIdent_GRADE_PRESENTED]
  | .modTopology => [F.modTopology_ENG_D1, F.modTopology_ENG_D0, F.modTopology_STACKS, F.modTopology_LPD_CH]
  | .engCoreStatus _ _ => [F.engCoreStatus_PRESENT, F.engCoreStatus_QDEPTH, F.engCoreStatus_REJ_CAUSE, F.engCoreStatus_SAT, F.engCoreStatus_POISONED, F.engCoreStatus_REJECTED, F.engCoreStatus_FROZEN, F.engCoreStatus_BUSY]
  | .engFreezeDry _ _ => [F.engFreezeDry_COUNT]
  | .engFreezeTile _ _ => [F.engFreezeTile_COUNT]
  | .engFreezeDrain _ _ => [F.engFreezeDrain_COUNT]
  | .engRetired _ _ => [F.engRetired_COUNT]
  | .engRejectWord _ _ => [F.engRejectWord_WORD]
  | .engCtrl _ => [F.engCtrl_ZGATE_OFF, F.engCtrl_CLR_COUNTS, F.engCtrl_EXPERT_UNLOCK]
  | .engFusedLo _ => [F.engFusedLo_ENGINES]
  | .engFusedHi _ => [F.engFusedHi_ENGINES]
  | .engCoreMap _ => [F.engCoreMap_MAP]
  | .engGradeMask => [F.engGradeMask_GRADE]
  | .scvCoreCtrl _ _ => [F.scvCoreCtrl_QLIMIT, F.scvCoreCtrl_RUN]
  | .scvIssueStall _ _ => [F.scvIssueStall_COUNT]
  | .scvCtx _ _ _ => [F.scvCtx_CAUSE, F.scvCtx_WAITCAUSE, F.scvCtx_PRIO, F.scvCtx_STATE]
  | .scvCtxPc _ _ _ => [F.scvCtxPc_PC]
  | .scvCtxCmd _ _ => [F.scvCtxCmd_CMD, F.scvCtxCmd_CTX, F.scvCtxCmd_ADDR]
  | .scvCtrl _ => [F.scvCtrl_CLR_COUNTS, F.scvCtrl_EXPERT_UNLOCK]
  | .scvBeat _ => [F.scvBeat_COUNT]
  | .scvTime _ => [F.scvTime_NS]
  | .scvRate _ => [F.scvRate_UNCAL, F.scvRate_MEAS_MHZ, F.scvRate_CAL_MHZ]
  | .scvSchedCtrl _ => [F.scvSchedCtrl_MIN_RATE_MHZ, F.scvSchedCtrl_MARGIN_PCT]
  | .scvStepStatus _ => [F.scvStepStatus_LATE, F.scvStepStatus_MISUSE, F.scvStepStatus_OPEN, F.scvStepStatus_RATE_LOW, F.scvStepStatus_LOG_NEXT]
  | .scvStepAbort _ => [F.scvStepAbort_ID]
  | .scvStepLogA _ _ => [F.scvStepLogA_ID, F.scvStepLogA_STATUS, F.scvStepLogA_DURATION_NS]
  | .scvStepLogB _ _ => [F.scvStepLogB_LATE_NS, F.scvStepLogB_FREEZE_MAX]
  | .wstStoreCtrl _ => [F.wstStoreCtrl_QUIET, F.wstStoreCtrl_NPOLICY, F.wstStoreCtrl_INVAR]
  | .wstCtrl _ => [F.wstCtrl_CLEAR_BUSY, F.wstCtrl_CLEAR, F.wstCtrl_CLR_COUNTS, F.wstCtrl_EXPERT_UNLOCK]
  | .wstErrCount _ => [F.wstErrCount_CE, F.wstErrCount_UE, F.wstErrCount_SCRUB]
  | .wstErrAddr _ => [F.wstErrAddr_KIND, F.wstErrAddr_ADDR]
  | .wstRepairSel _ => [F.wstRepairSel_UNIT, F.wstRepairSel_BANK, F.wstRepairSel_ENTRY]
  | .wstRepairEntry _ => [F.wstRepairEntry_VALID, F.wstRepairEntry_BAD, F.wstRepairEntry_SOURCE, F.wstRepairEntry_ROW]
  | .wstRepairStatus _ => [F.wstRepairStatus_USED, F.wstRepairStatus_EXHAUSTED, F.wstRepairStatus_UNREPAIRED]
  | .wstJobTag _ => [F.wstJobTag_ANY, F.wstJobTag_JOB]
  | .wstBistCtrl _ => [F.wstBistCtrl_INTERVAL, F.wstBistCtrl_ENABLE]
  | .wstBistStatus _ => [F.wstBistStatus_PASSES, F.wstBistStatus_OVERRUNS, F.wstBistStatus_REGION]
  | .wstNarrowStall _ => [F.wstNarrowStall_COUNT]
  | .astCtrl _ => [F.astCtrl_CLR_COUNTS, F.astCtrl_EXPERT_UNLOCK]
  | .astErrCount _ => [F.astErrCount_CE, F.astErrCount_UE, F.astErrCount_SCRUB]
  | .astErrAddr _ => [F.astErrAddr_KIND, F.astErrAddr_ADDR]
  | .astRepairSel _ => [F.astRepairSel_UNIT, F.astRepairSel_BANK, F.astRepairSel_ENTRY]
  | .astRepairEntry _ => [F.astRepairEntry_VALID, F.astRepairEntry_BAD, F.astRepairEntry_SOURCE, F.astRepairEntry_ROW]
  | .astRepairStatus _ => [F.astRepairStatus_USED, F.astRepairStatus_EXHAUSTED, F.astRepairStatus_UNREPAIRED]
  | .pstCtrl _ => [F.pstCtrl_CLR_COUNTS, F.pstCtrl_EXPERT_UNLOCK]
  | .pstErrCount _ => [F.pstErrCount_CE, F.pstErrCount_UE, F.pstErrCount_SCRUB]
  | .pstErrAddr _ => [F.pstErrAddr_KIND, F.pstErrAddr_ADDR]
  | .pstRepairSel _ => [F.pstRepairSel_UNIT, F.pstRepairSel_BANK, F.pstRepairSel_ENTRY]
  | .pstRepairEntry _ => [F.pstRepairEntry_VALID, F.pstRepairEntry_BAD, F.pstRepairEntry_SOURCE, F.pstRepairEntry_ROW]
  | .pstRepairStatus _ => [F.pstRepairStatus_USED, F.pstRepairStatus_EXHAUSTED, F.pstRepairStatus_UNREPAIRED]
  | .fdxFeedStatus _ _ => [F.fdxFeedStatus_AQ_ENTRIES, F.fdxFeedStatus_AFEEDS, F.fdxFeedStatus_TREQS, F.fdxFeedStatus_RXLINES, F.fdxFeedStatus_TORD_POS, F.fdxFeedStatus_TORD_N]
  | .fdxPortHold _ _ => [F.fdxPortHold_COUNT]
  | .fdxFeedStall _ _ => [F.fdxFeedStall_COUNT]
  | .fdxExpStatus _ _ => [F.fdxExpStatus_ERR_CAUSE, F.fdxExpStatus_ERROR, F.fdxExpStatus_STAGING, F.fdxExpStatus_BUSY]
  | .fdxExpBlocks _ _ => [F.fdxExpBlocks_COUNT]
  | .fdxExpBehind _ _ => [F.fdxExpBehind_COUNT]
  | .fdxCtrl _ => [F.fdxCtrl_CLR_COUNTS, F.fdxCtrl_EXPERT_UNLOCK]
  | .fdxCompCtrl _ => [F.fdxCompCtrl_TBL_B4, F.fdxCompCtrl_TBL_BF16, F.fdxCompCtrl_TBL_INT8, F.fdxCompCtrl_TBL_E5M2, F.fdxCompCtrl_TBL_E4M3, F.fdxCompCtrl_ZRUN_OFF, F.fdxCompCtrl_EPC_OFF]
  | .fdxLowratio _ => [F.fdxLowratio_COUNT]
  | .fdxMcastCtrl _ => [F.fdxMcastCtrl_WAIT_LIMIT]
  | .fdxMcastStatus _ => [F.fdxMcastStatus_TIMEOUTS, F.fdxMcastStatus_DONE_ERRS, F.fdxMcastStatus_RESIDENT, F.fdxMcastStatus_BUSQ]
  | .fdxMcastWait _ => [F.fdxMcastWait_COUNT]
  | .fdxEpcTag _ _ => [F.fdxEpcTag_VALID, F.fdxEpcTag_WIDTH, F.fdxEpcTag_TAG]
  | .fdxEpcLen _ _ _ => [F.fdxEpcLen_LENGTHS]
  | .dmaQstatus _ _ => [F.dmaQstatus_CAUSE, F.dmaQstatus_POISON, F.dmaQstatus_ERROR, F.dmaQstatus_ACTIVE, F.dmaQstatus_QDEPTH]
  | .dmaErrDesc _ _ => [F.dmaErrDesc_ADDR]
  | .dmaDoneCount _ _ => [F.dmaDoneCount_COUNT]
  | .dmaPost _ _ => [F.dmaPost_ADDR]
  | .dmaTxnRes _ _ => [F.dmaTxnRes_COUNT]
  | .dmaCtrl _ => [F.dmaCtrl_CLR_COUNTS, F.dmaCtrl_EXPERT_UNLOCK]
  | .dmaTxnCore _ => [F.dmaTxnCore_COUNT]
  | .dmaTxnStatus _ => [F.dmaTxnStatus_WAITS, F.dmaTxnStatus_POOL_FREE, F.dmaTxnStatus_INUSE]
  | .dmaRwinA _ => [F.dmaRwinA_STATE, F.dmaRwinA_ROUTE, F.dmaRwinA_PERM, F.dmaRwinA_SIZE, F.dmaRwinA_TARGET_POS, F.dmaRwinA_TARGET_RING, F.dmaRwinA_OPEN]
  | .dmaRwinB _ => [F.dmaRwinB_REMOTE_BASE]
  | .dmaRimpA _ => [F.dmaRimpA_VALID, F.dmaRimpA_PERM, F.dmaRimpA_SIZE, F.dmaRimpA_BASE]
  | .dmaRimpB _ => [F.dmaRimpB_JOB, F.dmaRimpB_ANY_SRC, F.dmaRimpB_SRC_RING, F.dmaRimpB_SRC_POS]
  | .syncCtr _ _ => [F.syncCtr_SAT, F.syncCtr_UNDER, F.syncCtr_VALUE]
  | .syncCtrl _ => [F.syncCtrl_CLEAR, F.syncCtrl_CLR_COUNTS, F.syncCtrl_EXPERT_UNLOCK]
  | .syncStatus _ => [F.syncStatus_MISUSE, F.syncStatus_UNDER, F.syncStatus_LAST_SRC, F.syncStatus_LAST_PHYS]
  | .syncXlSel _ => [F.syncXlSel_CORE, F.syncXlSel_SLOT, F.syncXlSel_VID]
  | .syncXlEntry _ => [F.syncXlEntry_VALID, F.syncXlEntry_S, F.syncXlEntry_W, F.syncXlEntry_PHYS]
  | .syncCrdMap _ w => if w = 63 then [] else [F.syncCrdMap_PAIRS]
  | .syncCrdFb _ w => if w = 63 then [] else [F.syncCrdFb_PAIRS]
  | .syncBarA _ _ => [F.syncBarA_CMASK, F.syncBarA_ARRIVED]
  | .syncBarB d _ => [F.syncBarB_STATE, F.syncBarB_LEVEL, F.syncBarB_FORCE, F.syncBarB_DISARM, F.syncBarB_ARM]
    ++ (if d = 0 then [F.syncBarB_DMASK, F.syncBarB_DARR, F.syncBarB_SEG_HOST, F.syncBarB_RING_HOST] else [])
  | .syncBarC _ => [F.syncBarC_RING_MASK, F.syncBarC_RING_ARR]
  | .syncBarD _ => [F.syncBarD_SEG_MASK, F.syncBarD_SEG_ARR]
  | .circRingConf => [F.circRingConf_SEGMENTS, F.circRingConf_MODE, F.circRingConf_ARC_ACTIVE, F.circRingConf_ENABLE]
  | .circPosition => [F.circPosition_VALID, F.circPosition_SPARE, F.circPosition_POS]
  | .circPeriodTarget => [F.circPeriodTarget_NS]
  | .circPhase => [F.circPhase_OFFSET_NS, F.circPhase_PERIOD_NS]
  | .circWindow => [F.circWindow_RESERVE_KIB, F.circWindow_CAP_KIB]
  | .circArc => [F.circArc_JOB, F.circArc_FIRST, F.circArc_LAST, F.circArc_INDEX, F.circArc_SPLIT, F.circArc_VALID]
  | .circUpdate => [F.circUpdate_STEP, F.circUpdate_DAMAGED, F.circUpdate_SYNC, F.circUpdate_GRAD_FMT]
  | .circCtrl => [F.circCtrl_EXPERT_UNLOCK]
  | .circPartE => [F.circPartE_VALID3, F.circPartE_ARC3, F.circPartE_ROLE3, F.circPartE_COUNT3, F.circPartE_VALID2, F.circPartE_ARC2, F.circPartE_ROLE2, F.circPartE_COUNT2, F.circPartE_VALID1, F.circPartE_ARC1, F.circPartE_ROLE1, F.circPartE_COUNT1, F.circPartE_VALID0, F.circPartE_ARC0, F.circPartE_ROLE0, F.circPartE_COUNT0]
  | .circPartW => [F.circPartW_VALID3, F.circPartW_ARC3, F.circPartW_ROLE3, F.circPartW_COUNT3, F.circPartW_VALID2, F.circPartW_ARC2, F.circPartW_ROLE2, F.circPartW_COUNT2, F.circPartW_VALID1, F.circPartW_ARC1, F.circPartW_ROLE1, F.circPartW_COUNT1, F.circPartW_VALID0, F.circPartW_ARC0, F.circPartW_ROLE0, F.circPartW_COUNT0]
  | .circStatus => [F.circStatus_JUNCTION_MISSES, F.circStatus_PERIOD_SHORT, F.circStatus_RUNNING]
  | .circCohort _ => [F.circCohort_STATE, F.circCohort_CLASS, F.circCohort_LAYER, F.circCohort_ROWS, F.circCohort_ROWS_MAX, F.circCohort_RELEASE, F.circCohort_HOLD]
  | .circPortCtrl _ => [F.circPortCtrl_ENABLE]
  | .circPortStatus _ => [F.circPortStatus_STATE, F.circPortStatus_CAUSE, F.circPortStatus_LOGICAL, F.circPortStatus_SPARES_FREE, F.circPortStatus_RETRIES]
  | .circPortPeer _ => [F.circPortPeer_PEER_FP, F.circPortPeer_PEER_RING, F.circPortPeer_PEER_POS, F.circPortPeer_PEER_PORT, F.circPortPeer_PEER_POS_VALID, F.circPortPeer_PEER_EPOCH, F.circPortPeer_PEER_ADMITTED]
  | .circPortEpoch _ => [F.circPortEpoch_PEER_EPOCH_FULL]
  | .circPartSe => [F.circPartSe_VALID3, F.circPartSe_ARC3, F.circPartSe_ROLE3, F.circPartSe_COUNT3, F.circPartSe_VALID2, F.circPartSe_ARC2, F.circPartSe_ROLE2, F.circPartSe_COUNT2, F.circPartSe_VALID1, F.circPartSe_ARC1, F.circPartSe_ROLE1, F.circPartSe_COUNT1, F.circPartSe_VALID0, F.circPartSe_ARC0, F.circPartSe_ROLE0, F.circPartSe_COUNT0]
  | .circPartSw => [F.circPartSw_VALID3, F.circPartSw_ARC3, F.circPartSw_ROLE3, F.circPartSw_COUNT3, F.circPartSw_VALID2, F.circPartSw_ARC2, F.circPartSw_ROLE2, F.circPartSw_COUNT2, F.circPartSw_VALID1, F.circPartSw_ARC1, F.circPartSw_ROLE1, F.circPartSw_COUNT1, F.circPartSw_VALID0, F.circPartSw_ARC0, F.circPartSw_ROLE0, F.circPartSw_COUNT0]
  | .circLinkCtrl => [F.circLinkCtrl_RETRY_NS, F.circLinkCtrl_SUB_UNCORR, F.circLinkCtrl_SUB_MARGIN, F.circLinkCtrl_SUB_AUTO]
  | .circAdmit => [F.circAdmit_STATE, F.circAdmit_RING_ID, F.circAdmit_EPOCH]
  | .circForm => [F.circForm_STATE, F.circForm_CAUSE, F.circForm_SEGMENTS, F.circForm_START]
  | .circBypass => [F.circBypass_MODE, F.circBypass_ARC_LOST, F.circBypass_BYP_POS, F.circBypass_CMD, F.circBypass_AUTO]
  | .circSplice => [F.circSplice_STATE, F.circSplice_CAPTURED, F.circSplice_ARM, F.circSplice_ABORT]
  | .circReinjA => [F.circReinjA_FIRST, F.circReinjA_LAST, F.circReinjA_STATE, F.circReinjA_STREAM]
  | .circReinjB => [F.circReinjB_RECEIVED, F.circReinjB_RELOADED, F.circReinjB_GAPS]
  | .circReinjCtrl => [F.circReinjCtrl_STAGE_MIB, F.circReinjCtrl_TIMEOUT_MS, F.circReinjCtrl_STAGE_BASE]
  | .circStreamLen => [F.circStreamLen_NB_W, F.circStreamLen_NB_E]
  | .circOwn _ => [F.circOwn_VALID, F.circOwn_STREAM, F.circOwn_FIRST, F.circOwn_COUNT]
  | .circLaneA _ _ => [F.circLaneA_STATE, F.circLaneA_LOGICAL, F.circLaneA_MARGIN, F.circLaneA_CORR_SYM]
  | .circLaneB _ _ => [F.circLaneB_UNCORR_CW, F.circLaneB_NAKS, F.circLaneB_FORCE_SUB]
  | .hbmCtrl _ => [F.hbmCtrl_CLR_COUNTS, F.hbmCtrl_EXPERT_UNLOCK]
  | .hbmRetrainCtrl _ => [F.hbmRetrainCtrl_PERIOD_US, F.hbmRetrainCtrl_GAP_NS]
  | .hbmRetireCtrl _ => [F.hbmRetireCtrl_AUTO, F.hbmRetireCtrl_UE_LIMIT]
  | .hbmStackStatus _ _ => [F.hbmStackStatus_STATE, F.hbmStackStatus_PENDING, F.hbmStackStatus_CAUSE, F.hbmStackStatus_LANES_REPAIRED, F.hbmStackStatus_TEMP]
  | .hbmStackErr _ _ => [F.hbmStackErr_CE, F.hbmStackErr_UE, F.hbmStackErr_FORCED]
  | .hbmStackCmd _ _ => [F.hbmStackCmd_RETIRE]
  | .lpdCtrl => [F.lpdCtrl_CLR_COUNTS, F.lpdCtrl_EXPERT_UNLOCK]
  | .lpdRetrainCtrl => [F.lpdRetrainCtrl_PERIOD_US, F.lpdRetrainCtrl_GAP_NS]
  | .lpdBack => [F.lpdBack_BASE, F.lpdBack_SIZE_MIB]
  | .lpdOpt => [F.lpdOpt_BASE, F.lpdOpt_SIZE_MIB]
  | .lpdPark => [F.lpdPark_BASE, F.lpdPark_SIZE_MIB]
  | .lpdChStatus _ => [F.lpdChStatus_STATE, F.lpdChStatus_LINK_UE, F.lpdChStatus_LINK_CE, F.lpdChStatus_FORCED]
  | .mldCtrl => [F.mldCtrl_CLR_COUNTS, F.mldCtrl_EXPERT_UNLOCK]
  | .mldLinkCtrl => [F.mldLinkCtrl_RETRY_NS, F.mldLinkCtrl_LOST_MS, F.mldLinkCtrl_ENABLE]
  | .mldLinkStatus => [F.mldLinkStatus_STATE, F.mldLinkStatus_LANES_UP, F.mldLinkStatus_SESSION, F.mldLinkStatus_RETRIES, F.mldLinkStatus_STALE]
  | .mldSvcCtrl => [F.mldSvcCtrl_KV_RESERVE_MIB, F.mldSvcCtrl_PREFILL_MAX, F.mldSvcCtrl_COMMIT_LAG, F.mldSvcCtrl_SAMPLE_BUDGET_US, F.mldSvcCtrl_ADMIT]
  | .mldSvcStatus => [F.mldSvcStatus_LOG_USED, F.mldSvcStatus_QUEUED, F.mldSvcStatus_RESIDENT, F.mldSvcStatus_PARKED]
  | .mldSvcCounts => [F.mldSvcCounts_LAGGED, F.mldSvcCounts_SAMPLE_OVER, F.mldSvcCounts_ACK_ERRS]
  | .fcuCtrl => [F.fcuCtrl_RESET_HOLD_US, F.fcuCtrl_RESUME, F.fcuCtrl_CLR_COUNTS, F.fcuCtrl_EXPERT_UNLOCK]
  | .fcuStatus => [F.fcuStatus_LOST, F.fcuStatus_LOG_USED, F.fcuStatus_HOLD, F.fcuStatus_OFF_RING, F.fcuStatus_SCHED_BROKEN, F.fcuStatus_LEVEL_MAX]
  | .fcuAck => [F.fcuAck_CLASSES, F.fcuAck_SEQ]
  | .fcuPin => [F.fcuPin_DRIVEN_A, F.fcuPin_DRIVEN_B, F.fcuPin_SENSED_A, F.fcuPin_SENSED_B, F.fcuPin_RELEASE]
  | .fcuInject => [F.fcuInject_ID, F.fcuInject_DIE, F.fcuInject_UNIT, F.fcuInject_BLOCK, F.fcuInject_DETAIL]
  | .fcuLogSel => [F.fcuLogSel_NEXT, F.fcuLogSel_INDEX]
  | .fcuLogData _ => [F.fcuLogData_WORD]
  | .fcuClass _ => [F.fcuClass_ACKED_SEQ, F.fcuClass_UNACK_LEVEL, F.fcuClass_SVC_ACK, F.fcuClass_ESC_EN]
  | .fcuReact _ => [F.fcuReact_HUB_INTACT, F.fcuReact_MIN, F.fcuReact_DEFAULT, F.fcuReact_LEVEL]
  | .fcuCount _ => [F.fcuCount_COUNT]
  | .ptcCtrl => [F.ptcCtrl_CLR_COUNTS, F.ptcCtrl_EXPERT_UNLOCK]
  | .ptcReady => [F.ptcReady_NREADY, F.ptcReady_CAL, F.ptcReady_SVC, F.ptcReady_SPAN, F.ptcReady_RING, F.ptcReady_DIE1, F.ptcReady_DIE0, F.ptcReady_HBM1, F.ptcReady_HBM0, F.ptcReady_LPD, F.ptcReady_CTRL, F.ptcReady_FCU, F.ptcReady_IMAGE, F.ptcReady_ROM]
  | .ptcInput => [F.ptcInput_VIN, F.ptcInput_IIN, F.ptcInput_PIN_W, F.ptcInput_PEAK_W]
  | .ptcCap => [F.ptcCap_LIMIT_W, F.ptcCap_EVENTS, F.ptcCap_FLOOR, F.ptcCap_THERMAL, F.ptcCap_POWER]
  | .ptcDieV _ => [F.ptcDieV_ACT_MV, F.ptcDieV_EFF_MV, F.ptcDieV_SET_MV]
  | .ptcTherm => [F.ptcTherm_TJ_D0, F.ptcTherm_TJ_D1, F.ptcTherm_TJ_HUB, F.ptcTherm_INLET, F.ptcTherm_OUTLET]
  | .ptcThermCtrl => [F.ptcThermCtrl_TJ_CAP]
  | .ptcStage _ => [F.ptcStage_STATE, F.ptcStage_PHASES, F.ptcStage_WORKING, F.ptcStage_LOST_MASK]
  | .ptcTbTime => [F.ptcTbTime_NS]
  | .ptcTbConf => [F.ptcTbConf_ALT_VALID, F.ptcTbConf_ALT, F.ptcTbConf_UPSTREAM, F.ptcTbConf_MASTER]
  | .ptcTbSet => [F.ptcTbSet_NS]
  | .ptcTbStatus => [F.ptcTbStatus_STATE, F.ptcTbStatus_OFFSET_NS]
  | .ptcCalCmd => [F.ptcCalCmd_CMD, F.ptcCalCmd_FUNC]
  | .ptcCalStatus => [F.ptcCalStatus_BUSY, F.ptcCalStatus_FUNC, F.ptcCalStatus_RATE_MISS, F.ptcCalStatus_FLOOR_MISS, F.ptcCalStatus_UNCAL]
  | .ptcCalFunc _ => [F.ptcCalFunc_STATE, F.ptcCalFunc_CONVERGED]
  | .secCtrl => [F.secCtrl_EXPERT_UNLOCK]
  | .secStatus => [F.secStatus_BOOT_SRC, F.secStatus_KEY_SLOT, F.secStatus_REVOKED, F.secStatus_IMAGE_SVN, F.secStatus_FUSE_CTR, F.secStatus_CERT_VALID, F.secStatus_ATT_BUSY, F.secStatus_ATTESTED, F.secStatus_ROM_REV, F.secStatus_REJECT_CAUSE]
  | .secFuseCmd => [F.secFuseCmd_OP, F.secFuseCmd_ARG]
  | .secAttCmd => [F.secAttCmd_GO]
  | .secUpdStatus => [F.secUpdStatus_STATE, F.secUpdStatus_CAUSE, F.secUpdStatus_BYTES]
  | .secRecCtrl => [F.secRecCtrl_AUTO_REPAIR, F.secRecCtrl_RECLAIM]
  | .secRecStatus => [F.secRecStatus_BANK, F.secRecStatus_LIVE, F.secRecStatus_DROPPED, F.secRecStatus_FREE_KIB]
  | .secIdHash _ => [F.secIdHash_HASH]
  | .secImageDigest _ => [F.secImageDigest_DIGEST]
  | .secNonce _ => [F.secNonce_NONCE]

/-- The block of a register. -/
def Reg.block : Reg → Block
  | .modIdent
  | .modTopology => .mod
  | .engCoreStatus _ _
  | .engFreezeDry _ _
  | .engFreezeTile _ _
  | .engFreezeDrain _ _
  | .engRetired _ _
  | .engRejectWord _ _
  | .engCtrl _
  | .engFusedLo _
  | .engFusedHi _
  | .engCoreMap _
  | .engGradeMask => .eng
  | .scvCoreCtrl _ _
  | .scvIssueStall _ _
  | .scvCtx _ _ _
  | .scvCtxPc _ _ _
  | .scvCtxCmd _ _
  | .scvCtrl _
  | .scvBeat _
  | .scvTime _
  | .scvRate _
  | .scvSchedCtrl _
  | .scvStepStatus _
  | .scvStepAbort _
  | .scvStepLogA _ _
  | .scvStepLogB _ _ => .scv
  | .wstStoreCtrl _
  | .wstCtrl _
  | .wstErrCount _
  | .wstErrAddr _
  | .wstRepairSel _
  | .wstRepairEntry _
  | .wstRepairStatus _
  | .wstJobTag _
  | .wstBistCtrl _
  | .wstBistStatus _
  | .wstNarrowStall _ => .wst
  | .astCtrl _
  | .astErrCount _
  | .astErrAddr _
  | .astRepairSel _
  | .astRepairEntry _
  | .astRepairStatus _ => .ast
  | .pstCtrl _
  | .pstErrCount _
  | .pstErrAddr _
  | .pstRepairSel _
  | .pstRepairEntry _
  | .pstRepairStatus _ => .pst
  | .fdxFeedStatus _ _
  | .fdxPortHold _ _
  | .fdxFeedStall _ _
  | .fdxExpStatus _ _
  | .fdxExpBlocks _ _
  | .fdxExpBehind _ _
  | .fdxCtrl _
  | .fdxCompCtrl _
  | .fdxLowratio _
  | .fdxMcastCtrl _
  | .fdxMcastStatus _
  | .fdxMcastWait _
  | .fdxEpcTag _ _
  | .fdxEpcLen _ _ _ => .fdx
  | .dmaQstatus _ _
  | .dmaErrDesc _ _
  | .dmaDoneCount _ _
  | .dmaPost _ _
  | .dmaTxnRes _ _
  | .dmaCtrl _
  | .dmaTxnCore _
  | .dmaTxnStatus _
  | .dmaRwinA _
  | .dmaRwinB _
  | .dmaRimpA _
  | .dmaRimpB _ => .dma
  | .syncCtr _ _
  | .syncCtrl _
  | .syncStatus _
  | .syncXlSel _
  | .syncXlEntry _
  | .syncCrdMap _ _
  | .syncCrdFb _ _
  | .syncBarA _ _
  | .syncBarB _ _
  | .syncBarC _
  | .syncBarD _ => .sync
  | .circRingConf
  | .circPosition
  | .circPeriodTarget
  | .circPhase
  | .circWindow
  | .circArc
  | .circUpdate
  | .circCtrl
  | .circPartE
  | .circPartW
  | .circStatus
  | .circCohort _
  | .circPortCtrl _
  | .circPortStatus _
  | .circPortPeer _
  | .circPortEpoch _
  | .circPartSe
  | .circPartSw
  | .circLinkCtrl
  | .circAdmit
  | .circForm
  | .circBypass
  | .circSplice
  | .circReinjA
  | .circReinjB
  | .circReinjCtrl
  | .circStreamLen
  | .circOwn _
  | .circLaneA _ _
  | .circLaneB _ _ => .circ
  | .hbmCtrl _
  | .hbmRetrainCtrl _
  | .hbmRetireCtrl _
  | .hbmStackStatus _ _
  | .hbmStackErr _ _
  | .hbmStackCmd _ _ => .hbm
  | .lpdCtrl
  | .lpdRetrainCtrl
  | .lpdBack
  | .lpdOpt
  | .lpdPark
  | .lpdChStatus _ => .lpd
  | .mldCtrl
  | .mldLinkCtrl
  | .mldLinkStatus
  | .mldSvcCtrl
  | .mldSvcStatus
  | .mldSvcCounts => .mld
  | .fcuCtrl
  | .fcuStatus
  | .fcuAck
  | .fcuPin
  | .fcuInject
  | .fcuLogSel
  | .fcuLogData _
  | .fcuClass _
  | .fcuReact _
  | .fcuCount _ => .fcu
  | .ptcCtrl
  | .ptcReady
  | .ptcInput
  | .ptcCap
  | .ptcDieV _
  | .ptcTherm
  | .ptcThermCtrl
  | .ptcStage _
  | .ptcTbTime
  | .ptcTbConf
  | .ptcTbSet
  | .ptcTbStatus
  | .ptcCalCmd
  | .ptcCalStatus
  | .ptcCalFunc _ => .ptc
  | .secCtrl
  | .secStatus
  | .secFuseCmd
  | .secAttCmd
  | .secUpdStatus
  | .secRecCtrl
  | .secRecStatus
  | .secIdHash _
  | .secImageDigest _
  | .secNonce _ => .sec

/-- The die of a register of a compute-die block; none for a hub block and for the die-0-only registers. -/
def Reg.die : Reg → Option Die
  | .modIdent => none
  | .modTopology => none
  | .engCoreStatus d _ => some d
  | .engFreezeDry d _ => some d
  | .engFreezeTile d _ => some d
  | .engFreezeDrain d _ => some d
  | .engRetired d _ => some d
  | .engRejectWord d _ => some d
  | .engCtrl d => some d
  | .engFusedLo d => some d
  | .engFusedHi d => some d
  | .engCoreMap d => some d
  | .engGradeMask => none
  | .scvCoreCtrl d _ => some d
  | .scvIssueStall d _ => some d
  | .scvCtx d _ _ => some d
  | .scvCtxPc d _ _ => some d
  | .scvCtxCmd d _ => some d
  | .scvCtrl d => some d
  | .scvBeat d => some d
  | .scvTime d => some d
  | .scvRate d => some d
  | .scvSchedCtrl d => some d
  | .scvStepStatus d => some d
  | .scvStepAbort d => some d
  | .scvStepLogA d _ => some d
  | .scvStepLogB d _ => some d
  | .wstStoreCtrl d => some d
  | .wstCtrl d => some d
  | .wstErrCount d => some d
  | .wstErrAddr d => some d
  | .wstRepairSel d => some d
  | .wstRepairEntry d => some d
  | .wstRepairStatus d => some d
  | .wstJobTag d => some d
  | .wstBistCtrl d => some d
  | .wstBistStatus d => some d
  | .wstNarrowStall d => some d
  | .astCtrl d => some d
  | .astErrCount d => some d
  | .astErrAddr d => some d
  | .astRepairSel d => some d
  | .astRepairEntry d => some d
  | .astRepairStatus d => some d
  | .pstCtrl d => some d
  | .pstErrCount d => some d
  | .pstErrAddr d => some d
  | .pstRepairSel d => some d
  | .pstRepairEntry d => some d
  | .pstRepairStatus d => some d
  | .fdxFeedStatus d _ => some d
  | .fdxPortHold d _ => some d
  | .fdxFeedStall d _ => some d
  | .fdxExpStatus d _ => some d
  | .fdxExpBlocks d _ => some d
  | .fdxExpBehind d _ => some d
  | .fdxCtrl d => some d
  | .fdxCompCtrl d => some d
  | .fdxLowratio d => some d
  | .fdxMcastCtrl d => some d
  | .fdxMcastStatus d => some d
  | .fdxMcastWait d => some d
  | .fdxEpcTag d _ => some d
  | .fdxEpcLen d _ _ => some d
  | .dmaQstatus d _ => some d
  | .dmaErrDesc d _ => some d
  | .dmaDoneCount d _ => some d
  | .dmaPost d _ => some d
  | .dmaTxnRes d _ => some d
  | .dmaCtrl d => some d
  | .dmaTxnCore d => some d
  | .dmaTxnStatus d => some d
  | .dmaRwinA _ => none
  | .dmaRwinB _ => none
  | .dmaRimpA _ => none
  | .dmaRimpB _ => none
  | .syncCtr d _ => some d
  | .syncCtrl d => some d
  | .syncStatus d => some d
  | .syncXlSel d => some d
  | .syncXlEntry d => some d
  | .syncCrdMap d _ => some d
  | .syncCrdFb d _ => some d
  | .syncBarA d _ => some d
  | .syncBarB d _ => some d
  | .syncBarC _ => none
  | .syncBarD _ => none
  | .circRingConf => none
  | .circPosition => none
  | .circPeriodTarget => none
  | .circPhase => none
  | .circWindow => none
  | .circArc => none
  | .circUpdate => none
  | .circCtrl => none
  | .circPartE => none
  | .circPartW => none
  | .circStatus => none
  | .circCohort _ => none
  | .circPortCtrl _ => none
  | .circPortStatus _ => none
  | .circPortPeer _ => none
  | .circPortEpoch _ => none
  | .circPartSe => none
  | .circPartSw => none
  | .circLinkCtrl => none
  | .circAdmit => none
  | .circForm => none
  | .circBypass => none
  | .circSplice => none
  | .circReinjA => none
  | .circReinjB => none
  | .circReinjCtrl => none
  | .circStreamLen => none
  | .circOwn _ => none
  | .circLaneA _ _ => none
  | .circLaneB _ _ => none
  | .hbmCtrl d => some d
  | .hbmRetrainCtrl d => some d
  | .hbmRetireCtrl d => some d
  | .hbmStackStatus d _ => some d
  | .hbmStackErr d _ => some d
  | .hbmStackCmd d _ => some d
  | .lpdCtrl => none
  | .lpdRetrainCtrl => none
  | .lpdBack => none
  | .lpdOpt => none
  | .lpdPark => none
  | .lpdChStatus _ => none
  | .mldCtrl => none
  | .mldLinkCtrl => none
  | .mldLinkStatus => none
  | .mldSvcCtrl => none
  | .mldSvcStatus => none
  | .mldSvcCounts => none
  | .fcuCtrl => none
  | .fcuStatus => none
  | .fcuAck => none
  | .fcuPin => none
  | .fcuInject => none
  | .fcuLogSel => none
  | .fcuLogData _ => none
  | .fcuClass _ => none
  | .fcuReact _ => none
  | .fcuCount _ => none
  | .ptcCtrl => none
  | .ptcReady => none
  | .ptcInput => none
  | .ptcCap => none
  | .ptcDieV _ => none
  | .ptcTherm => none
  | .ptcThermCtrl => none
  | .ptcStage _ => none
  | .ptcTbTime => none
  | .ptcTbConf => none
  | .ptcTbSet => none
  | .ptcTbStatus => none
  | .ptcCalCmd => none
  | .ptcCalStatus => none
  | .ptcCalFunc _ => none
  | .secCtrl => none
  | .secStatus => none
  | .secFuseCmd => none
  | .secAttCmd => none
  | .secUpdStatus => none
  | .secRecCtrl => none
  | .secRecStatus => none
  | .secIdHash _ => none
  | .secImageDigest _ => none
  | .secNonce _ => none

/-- The configured level of the stages' phases built, N + 1 each (R547). -/
def stagePhases (s : Nat) : Nat :=
  match s with
  | 0 => 6 | 1 => 8 | 2 => 8 | 3 => 3 | 4 => 3 | 5 => 4 | 6 => 3 | 7 => 2 | _ => 2

/-- Whether SVC_ACK of a class is 1 at reset (R512). -/
def FaultClass.svcAckReset : FaultClass → Nat
  | .power | .thermal | .security => 0
  | .data | .link | .sched | .sync | .config | .host => 1

/-- The floor rate in MHz at a set point in mV (R304); between two rows, the lower row's rate and the rise in
proportion (DESIGN CHOICE, notes/assumptions/21.md). -/
def floorMhz (mv : Nat) : Nat :=
  if mv < 600 then 0
  else if mv < 650 then 1000 + (mv - 600) * 170 / 50
  else if mv < 700 then 1170 + (mv - 650) * 160 / 50
  else if mv < 750 then 1330 + (mv - 700) * 140 / 50
  else if mv < 800 then 1470 + (mv - 750) * 140 / 50
  else 1610 + (mv - 800) * 130 / 50

/-- The reset word of every register (the Reset columns of the maps). -/
def Reg.resetWord : Reg → Word
  | .modIdent => 0x7a080000#64
  | .scvCoreCtrl _ _ => 0x80#64
  | .scvRate _ => BitVec.ofNat 64 (2 ^ 32 + floorMhz 750)
  | .scvSchedCtrl _ => 0x73#64
  | .wstStoreCtrl _ => 0x8#64
  | .wstJobTag _ => 0x10000#64
  | .wstBistCtrl _ => 0x100000001#64
  | .fdxMcastCtrl _ => 0x10000#64
  | .dmaTxnRes _ _ => 0x300#64
  | .dmaTxnCore _ => 0x200#64
  | .dmaTxnStatus _ => 0x6000000#64
  | .circWindow => 0x4000002fc00#64
  | .circCohort _ => 0x1800000000000000#64
  | .circPortCtrl _ => 0x1#64
  | .circLinkCtrl => 0x7d0040a00000001#64
  | .circBypass => 0x1#64
  | .circReinjCtrl => 0x4000abfc0000000#64
  | .circLaneA _ p => BitVec.ofNat 64 (p.val * 2 ^ 55)
  | .hbmRetrainCtrl _ => 0x3e80020#64
  | .hbmRetireCtrl _ => 0x110#64
  | .lpdRetrainCtrl => 0x3e80020#64
  | .lpdBack => 0x80000040000000#64
  | .lpdOpt => 0x82000000000000#64
  | .lpdPark => 0x820007b8000000#64
  | .mldLinkCtrl => 0x3a980a0000000001#64
  | .mldSvcCtrl => 0x200004000200065#64
  | .fcuCtrl => 0x3e800000000#64
  | .fcuPin => 0xa0#64
  | .fcuClass k => BitVec.ofNat 64 (k.svcAckReset * 4 + 1)
  | .fcuReact src => BitVec.ofNat 64 (src.hubIntact.toNat * 1024 + src.minLevel * 128 + src.defaultLevel * 16 + src.defaultLevel)
  | .ptcReady => 0xffffffff00000000#64
  | .ptcCap => 0xbe0000000000#64
  | .ptcDieV _ => 0x2ee00002ee#64
  | .ptcThermCtrl => 0x5f00#64
  | .ptcStage s => BitVec.ofNat 64 (stagePhases s.val * 2 ^ 48)
  | .ptcCalStatus => 0x1ff#64
  | .secRecCtrl => 0x2#64
  | .modTopology
  | .engCoreStatus _ _
  | .engFreezeDry _ _
  | .engFreezeTile _ _
  | .engFreezeDrain _ _
  | .engRetired _ _
  | .engRejectWord _ _
  | .engCtrl _
  | .engFusedLo _
  | .engFusedHi _
  | .engCoreMap _
  | .engGradeMask
  | .scvIssueStall _ _
  | .scvCtx _ _ _
  | .scvCtxPc _ _ _
  | .scvCtxCmd _ _
  | .scvCtrl _
  | .scvBeat _
  | .scvTime _
  | .scvStepStatus _
  | .scvStepAbort _
  | .scvStepLogA _ _
  | .scvStepLogB _ _
  | .wstCtrl _
  | .wstErrCount _
  | .wstErrAddr _
  | .wstRepairSel _
  | .wstRepairEntry _
  | .wstRepairStatus _
  | .wstBistStatus _
  | .wstNarrowStall _
  | .astCtrl _
  | .astErrCount _
  | .astErrAddr _
  | .astRepairSel _
  | .astRepairEntry _
  | .astRepairStatus _
  | .pstCtrl _
  | .pstErrCount _
  | .pstErrAddr _
  | .pstRepairSel _
  | .pstRepairEntry _
  | .pstRepairStatus _
  | .fdxFeedStatus _ _
  | .fdxPortHold _ _
  | .fdxFeedStall _ _
  | .fdxExpStatus _ _
  | .fdxExpBlocks _ _
  | .fdxExpBehind _ _
  | .fdxCtrl _
  | .fdxCompCtrl _
  | .fdxLowratio _
  | .fdxMcastStatus _
  | .fdxMcastWait _
  | .fdxEpcTag _ _
  | .fdxEpcLen _ _ _
  | .dmaQstatus _ _
  | .dmaErrDesc _ _
  | .dmaDoneCount _ _
  | .dmaPost _ _
  | .dmaCtrl _
  | .dmaRwinA _
  | .dmaRwinB _
  | .dmaRimpA _
  | .dmaRimpB _
  | .syncCtr _ _
  | .syncCtrl _
  | .syncStatus _
  | .syncXlSel _
  | .syncXlEntry _
  | .syncCrdMap _ _
  | .syncCrdFb _ _
  | .syncBarA _ _
  | .syncBarB _ _
  | .syncBarC _
  | .syncBarD _
  | .circRingConf
  | .circPosition
  | .circPeriodTarget
  | .circPhase
  | .circArc
  | .circUpdate
  | .circCtrl
  | .circPartE
  | .circPartW
  | .circStatus
  | .circPortStatus _
  | .circPortPeer _
  | .circPortEpoch _
  | .circPartSe
  | .circPartSw
  | .circAdmit
  | .circForm
  | .circSplice
  | .circReinjA
  | .circReinjB
  | .circStreamLen
  | .circOwn _
  | .circLaneB _ _
  | .hbmCtrl _
  | .hbmStackStatus _ _
  | .hbmStackErr _ _
  | .hbmStackCmd _ _
  | .lpdCtrl
  | .lpdChStatus _
  | .mldCtrl
  | .mldLinkStatus
  | .mldSvcStatus
  | .mldSvcCounts
  | .fcuStatus
  | .fcuAck
  | .fcuInject
  | .fcuLogSel
  | .fcuLogData _
  | .fcuCount _
  | .ptcCtrl
  | .ptcInput
  | .ptcTherm
  | .ptcTbTime
  | .ptcTbConf
  | .ptcTbSet
  | .ptcTbStatus
  | .ptcCalCmd
  | .ptcCalFunc _
  | .secCtrl
  | .secStatus
  | .secFuseCmd
  | .secAttCmd
  | .secUpdStatus
  | .secRecStatus
  | .secIdHash _
  | .secImageDigest _
  | .secNonce _ => 0#64

/-- The base of a block's half on a die (R7). -/
def blockBase (n d : Nat) : Nat := 0xFE00000000 + n * 0x1000000 + d * 0x800000

/-- The address of every register (R618 to R631). -/
def Reg.addr : Reg → Nat
  | .modIdent => blockBase 0 0 + 0x0
  | .modTopology => blockBase 0 0 + 0x8
  | .engCoreStatus d q => blockBase 1 d.val + 0x0 + q.val * 0x1000
  | .engFreezeDry d q => blockBase 1 d.val + 0x8 + q.val * 0x1000
  | .engFreezeTile d q => blockBase 1 d.val + 0x10 + q.val * 0x1000
  | .engFreezeDrain d q => blockBase 1 d.val + 0x18 + q.val * 0x1000
  | .engRetired d q => blockBase 1 d.val + 0x20 + q.val * 0x1000
  | .engRejectWord d q => blockBase 1 d.val + 0x28 + q.val * 0x1000
  | .engCtrl d => blockBase 1 d.val + 0x40000
  | .engFusedLo d => blockBase 1 d.val + 0x40008
  | .engFusedHi d => blockBase 1 d.val + 0x40010
  | .engCoreMap d => blockBase 1 d.val + 0x40018
  | .engGradeMask => blockBase 1 0 + 0x40020
  | .scvCoreCtrl d q => blockBase 2 d.val + 0x0 + q.val * 0x1000
  | .scvIssueStall d q => blockBase 2 d.val + 0x8 + q.val * 0x1000
  | .scvCtx d q x => blockBase 2 d.val + 0x100 + q.val * 0x1000 + x.val * 0x8
  | .scvCtxPc d q x => blockBase 2 d.val + 0x120 + q.val * 0x1000 + x.val * 0x8
  | .scvCtxCmd d q => blockBase 2 d.val + 0x140 + q.val * 0x1000
  | .scvCtrl d => blockBase 2 d.val + 0x40000
  | .scvBeat d => blockBase 2 d.val + 0x40100
  | .scvTime d => blockBase 2 d.val + 0x40108
  | .scvRate d => blockBase 2 d.val + 0x40110
  | .scvSchedCtrl d => blockBase 2 d.val + 0x40118
  | .scvStepStatus d => blockBase 2 d.val + 0x40120
  | .scvStepAbort d => blockBase 2 d.val + 0x40128
  | .scvStepLogA d i => blockBase 2 d.val + 0x40200 + i.val * 0x10
  | .scvStepLogB d i => blockBase 2 d.val + 0x40208 + i.val * 0x10
  | .wstStoreCtrl d => blockBase 3 d.val + 0x0
  | .wstCtrl d => blockBase 3 d.val + 0x8
  | .wstErrCount d => blockBase 3 d.val + 0x10
  | .wstErrAddr d => blockBase 3 d.val + 0x18
  | .wstRepairSel d => blockBase 3 d.val + 0x20
  | .wstRepairEntry d => blockBase 3 d.val + 0x28
  | .wstRepairStatus d => blockBase 3 d.val + 0x30
  | .wstJobTag d => blockBase 3 d.val + 0x38
  | .wstBistCtrl d => blockBase 3 d.val + 0x40
  | .wstBistStatus d => blockBase 3 d.val + 0x48
  | .wstNarrowStall d => blockBase 3 d.val + 0x50
  | .astCtrl d => blockBase 4 d.val + 0x8
  | .astErrCount d => blockBase 4 d.val + 0x10
  | .astErrAddr d => blockBase 4 d.val + 0x18
  | .astRepairSel d => blockBase 4 d.val + 0x20
  | .astRepairEntry d => blockBase 4 d.val + 0x28
  | .astRepairStatus d => blockBase 4 d.val + 0x30
  | .pstCtrl d => blockBase 5 d.val + 0x8
  | .pstErrCount d => blockBase 5 d.val + 0x10
  | .pstErrAddr d => blockBase 5 d.val + 0x18
  | .pstRepairSel d => blockBase 5 d.val + 0x20
  | .pstRepairEntry d => blockBase 5 d.val + 0x28
  | .pstRepairStatus d => blockBase 5 d.val + 0x30
  | .fdxFeedStatus d q => blockBase 6 d.val + 0x0 + q.val * 0x1000
  | .fdxPortHold d q => blockBase 6 d.val + 0x8 + q.val * 0x1000
  | .fdxFeedStall d q => blockBase 6 d.val + 0x10 + q.val * 0x1000
  | .fdxExpStatus d q => blockBase 6 d.val + 0x800 + q.val * 0x1000
  | .fdxExpBlocks d q => blockBase 6 d.val + 0x808 + q.val * 0x1000
  | .fdxExpBehind d q => blockBase 6 d.val + 0x810 + q.val * 0x1000
  | .fdxCtrl d => blockBase 6 d.val + 0x40000
  | .fdxCompCtrl d => blockBase 6 d.val + 0x40008
  | .fdxLowratio d => blockBase 6 d.val + 0x40010
  | .fdxMcastCtrl d => blockBase 6 d.val + 0x40018
  | .fdxMcastStatus d => blockBase 6 d.val + 0x40020
  | .fdxMcastWait d => blockBase 6 d.val + 0x40028
  | .fdxEpcTag d t => blockBase 6 d.val + 0x41000 + t.val * 0x8
  | .fdxEpcLen d t w => blockBase 6 d.val + 0x42000 + t.val * 0x80 + w.val * 0x8
  | .dmaQstatus d c => blockBase 7 d.val + 0x0 + c.val * 0x1000
  | .dmaErrDesc d c => blockBase 7 d.val + 0x8 + c.val * 0x1000
  | .dmaDoneCount d c => blockBase 7 d.val + 0x10 + c.val * 0x1000
  | .dmaPost d c => blockBase 7 d.val + 0x18 + c.val * 0x1000
  | .dmaTxnRes d c => blockBase 7 d.val + 0x20 + c.val * 0x1000
  | .dmaCtrl d => blockBase 7 d.val + 0x40000
  | .dmaTxnCore d => blockBase 7 d.val + 0x40008
  | .dmaTxnStatus d => blockBase 7 d.val + 0x40010
  | .dmaRwinA w => blockBase 7 0 + 0x50000 + w.val * 0x10
  | .dmaRwinB w => blockBase 7 0 + 0x50008 + w.val * 0x10
  | .dmaRimpA i => blockBase 7 0 + 0x51000 + i.val * 0x10
  | .dmaRimpB i => blockBase 7 0 + 0x51008 + i.val * 0x10
  | .syncCtr d n => blockBase 8 d.val + 0x0 + n.val * 0x8
  | .syncCtrl d => blockBase 8 d.val + 0x40000
  | .syncStatus d => blockBase 8 d.val + 0x40008
  | .syncXlSel d => blockBase 8 d.val + 0x40010
  | .syncXlEntry d => blockBase 8 d.val + 0x40018
  | .syncCrdMap d w => blockBase 8 d.val + 0x41000 + w.val * 0x8
  | .syncCrdFb d w => blockBase 8 d.val + 0x41200 + w.val * 0x8
  | .syncBarA d b => blockBase 8 d.val + 0x42000 + b.val * 0x20
  | .syncBarB d b => blockBase 8 d.val + 0x42008 + b.val * 0x20
  | .syncBarC b => blockBase 8 0 + 0x42010 + b.val * 0x20
  | .syncBarD b => blockBase 8 0 + 0x42018 + b.val * 0x20
  | .circRingConf => blockBase 9 0 + 0x0
  | .circPosition => blockBase 9 0 + 0x8
  | .circPeriodTarget => blockBase 9 0 + 0x10
  | .circPhase => blockBase 9 0 + 0x18
  | .circWindow => blockBase 9 0 + 0x20
  | .circArc => blockBase 9 0 + 0x28
  | .circUpdate => blockBase 9 0 + 0x30
  | .circCtrl => blockBase 9 0 + 0x38
  | .circPartE => blockBase 9 0 + 0x40
  | .circPartW => blockBase 9 0 + 0x48
  | .circStatus => blockBase 9 0 + 0x50
  | .circCohort c => blockBase 9 0 + 0x100 + c.val * 0x8
  | .circPortCtrl n => blockBase 9 0 + 0x1000 + n.val * 0x100
  | .circPortStatus n => blockBase 9 0 + 0x1008 + n.val * 0x100
  | .circPortPeer n => blockBase 9 0 + 0x1010 + n.val * 0x100
  | .circPortEpoch n => blockBase 9 0 + 0x1018 + n.val * 0x100
  | .circPartSe => blockBase 9 0 + 0x1800
  | .circPartSw => blockBase 9 0 + 0x1808
  | .circLinkCtrl => blockBase 9 0 + 0x1810
  | .circAdmit => blockBase 9 0 + 0x1818
  | .circForm => blockBase 9 0 + 0x1820
  | .circBypass => blockBase 9 0 + 0x1828
  | .circSplice => blockBase 9 0 + 0x1830
  | .circReinjA => blockBase 9 0 + 0x1838
  | .circReinjB => blockBase 9 0 + 0x1840
  | .circReinjCtrl => blockBase 9 0 + 0x1848
  | .circStreamLen => blockBase 9 0 + 0x1850
  | .circOwn r => blockBase 9 0 + 0x1900 + r.val * 0x8
  | .circLaneA n p => blockBase 9 0 + 0x2000 + n.val * 0x400 + p.val * 0x10
  | .circLaneB n p => blockBase 9 0 + 0x2008 + n.val * 0x400 + p.val * 0x10
  | .hbmCtrl d => blockBase 10 d.val + 0x0
  | .hbmRetrainCtrl d => blockBase 10 d.val + 0x8
  | .hbmRetireCtrl d => blockBase 10 d.val + 0x10
  | .hbmStackStatus d i => blockBase 10 d.val + 0x100 + i.val * 0x40
  | .hbmStackErr d i => blockBase 10 d.val + 0x108 + i.val * 0x40
  | .hbmStackCmd d i => blockBase 10 d.val + 0x110 + i.val * 0x40
  | .lpdCtrl => blockBase 11 0 + 0x0
  | .lpdRetrainCtrl => blockBase 11 0 + 0x8
  | .lpdBack => blockBase 11 0 + 0x10
  | .lpdOpt => blockBase 11 0 + 0x18
  | .lpdPark => blockBase 11 0 + 0x20
  | .lpdChStatus k => blockBase 11 0 + 0x100 + k.val * 0x8
  | .mldCtrl => blockBase 12 0 + 0x0
  | .mldLinkCtrl => blockBase 12 0 + 0x8
  | .mldLinkStatus => blockBase 12 0 + 0x10
  | .mldSvcCtrl => blockBase 12 0 + 0x18
  | .mldSvcStatus => blockBase 12 0 + 0x20
  | .mldSvcCounts => blockBase 12 0 + 0x28
  | .fcuCtrl => blockBase 13 0 + 0x0
  | .fcuStatus => blockBase 13 0 + 0x8
  | .fcuAck => blockBase 13 0 + 0x10
  | .fcuPin => blockBase 13 0 + 0x18
  | .fcuInject => blockBase 13 0 + 0x20
  | .fcuLogSel => blockBase 13 0 + 0x28
  | .fcuLogData w => blockBase 13 0 + 0x40 + w.val * 0x8
  | .fcuClass k => blockBase 13 0 + 0x100 + k.code * 8
  | .fcuReact src => blockBase 13 0 + 0x10000 + src.id * 8
  | .fcuCount src => blockBase 13 0 + 0x20000 + src.id * 8
  | .ptcCtrl => blockBase 14 0 + 0x0
  | .ptcReady => blockBase 14 0 + 0x8
  | .ptcInput => blockBase 14 0 + 0x10
  | .ptcCap => blockBase 14 0 + 0x18
  | .ptcDieV d => blockBase 14 0 + 0x20 + d.val * 0x8
  | .ptcTherm => blockBase 14 0 + 0x30
  | .ptcThermCtrl => blockBase 14 0 + 0x38
  | .ptcStage s => blockBase 14 0 + 0x100 + s.val * 0x8
  | .ptcTbTime => blockBase 14 0 + 0x10000
  | .ptcTbConf => blockBase 14 0 + 0x10008
  | .ptcTbSet => blockBase 14 0 + 0x10010
  | .ptcTbStatus => blockBase 14 0 + 0x10018
  | .ptcCalCmd => blockBase 14 0 + 0x20000
  | .ptcCalStatus => blockBase 14 0 + 0x20008
  | .ptcCalFunc f => blockBase 14 0 + 0x20100 + f.val * 0x8
  | .secCtrl => blockBase 15 0 + 0x0
  | .secStatus => blockBase 15 0 + 0x8
  | .secFuseCmd => blockBase 15 0 + 0x10
  | .secAttCmd => blockBase 15 0 + 0x18
  | .secUpdStatus => blockBase 15 0 + 0x20
  | .secRecCtrl => blockBase 15 0 + 0x28
  | .secRecStatus => blockBase 15 0 + 0x30
  | .secIdHash w => blockBase 15 0 + 0x100 + w.val * 0x8
  | .secImageDigest w => blockBase 15 0 + 0x120 + w.val * 0x8
  | .secNonce w => blockBase 15 0 + 0x140 + w.val * 0x8

/-- Index i of an array of n registers that starts at base with the given stride, when off is its place. -/
def slotOf (off base stride n : Nat) : Option (Fin n) :=
  if h : base ≤ off ∧ (off - base) % stride = 0 ∧ (off - base) / stride < n then
    some ⟨(off - base) / stride, h.2.2⟩
  else none

/-- The pair of indexes of a two-dimensional array of registers. -/
def slotOf2 (off base st1 n1 st2 n2 : Nat) : Option (Fin n1 × Fin n2) :=
  if h : base ≤ off ∧ (off - base) / st1 < n1 ∧ (off - base) % st1 % st2 = 0 ∧ (off - base) % st1 / st2 < n2 then
    some (⟨(off - base) / st1, h.2.1⟩, ⟨(off - base) % st1 / st2, h.2.2.2⟩)
  else none

/-- The number of physical lanes of a port (R390, R626). -/
def lanesOf (n : Port) : Nat := match n.val with | 0 | 1 => 34 | 2 | 3 => 17 | _ => 4

/-- A single register at its offset. -/
def only (off o : Nat) (r : Reg) : Option Reg := if off = o then some r else none

/-- The register of block MOD at an offset of die d's half (R615). -/
def Reg.ofMod (d : Die) (off : Nat) : Option Reg :=
  if d ≠ 0 then none else
  (only off 0x0 .modIdent)
  <|> (only off 0x8 .modTopology)
/-- The register of block ENG at an offset of die d's half (R615). -/
def Reg.ofEng (d : Die) (off : Nat) : Option Reg :=
  ((slotOf off 0x0 0x1000 32).map (.engCoreStatus d))
  <|> ((slotOf off 0x8 0x1000 32).map (.engFreezeDry d))
  <|> ((slotOf off 0x10 0x1000 32).map (.engFreezeTile d))
  <|> ((slotOf off 0x18 0x1000 32).map (.engFreezeDrain d))
  <|> ((slotOf off 0x20 0x1000 32).map (.engRetired d))
  <|> ((slotOf off 0x28 0x1000 32).map (.engRejectWord d))
  <|> (only off 0x40000 (.engCtrl d))
  <|> (only off 0x40008 (.engFusedLo d))
  <|> (only off 0x40010 (.engFusedHi d))
  <|> (only off 0x40018 (.engCoreMap d))
  <|> ((if d = 0 then only off 0x40020 .engGradeMask else none))
/-- The register of block SCV at an offset of die d's half (R615). -/
def Reg.ofScv (d : Die) (off : Nat) : Option Reg :=
  ((slotOf off 0x0 0x1000 32).map (.scvCoreCtrl d))
  <|> ((slotOf off 0x8 0x1000 32).map (.scvIssueStall d))
  <|> ((slotOf2 off 0x100 0x1000 32 0x8 4).map (fun x => .scvCtx d x.1 x.2))
  <|> ((slotOf2 off 0x120 0x1000 32 0x8 4).map (fun x => .scvCtxPc d x.1 x.2))
  <|> ((slotOf off 0x140 0x1000 32).map (.scvCtxCmd d))
  <|> (only off 0x40000 (.scvCtrl d))
  <|> (only off 0x40100 (.scvBeat d))
  <|> (only off 0x40108 (.scvTime d))
  <|> (only off 0x40110 (.scvRate d))
  <|> (only off 0x40118 (.scvSchedCtrl d))
  <|> (only off 0x40120 (.scvStepStatus d))
  <|> (only off 0x40128 (.scvStepAbort d))
  <|> ((slotOf off 0x40200 0x10 16).map (.scvStepLogA d))
  <|> ((slotOf off 0x40208 0x10 16).map (.scvStepLogB d))
/-- The register of block WST at an offset of die d's half (R615). -/
def Reg.ofWst (d : Die) (off : Nat) : Option Reg :=
  (only off 0x0 (.wstStoreCtrl d))
  <|> (only off 0x8 (.wstCtrl d))
  <|> (only off 0x10 (.wstErrCount d))
  <|> (only off 0x18 (.wstErrAddr d))
  <|> (only off 0x20 (.wstRepairSel d))
  <|> (only off 0x28 (.wstRepairEntry d))
  <|> (only off 0x30 (.wstRepairStatus d))
  <|> (only off 0x38 (.wstJobTag d))
  <|> (only off 0x40 (.wstBistCtrl d))
  <|> (only off 0x48 (.wstBistStatus d))
  <|> (only off 0x50 (.wstNarrowStall d))
/-- The register of block AST at an offset of die d's half (R615). -/
def Reg.ofAst (d : Die) (off : Nat) : Option Reg :=
  (only off 0x8 (.astCtrl d))
  <|> (only off 0x10 (.astErrCount d))
  <|> (only off 0x18 (.astErrAddr d))
  <|> (only off 0x20 (.astRepairSel d))
  <|> (only off 0x28 (.astRepairEntry d))
  <|> (only off 0x30 (.astRepairStatus d))
/-- The register of block PST at an offset of die d's half (R615). -/
def Reg.ofPst (d : Die) (off : Nat) : Option Reg :=
  (only off 0x8 (.pstCtrl d))
  <|> (only off 0x10 (.pstErrCount d))
  <|> (only off 0x18 (.pstErrAddr d))
  <|> (only off 0x20 (.pstRepairSel d))
  <|> (only off 0x28 (.pstRepairEntry d))
  <|> (only off 0x30 (.pstRepairStatus d))
/-- The register of block FDX at an offset of die d's half (R615). -/
def Reg.ofFdx (d : Die) (off : Nat) : Option Reg :=
  ((slotOf off 0x0 0x1000 32).map (.fdxFeedStatus d))
  <|> ((slotOf off 0x8 0x1000 32).map (.fdxPortHold d))
  <|> ((slotOf off 0x10 0x1000 32).map (.fdxFeedStall d))
  <|> ((slotOf off 0x800 0x1000 32).map (.fdxExpStatus d))
  <|> ((slotOf off 0x808 0x1000 32).map (.fdxExpBlocks d))
  <|> ((slotOf off 0x810 0x1000 32).map (.fdxExpBehind d))
  <|> (only off 0x40000 (.fdxCtrl d))
  <|> (only off 0x40008 (.fdxCompCtrl d))
  <|> (only off 0x40010 (.fdxLowratio d))
  <|> (only off 0x40018 (.fdxMcastCtrl d))
  <|> (only off 0x40020 (.fdxMcastStatus d))
  <|> (only off 0x40028 (.fdxMcastWait d))
  <|> ((slotOf off 0x41000 0x8 16).map (.fdxEpcTag d))
  <|> ((slotOf2 off 0x42000 0x80 16 0x8 16).map (fun x => .fdxEpcLen d x.1 x.2))
/-- The register of block DMA at an offset of die d's half (R615). -/
def Reg.ofDma (d : Die) (off : Nat) : Option Reg :=
  ((slotOf off 0x0 0x1000 8).map (.dmaQstatus d))
  <|> ((slotOf off 0x8 0x1000 8).map (.dmaErrDesc d))
  <|> ((slotOf off 0x10 0x1000 8).map (.dmaDoneCount d))
  <|> ((slotOf off 0x18 0x1000 8).map (.dmaPost d))
  <|> ((slotOf off 0x20 0x1000 8).map (.dmaTxnRes d))
  <|> (only off 0x40000 (.dmaCtrl d))
  <|> (only off 0x40008 (.dmaTxnCore d))
  <|> (only off 0x40010 (.dmaTxnStatus d))
  <|> ((if d = 0 then (slotOf off 0x50000 0x10 64).map .dmaRwinA else none))
  <|> ((if d = 0 then (slotOf off 0x50008 0x10 64).map .dmaRwinB else none))
  <|> ((if d = 0 then (slotOf off 0x51000 0x10 16).map .dmaRimpA else none))
  <|> ((if d = 0 then (slotOf off 0x51008 0x10 16).map .dmaRimpB else none))
/-- The register of block SYNC at an offset of die d's half (R615). -/
def Reg.ofSync (d : Die) (off : Nat) : Option Reg :=
  ((slotOf off 0x0 0x8 8192).map (.syncCtr d))
  <|> (only off 0x40000 (.syncCtrl d))
  <|> (only off 0x40008 (.syncStatus d))
  <|> (only off 0x40010 (.syncXlSel d))
  <|> (only off 0x40018 (.syncXlEntry d))
  <|> ((slotOf off 0x41000 0x8 64).map (.syncCrdMap d))
  <|> ((slotOf off 0x41200 0x8 64).map (.syncCrdFb d))
  <|> ((slotOf off 0x42000 0x20 64).map (.syncBarA d))
  <|> ((slotOf off 0x42008 0x20 64).map (.syncBarB d))
  <|> ((if d = 0 then (slotOf off 0x42010 0x20 64).map .syncBarC else none))
  <|> ((if d = 0 then (slotOf off 0x42018 0x20 64).map .syncBarD else none))
/-- The register of block CIRC at an offset of die d's half (R615). -/
def Reg.ofCirc (d : Die) (off : Nat) : Option Reg :=
  if d ≠ 0 then none else
  (only off 0x0 .circRingConf)
  <|> (only off 0x8 .circPosition)
  <|> (only off 0x10 .circPeriodTarget)
  <|> (only off 0x18 .circPhase)
  <|> (only off 0x20 .circWindow)
  <|> (only off 0x28 .circArc)
  <|> (only off 0x30 .circUpdate)
  <|> (only off 0x38 .circCtrl)
  <|> (only off 0x40 .circPartE)
  <|> (only off 0x48 .circPartW)
  <|> (only off 0x50 .circStatus)
  <|> ((slotOf off 0x100 0x8 8).map .circCohort)
  <|> ((slotOf off 0x1000 0x100 6).map .circPortCtrl)
  <|> ((slotOf off 0x1008 0x100 6).map .circPortStatus)
  <|> ((slotOf off 0x1010 0x100 6).map .circPortPeer)
  <|> ((slotOf off 0x1018 0x100 6).map .circPortEpoch)
  <|> (only off 0x1800 .circPartSe)
  <|> (only off 0x1808 .circPartSw)
  <|> (only off 0x1810 .circLinkCtrl)
  <|> (only off 0x1818 .circAdmit)
  <|> (only off 0x1820 .circForm)
  <|> (only off 0x1828 .circBypass)
  <|> (only off 0x1830 .circSplice)
  <|> (only off 0x1838 .circReinjA)
  <|> (only off 0x1840 .circReinjB)
  <|> (only off 0x1848 .circReinjCtrl)
  <|> (only off 0x1850 .circStreamLen)
  <|> ((slotOf off 0x1900 0x8 16).map .circOwn)
  <|> ((slotOf2 off 0x2000 0x400 6 16 34).bind (fun x => if x.2.val < lanesOf x.1 then some (.circLaneA x.1 x.2) else none))
  <|> ((slotOf2 off 0x2008 0x400 6 16 34).bind (fun x => if x.2.val < lanesOf x.1 then some (.circLaneB x.1 x.2) else none))
/-- The register of block HBM at an offset of die d's half (R615). -/
def Reg.ofHbm (d : Die) (off : Nat) : Option Reg :=
  (only off 0x0 (.hbmCtrl d))
  <|> (only off 0x8 (.hbmRetrainCtrl d))
  <|> (only off 0x10 (.hbmRetireCtrl d))
  <|> ((slotOf off 0x100 0x40 4).map (.hbmStackStatus d))
  <|> ((slotOf off 0x108 0x40 4).map (.hbmStackErr d))
  <|> ((slotOf off 0x110 0x40 4).map (.hbmStackCmd d))
/-- The register of block LPD at an offset of die d's half (R615). -/
def Reg.ofLpd (d : Die) (off : Nat) : Option Reg :=
  if d ≠ 0 then none else
  (only off 0x0 .lpdCtrl)
  <|> (only off 0x8 .lpdRetrainCtrl)
  <|> (only off 0x10 .lpdBack)
  <|> (only off 0x18 .lpdOpt)
  <|> (only off 0x20 .lpdPark)
  <|> ((slotOf off 0x100 0x8 16).map .lpdChStatus)
/-- The register of block MLD at an offset of die d's half (R615). -/
def Reg.ofMld (d : Die) (off : Nat) : Option Reg :=
  if d ≠ 0 then none else
  (only off 0x0 .mldCtrl)
  <|> (only off 0x8 .mldLinkCtrl)
  <|> (only off 0x10 .mldLinkStatus)
  <|> (only off 0x18 .mldSvcCtrl)
  <|> (only off 0x20 .mldSvcStatus)
  <|> (only off 0x28 .mldSvcCounts)
/-- The register of block FCU at an offset of die d's half (R615). -/
def Reg.ofFcu (d : Die) (off : Nat) : Option Reg :=
  if d ≠ 0 then none else
  (only off 0x0 .fcuCtrl)
  <|> (only off 0x8 .fcuStatus)
  <|> (only off 0x10 .fcuAck)
  <|> (only off 0x18 .fcuPin)
  <|> (only off 0x20 .fcuInject)
  <|> (only off 0x28 .fcuLogSel)
  <|> ((slotOf off 0x40 0x8 8).map .fcuLogData)
  <|> (((slotOf off 0x100 8 16).bind fun i => FaultClass.ofCode i.val).map .fcuClass)
  <|> (((slotOf off 0x10000 8 4096).bind fun i => Source.ofId i.val).map .fcuReact)
  <|> (((slotOf off 0x20000 8 4096).bind fun i => Source.ofId i.val).map .fcuCount)
/-- The register of block PTC at an offset of die d's half (R615). -/
def Reg.ofPtc (d : Die) (off : Nat) : Option Reg :=
  if d ≠ 0 then none else
  (only off 0x0 .ptcCtrl)
  <|> (only off 0x8 .ptcReady)
  <|> (only off 0x10 .ptcInput)
  <|> (only off 0x18 .ptcCap)
  <|> ((slotOf off 0x20 0x8 2).map .ptcDieV)
  <|> (only off 0x30 .ptcTherm)
  <|> (only off 0x38 .ptcThermCtrl)
  <|> ((slotOf off 0x100 0x8 9).map .ptcStage)
  <|> (only off 0x10000 .ptcTbTime)
  <|> (only off 0x10008 .ptcTbConf)
  <|> (only off 0x10010 .ptcTbSet)
  <|> (only off 0x10018 .ptcTbStatus)
  <|> (only off 0x20000 .ptcCalCmd)
  <|> (only off 0x20008 .ptcCalStatus)
  <|> ((slotOf off 0x20100 0x8 9).map .ptcCalFunc)
/-- The register of block SEC at an offset of die d's half (R615). -/
def Reg.ofSec (d : Die) (off : Nat) : Option Reg :=
  if d ≠ 0 then none else
  (only off 0x0 .secCtrl)
  <|> (only off 0x8 .secStatus)
  <|> (only off 0x10 .secFuseCmd)
  <|> (only off 0x18 .secAttCmd)
  <|> (only off 0x20 .secUpdStatus)
  <|> (only off 0x28 .secRecCtrl)
  <|> (only off 0x30 .secRecStatus)
  <|> ((slotOf off 0x100 0x8 4).map .secIdHash)
  <|> ((slotOf off 0x120 0x8 4).map .secImageDigest)
  <|> ((slotOf off 0x140 0x8 4).map .secNonce)

/-- The register at a physical address; none where the address is reserved (R615) or misaligned (R614). -/
def Reg.ofAddr (a : Nat) : Option Reg :=
  if a < 0xFE00000000 ∨ 0xFF00000000 ≤ a then none
  else
    let d : Die := ⟨(a - 0xFE00000000) / 0x800000 % 2, Nat.mod_lt _ (by decide)⟩
    let off := (a - 0xFE00000000) % 0x800000
    match (a - 0xFE00000000) / 0x1000000 with
    | 0 => Reg.ofMod d off
    | 1 => Reg.ofEng d off
    | 2 => Reg.ofScv d off
    | 3 => Reg.ofWst d off
    | 4 => Reg.ofAst d off
    | 5 => Reg.ofPst d off
    | 6 => Reg.ofFdx d off
    | 7 => Reg.ofDma d off
    | 8 => Reg.ofSync d off
    | 9 => Reg.ofCirc d off
    | 10 => Reg.ofHbm d off
    | 11 => Reg.ofLpd d off
    | 12 => Reg.ofMld d off
    | 13 => Reg.ofFcu d off
    | 14 => Reg.ofPtc d off
    | 15 => Reg.ofSec d off
    | _ => none

end Sys2Proof.Machine
end

