-- ==== Sys2Proof/Machine/State.lean ====
section
/-! DEFINITION. The state of the module and its state after reset; the reasons a step can stop. -/

namespace Sys2Proof.Machine

/-- The whole machine: every register, memory, queue and buffer the spec names, and the queue of waiting
commands. Plain data. -/
structure State where
  /-- Commands waiting, first in, first out. -/
  pending : List Instr
  /-- Register words; an unlisted register holds its reset word. -/
  regs : Assoc Reg Word
  /-- Memory in canonical form: addresses strictly rising, no zero byte listed (log entry 3). -/
  mem : List Host.Cell
  /-- Poisoned protection words by first address, strictly rising (R227). -/
  poison : List Nat
  /-- Error patterns not yet scrubbed, by the protection word's first address (R223, R224). -/
  latent : Assoc Nat Upset
  /-- Repair entries by die, bank key and entry (R235). -/
  repairs : Assoc (Die × Nat × Nat) RepairEntry
  ctxs : Assoc (Die × CoreId × SlotId) Ctx
  cores : Assoc (Die × CoreId) Core
  dies : Assoc Die DieSt
  dmas : Assoc (Die × Cluster) Dma
  /-- Fault reports on the fault path, oldest first (R506). -/
  reports : List Report
  fcu : Fcu
  /-- Packets for other modules that no port has sent yet (R288). -/
  remoteOut : List RemotePkt
  /-- The timebase at which each window's open request was sent (R286). -/
  windowSince : Assoc (Fin 64) Nat
  /-- Openings that this module has accepted, by import entry (R287). -/
  accepted : List (Fin 16 × RemotePkt)
  /-- Remote frames whose store accesses are in progress (R93). -/
  inbound : List Inbound
  /-- Messages that have come whole before their turn (R475): the low bits of MSEQ and the command that each is. -/
  inbox : List (Nat × Instr)
  circ : Circ
  tier : TierSt
  mld : Mld
  pow : Pow
  sec : Sec
  mgmt : Mgmt
  fuses : Fuses
  /-- The counter that the free values of Config are applied to (log entry 10); the model's own. -/
  fresh : Nat
  deriving DecidableEq, Repr

/-- No command stops with a fault: a fault of the spec is a record of the FCU, which is state. -/
inductive Fault where
  /-- Raised by no command; safe. -/
  | none_
  deriving DecidableEq, Repr

/-- Reasons a command is refused. -/
inductive Refusal where
  /-- The command has no meaning yet; raised by the dispatcher; safe. -/
  | notModelled (mnemonic : String)
  deriving DecidableEq, Repr

/-- The machine right after reset. -/
def State.reset : State :=
  { pending := [], regs := [], mem := [], poison := [], latent := [], repairs := [], ctxs := [],
    cores := [], dies := [], dmas := [], reports := [], fcu := Fcu.reset, remoteOut := [], windowSince := [], accepted := [], inbound := [], inbox := [],
    circ := Circ.reset, mld := Mld.reset, pow := Pow.reset, sec := Sec.reset, mgmt := Mgmt.reset,
    tier := { steps := [], stepAt := [], lastBusy := [], failRuns := [], ueTimes := [], retiring := [], retired := [] },
    fuses := { stepping := 1, grade := 1, offEngines := [], repairs := [], rollback := 0, revoked := [], half := none }, fresh := 0 }

end Sys2Proof.Machine
end

