-- ==== Sys2Proof/Machine/Ops.lean ====
section
/-! DEFINITION. The shared operations over registers, memory, contexts and fault reports. -/

namespace Sys2Proof.Machine

/-- The result of every command that has one. -/
abbrev Res := Host.Outcome State Fault Refusal

namespace State

/-- A register's word (its reset word where nothing has written it). -/
def reg (s : State) (r : Reg) : Word := (s.regs.find r).getD r.resetWord

/-- The state with a register's word replaced. -/
def setReg (s : State) (r : Reg) (w : Word) : State := { s with regs := s.regs.put r w }

/-- A field of a register. -/
def fld (s : State) (r : Reg) (f : Fld) : Nat := bitsOf (s.reg r) f.hi f.lo

/-- The state with a field of a register replaced. -/
def setFld (s : State) (r : Reg) (f : Fld) (v : Nat) : State := s.setReg r (putBits (s.reg r) f.hi f.lo v)

/-- The state with a counter field increased, saturating at its width (R18). -/
def addFld (s : State) (r : Reg) (f : Fld) (n : Nat) : State :=
  s.setFld r f (satAdd (f.hi + 1 - f.lo) (s.fld r f) n)

/-- A context slot. -/
def ctx (s : State) (d : Die) (q : CoreId) (x : SlotId) : Ctx := s.ctxs.at_ Ctx.empty (d, q, x)

/-- The state with a context slot replaced. -/
def setCtx (s : State) (d : Die) (q : CoreId) (x : SlotId) (c : Ctx) : State :=
  { s with ctxs := s.ctxs.put (d, q, x) c }

/-- A core. -/
def core (s : State) (d : Die) (q : CoreId) : Core := s.cores.at_ Core.reset (d, q)

/-- The state with a core replaced. -/
def setCore (s : State) (d : Die) (q : CoreId) (c : Core) : State := { s with cores := s.cores.put (d, q) c }

/-- What belongs to a die. -/
def die (s : State) (d : Die) : DieSt := s.dies.at_ DieSt.reset d

/-- The state with a die's part replaced. -/
def setDie (s : State) (d : Die) (x : DieSt) : State := { s with dies := s.dies.put d x }

/-- A cluster DMA. -/
def dma (s : State) (d : Die) (c : Cluster) : Dma := s.dmas.at_ Dma.reset (d, c)

/-- The state with a cluster DMA replaced. -/
def setDma (s : State) (d : Die) (c : Cluster) (x : Dma) : State := { s with dmas := s.dmas.put (d, c) x }

/-- The module timebase (R311). -/
def now (s : State) : Nat := (s.reg .ptcTbTime).toNat

/-- A fault report placed on the fault path (R506), with the time of its detection (R660). -/
def raise (s : State) (r : Report) : State := { s with reports := s.reports ++ [{ r with found := s.now }] }

/-- The state with the counter of free values moved on by n (log entry 10). -/
def burn (s : State) (n : Nat) : State := { s with fresh := s.fresh + n }

/-- The die beat count (R301). -/
def beat (s : State) (d : Die) : Nat := (s.reg (.scvBeat d)).toNat

/-- The die's timebase replica (R312). -/
def time (s : State) (d : Die) : Nat := (s.reg (.scvTime d)).toNat

/-- The live calibration of function f has passed over a unit (R566). -/
def calPassed (s : State) (f u : Nat) : State :=
  if s.pow.calUnits.contains (f, u) then s else { s with pow := { s.pow with calUnits := s.pow.calUnits ++ [(f, u)] } }

/-- READY bit i (R569, R575): a bit that agrees with its complement (R100). -/
def readyBit (s : State) (i : Nat) : Bool :=
  bitsOf (s.reg .ptcReady) i i == 1 && bitsOf (s.reg .ptcReady) (32 + i) (32 + i) == 0

/-- Compute die d is initialised and runnable (READY.DIE0, DIE1) and has not been stopped by PASS (R519). -/
def dieUp (s : State) (d : Die) : Bool := s.readyBit (7 + d.val) && !(s.die d).stopped

end State

/-- A report with no context, tag or detail. -/
def Report.plain (src : Source) (die unit : Nat) (block : Block) (addr : Nat) : Report :=
  { src := src, die := die, unit := unit, block := block, addr := addr, ctx := none, tag := 0, detail := 0,
    injected := false, found := 0 }

/-! ### Memory: one sparse map in canonical form -/

namespace Mem

/-- What an address that nothing has written reads as: 0, by R240 for the stores and by log entry 3 for HBM3E
and LPDDR5X. -/
def blank : Byte := 0

/-- One byte. -/
def get : List Host.Cell → Nat → Byte
  | [], _ => blank
  | (j, b) :: t, a => if a = j then b else get t a

/-- One byte written, in canonical form: ascending addresses, no blank byte listed. -/
def set : List Host.Cell → Nat → Byte → List Host.Cell
  | [], a, b => if b = blank then [] else [(a, b)]
  | (j, c) :: t, a, b =>
    if a < j then (if b = blank then (j, c) :: t else (a, b) :: (j, c) :: t)
    else if a = j then (if b = blank then t else (a, b) :: t)
    else (j, c) :: set t a b

/-- Addresses strictly above a bound and rising, no blank byte. -/
def wfFrom : Nat → List Host.Cell → Bool
  | _, [] => true
  | n, (j, b) :: t => decide (n ≤ j) && decide (b ≠ blank) && wfFrom (j + 1) t

/-- The canonical form. -/
def wf (m : List Host.Cell) : Bool := wfFrom 0 m

/-- n bytes from an address. -/
def read (m : List Host.Cell) (a : Nat) : Nat → List Byte
  | 0 => []
  | n + 1 => get m a :: read m (a + 1) n

/-- Bytes written from an address up. -/
def write (m : List Host.Cell) (a : Nat) : List Byte → List Host.Cell
  | [] => m
  | b :: bs => write (set m a b) (a + 1) bs

/-- The memory without the bytes from lo to hi - 1. -/
def clear (m : List Host.Cell) (lo hi : Nat) : List Host.Cell := m.filter (fun c => c.1 < lo || hi ≤ c.1)

end Mem

/-! ### Sets of numbers in ascending order -/

namespace NatSet

/-- Whether a number is in the set. -/
def has : List Nat → Nat → Bool
  | [], _ => false
  | j :: t, a => a == j || has t a

/-- The set with a number. -/
def add : List Nat → Nat → List Nat
  | [], a => [a]
  | j :: t, a => if a < j then a :: j :: t else if a = j then j :: t else j :: add t a

/-- The set without a number. -/
def del (s : List Nat) (a : Nat) : List Nat := s.filter (fun j => j ≠ a)

end NatSet

/-! ### The address map (R10 to R14) -/

/-- Where a module physical address lies (R10 to R13). -/
inductive Place where
  /-- HBM3E stack. -/
  | hbm (stack : Nat)
  | lpd
  /-- A store unit of a die: the store, the unit, the window 0 to 3 and the byte offset in the unit. -/
  | store (d : Die) (st : Store) (unit window off : Nat)
  | register
  /-- Remote window slot and offset in it. -/
  | remote (slot off : Nat)
  | reserved
  deriving DecidableEq, Repr

/-- The populated size of a store unit (R11). -/
def Store.unitSize : Store → Nat
  | .wst => 24 * 1048576
  | .ast => 8 * 1048576
  | .pst => 1048576

/-- The first address of a store unit's direct window (R11). -/
def unitBase (d : Die) (st : Store) (unit : Nat) : Nat :=
  0xF000000000 + d.val * 0x400000000 +
    (match st with | .wst => 0 | .ast => 0x40000000 | .pst => 0x80000000) + unit * 0x8000000

/-- The die-internal place of a store address (R11 to R13). -/
def storePlace (d : Die) (off : Nat) : Place :=
  if 0x180000000 ≤ off then .reserved
  else
    let unitOff := off % 0x8000000
    let window := unitOff / 0x2000000
    let byte := unitOff % 0x2000000
    let st : Store := if off < 0x40000000 then .wst else if off < 0x80000000 then .ast else .pst
    let unit := match st with
      | .wst => off / 0x8000000 | .ast => (off - 0x40000000) / 0x8000000
      | .pst => (off - 0x80000000) / 0x8000000
    if st.unitSize ≤ byte then .reserved
    else if st = .ast ∧ window = 3 then .reserved
    else .store d st unit window byte

/-- The place of a physical address below 2^48 (R10). -/
def placeOf (a : Nat) : Place :=
  if a < 0x4800000000 then .hbm (a / 0x900000000)
  else if a < 0x8000000000 then .reserved
  else if a < 0xC000000000 then .lpd
  else if a < 0xF000000000 then .reserved
  else if a < 0xF400000000 then storePlace 0 (a - 0xF000000000)
  else if a < 0xF800000000 then storePlace 1 (a - 0xF400000000)
  else if a < 0xFE00000000 then .reserved
  else if a < 0xFF00000000 then .register
  else if a < 0x10000000000 then .remote ((a - 0xFF00000000) / 0x4000000) ((a - 0xFF00000000) % 0x4000000)
  else .reserved

/-- The direct-window address of a store address, which all four windows share (R12, R203). -/
def directAddr (a : Nat) : Nat :=
  match placeOf a with
  | .store d st u _ off => unitBase d st u + off
  | _ => a

/-- The size of the protection word at a place (R204, R444): 32 bytes in the weight store and HBM3E, 8 in the
activation and partial-sum stores; LPDDR5X keeps no poison (R449). -/
def protSize (a : Nat) : Nat :=
  match placeOf a with
  | .store _ .wst _ _ _ => 32
  | .store _ _ _ _ _ => 8
  | .hbm _ => 32
  | _ => 0

/-- The first address of the protection word that holds an address. -/
def protBase (a : Nat) : Nat := if protSize a = 0 then a else a / protSize a * protSize a

namespace State

/-- Whether the protection word of an address is poisoned. -/
def poisoned (s : State) (a : Nat) : Bool := NatSet.has s.poison (protBase a)

/-- Whether any of n bytes from a is poisoned. -/
def poisonedIn (s : State) (a n : Nat) : Bool := (List.range n).any (fun i => s.poisoned (a + i))

/-- n bytes with their poison marks. -/
def peek (s : State) (a n : Nat) : List (Byte × Bool) :=
  (List.range n).map (fun i => (Mem.get s.mem (a + i), s.poisoned (a + i)))

/-- n bytes. -/
def bytes (s : State) (a n : Nat) : List Byte := Mem.read s.mem a n

/-- A little-endian 64-bit word of memory. -/
def word (s : State) (a : Nat) : Word := BitVec.ofNat 64 (ofLe (s.bytes a 8))

/-- The marks after a write of n bytes at a: a protection word written with poison is poisoned, one written
whole and clean is clean, one written in part keeps its mark (R221, R226, R227). -/
def markWrite (s : State) (a : Nat) (bs : List (Byte × Bool)) : List Nat :=
  let p := protSize a
  if p = 0 then s.poison
  else
    (List.range ((bs.length + p - 1 + a % p) / p)).foldl (fun set i =>
      let w := a / p * p + i * p
      let mine := (List.range p).map (fun j => if w + j < a then none else bs[w + j - a]?)
      let whole := mine.all (fun o => o.isSome)
      let bad := mine.any (fun o => match o with | some (_, true) => true | _ => false)
      if bad then NatSet.add set w else if whole then NatSet.del set w else set) s.poison

/-- The memory after a write of n bytes at a to LPDDR5X whose marked bytes are poisoned: every aligned 32-byte
word that holds one is stored as ones (R449). -/
def lpdOnes (m : List Host.Cell) (a : Nat) (bs : List (Byte × Bool)) : List Host.Cell :=
  (List.range ((bs.length + 31 + a % 32) / 32)).foldl (fun m i =>
    let w := a / 32 * 32 + 32 * i
    if bs.zipIdx.any (fun b => b.1.2 && decide ((a + b.2) / 32 * 32 = w)) then Mem.write m w (List.replicate 32 0xFF) else m) m

/-- Bytes with poison marks written at an address, with the marks of the words they cover; LPDDR5X keeps no mark
(R449). -/
def poke (s : State) (a : Nat) (bs : List (Byte × Bool)) : State :=
  let m := Mem.write s.mem a (bs.map (fun b => b.1))
  { s with mem := match placeOf a with | .lpd => lpdOnes m a bs | _ => m
           poison := s.markWrite a bs
           latent := s.latent.filter (fun e => e.1 + protSize e.1 ≤ a || a + bs.length ≤ e.1) }

/-- Clean bytes written at an address. -/
def pokeClean (s : State) (a : Nat) (bs : List Byte) : State := s.poke a (bs.map (fun b => (b, false)))

end State

/-- The context with a scalar register written, its poison mark as given (R531). -/
def Ctx.wrMark (c : Ctx) (r : Fin 32) (v : Word) (bad : Bool) : Ctx :=
  { c with s := c.s.put r v, bad := c.bad.filter (fun x => x ≠ r) ++ (if bad then [r] else []) }

/-- The context with a scalar register written, clean. -/
def Ctx.wr (c : Ctx) (r : Fin 32) (v : Word) : Ctx := c.wrMark r v false

/-! ### The arc (R60, R61, R407) -/

/-- The module's ring position (R79). -/
def State.position (s : State) : Nat := s.fld .circPosition F.circPosition_POS

/-- Whether a position lies in the arc's span (R61, R82). -/
def inSpan (s : State) (p : Nat) : Bool :=
  let f := s.fld .circArc F.circArc_FIRST
  let l := s.fld .circArc F.circArc_LAST
  if f ≤ l then decide (f ≤ p ∧ p ≤ l) else decide (f ≤ p ∨ p ≤ l)

/-- Positions in the ring. -/
def ringSize (s : State) : Nat := 16 * s.fld .circRingConf F.circRingConf_SEGMENTS

/-- The live members of the arc from its first to its last (R61, R407): the active positions of its span and the spare
stations that have joined it, less those of nested arcs and the bypassed ones. -/
def liveMembers (s : State) : List Nat :=
  let f := s.fld .circArc F.circArc_FIRST
  let l := s.fld .circArc F.circArc_LAST
  let n := ringSize s
  if n = 0 then []
  else
    let len := (l + n - f % n) % n + 1
    ((List.range len).map (fun i => (f + i) % n)).filter (fun p =>
      (p % 16 ≠ 15 ∨ s.circ.joined.contains p) ∧ ¬ s.circ.nested.contains p ∧ ¬ s.circ.bypassed.contains p
        ∧ ¬ s.circ.standing.contains p)

/-- Whether a ring position is a member of this position's arc (R61, R288). -/
def inArc (s : State) (pos : Nat) : Bool := s.fld .circArc F.circArc_VALID == 1 && (liveMembers s).contains pos

/-- This position is the first live member. -/
def isFirst (s : State) : Bool := (liveMembers s).head? == some s.position
/-- This position is the last live member. -/
def isLast (s : State) : Bool := (liveMembers s).getLast? == some s.position

/-- Update mode (R67). -/
def updateMode (s : State) : Bool := s.fld .circRingConf F.circRingConf_MODE == 1

end Sys2Proof.Machine
end

