-- ==== Sys2Proof/Machine/Ecc.lean ====
section
/-! DEFINITION. The error protection of the stores (R223, R224) and reads through it (R225, R226). -/

namespace Sys2Proof.Machine

/-! ### The weight store's Reed-Solomon code (R223) -/

/-- Doubling in GF(2^8) with x^8 + x^4 + x^3 + x^2 + 1 (0x11D). -/
def gfDouble (a : Nat) : Nat := if a * 2 ≥ 256 then (a * 2) ^^^ 0x11D else a * 2

/-- The product of a field element and alpha to the k. -/
def gfShift (a : Nat) : Nat → Nat
  | 0 => a
  | k + 1 => gfShift (gfDouble a) k

/-- The syndrome triple of an error pattern over the 35 symbols. -/
def rsSyndrome (syms : List (Nat × Nat)) : Nat × Nat × Nat :=
  syms.foldl (fun t p => (t.1 ^^^ p.2, t.2.1 ^^^ gfShift p.2 p.1, t.2.2 ^^^ gfShift p.2 (2 * p.1))) (0, 0, 0)

/-- What a read of a protection word finds. -/
inductive EccOutcome where
  | clean
  | poison
  /-- One symbol or bit corrected: its position and the correction. -/
  | corrected (pos v : Nat)
  | uncorrectable
  /-- An invalid poison pair (R224). -/
  | badPair
  deriving DecidableEq, Repr

/-- The decoding of a syndrome triple (R223). -/
def rsDecode (t : Nat × Nat × Nat) : EccOutcome :=
  if t = (0, 0, 0) then .clean
  else if t = (0, 0, 1) then .poison
  else if t.1 = 0 then .uncorrectable
  else match (List.range 35).find? (fun n => t.2.1 = gfShift t.1 n ∧ t.2.2 = gfShift t.2.1 n) with
    | some n => .corrected n t.1
    | none => .uncorrectable

/-! ### The SEC-DED code of the activation and partial-sum stores (R224) -/

/-- The number of one bits of an 8-bit value. -/
def weight8 (n : Nat) : Nat := (List.range 8).foldl (fun c i => c + n / 2 ^ i % 2) 0

/-- The columns of the 72 bits: data bits 0 to 63, then check bits 0 to 7. -/
def secdedColumns : List Nat :=
  (List.range 256).filter (fun n => weight8 n = 3) ++
    [0x1F, 0x2F, 0x37, 0x3B, 0x3D, 0x3E, 0x4F, 0x57] ++ (List.range 8).map (fun j => 2 ^ j)

/-- The syndrome of a set of flipped bits. -/
def secdedSyndrome (flips : List Nat) : Nat := flips.foldl (fun t i => t ^^^ secdedColumns.getD i 0) 0

/-- The decoding of a syndrome and a poison pair, given as its flips from the stored pair (R224). -/
def secdedDecode (syn pair : Nat) (poisoned : Bool) : EccOutcome :=
  let poisoned := if pair = 3 then !poisoned else poisoned
  if pair = 1 ∨ pair = 2 then .badPair
  else if syn = 0 then (if poisoned then .poison else .clean)
  else match secdedColumns.findIdx? (fun c => c = syn) with
    | some i => if poisoned then .poison else .corrected i 1
    | none => .uncorrectable

/-- The store of an address, if it lies in one. -/
def storeOf (a : Nat) : Option (Die × Store) :=
  match placeOf a with
  | .store d st _ _ _ => some (d, st)
  | _ => none

/-- The registers of the store's error counts and latest error. -/
def errCountReg (d : Die) : Store → Reg
  | .wst => .wstErrCount d | .ast => .astErrCount d | .pst => .pstErrCount d

/-- The latest-error register of a store (R245). -/
def errAddrReg (d : Die) : Store → Reg
  | .wst => .wstErrAddr d | .ast => .astErrAddr d | .pst => .pstErrAddr d

/-- The block of a store. -/
def Store.block : Store → Block
  | .wst => .wst | .ast => .ast | .pst => .pst

/-- The unit of a fault report of a store (R508): the unit within the block. -/
def storeUnit (a : Nat) : Nat := match placeOf a with | .store _ _ u _ _ => u | _ => 0

/-- The flips of a data byte that an error pattern and its correction leave, at byte i of the word. -/
def byteError (st : Store) (u : Upset) (o : EccOutcome) (i : Nat) : Nat :=
  match st with
  | .wst =>
    let e := u.syms.foldl (fun t p => if p.1 = i + 3 then t ^^^ p.2 else t) 0
    (match o with | .corrected n v => if n = i + 3 then e ^^^ v else e | _ => e)
  | _ =>
    let e := u.syms.foldl (fun t p => if p.1 / 8 = i then t ^^^ 2 ^ (p.1 % 8) else t) 0
    (match o with | .corrected n _ => if n / 8 = i then e ^^^ 2 ^ (n % 8) else e | _ => e)

/-- What a read of the protection word at w finds (R223, R224). -/
def eccOutcome (st : Store) (u : Upset) (poisoned : Bool) : EccOutcome :=
  match st with
  | .wst =>
    let t := rsSyndrome u.syms
    rsDecode (if poisoned then (t.1, t.2.1, t.2.2 ^^^ 1) else t)
  | _ => secdedDecode (secdedSyndrome (u.syms.map Prod.fst)) u.pair poisoned

/-- The bank and row of a line of a store unit (R194): the bank number in the unit, the bank's index in its
group, and the row. -/
def bankOf (st : Store) (line : Nat) : Nat × Nat × Nat :=
  match st with
  | .wst => (8 * (line / 6144) + line % 8, line % 8, line % 6144 / 8)
  | .ast =>
    if line < 6144 then (8 * (line / 2048) + line % 8, line % 8, line % 2048 / 8)
    else if line < 7680 then (24 + line % 8, line % 8, (line - 6144) / 8)
    else (32 + line % 8, line % 8, (line - 7680) / 8)
  | .pst => (line % 8, line % 8, line / 8)

/-- One number per bank of a die's stores. -/
def bankKey (st : Store) (unit bank : Nat) : Nat :=
  (match st with | .wst => 0 | .ast => 1000 | .pst => 2000) + unit * 40 + bank

/-- Bank key and row of an address. -/
def rowOf (a : Nat) : Nat × Nat :=
  match placeOf a with
  | .store _ st u _ off => let b := bankOf st (off / 1024); (bankKey st u b.1, b.2.2)
  | _ => (0, 0)

/-- The region of the background test that holds an address of a die (R228). -/
def regionOf (a : Nat) : Nat :=
  match placeOf a with
  | .store _ .wst u _ off => u * 6144 + off / 4096
  | .store _ .ast u _ off => 49152 + u * 2048 + off / 4096
  | .store _ .pst u _ off => 65536 + u * 256 + off / 4096
  | _ => 0

/-- A repair entry of a bank; at reset none is valid (log entry 6). -/
def State.repair (s : State) (d : Die) (bank entry : Nat) : RepairEntry :=
  s.repairs.at_ ⟨false, false, 0, 0⟩ (d, bank, entry)

/-- The spare row that serves a row of a bank: the valid entry with the highest number governs (R235). -/
def governing (s : State) (d : Die) (bank row : Nat) : Option Nat :=
  ((List.range 8).filter (fun e => (s.repair d bank e).valid && decide ((s.repair d bank e).row = row))).getLast?

/-- The bank and the row that serve an address; spare row e of a bank is counted as row 1000 + e (R235). -/
def servedRow (s : State) (d : Die) (w : Nat) : Nat × Nat :=
  let r := rowOf w
  match governing s d r.1 r.2 with
  | some e => (r.1, 1000 + e)
  | none => r

/-- A corrected error (R226): counted, its address kept, its scrub queued; a second one in the row within the
pass calls the row's region out of turn. -/
def noteCorrected (s : State) (d : Die) (st : Store) (w : Nat) : State :=
  let s := s.addFld (errCountReg d st) F.wstErrCount_CE 1
  let s := s.setReg (errAddrReg d st) (BitVec.ofNat 64 (2 ^ 62 + w))
  let x := s.die d
  let row := servedRow s d w
  let b := x.bist
  let b := if b.ceRows.contains row then { b with outOfTurn := some (regionOf w) }
    else { b with ceRows := b.ceRows ++ [row] }
  let scrubs := if x.scrubs.any (fun c => c.word = w) then x.scrubs else x.scrubs ++ [⟨st, w⟩]
  s.setDie d { x with bist := b, scrubs := scrubs }

/-- An uncorrectable word or an invalid pair (R226): counted once, a DATA fault raised, its poison write-back
queued; from now on the word reads poisoned. An empty pattern is left at the word until the write-back. -/
def noteUncorrectable (s : State) (d : Die) (st : Store) (w kind : Nat) : State :=
  let s := s.addFld (errCountReg d st) F.wstErrCount_UE 1
  let s := s.setReg (errAddrReg d st) (BitVec.ofNat 64 (kind * 2 ^ 62 + w))
  let s := s.raise (Report.plain .storeUe d.val (storeUnit w) st.block w)
  let x := s.die d
  let s := s.setDie d { x with scrubs := x.scrubs.filter (fun c => c.word ≠ w) ++ [⟨st, w⟩] }
  { s with poison := NatSet.add s.poison w, latent := s.latent.put w ⟨[], 0⟩ }

/-- The memory with the flips that a decoding leaves in the word at w. -/
def leaveErrors (s : State) (st : Store) (u : Upset) (o : EccOutcome) (w : Nat) : State :=
  { s with mem := (List.range (protSize w)).foldl (fun m i =>
      let e := byteError st u o i
      if e = 0 then m else Mem.set m (w + i) (Mem.get m (w + i) ^^^ BitVec.ofNat 8 e)) s.mem }

/-- A read of the protection word at w of a store (R225, R226): its errors are decoded and noted, and the word
keeps what the decoding returned. A correctable error stays in the word until its scrub. -/
def readWord (s : State) (d : Die) (st : Store) (w : Nat) : State :=
  match s.latent.find w with
  | none => s
  | some u =>
    if u = ⟨[], 0⟩ then s
    else
      let o := eccOutcome st u (s.poisoned w)
      match o with
      | .clean => { leaveErrors s st u o w with latent := s.latent.drop_ w, poison := NatSet.del s.poison w }
      | .poison => { s with latent := s.latent.drop_ w, poison := NatSet.add s.poison w }
      | .corrected n v =>
        noteCorrected { leaveErrors s st u o w with latent := s.latent.put w ⟨[(n, v)], 0⟩, poison := NatSet.del s.poison w } d st w
      | .uncorrectable => noteUncorrectable s d st w 2
      | .badPair => noteUncorrectable s d st w 3

/-- A read of n bytes of a store through its protection: every word it covers is decoded; the state after the
read, from which the bytes and marks are taken. -/
def readStore (s : State) (a n : Nat) : State :=
  match storeOf a with
  | none => s
  | some (d, st) =>
    let p := protSize a
    let first := a / p * p
    (List.range ((a + n - first + p - 1) / p)).foldl (fun s i => readWord s d st (first + i * p)) s

/-- A new error pattern joined to the one a word already holds. -/
def addUpset (s : State) (w : Nat) (u : Upset) : State :=
  let old := (s.latent.find w).getD ⟨[], 0⟩
  { s with latent := s.latent.put w ⟨old.syms ++ u.syms, old.pair ^^^ u.pair⟩ }

end Sys2Proof.Machine
end

