-- ==== Sys2Proof/Machine/Engine.lean ====
section
/-! DEFINITION. The lane engines (chapter 03): word checks, grades, the arithmetic of every engine
instruction, drains, freezes, TOPK.SEL and SLIDE. -/

namespace Sys2Proof.Machine

/-- The engine instructions (R112). -/
inductive EngOp where
  | nop | mmaF8 | mmaI8 | mmaB4 | mmaBf16 | distL1 | distL2 | cmpMin | cmpMax | cmpEqc | topkSel | slide
  deriving DecidableEq, Repr

/-- The instruction of an opcode (R112). -/
def EngOp.ofCode : Nat → Option EngOp
  | 0 => some .nop | 1 => some .mmaF8 | 2 => some .mmaI8 | 3 => some .mmaB4 | 4 => some .mmaBf16
  | 8 => some .distL1 | 9 => some .distL2 | 12 => some .cmpMin | 13 => some .cmpMax | 14 => some .cmpEqc
  | 16 => some .topkSel | 20 => some .slide | _ => none

/-- The fields of an engine word (R111). -/
structure EngFields where
  op : Nat
  emask : Nat
  nrow : Nat
  fmt : Nat
  tkeep : Bool
  acc : Bool
  drain : Nat
  psbase : Nat
  dir : Bool
  fillz : Bool
  rest : Nat
  deriving DecidableEq, Repr

/-- The fields of a word (R111). -/
def engFields (w : Word) : EngFields :=
  { op := bitsOf w 63 59, emask := bitsOf w 58 55, nrow := bitsOf w 54 50, fmt := bitsOf w 49 48,
    tkeep := bitsOf w 47 47 == 1, acc := bitsOf w 46 46 == 1, drain := bitsOf w 45 43,
    psbase := bitsOf w 42 33, dir := bitsOf w 32 32 == 1, fillz := bitsOf w 31 31 == 1, rest := bitsOf w 30 0 }

/-- The tile kind that an instruction loads or uses (R103); none for NOP and SLIDE. -/
def EngOp.kind : EngOp → Option TileKind
  | .mmaF8 | .mmaI8 | .distL1 | .distL2 | .cmpMin | .cmpMax | .cmpEqc => some .k8
  | .mmaB4 => some .b4
  | .mmaBf16 | .topkSel => some .bf16
  | .nop | .slide => none

/-- Whether the instruction computes into accumulator slots. -/
def EngOp.arith : EngOp → Bool
  | .nop | .topkSel | .slide => false
  | _ => true

/-- Whether the instruction with this FMT gives INT32 slots (R120). -/
def EngOp.isInt (op : EngOp) (fmt : Nat) : Bool :=
  match op with
  | .mmaI8 | .cmpEqc => true
  | .distL1 | .distL2 | .cmpMin | .cmpMax => decide (fmt < 2)
  | _ => false

/-- Transfers that make a shadow tile of a kind complete (R103, R110). -/
def TileKind.transfers : TileKind → Nat
  | .k8 => 1
  | .b4 | .bf16 => 2

/-- Whether a shadow tile is complete (R110). -/
def Shadow.complete (t : Shadow) : Bool := decide (t.kind.transfers ≤ t.transfers.length)

/-- The grade the module presents (R4, R140). -/
def State.presentedGrade (s : State) : Nat :=
  match s.regs.find .engGradeMask with
  | none => s.fuses.grade
  | some w => bitsOf w 3 0

/-- The engines a logical core has under a grade, as a mask (R137). -/
def gradeMask (grade : Nat) (q : CoreId) : Nat :=
  match grade with
  | 1 => 15
  | 2 => if q.val % 4 = 3 then 7 else 15
  | _ => if q.val % 4 ≥ 2 then 7 else 15

/-- PRESENT of a core (R142). -/
def State.present (s : State) (q : CoreId) : Nat := gradeMask s.presentedGrade q

/-- The engines of a gang, ascending. -/
def gangOf (emask : Nat) : List (Fin 4) := (List.finRange 4).filter (fun e => emask / 2 ^ e.val % 2 = 1)

/-- An engine of a core. -/
def Core.engine (c : Core) (e : Fin 4) : Engine := c.engines.at_ Engine.reset e

/-- The core with an engine replaced. -/
def Core.setEngine (c : Core) (e : Fin 4) (g : Engine) : Core := { c with engines := c.engines.put e g }

/-- The bytes of an element a DRAIN mode writes (R114). -/
def drainSize (drain : Nat) : Nat :=
  match drain with | 1 => 4 | 2 => 2 | 3 => 1 | 4 => 4 | 5 => 2 | _ => 0

/-- One past the last partial-sum byte an instruction writes (R115, R126); 0 where it writes none. -/
def engEnd (op : EngOp) (f : EngFields) : Nat :=
  let top := (gangOf f.emask).foldl (fun _ e => e.val) 0
  match op with
  | .topkSel => f.psbase * 1024 + top * 256 + 8 * f.nrow + 8
  | _ =>
    let z := drainSize f.drain
    if z = 0 then 0 else f.psbase * 1024 + f.nrow * 256 * z + top * 64 * z + 64 * z

/-- FMT bits reserved for the instruction (R113). -/
def fmtReserved (op : EngOp) (fmt : Nat) : Bool :=
  match op with
  | .mmaF8 | .distL1 | .distL2 | .cmpMin | .cmpMax | .cmpEqc => false
  | .mmaI8 | .mmaB4 => decide (fmt ≥ 2)
  | .mmaBf16 | .topkSel | .slide | .nop => decide (fmt ≠ 0)

/-- The first failing check of R116 among causes 0001 to 0011, which need no tile; none where all pass. Where several
checks fail at once, the spec does not say which cause is recorded: the lowest cause number is (DESIGN CHOICE, log
entry 43). -/
def engCheckEarly (s : State) (q : CoreId) (w : Word) : Option Nat :=
  let f := engFields w
  match EngOp.ofCode f.op with
  | none => some 1
  | some op =>
    if fmtReserved op f.fmt || decide (f.rest ≠ 0) then some 1
    else if decide (op ≠ .slide) && (f.dir || f.fillz) then some 1
    else if op = .nop ∧ (f.emask ≠ 0 ∨ f.tkeep = true ∨ f.acc = true ∨ f.drain ≠ 0 ∨ f.psbase ≠ 0) then some 1
    else if op ≠ .nop ∧ (f.emask = 0 ∨ f.emask &&& s.present q ≠ f.emask) then some 2
    else if op = .mmaBf16 ∧ f.nrow > 7 then some 3
    else none

/-- The first failing check of R116 among causes 0100 to 0111, once every shadow tile it loads is complete. -/
def engCheckLate (c : Core) (op : EngOp) (f : EngFields) : Option Nat :=
  let gang := gangOf f.emask
  let uses (k : TileKind) : Bool := match op.kind with
    | some k' => k == k'
    | none => k != .b4
  let tileBad :=
    if op = .nop then false
    else if op = .slide ∧ f.tkeep = false then true
    else if f.tkeep then
      gang.any (fun e => match (c.engine e).active with | none => true | some t => !uses t.kind)
    else gang.any (fun e => match (c.engine e).shadow with | none => true | some t => !uses t.kind)
  if tileBad then some 4
  else if op.arith && f.acc && gang.any (fun e => (c.engine e).intType != op.isInt f.fmt) then some 5
  else if f.drain ≥ 6 then some 6
  else if op = .topkSel ∧ (f.drain ≠ 1 ∨ f.acc = true) then some 6
  else if op = .slide ∧ (f.drain ≠ 0 ∨ f.acc = true) then some 6
  else if engEnd op f > 1048576 then some 7
  else none

/-- Whether an instruction that loads tiles still waits for one (R110, R131). -/
def tileWait (c : Core) (op : EngOp) (f : EngFields) : Bool :=
  decide (op.kind ≠ none) && !f.tkeep &&
    (gangOf f.emask).any (fun e => match (c.engine e).shadow with | none => true | some t => !t.complete)

/-- The rejection of an engine word (R116): it is recorded and a CONFIG fault is raised for the context that
issued it; it takes no beats. -/
def engReject (s : State) (d : Die) (q : CoreId) (w : EngWord) (cause : Nat) : State :=
  let s := s.setReg (.engRejectWord d q) w.word
  let s := s.setFld (.engCoreStatus d q) F.engCoreStatus_REJ_CAUSE cause
  let s := s.setFld (.engCoreStatus d q) F.engCoreStatus_REJECTED 1
  s.raise { Report.plain .engineReject d.val q.val .eng 0 with
    ctx := some ⟨d, q, w.slot⟩, detail := cause }

/-- Where the transfers of a request of the queue come from, if they go to the tile path: true for the expander, false
for staged tiles and for lines past it (R270). A delivery whose header has not been read may be either. -/
def TileReq.source : TileReq → Option Bool
  | .tfeed _ _ _ _ _ _ => some false
  | .lines _ _ _ none => some false
  | .lines _ _ _ (some _) => none
  | .mcast _ stage _ _ _ => if stage then none else some false
  | .xpand _ stage _ _ _ _ _ _ => if stage then none else some true
  | .expand _ stage _ _ _ _ _ => if stage then none else some true
  | .zeros _ stage _ _ _ => if stage then none else some true

/-- The request whose transfers come next before the tile path, with its place (R270). -/
def tileHead (c : Core) : Option (Nat × TileReq) :=
  match c.treqs.findIdx? (fun t => t.source.isSome) with
  | none => none
  | some i => (c.treqs[i]?).map (fun t => (i, t))

/-- Whether the core's tile path waits for its expander (R185): the next source of the tile path in queue order is an
INLINE request of the expander. -/
def waitsExpander (c : Core) : Bool :=
  match tileHead c with | some (_, t) => t.source == some true | none => false

/-! ### Operands -/

/-- The value of an 8-bit element of a given type: 0 INT8, 1 UINT8, 2 E4M3, 3 E5M2 (R113). -/
def elem8 (ty b : Nat) : Val :=
  match ty with
  | 0 => Val.ofInt (toSigned 8 b) | 1 => Val.ofInt b | 2 => Val.ofE4M3 b | _ => Val.ofE5M2 b

/-- Byte i of a list, 0 beyond its end. -/
def nthByte (l : List Byte) (i : Nat) : Nat := (l.getD i 0).toNat

/-- Lane l of an 8-bit tile (R103). -/
def lane8 (t : List Byte) (ty l : Nat) : List Val := (List.range 16).map (fun i => elem8 ty (nthByte t (16 * l + i)))

/-- Lane l of a Brass-4 tile: 32 elements (R103, R156). -/
def laneB4 (t : List Byte) (l : Nat) : List Val :=
  (List.range 32).map (fun i =>
    let b := nthByte t (16 * l + i / 2)
    let c := if i % 2 = 0 then b % 16 else b / 16
    let off := nthByte t (1024 + 2 * l + 1)
    Val.ofBrass4 c (nthByte t (1024 + 2 * l)) (if i < 16 then off % 4 else off / 4 % 4))

/-- BF16 element i of a list of bytes. -/
def bf16At (t : List Byte) (i : Nat) : Val := Val.ofBf16 (nthByte t (2 * i) + 256 * nthByte t (2 * i + 1))

/-- Lane l of a BF16 tile: 16 elements (R103). -/
def laneBf16 (t : List Byte) (l : Nat) : List Val := (List.range 16).map (fun i => bf16At t (16 * l + i))

/-- The type of the weight elements and of the activation elements of an 8-bit instruction (R113). -/
def types8 (op : EngOp) (fmt : Nat) : Nat × Nat :=
  match op with
  | .mmaF8 => (if fmt ≥ 2 then 3 else 2, if fmt % 2 = 1 then 3 else 2)
  | .mmaI8 => (0, fmt % 2)
  | .mmaB4 => (2, if fmt % 2 = 1 then 3 else 2)
  | _ => (fmt, fmt)

/-- The row's activation elements (R105). -/
def rowElems (op : EngOp) (fmt : Nat) (row : List Byte) : List Val :=
  match op with
  | .mmaB4 => (List.range 32).map (fun i => elem8 (types8 op fmt).2 (nthByte row i))
  | .mmaBf16 => (List.range 16).map (fun i => bf16At row i)
  | _ => (List.range 16).map (fun i => elem8 (types8 op fmt).2 (nthByte row i))

/-- A lane's weight elements. -/
def laneElems (op : EngOp) (fmt : Nat) (tile : List Byte) (l : Nat) : List Val :=
  match op with
  | .mmaB4 => laneB4 tile l
  | .mmaBf16 => laneBf16 tile l
  | _ => lane8 tile (types8 op fmt).1 l

/-- Elements of each group of a lane row (R117). -/
def groupSize (op : EngOp) : Nat := match op with | .mmaBf16 => 4 | _ => 16

/-- Groups of a lane row (R117). -/
def groupCount (op : EngOp) : Nat := match op with | .mmaB4 => 2 | .mmaBf16 => 4 | _ => 1

/-- The cell value of one pair of elements (R118, R121). -/
def cell (op : EngOp) (w a : Val) : Val :=
  match op with
  | .distL1 => (Val.sum [a, w.neg]).abs
  | .distL2 => let v := Val.sum [a, w.neg]; v.mul v
  | .cmpMin | .cmpMax => Val.sum [a, w]
  | .cmpEqc => if Val.same a w then Val.ofInt 1 else Val.ofInt 0
  | _ => w.mul a

/-- The exact result of one group (R118). -/
def groupResult (op : EngOp) (cells : List Val) : Val :=
  match op, cells with
  | .cmpMin, c :: cs => cs.foldl Val.minV c
  | .cmpMax, c :: cs => cs.foldl Val.maxV c
  | _, cs => Val.sum cs

/-- The group results of a lane and a row, in ascending group order. -/
def groupResults (op : EngOp) (fmt : Nat) (tile row : List Byte) (l : Nat) : List Val :=
  let ws := laneElems op fmt tile l
  let as := rowElems op fmt row
  let cells := List.zipWith (cell op) ws as
  (List.range (groupCount op)).map (fun g => groupResult op ((cells.drop (g * groupSize op)).take (groupSize op)))

/-- A signed 32-bit slot as an integer. -/
def slotInt (h : Half) : Int := h.toInt

/-- A group result combined into an FP32 slot (R118, R119). -/
def combineFp (op : EngOp) (slot : Half) (v : Val) : Half :=
  let g := Val.ofFp32 (toFp32 v)
  let o := Val.ofFp32 slot.toNat
  BitVec.ofNat 32 (match op with
    | .cmpMin => toFp32 (Val.minV o g)
    | .cmpMax => toFp32 (Val.maxV o g)
    | _ => toFp32 (Val.sum [o, g]))

/-- A group result combined into an INT32 slot, with whether an addition saturated (R120). -/
def combineInt (op : EngOp) (slot : Half) (v : Val) : Half × Bool :=
  let g := toInteger v
  match op with
  | .cmpMin => (BitVec.ofInt 32 (min (slotInt slot) g), false)
  | .cmpMax => (BitVec.ofInt 32 (max (slotInt slot) g), false)
  | _ => let r := satInt32 (slotInt slot + g); (BitVec.ofInt 32 r.1, r.2)

/-- The new slot of one lane from its old slot (R119, R120): with ACC = 0 group 0 replaces the slot. -/
def laneResult (op : EngOp) (fmt : Nat) (acc : Bool) (old : Half) (groups : List Val) : Half × Bool :=
  match groups with
  | [] => (old, false)
  | g :: gs =>
    if op.isInt fmt then
      let first : Half × Bool :=
        if acc then combineInt op old g else let r := satInt32 (toInteger g); (BitVec.ofInt 32 r.1, r.2)
      gs.foldl (fun st v => let r := combineInt op st.1 v; (r.1, st.2 || r.2)) first
    else
      let first : Half := if acc then combineFp op old g else BitVec.ofNat 32 (toFp32 g)
      (gs.foldl (fun st v => combineFp op st v) first, false)

/-- One row through one engine: its new slot, and whether an INT32 addition saturated (R118 to R122). -/
def engineRow (op : EngOp) (f : EngFields) (g : Engine) (tile : Tile) (row : ActRow) (r : Nat) : AccSlot × Bool :=
  let old := g.slots.at_ ⟨List.replicate 64 0, false⟩ r
  let res := (List.range 64).map (fun l =>
    laneResult op f.fmt f.acc (old.lanes.getD l 0) (groupResults op f.fmt tile.bytes row.bytes l))
  (⟨res.map Prod.fst, row.poison || tile.poison || (f.acc && old.poison)⟩, res.any Prod.snd)

/-- The bytes one lane drains (R114); accumulate modes give the element that the memory adds. -/
def drainBytes (drain : Nat) (isInt : Bool) (h : Half) : List Byte :=
  let v := if isInt then Val.ofInt (slotInt h) else Val.ofFp32 h.toNat
  match drain with
  | 1 => leBytes 4 h.toNat
  | 2 => leBytes 2 (toBf16 v)
  | 3 => leBytes 1 (toE4M3 v)
  | 4 => leBytes 4 (if isInt then toFp32 v else h.toNat)
  | 5 => leBytes 4 (if isInt then toFp32 (Val.ofBf16 (toBf16 v)) else h.toNat)
  | _ => []

/-- Elements added at the memory (R219, R220): FP32 elements, or FP32 values added to BF16 elements. The result
is poisoned where either operand is (R221). -/
def accAt (s : State) (a : Nat) (fp32 : Bool) (src4 : Bool) (data : List (Byte × Bool)) : List (Byte × Bool) :=
  let n := if fp32 then 4 else 2
  let m := if fp32 || src4 then 4 else 2
  (List.range (data.length / m)).flatMap (fun i =>
    let piece := (data.drop (i * m)).take m
    let add := ofLe (piece.map Prod.fst)
    let old := ofLe (s.bytes (a + i * n) n)
    let bad := piece.any Prod.snd || s.poisonedIn (a + i * n) n
    let v := if fp32 then accFp32 old add
      else accBf16 old (if src4 then Val.ofFp32 add else Val.ofBf16 add)
    (leBytes n v).map (fun b => (b, bad)))

/-- The drain of one row of a gang (R115, R227): every gang engine's lanes, the record poisoned where any of
the drained slots is. -/
def drainRow (s : State) (d : Die) (q : CoreId) (f : EngFields) (r : Nat) (slots : List (Fin 4 × AccSlot × Bool)) :
    State :=
  let z := drainSize f.drain
  if z = 0 then s
  else
    let bad := slots.any (fun p => p.2.1.poison)
    let s := if bad then s.setFld (.engCoreStatus d q) F.engCoreStatus_POISONED 1 else s
    slots.foldl (fun s p =>
      let a := unitBase d .pst q.val + f.psbase * 1024 + r * 256 * z + p.1.val * 64 * z
      let data := p.2.1.lanes.flatMap (fun h => (drainBytes f.drain p.2.2 h).map (fun b => (b, bad)))
      if f.drain = 4 then
        let s := readStore s a 256
        s.poke a (accAt s a true true data)
      else if f.drain = 5 then
        let s := readStore s a 128
        s.poke a (accAt s a false true data)
      else s.poke a data) s

/-- The lines of the partial-sum store that row r of an instruction drains to (R115, R126). -/
def rowLines (op : EngOp) (f : EngFields) (r : Nat) : List Nat :=
  match op with
  | .topkSel => (gangOf f.emask).map (fun e => (f.psbase * 1024 + e.val * 256) / 1024)
  | .nop | .slide => []
  | _ =>
    let z := drainSize f.drain
    if z = 0 then []
    else (gangOf f.emask).map (fun e => (f.psbase * 1024 + r * 256 * z + e.val * 64 * z) / 1024)

/-- A drain's lines taken into the drain buffer (R222): each merges into the entry of its line or takes a free one of
the 8; none where a line finds neither, which blocks the drain. -/
def drainInto (acc : Bool) : List Nat → List DrainEntry → Option (List DrainEntry)
  | [], b => some b
  | l :: ls, b =>
    if b.any (fun e => e.line = l) then drainInto acc ls b
    else if b.length < 8 then drainInto acc ls (b ++ [⟨l, acc, none⟩])
    else none

/-- Whether an instruction's drains accumulate (R114). -/
def EngFields.accDrain (f : EngFields) : Bool := decide (f.drain = 4 ∨ f.drain = 5)

/-- One arithmetic row: taken from the queue, computed in every gang engine, drained (R106, R118, R128). -/
def stepRow (s : State) (d : Die) (q : CoreId) (op : EngOp) (f : EngFields) (r : Nat) : State :=
  let c := s.core d q
  match c.actQ with
  | [] => s
  | row :: rows =>
    let gang := gangOf f.emask
    let outs := gang.filterMap (fun e =>
      match (c.engine e).active with
      | none => none
      | some t => let o := engineRow op f (c.engine e) t row r; some (e, o.1, (c.engine e).intType, o.2))
    let c' := outs.foldl (fun c o =>
      let g := c.engine o.1
      c.setEngine o.1 { g with slots := g.slots.put r o.2.1 }) { c with actQ := rows }
    let s := s.setCore d q c'
    let s := if outs.any (fun o => o.2.2.2) then s.setFld (.engCoreStatus d q) F.engCoreStatus_SAT 1 else s
    drainRow s d q f r (outs.map (fun o => (o.1, o.2.1, o.2.2.1)))

/-- The issue beat of an instruction that computes: the gang's shadow tiles become active unless TKEEP = 1
(R102), and ACC = 0 sets the slot type of every gang engine (R120). -/
def loadTiles (c : Core) (op : EngOp) (f : EngFields) : Core :=
  (gangOf f.emask).foldl (fun c e =>
    let g := c.engine e
    let g := if f.tkeep then g else
      match g.shadow with
      | none => g
      | some t => { g with active := some ⟨t.kind, t.transfers.flatten, t.poison⟩, shadow := none }
    let g := if op.arith && !f.acc then { g with intType := op.isInt f.fmt } else g
    c.setEngine e g) c

/-! ### TOPK.SEL (R124 to R126) -/

/-- Whether key a (index i) comes before key b (index j) in the order of R124. -/
def keyBefore (a : Val) (i : Nat) (b : Val) (j : Nat) : Bool :=
  if Val.same a b then decide (i < j) else Val.below b a

/-- Whether a key is eligible (R124). -/
def keyEligible (tau : Val) (ub : Bool) (ups : Val) (iota : Nat) (k : Val) (i : Nat) : Bool :=
  k != .nan && tau != .nan && Val.below tau k && !Val.same tau k &&
    (!ub || (ups != .nan && keyBefore ups iota k i))

/-- A key inserted in the order of R124. -/
def insertKey (k : Val × Nat) : List (Val × Nat) → List (Val × Nat)
  | [] => [k]
  | h :: t => if keyBefore k.1 k.2 h.1 h.2 then k :: h :: t else h :: insertKey k t

/-- The record of a selected key (R126). -/
def topkRecord (bits idx : Nat) (valid : Bool) : List Byte :=
  leBytes 8 (bits * 2 ^ 48 + valid.toNat * 2 ^ 15 + idx)

/-- The records one engine writes (R125). -/
def topkRecords (tile : List Byte) (row : List Byte) (k : Nat) : List Byte :=
  let tau := bf16At row 0
  let ups := bf16At row 1
  let iota := (nthByte row 4 + 256 * nthByte row 5) % 1024
  let ub := nthByte row 6 % 2 = 1
  let keys := (List.range 1024).filterMap (fun i =>
    let v := bf16At tile i
    if keyEligible tau ub ups iota v i then some (v, i) else none)
  let sorted := keys.foldl (fun l x => insertKey x l) []
  (List.range k).flatMap (fun j =>
    match sorted[j]? with
    | some (_, i) => topkRecord (nthByte tile (2 * i) + 256 * nthByte tile (2 * i + 1)) i true
    | none => topkRecord 0xFF80 0x3FF false)

/-- TOPK.SEL at its issue: one queue entry, K records per gang engine; slots unchanged (R125, R126). -/
def stepTopk (s : State) (d : Die) (q : CoreId) (f : EngFields) : State :=
  let c := s.core d q
  match c.actQ with
  | [] => s
  | row :: rows =>
    let s := s.setCore d q { c with actQ := rows }
    (gangOf f.emask).foldl (fun s e =>
      match (c.engine e).active with
      | none => s
      | some t =>
        let bad := row.poison || t.poison
        let s := if bad then s.setFld (.engCoreStatus d q) F.engCoreStatus_POISONED 1 else s
        s.poke (unitBase d .pst q.val + f.psbase * 1024 + e.val * 256)
          ((topkRecords t.bytes row.bytes (f.nrow + 1)).map (fun b => (b, bad)))) s

/-! ### SLIDE (R127) -/

/-- Bytes of a lane row of a tile kind. -/
def laneBytes : TileKind → Nat
  | .bf16 => 32
  | _ => 16

/-- A tile moved one lane (R127). -/
def slideTile (t : Tile) (dir : Bool) (fill : List Byte) (bad : Bool) : Tile :=
  let n := laneBytes t.kind
  let row := fill.take n ++ List.replicate (n - fill.length) 0
  { t with
    bytes := if dir then t.bytes.drop n ++ row else row ++ t.bytes.take (63 * n)
    poison := t.poison || bad }

/-- One beat of SLIDE in every gang engine. -/
def slideBeat (d : Die) (q : CoreId) (f : EngFields) (s : State) : State :=
  let c := s.core d q
  let go (c : Core) (fill : List Byte) (bad : Bool) : Core :=
    (gangOf f.emask).foldl (fun c e =>
      let g := c.engine e
      match g.active with
      | none => c
      | some t => c.setEngine e { g with active := some (slideTile t f.dir fill bad) }) c
  if f.fillz then s.setCore d q (go c [] false)
  else match c.actQ with
    | [] => s
    | row :: rows => s.setCore d q (go { c with actQ := rows } row.bytes row.poison)

/-! ### Issue -/

/-- Rows of an instruction, each of which may freeze it (R107): steps of SLIDE, and one for TOPK.SEL. -/
def rowsOfOp (op : EngOp) (f : EngFields) : Nat :=
  match op with
  | .nop => 0
  | .topkSel => 1
  | _ => f.nrow + 1

/-- Whether a row takes a queue entry (R105, R108, R125, R127). -/
def takesEntry (op : EngOp) (f : EngFields) : Bool :=
  match op with
  | .nop => false
  | .slide => !f.fillz
  | _ => true

/-- The span of an instruction in engine beats (R107). -/
def spanOf (op : EngOp) (f : EngFields) : Nat :=
  match op with
  | .mmaBf16 => 4 * (f.nrow + 1)
  | .slide => f.nrow + 1
  | _ => 4 * (f.nrow / 4 + 1)

/-- The engine beat count of a core (R303). -/
def State.engBeat (s : State) (d : Die) (q : CoreId) : Nat := s.beat d - (s.core d q).engFrozen

/-- Row r of an instruction, and its drains taken into the drain buffer (R118, R125, R127, R222). -/
def stepOne (s : State) (d : Die) (q : CoreId) (op : EngOp) (f : EngFields) (r : Nat) : State :=
  let s := match op with
    | .nop => s
    | .topkSel => stepTopk s d q f
    | .slide => slideBeat d q f s
    | _ => stepRow s d q op f r
  match drainInto f.accDrain (rowLines op f r) (s.core d q).drains with
  | some b => s.setCore d q { s.core d q with drains := b }
  | none => s

/-- What holds the engines of a core on a beat (R131), in the order of R132. -/
inductive FreezeCause where
  | drain | tile | dry
  deriving DecidableEq, Repr

/-- Why row r of an issued instruction cannot go on (R131, R222). -/
def rowBlock (c : Core) (op : EngOp) (f : EngFields) (r : Nat) : Option FreezeCause :=
  if (drainInto f.accDrain (rowLines op f r) c.drains).isNone then some .drain
  else if takesEntry op f && c.actQ.isEmpty then some .dry
  else none

/-- The instruction at the queue head retires (R133). -/
def retireWord (s : State) (d : Die) (q : CoreId) : State :=
  let c := s.core d q
  (s.setCore d q { c with issueQ := c.issueQ.drop 1, prog := none }).addFld (.engRetired d q) F.engRetired_COUNT 1

/-- The rows from r on of the issued instruction at the queue head, n of them, until one freezes it or the last is done
(R107, R131). -/
def runRows (d : Die) (q : CoreId) (op : EngOp) (f : EngFields) : Nat → Nat → State → State
  | 0, _, s => retireWord s d q
  | n + 1, r, s =>
    match rowBlock (s.core d q) op f r with
    | some _ => s.setCore d q { s.core d q with prog := some r }
    | none => runRows d q op f n (r + 1) (stepOne s d q op f r)

/-- The instruction at the queue head issues (R102, R107, R120): its tiles become active, its rows run, and the next
instruction may issue a span of engine beats later (log entry 7). -/
def runWord (s : State) (d : Die) (q : CoreId) (op : EngOp) (f : EngFields) : State :=
  let c := s.core d q
  let c := if op = .nop ∨ op = .slide then c else loadTiles c op f
  let s := s.setCore d q { c with nextIssue := s.engBeat d q + spanOf op f }
  runRows d q op f (rowsOfOp op f) 0 s

/-- What the head of the queue does on this beat (R116, R131). -/
inductive HeadAct where
  | reject (cause : Nat)
  | freeze (why : FreezeCause)
  | run (op : EngOp)
  deriving DecidableEq, Repr

/-- The judgement of a queue head that is due to issue: rejection, a frozen beat, or issue. -/
def judgeHead (s : State) (d : Die) (q : CoreId) (w : Word) : HeadAct :=
  match engCheckEarly s q w with
  | some c => .reject c
  | none =>
    let f := engFields w
    let c := s.core d q
    match EngOp.ofCode f.op with
    | none => .reject 1
    | some op =>
      if tileWait c op f then .freeze .tile
      else match engCheckLate c op f with
        | some cause => .reject cause
        | none => if takesEntry op f && c.actQ.isEmpty then .freeze .dry else .run op

/-- Whether a word at the queue head is due to issue (R107, R134): it was pushed on an earlier beat, and the span of
the instruction before it has passed. -/
def headDue (s : State) (d : Die) (q : CoreId) (w : EngWord) : Bool :=
  decide (w.beat < s.beat d ∧ (s.core d q).nextIssue ≤ s.engBeat d q)

/-- The queue with its rejected heads taken off, on one beat (R116): the state and the words left. -/
def dropRejected (d : Die) (q : CoreId) : List EngWord → State → State × List EngWord
  | [], s => (s, [])
  | w :: ws, s =>
    if headDue s d q w then
      match judgeHead s d q w.word with
      | .reject cause => dropRejected d q ws (engReject s d q w cause)
      | _ => (s, w :: ws)
    else (s, w :: ws)

/-- Why the engines of a core are frozen on this beat, if they are (R131): the issued instruction cannot go on, or the
one due to issue cannot. -/
def headBlock (s : State) (d : Die) (q : CoreId) : Option FreezeCause :=
  let c := s.core d q
  match c.issueQ, c.prog with
  | [], _ => none
  | w :: _, some r =>
    (match EngOp.ofCode (engFields w.word).op with
     | some op => rowBlock c op (engFields w.word) r
     | none => none)
  | w :: _, none =>
    if headDue s d q w then
      match judgeHead s d q w.word with
      | .freeze k => some k
      | _ => none
    else none

/-- An engine instruction of the given kind issues from the head of the core's queue, or goes on where a freeze had held
it; a core whose head is of another kind or not due, or of a die that does not run, is left as it is (log entry 2). -/
def issueEngine (op : EngOp) (d : Die) (q : CoreId) (s : State) : State :=
  if s.dieUp d = false then s
  else match (s.core d q).issueQ, (s.core d q).prog with
  | [], _ => s
  | w :: _, some r =>
    let f := engFields w.word
    if EngOp.ofCode f.op = some op then runRows d q op f (rowsOfOp op f - r) r s else s
  | w :: ws, none =>
    let p := dropRejected d q (w :: ws) s
    let s := p.1.setCore d q { p.1.core d q with issueQ := p.2 }
    match p.2 with
    | [] => s
    | v :: _ =>
      if EngOp.ofCode (engFields v.word).op = some op ∧ headDue s d q v = true then
        match judgeHead s d q v.word with
        | .run o => runWord s d q o (engFields v.word)
        | _ => s
      else s

/-- NOP (R108). -/
def execNop (d : Die) (q : CoreId) (s : State) : Res := .next (issueEngine .nop d q s)
/-- MMA.F8 (R118). -/
def execMmaF8 (d : Die) (q : CoreId) (s : State) : Res := .next (issueEngine .mmaF8 d q s)
/-- MMA.I8 (R118, R120). -/
def execMmaI8 (d : Die) (q : CoreId) (s : State) : Res := .next (issueEngine .mmaI8 d q s)
/-- MMA.B4 (R117, R118). -/
def execMmaB4 (d : Die) (q : CoreId) (s : State) : Res := .next (issueEngine .mmaB4 d q s)
/-- MMA.BF16 (R117, R118). -/
def execMmaBf16 (d : Die) (q : CoreId) (s : State) : Res := .next (issueEngine .mmaBf16 d q s)
/-- DIST.L1 (R118). -/
def execDistL1 (d : Die) (q : CoreId) (s : State) : Res := .next (issueEngine .distL1 d q s)
/-- DIST.L2 (R118). -/
def execDistL2 (d : Die) (q : CoreId) (s : State) : Res := .next (issueEngine .distL2 d q s)
/-- CMP.MIN (R118, R121). -/
def execCmpMin (d : Die) (q : CoreId) (s : State) : Res := .next (issueEngine .cmpMin d q s)
/-- CMP.MAX (R118, R121). -/
def execCmpMax (d : Die) (q : CoreId) (s : State) : Res := .next (issueEngine .cmpMax d q s)
/-- CMP.EQC (R118, R121). -/
def execCmpEqc (d : Die) (q : CoreId) (s : State) : Res := .next (issueEngine .cmpEqc d q s)
/-- TOPK.SEL (R124 to R126). -/
def execTopkSel (d : Die) (q : CoreId) (s : State) : Res := .next (issueEngine .topkSel d q s)
/-- SLIDE (R127). -/
def execSlide (d : Die) (q : CoreId) (s : State) : Res := .next (issueEngine .slide d q s)

end Sys2Proof.Machine
end

