-- ==== Sys2Proof/Machine/Stores.lean ====
section
/-! DEFINITION. The stores (chapter 05): slot classes, service of accesses, read-modify-writes, scrubs, the
drain and combining buffers, clearing, the background test and spare-row repair. -/

namespace Sys2Proof.Machine

/-- The die's latency mode (R207). -/
def State.invar (s : State) (d : Die) : Bool := s.fld (.wstStoreCtrl d) F.wstStoreCtrl_INVAR == 1

/-- The distance of an access from a core (R196): 0 near, 1 far, 2 outer. -/
def distance (d : Die) (q : CoreId) (a : Nat) : Nat :=
  match placeOf a with
  | .store d' st u _ off =>
    if d' ≠ d then 2
    else match st with
      | .wst => if u ≠ q.val / 4 then 2 else if off / 1024 / 6144 = q.val % 4 then 0 else 1
      | .ast =>
        if u ≠ q.val / 4 then 2
        else if off ≥ 0x780000 then 0
        else if off / 1024 / 2048 = q.val % 4 then 0 else 1
      | .pst => if u = q.val then 0 else if u / 4 = q.val / 4 then 1 else 2
  | _ => 2

/-- Whether an address lies in an Electrum region (R11). -/
def isElectrum (a : Nat) : Bool :=
  match placeOf a with
  | .store _ .ast _ _ off => decide (off ≥ 0x780000)
  | _ => false

/-- Beats from issue to service, and from service to return (R207); an outer access has no fixed beats, and takes at least one
of each. -/
def latency (invar : Bool) (dist : Nat) : Nat × Nat :=
  if dist = 2 then (1, 1) else if invar then (4, 8) else if dist = 0 then (1, 4) else (4, 7)

/-- The core an access belongs to, if a core of the die asked for it. -/
def AccDest.core : AccDest → Option (Die × CoreId)
  | .scalar d q _ _ _ => some (d, q)
  | .store d q _ => some (d, q)
  | .vector d q _ _ _ => some (d, q)
  | .feeder d q _ _ => some (d, q)
  | .combine d q => some (d, q)
  | .expander d q => some (d, q)
  | .stage d q _ => some (d, q)
  | .dma _ _ _ _ | .post _ _ _ | .txn _ _ | .remote => none

/-- Whether an access is a narrow one of a scalar core (R202). -/
def Access.narrow (a : Access) : Bool :=
  match a.dest with
  | .scalar _ _ _ _ _ => true
  | .store _ _ _ => decide (a.size ≤ 8)
  | .combine _ _ => true
  | _ => false

/-- Whether an access is one of a vector unit (R202). -/
def Access.vector (a : Access) : Bool :=
  match a.dest with
  | .vector _ _ _ _ _ => true
  | .store _ _ _ => decide (8 < a.size)
  | _ => false

/-- Whether an access is a STAGE write (R198). -/
def Access.staged (a : Access) : Bool := match a.dest with | .stage _ _ _ => true | _ => false

/-- The class in which an access may be served at beat v at its bank, if any (R198, R199, R210, R215). A vector access to
the other die's activation store is the activation exchange (R91, R93; log entry 45). -/
def slotClass (a : Access) (v : Nat) : Option Nat :=
  match placeOf a.addr with
  | .store _ st u _ off =>
    let b := (bankOf st (off / 1024)).2.1
    let cls := (b + 8 - v % 8) % 8
    let only (n : Nat) : Option Nat := if cls = n then some n else none
    match a.dest with
    | .txn _ exch => if exch ∧ st = .ast then only 4 else only 5
    | .dma _ _ _ _ | .post _ _ _ | .remote => only 5
    | .stage _ _ _ => only 2
    | .scalar d q _ _ _ | .store d q _ | .vector d q _ _ _ | .feeder d q _ _ | .combine d q | .expander d q =>
      let k := q.val % 4
      if a.portB then (if (b + 8 - v % 8) % 4 = k then some 8 else none)
      else if distance d q a.addr = 2 then only 5
      else
        let own := match st with
          | .pst => if u = q.val then cls == 3 else cls == 4 && (u % 4 + 1 + v / 8 % 3) % 4 == k
          | _ => cls == k
        if own then some cls
        else if a.narrow && cls == 6 && v / 8 % 4 == k then some 6 else none
  | _ => none

/-- Whether a read-modify-write's write-back holds the slot of a class at a bank on beat v (R205). -/
def rmwHolds (x : DieSt) (bank cls v : Nat) : Bool :=
  x.rmws.any (fun r => r.bank = bank ∧ r.cls = cls ∧ r.beat = v)

/-- Whether a write needs a read-modify-write: it covers part of a protection word, or combines (R204). -/
def needsRmw (a : Access) : Bool :=
  match a.kind with
  | .read => false
  | .write => let p := protSize a.addr; decide (p ≠ 0) && (decide (a.addr % p ≠ 0) || decide (a.size % p ≠ 0))
  | _ => true

/-- The bytes a write of a kind leaves at its address (R218 to R221). -/
def mergeWrite (s : State) (k : AccKind) (a : Nat) (data : List (Byte × Bool)) : List (Byte × Bool) :=
  match k with
  | .bitSet => (data.zip (s.peek a data.length)).map (fun p => (p.1.1 ||| p.2.1, p.1.2 || p.2.2))
  | .bitClear => (data.zip (s.peek a data.length)).map (fun p => (p.2.1 &&& ~~~p.1.1, p.1.2 || p.2.2))
  | .acc fp32 => accAt s a fp32 fp32 data
  | _ => data

/-- The words that a write of a kind covers in part, and all words of a bit operation or an accumulate, are read and
decoded before it merges into them (R204, R225, R226). -/
def readHalf (s : State) (k : AccKind) (a n : Nat) : State :=
  match k with
  | .read => s
  | .write =>
    let p := protSize a
    if p = 0 then s
    else
      let s := if a % p ≠ 0 ∨ n < p then readStore s a 1 else s
      if (a + n) % p ≠ 0 ∧ a / p ≠ (a + n) / p then readStore s (a + n - 1) 1 else s
  | _ => readStore s a n

/-- Poison that a write carries marks every word that it covers (R227). -/
def spread (data : List (Byte × Bool)) : List (Byte × Bool) :=
  if data.any Prod.snd then data.map (fun b => (b.1, true)) else data

/-- A write of a kind takes effect (R204 to R206, R218 to R221, R227). -/
def writeEffect (s : State) (k : AccKind) (a : Nat) (data : List (Byte × Bool)) : State :=
  let s := readHalf s k a data.length
  s.poke a (mergeWrite s k a (spread data))

/-- Effects of a beat in ascending class order, those of one class as they came (R206). -/
def sortEffects (l : List Effect) : List Effect :=
  (List.range 9).flatMap (fun c => l.filter (fun e => e.cls = c))

/-- The end of a beat: the writes served on it take effect (R206, R217). -/
def applyEffects (s : State) (d : Die) : State :=
  let l := sortEffects (s.die d).effects
  let s := s.setDie d { s.die d with effects := [] }
  l.foldl (fun s e => writeEffect s e.kind e.addr e.data) s

/-- Pending bytes of a core's combining buffer laid over read data (R210). -/
def overlay (c : Core) (a : Nat) (data : List (Byte × Bool)) : List (Byte × Bool) :=
  data.zipIdx.map (fun p =>
    let ad := a + p.2
    match c.combine.find? (fun e => e.line = ad / 1024 * 1024) with
    | some e => (e.bytes.find (ad % 1024)).getD p.1
    | none => p.1)

/-- The place of a requester in the order in which a core's port is taken (R273). -/
def portRank (a : Access) : Nat :=
  match a.dest with
  | .feeder _ _ _ _ => 0
  | .expander _ _ => 1
  | _ => if a.vector then 2 else 3

/-- A clear of the die's stores runs: every access waits until it ends (R240). -/
def State.clearing (s : State) (d : Die) : Bool := bitsOf (s.reg (.wstCtrl d)) 3 3 == 1

/-- Beats from the issue of an access to its service, and from there to its return (R207). -/
def Access.times (s : State) (a : Access) : Nat × Nat :=
  match a.dest.core with
  | some (d, q) => latency (s.invar d) (distance d q a.addr)
  | none => (1, 1)

/-- The first beat on which an access may be served (R207). -/
def Access.due (s : State) (a : Access) : Nat := a.issue + (a.times s).1

/-- An access of a cluster's own DMA, which class 5 serves before outer ones (R199). -/
def Access.ownDma (a : Access) : Bool :=
  let at_ (c : Cluster) : Bool := match placeOf a.addr with
    | .store _ .pst u _ _ => u / 4 == c.val
    | .store _ _ u _ _ => u == c.val
    | _ => false
  match a.dest with
  | .dma _ c _ _ | .post _ c _ => at_ c
  | _ => false

/-- Whether an access waits for writes of the combining buffer (R212): a bit operation or an accumulate of a core for the
pending entry of its line, the read of a posted descriptor for every write its core made before the post. -/
def waitsCombine (s : State) (d : Die) (a : Access) : Bool :=
  match a.dest with
  | .post _ _ (some q) => (s.core d q).combine.any (fun e => e.who.any (fun w => decide (w.2 < a.stamp)))
  | dest => match dest.core with
    | some (dc, q) => a.narrow && a.kind != .read && a.kind != .write
        && (s.core dc q).combine.any (fun e => decide (e.line = a.addr / 1024 * 1024))
    | none => false

/-- The class of the slot that is an access's own on the present beat, at a bank whose slot is still free; a write-back
holds the slot, and a DMA moves one line a beat (R201, R205, R212, R240, R284). -/
def freeSlot (s : State) (d : Die) (a : Access) : Option Nat :=
  match slotClass a (s.beat d) with
  | none => none
  | some c =>
    let key := (rowOf a.addr).1
    let busy := match a.dest with | .dma _ e _ none => a.kind != .read && (s.die d).used.contains (.dma e) | _ => false
    if a.served || decide (s.beat d < a.due s) || s.clearing d || waitsCombine s d a || busy || rmwHolds (s.die d) key c (s.beat d)
        || (s.die d).used.contains (.bank key c) then none
    else some c

/-- The core's port that an access takes, by unit (R200). -/
def Access.port (a : Access) : Option SlotUse :=
  match a.dest.core with
  | some (d, q) => if distance d q a.addr < 2 ∧ a.staged = false then some (.port q (a.addr / 0x8000000)) else none
  | none => none

/-- Whether an access uses class 5 slots as an outer one: it comes from outside the cluster that owns its unit (R196,
R198). -/
def Access.outer (a : Access) : Bool := a.port.isNone && !a.staged

/-- Whether access b, at place j, goes before access a, at place i, where both could be served now: on one port the
order of R273, narrow accesses of a core one at a time and oldest first (R210), and in class 5 of a bank the order of
arrival (R199). -/
def goesBefore (b : Access) (j : Nat) (a : Access) (i : Nat) : Bool :=
  a.port.isSome && b.port == a.port && (decide (portRank b < portRank a) || (decide (portRank b = portRank a) && decide (j < i)))

/-- Whether an earlier narrow access of the core, or an earlier access in class 5 of the bank, is still to be served, or one
of the cluster's own DMA goes before an outer one there (R199, R210). -/
def waitsTurn (s : State) (d : Die) (a : Access) (i : Nat) : Bool :=
  let sameBank (b : Access) : Bool := b.outer && (rowOf b.addr).1 == (rowOf a.addr).1 && !b.served
  ((s.die d).accs.take i).any (fun b => !b.served &&
    ((a.narrow && b.narrow && a.port.isSome && b.port.isSome && b.dest.core == a.dest.core)
      || (a.outer && sameBank b && a.ownDma == b.ownDma)))
    || (a.outer && !a.ownDma && (s.die d).accs.any (fun b => sameBank b && b.ownDma && (freeSlot s d b).isSome))

/-- The class in which access i of die d can be served on the present beat, its port and its turn included (R199 to R201,
R210, R273). -/
def servable (s : State) (d : Die) (i : Nat) (a : Access) : Option Nat :=
  match freeSlot s d a with
  | none => none
  | some c =>
    let taken := match a.port with | some p => (s.die d).used.contains p | none => false
    if taken || waitsTurn s d a i
        || (s.die d).accs.zipIdx.any (fun p => goesBefore p.1 p.2 a i && (freeSlot s d p.1).isSome && !waitsTurn s d p.1 p.2) then none
    else some c

/-- What a served read brings: the bytes before the beat's writes, with the core's own pending bytes laid over a narrow
one; a poisoned byte marks a wide access whole (R206, R210, R227). A DMA keeps the marks as they lie (R277). -/
def readData (s : State) (a : Access) : List (Byte × Bool) :=
  let data := s.peek a.addr a.size
  match a.dest.core with
  | some (dc, q) => if a.narrow then overlay (s.core dc q) a.addr data else spread data
  | none => data

/-- Access i of die d served in a slot of a class: a read takes its data, a write takes effect at the beat's end, and a
read-modify-write takes the next slot of its class for its write-back (R205 to R207). -/
def serveIn (s : State) (d : Die) (i : Nat) (a : Access) (c : Nat) : State :=
  let s := match a.kind with | .read => readStore s a.addr a.size | _ => s
  let x := s.die d
  let key := (rowOf a.addr).1
  let back := if a.staged then 0 else (a.times s).2
  let line := match a.dest with | .dma _ e _ none => (if a.kind = .read then [] else [SlotUse.dma e]) | _ => []
  s.setDie d { x with
    accs := x.accs.set i { a with served := true, ret := s.beat d + back
                                  data := match a.kind with | .read => readData s a | _ => a.data }
    used := x.used ++ (.bank key c :: a.port.toList) ++ line
    effects := match a.kind with | .read => x.effects | k => x.effects ++ [⟨c, k, a.addr, a.data⟩]
    rmws := if needsRmw a then x.rmws ++ [⟨key, c, s.beat d + (if a.portB then 4 else 8)⟩] else x.rmws }

/-- STORE_ACCESS_SERVE: access i of die d is served on the present beat, where the beat is a slot for it (R197 to R201,
R206); otherwise it goes on waiting. An error pattern may have come to its first protection word. -/
def serveAccess (d : Die) (i : Nat) (u : Upset) (s : State) : State :=
  match (s.die d).accs[i]? with
  | none => s
  | some a =>
    match servable s d i a with
    | none => s
    | some c => serveIn (if u = ⟨[], 0⟩ then s else addUpset s (protBase a.addr) u) d i a c

/-- STORE_ACCESS_SERVE (R206). -/
def execStoreAccessServe (d : Die) (i : Nat) (u : Upset) (s : State) : Res := .next (serveAccess d i u s)

/-- The 64-bit value a narrow load brings: sign- or zero-extended from its size. -/
def loadValue (data : List (Byte × Bool)) (sx : Bool) : Word :=
  let v := ofLe (data.map Prod.fst)
  let w := 8 * data.length
  if sx ∧ data.length < 8 then BitVec.ofInt 64 (toSigned w v) else BitVec.ofNat 64 v

/-- Rows of rb bytes that an access of the activation feeder fills (R271): bytes beyond a row's own are zero. -/
def feederRows (rows rb : Nat) (data : List (Byte × Bool)) : List ActRow :=
  (List.range rows).map (fun r =>
    let row := (data.drop (r * rb)).take rb
    ⟨row.map Prod.fst ++ List.replicate (32 - row.length) 0, data.any Prod.snd⟩)

/-- A STAGE write of a core done: the receive line of a delivery past the expander is freed, and a request that has
delivered its last byte leaves the queue (R258, R270). -/
def stageDone (s : State) (d : Die) (q : CoreId) (req : Option Nat) : State :=
  let c := s.core d q
  match req with
  | some id =>
    let rx := match c.rx.findIdx? (fun l => l.req = id) with | some j => c.rx.eraseIdx j | none => c.rx
    s.setCore d q { c with
      rx := rx
      treqs := c.treqs.filterMap (fun t => match t with
        | .lines id' k n (some p) => if id' = id then (if n ≤ 1 then none else some (.lines id' k (n - 1) (some p))) else some t
        | t => some t) }
  | none =>
    if (s.die d).accs.any (fun a => decide (a.dest = .stage d q none)) then s
    else
      let i := c.treqs.findIdx? (fun t => match t with
        | .xpand _ _ _ _ _ _ _ _ | .expand _ _ _ _ _ _ _ | .zeros _ _ _ _ _ => true | _ => false)
      s.setCore d q { c with expBusy := false, treqs := match i with | some i => c.treqs.eraseIdx i | none => c.treqs }

/-- Bytes that the expander has read for its XPAND (R269). -/
def expanderGot (c : Core) (data : List (Byte × Bool)) : Core :=
  let i := c.treqs.findIdx? (fun t => match t with | .xpand _ _ _ _ _ (some _) _ _ => true | _ => false)
  match i with
  | some i => { c with treqs := c.treqs.modify i (fun t => match t with
      | .xpand a st ps e k w got done => .xpand a st ps e k w (got ++ data) done
      | t => t) }
  | none => c

/-- The delivery of a served access to the core that made it. A scalar register takes the poison mark of what it reads
(R531). -/
def deliver (s : State) (a : Access) : State :=
  match a.dest with
  | .scalar d q x rd sx =>
    let c := s.ctx d q x
    s.setCtx d q x (c.wrMark rd (loadValue a.data sx) (a.data.any Prod.snd))
  | .vector d q _ vd off =>
    let c := s.core d q
    let old := c.vregs.at_ ⟨[], false⟩ vd
    let bytes := (old.bytes ++ List.replicate off 0).take off ++ a.data.map Prod.fst ++ old.bytes.drop (off + a.data.length)
    s.setCore d q { c with vregs := c.vregs.put vd ⟨bytes, old.poison || a.data.any Prod.snd⟩ }
  | .feeder d q rows rb =>
    let c := s.core d q
    s.setCore d q { c with actQ := c.actQ ++ feederRows rows rb a.data, actReserved := c.actReserved - rows }
  | .expander d q => s.setCore d q (expanderGot (s.core d q) a.data)
  | .stage d q req => stageDone s d q req
  | .store _ _ _ | .combine _ _ | .dma _ _ _ _ | .post _ _ _ | .txn _ _ | .remote => s

/-- Accesses of one requester that return in the order of their issue: the activation feeder's, whose queue entries were
reserved at issue (R273), the expander's and the STAGE writes of a core, and those of a descriptor (R277). -/
def sameOrder (a b : Access) : Bool :=
  match a.dest, b.dest with
  | .feeder d q _ _, .feeder d' q' _ _ => decide (d = d' ∧ q = q')
  | .expander d q, .expander d' q' => decide (d = d' ∧ q = q')
  | .stage d q _, .stage d' q' _ => decide (d = d' ∧ q = q')
  | .dma d c n _, .dma d' c' n' _ => decide (d = d' ∧ c = c' ∧ n = n')
  | _, _ => false

/-- RMW_WRITEBACK: the merged line of read-modify-write i is written back in its slot (R205). The line's
contents took effect at its service beat (R206). -/
def rmwWriteback (d : Die) (i : Nat) (s : State) : State :=
  match (s.die d).rmws[i]? with
  | none => s
  | some r =>
    if r.beat ≤ s.beat d then
      let x := s.die d
      s.setDie d { x with rmws := x.rmws.eraseIdx i }
    else s

/-- RMW_WRITEBACK (R205). -/
def execRmwWriteback (d : Die) (i : Nat) (s : State) : Res := .next (rmwWriteback d i s)

/-- Whether a class owns a bank on the present beat and its slot is still free: no access has taken it, no write-back
holds it and no clear runs (R197, R200, R205, R240). -/
def slotOpen (s : State) (d : Die) (bank key cls : Nat) : Bool :=
  decide ((bank + 8 - s.beat d % 8) % 8 = cls) && !(s.die d).used.contains (.bank key cls) && !s.clearing d
    && !rmwHolds (s.die d) key cls (s.beat d)

/-- The state with a slot of a bank used on the present beat. -/
def useSlot (s : State) (d : Die) (key cls : Nat) : State :=
  let x := s.die d
  s.setDie d { x with used := x.used ++ [.bank key cls] }

/-- A scrub or poison write-back is still to be done: no write to its word has cancelled it (R226). -/
def Scrub.live (s : State) (c : Scrub) : Bool := (s.latent.find c.word).isSome

/-- The index in its group of the bank of a store address (R194). -/
def bankIndex (a : Nat) : Nat := match placeOf a with | .store _ st _ _ off => (bankOf st (off / 1024)).2.1 | _ => 0

/-- SCRUB_WRITEBACK: the oldest scrub still to be done is written in a class 7 slot of its bank (R226, R230). -/
def scrubWriteback (d : Die) (s : State) : State :=
  match (s.die d).scrubs.filter (fun c => c.live s) with
  | [] => s
  | c :: cs =>
    if slotOpen s d (bankIndex c.word) (rowOf c.word).1 7 then
      let s := (useSlot s d (rowOf c.word).1 7).addFld (errCountReg d c.store) F.wstErrCount_SCRUB 1
      let x := s.die d
      { s.setDie d { x with scrubs := cs } with latent := s.latent.drop_ c.word }
    else s

/-- SCRUB_WRITEBACK (R226). -/
def execScrubWriteback (d : Die) (s : State) : Res := .next (scrubWriteback d s)

/-- DRAIN_ENTRY_WRITE: entry i of a core's drain buffer is written in a class 0 slot of its bank, after the bank's
earlier entries; an accumulate takes two such slots, eight beats apart (R205, R222). The drain itself took effect at
stage D (R206). -/
def drainEntryWrite (d : Die) (q : CoreId) (i : Nat) (s : State) : State :=
  let c := s.core d q
  match c.drains[i]? with
  | none => s
  | some e =>
    let key := bankKey .pst q.val (e.line % 8)
    if (c.drains.take i).any (fun o => o.line % 8 = e.line % 8) || !slotOpen s d (e.line % 8) key 0 then s
    else
      let s := useSlot s d key 0
      match e.acc, e.back with
      | true, none => s.setCore d q { c with drains := c.drains.set i { e with back := some (s.beat d + 8) } }
      | _, back =>
        if (back.getD 0) ≤ s.beat d then s.setCore d q { c with drains := c.drains.eraseIdx i } else s

/-- DRAIN_ENTRY_WRITE (R222). -/
def execDrainEntryWrite (d : Die) (q : CoreId) (i : Nat) (s : State) : Res := .next (drainEntryWrite d q i s)

/-- A pending byte put in its place by ascending offset. -/
def insertByte (p : Nat × Byte × Bool) : List (Nat × Byte × Bool) → List (Nat × Byte × Bool)
  | [] => [p]
  | h :: t => if p.1 < h.1 then p :: h :: t else h :: insertByte p t

/-- The masked bytes of a combining entry as runs of consecutive offsets. -/
def CombEntry.runs (e : CombEntry) : List (Nat × List (Byte × Bool)) :=
  (e.bytes.foldl (fun l p => insertByte p l) []).foldr (fun p acc =>
    match acc with
    | (o, bs) :: t => if p.1 + 1 = o then (p.1, p.2 :: bs) :: t else (p.1, [p.2]) :: (o, bs) :: t
    | [] => [(p.1, [p.2])]) []

/-- The wide write of a combining entry as an access of its core (R211). -/
def CombEntry.access (d : Die) (q : CoreId) (e : CombEntry) : Access :=
  { stamp := 0, kind := .write, addr := e.line, size := 8, data := [], dest := .combine d q, portB := false, issue := 0, ret := 0,
    served := false }

/-- COMBINE_ENTRY_WRITE: the oldest entry of a core's combining buffer is written to its line as a wide write of its
masked bytes, in a slot that wide accesses leave unused, and takes effect there (R210, R211). -/
def combineEntryWrite (d : Die) (q : CoreId) (s : State) : State :=
  let c := s.core d q
  match c.combine with
  | [] => s
  | e :: es =>
    let a := e.access d q
    let taken := match a.port with | some p => (s.die d).used.contains p | none => false
    match freeSlot s d a with
    | none => s
    | some cls =>
      if taken || (s.die d).accs.any (fun b => !b.narrow && b.port == a.port && (freeSlot s d b).isSome) then s
      else
        let key := (rowOf e.line).1
        let p := protSize e.line
        let part := e.runs.any (fun r => decide (r.1 % p ≠ 0 ∨ r.2.length % p ≠ 0))
        let s := s.setCore d q { c with combine := es }
        let x := s.die d
        s.setDie d { x with
          used := x.used ++ (.bank key cls :: a.port.toList)
          effects := x.effects ++ e.runs.map (fun r => ⟨cls, .write, e.line + r.1, r.2⟩)
          rmws := if part then x.rmws ++ [⟨key, cls, s.beat d + 8⟩] else x.rmws }

/-- COMBINE_ENTRY_WRITE (R211). -/
def execCombineEntryWrite (d : Die) (q : CoreId) (s : State) : Res := .next (combineEntryWrite d q s)

/-! ### Quiet dies, clearing, modes (R240 to R244) -/

/-- Whether a die is quiet (R243). -/
def State.quiet (s : State) (d : Die) : Bool :=
  decide (s.fld .circRingConf F.circRingConf_ENABLE = 0)
  && (List.finRange 32).all (fun q => s.fld (.scvCoreCtrl d q) F.scvCoreCtrl_RUN = 0
      && (s.core d q).issueQ.isEmpty && (s.core d q).combine.isEmpty && (s.core d q).drains.isEmpty)
  && (List.finRange 8).all (fun c => (s.dma d c).active.isEmpty)
  && (s.die d).accs.isEmpty && (s.die d).rmws.isEmpty && (s.die d).effects.isEmpty
  && (s.die d).txns.all (fun t => decide (t.owner ≠ .cores)) && !s.clearing d

/-- The first and last-plus-one address of a die's stores (R10). -/
def storeRange (d : Die) : Nat × Nat := (0xF000000000 + d.val * 0x400000000, 0xF000000000 + (d.val + 1) * 0x400000000)

/-- Every row of a die's stores set to zero, clean (R240). -/
def zeroStores (s : State) (d : Die) : State :=
  let r := storeRange d
  { s with mem := Mem.clear s.mem r.1 r.2
           poison := s.poison.filter (fun a => a < r.1 || r.2 ≤ a)
           latent := s.latent.filter (fun e => e.1 < r.1 || r.2 ≤ e.1) }

/-- The region under test abandoned (R234). -/
def abandonBist (s : State) (d : Die) : State :=
  let x := s.die d
  s.setDie d { x with bist := { x.bist with running := false, lines := [], forced := [] } }

/-- A clear of the die's stores starts (R240): CLEAR_BUSY is 1 and the region under test is abandoned (R234). No access
is served until it ends, so every later access finds zero. -/
def startClear (d : Die) (s : State) : State :=
  let s := zeroStores (abandonBist s d) d
  let x := s.die d
  (s.setDie d { x with scrubs := [] }).setFld (.wstCtrl d) F.wstCtrl_CLEAR_BUSY 1

/-- STORE_CLEAR_DONE (R240): JOB_TAG.ANY becomes 1 and CLEAR_BUSY falls. -/
def clearDone (d : Die) (s : State) : State :=
  if s.fld (.wstCtrl d) F.wstCtrl_CLEAR_BUSY = 1 then
    (s.setFld (.wstJobTag d) F.wstJobTag_ANY 1).setFld (.wstCtrl d) F.wstCtrl_CLEAR_BUSY 0
  else s

/-- STORE_CLEAR_DONE (R240). -/
def execStoreClearDone (d : Die) (s : State) : Res := .next (clearDone d s)

/-- CLR_COUNTS of a store block (R244). -/
def clearStoreCounts (d : Die) (st : Store) (s : State) : State :=
  let s := s.setReg (errCountReg d st) 0
  let s := s.setReg (errAddrReg d st) 0
  match st with
  | .wst => (s.setReg (.wstNarrowStall d) 0).setFld (.wstBistStatus d) F.wstBistStatus_OVERRUNS 0
  | _ => s

/-! ### Repair entries (R235 to R238) -/

/-- The lowest-numbered free entry of a bank that is not BAD (R235); one with a forced repair in progress is not free. -/
def freeEntry (s : State) (d : Die) (bank : Nat) : Option Nat :=
  (List.range 8).find? (fun e => !(s.repair d bank e).valid && !(s.repair d bank e).bad
    && !(s.die d).bist.forced.any (fun f => f.key = bank ∧ f.entry = e))

/-- The store of a bank key. -/
def storeOfKey (bank : Nat) : Store := if bank < 1000 then .wst else if bank < 2000 then .ast else .pst

/-- REPAIR_STATUS of a store (R247). -/
def repairStatusReg (d : Die) : Store → Reg
  | .wst => .wstRepairStatus d | .ast => .astRepairStatus d | .pst => .pstRepairStatus d

/-- A repair that is to be recorded within a second (R606). -/
def noteRepair (s : State) (d : Die) (bank row : Nat) : State :=
  if s.fld .secRecCtrl F.secRecCtrl_AUTO_REPAIR = 1 then
    { s with sec := { s.sec with repairDue := s.sec.repairDue ++ [(d, bank, row)] } }
  else s

/-- A repair of a row in service (R235, R236): the lowest free entry records it, or UNREPAIRED counts and
SRAM_UNREPAIRED is raised. -/
def repairRow (s : State) (d : Die) (bank row source : Nat) : State :=
  match freeEntry s d bank with
  | some e => noteRepair { s with repairs := s.repairs.put (d, bank, e) ⟨true, false, source, row⟩ } d bank row
  | none =>
    let st := storeOfKey bank
    let s := s.addFld (repairStatusReg d st) F.wstRepairStatus_UNREPAIRED 1
    s.raise (Report.plain .sramUnrepaired d.val 0 st.block 0)

/-! ### The background test (R228 to R233) -/

/-- Regions of a die's walk (R228): 73,728 of store lines and 1,664 of spare rows. -/
def regionCount : Nat := 75392

/-- The address of line i of a store region, none for a region of spare rows (R228). -/
def regionLine (d : Die) (r i : Nat) : Option Nat :=
  if r < 49152 then some (unitBase d .wst (r / 6144) + r % 6144 * 4096 + i * 1024)
  else if r < 65536 then some (unitBase d .ast ((r - 49152) / 2048) + (r - 49152) % 2048 * 4096 + i * 1024)
  else if r < 73728 then some (unitBase d .pst ((r - 65536) / 256) + (r - 65536) % 256 * 4096 + i * 1024)
  else none

/-- The bank and spare entry of row i of a region of spare rows (R228). -/
def spareRow (r i : Nat) : Nat × Nat :=
  let n := r - 73728
  let four := n / 8
  let e := n % 8
  if four < 64 then (bankKey .wst (four / 8) (four % 8 * 4 + i), e)
  else if four < 144 then (bankKey .ast ((four - 64) / 10) ((four - 64) % 10 * 4 + i), e)
  else (bankKey .pst ((four - 144) / 2) ((four - 144) % 2 * 4 + i), e)

/-- Line i of the region under test replaced. -/
def setBistLine (s : State) (d : Die) (i : Nat) (l : BistLine) : State :=
  let x := s.die d
  s.setDie d { x with bist := { x.bist with lines := x.bist.lines.set i l } }

/-- Once every line of the region under test is done, the region has finished; the walk's last region completes a pass
(R228, R231). -/
def bistFinish (s : State) (d : Die) : State :=
  let b := (s.die d).bist
  if b.running && b.lines.all (fun l => l.restored) then
    let last := !b.extra && decide (regionCount ≤ b.next)
    let s := s.setDie d { s.die d with bist :=
      { b with running := false, endBeat := s.beat d, next := if last then 0 else b.next, ceRows := if last then [] else b.ceRows } }
    if last then s.addFld (.wstBistStatus d) F.wstBistStatus_PASSES 1 else s
  else s

/-- BIST_REGION_START: INTERVAL beats after the last start, or when an overrunning region has ended, the next region
starts (R231). Spare rows in use are not tested (R228). -/
def bistStart (d : Die) (s : State) : State :=
  let b := (s.die d).bist
  let interval := s.fld (.wstBistCtrl d) F.wstBistCtrl_INTERVAL
  if s.fld (.wstBistCtrl d) F.wstBistCtrl_ENABLE = 0 || b.running || (b.started && decide (s.beat d < b.startBeat + interval))
      || !s.dieUp d || s.clearing d then s
  else
    let s := if b.started && decide (b.startBeat + interval < b.endBeat) then s.addFld (.wstBistStatus d) F.wstBistStatus_OVERRUNS 1 else s
    let r := b.outOfTurn.getD b.next
    let line (i : Nat) : BistLine :=
      if 73728 ≤ r then ⟨true, 0, false, (s.repair d (spareRow r i).1 (spareRow r i).2).valid⟩ else ⟨false, 0, false, false⟩
    let s := s.setFld (.wstBistStatus d) F.wstBistStatus_REGION r
    let x := s.die d
    bistFinish (s.setDie d { x with bist :=
      { b with running := true, started := true, startBeat := s.beat d, outOfTurn := none, extra := b.outOfTurn.isSome
               next := if b.outOfTurn.isSome then b.next else r + 1
               lines := (List.range 4).map line } }) d

/-- BIST_REGION_START (R231). -/
def execBistRegionStart (d : Die) (s : State) : Res := .next (bistStart d s)

/-- The bank of line i of the region under test: its index in its group and its key. -/
def bistBank (s : State) (d : Die) (i : Nat) : Nat × Nat :=
  let r := s.fld (.wstBistStatus d) F.wstBistStatus_REGION
  match regionLine d r i with
  | some a => (bankIndex a, (rowOf a).1)
  | none => ((spareRow r i).1 % 1000 % 40 % 8, (spareRow r i).1)

/-- Whether a scrub of a bank waits, which comes before every test operation there (R230). -/
def scrubWaits (s : State) (d : Die) (key : Nat) : Bool :=
  (s.die d).scrubs.any (fun c => c.live s && decide ((rowOf c.word).1 = key))

/-- The class 7 slot of a bank is free for the test on the present beat (R229, R230). -/
def testSlot (s : State) (d : Die) (bank key : Nat) : Bool := slotOpen s d bank key 7 && !scrubWaits s d key

/-- The address of the line that row r of a bank holds (R194). -/
def rowLine (d : Die) (key row : Nat) : Nat :=
  let st := storeOfKey key
  let bank := key % 1000 % 40
  let line := match st with
    | .wst => 6144 * (bank / 8) + 8 * row + bank % 8
    | .ast => (if bank < 32 then 2048 * (bank / 8) else 7680) + 8 * row + bank % 8
    | .pst => 8 * row + bank
  unitBase d st (key % 1000 / 40) + line * 1024

/-- A line read into the shadow buffer, an error pattern perhaps come to its first word (R229, R233). -/
def saveLine (s : State) (a : Nat) (u : Upset) : State :=
  readStore (if u = ⟨[], 0⟩ then s else addUpset s (protBase a) u) a 1024

/-- A line written back from the shadow buffer, its errors corrected (R226, R229). -/
def restoreLine (s : State) (a : Nat) : State :=
  { s with latent := s.latent.filter (fun e => decide (e.1 < a ∨ a + 1024 ≤ e.1)) }

/-- BIST_SAVE: a line is read into the shadow buffer and redirected: that of a forced repair first, else line i of the
region (R229, R230, R233, R238). Its contents are those every access sees, wherever they are held (R206). -/
def bistSave (d : Die) (i : Nat) (u : Upset) (s : State) : State :=
  let b := (s.die d).bist
  match b.forced with
  | ⟨key, e, row, false⟩ :: fs =>
    if testSlot s d (key % 1000 % 40 % 8) key then
      let s := saveLine (useSlot s d key 7) (rowLine d key row) u
      let x := s.die d
      s.setDie d { x with bist := { x.bist with forced := ⟨key, e, row, true⟩ :: fs } }
    else s
  | fs =>
    match b.lines[i]? with
    | none => s
    | some l =>
      let k := bistBank s d i
      if !b.running || l.saved || fs.any (fun f => f.key = k.2) || !testSlot s d k.1 k.2 then s
      else
        let s := useSlot s d k.2 7
        let s := match regionLine d (s.fld (.wstBistStatus d) F.wstBistStatus_REGION) i with
          | some a => saveLine s a u
          | none => s
        setBistLine s d i { l with saved := true }

/-- BIST_SAVE (R229). -/
def execBistSave (d : Die) (i : Nat) (u : Upset) (s : State) : Res := .next (bistSave d i u s)

/-- BIST_MARCH_OP: one of the 256 march operations of line i in a class 7 slot of its bank; a differing read fails the
line (R229, R232). A region of spare rows has no restore: a failing spare row is marked BAD. -/
def bistMarch (d : Die) (i : Nat) (differs : Bool) (s : State) : State :=
  let b := (s.die d).bist
  match b.lines[i]? with
  | none => s
  | some l =>
    let k := bistBank s d i
    if !b.running || !l.saved || decide (256 ≤ l.march) || l.restored || b.forced.any (fun f => f.key = k.2) || !testSlot s d k.1 k.2 then s
    else
      let s := useSlot s d k.2 7
      let l' := { l with march := l.march + 1, failed := l.failed || differs }
      let r := s.fld (.wstBistStatus d) F.wstBistStatus_REGION
      if 73728 ≤ r ∧ l'.march = 256 then
        let e := spareRow r i
        let s := if l'.failed then { s with repairs := s.repairs.put (d, e.1, e.2) { s.repair d e.1 e.2 with bad := true } } else s
        bistFinish (setBistLine s d i { l' with restored := true }) d
      else setBistLine s d i l'

/-- BIST_MARCH_OP (R229). -/
def execBistMarchOp (d : Die) (i : Nat) (differs : Bool) (s : State) : Res := .next (bistMarch d i differs s)

/-- BIST_RESTORE: a line is written back into its row, or into a spare row where it failed, and redirection ends (R229,
R235). A forced repair restores into its own entry (R238). -/
def bistRestore (d : Die) (i : Nat) (s : State) : State :=
  let b := (s.die d).bist
  match b.forced with
  | ⟨key, e, row, true⟩ :: fs =>
    if testSlot s d (key % 1000 % 40 % 8) key then
      let s := restoreLine (useSlot s d key 7) (rowLine d key row)
      let s := noteRepair { s with repairs := s.repairs.put (d, key, e) ⟨true, false, 3, row⟩ } d key row
      let x := s.die d
      s.setDie d { x with bist := { x.bist with forced := fs } }
    else s
  | _ =>
    match b.lines[i]? with
    | none => s
    | some l =>
      let k := bistBank s d i
      if !b.running || !l.saved || decide (l.march < 256) || l.restored || !testSlot s d k.1 k.2 then s
      else
        let s := useSlot s d k.2 7
        let s := match regionLine d (s.fld (.wstBistStatus d) F.wstBistStatus_REGION) i with
          | some a => let s := restoreLine s a; if l.failed then repairRow s d (rowOf a).1 (rowOf a).2 2 else s
          | none => s
        bistFinish (setBistLine s d i { l with restored := true }) d

/-- BIST_RESTORE (R229). -/
def execBistRestore (d : Die) (i : Nat) (s : State) : Res := .next (bistRestore d i s)

end Sys2Proof.Machine
end

