-- ==== Sys2Proof/Machine/Context.lean ====
section
/-! DEFINITION. Hardware contexts (chapter 07): selection, translation, issue, waits, stops, save and restore;
and the scalar instructions that read beats and time or wait for them. -/

namespace Sys2Proof.Machine

/-- The state of a slot as SCV.CTX_x codes it (R330). -/
def CtxState.code : CtxState → Nat
  | .empty => 0 | .ready => 1 | .wait => 2 | .stopped => 3 | .saving => 4 | .restoring => 5

/-- WAITCAUSE of a wait (R338). -/
def WaitCond.causeCode : WaitCond → Nat
  | .counter _ _ _ _ _ _ => 1 | .beat _ => 2 | .time _ => 3 | .efence => 4 | .pflush => 5
  | .queueFull _ => 6 | .operand _ => 7 | .branch _ => 8 | .tileOrder _ => 9

/-- PRIO of a slot as it reads and as it is saved (R333, R338). -/
def Ctx.prioShown (c : Ctx) : Nat := c.prioNext.getD c.prio

/-- SCV.CTX_x as it reads (R338). -/
def Ctx.regWord (c : Ctx) : Word :=
  BitVec.ofNat 64 (c.cause % 16 * 2 ^ 36 + ((c.waiting.map WaitCond.causeCode).getD 0) * 2 ^ 32
    + c.prioShown % 4 * 16 + c.st.code)

/-- Whether slot x goes before slot y among READY slots of one core (R332). -/
def ctxBefore (a b : Ctx) : Bool :=
  if a.prio ≠ b.prio then decide (a.prio > b.prio)
  else match a.lastIssue, b.lastIssue with
    | none, none => true
    | none, some _ => true
    | some _, none => false
    | some m, some n => decide (m ≤ n)

/-- The context the scalar core issues from (R332): READY on this beat (R308, R330), highest PRIO, least recently issued,
lowest slot. A context with a STOP outstanding issues nothing more (log entry 22). -/
def selectCtx (s : State) (d : Die) (q : CoreId) : Option SlotId :=
  (List.finRange 4).foldl (fun best x =>
    let c := s.ctx d q x
    if c.st = .ready ∧ c.stopReq = false ∧ c.nextAt ≤ s.beat d then
      match best with
      | none => some x
      | some y => if ctxBefore (s.ctx d q y) c then some y else some x
    else best) none

/-- The context that issues on this beat: the die runs, RUN is 1, the core has issued nothing on this beat (R308), and
R332 selects it. -/
def issuing (s : State) (d : Die) (q : CoreId) : Option SlotId :=
  if s.dieUp d && s.fld (.scvCoreCtrl d q) F.scvCoreCtrl_RUN == 1 && (s.core d q).issuedAt != some (s.beat d) then
    selectCtx s d q
  else none

/-- A permission of a region (R334). -/
inductive Perm where
  | r | w | a | x
  deriving DecidableEq, Repr

/-- Whether a region grants a permission. -/
def Region.grants (g : Region) : Perm → Bool
  | .r => g.r | .w => g.w | .a => g.a | .x => g.x

/-- The region that holds n bytes of context addresses from a. -/
def Ctx.regionOf (c : Ctx) (a n : Nat) : Option Region :=
  (c.regions.map Prod.snd).find? (fun g => g.cbase ≤ a ∧ a + n ≤ g.cbase + 2 ^ g.size)

/-- The module address of a context address with the permission an access needs (R334); none is a failed
translation. -/
def Ctx.translate (c : Ctx) (a n : Nat) (p : Perm) : Option Nat :=
  match c.regionOf a n with
  | some g => if g.grants p then some (g.mbase + (a - g.cbase)) else none
  | none => none

/-- A scalar register of a context. -/
def Ctx.rd (c : Ctx) (r : Fin 32) : Word := c.s.at_ 0 r

/-- Predicate i set to a bit. -/
def Ctx.wrP (c : Ctx) (i : Nat) (b : Bool) : Ctx :=
  { c with p := if b then c.p ||| 2 ^ i else c.p - (c.p &&& 2 ^ i) }

/-- A slot moved to STOPPED with a cause (R331). -/
def Ctx.stop (c : Ctx) (cause : Nat) : Ctx :=
  { c with st := .stopped, cause := cause, waiting := none, stopReq := false, ran := true }

/-- The context named as originating (R516). -/
def ctxRef (d : Die) (q : CoreId) (x : SlotId) : Option CtxRef := some ⟨d, q, x⟩

/-- A context stopped with a cause, with a fault of which it is the originating context. -/
def stopFault (s : State) (d : Die) (q : CoreId) (x : SlotId) (cause : Nat) (src : Source) (addr : Nat) : State :=
  (s.setCtx d q x ((s.ctx d q x).stop cause)).raise
    { Report.plain src d.val q.val .scv addr with ctx := ctxRef d q x }

/-- A failed translation (R334, R348): nothing issues, the context stops with CAUSE XLATE, a CONFIG fault. -/
def stopXlate (s : State) (d : Die) (q : CoreId) (x : SlotId) (addr : Nat) : State :=
  stopFault s d q x 3 .xlate addr

/-- An illegal scalar word (R310). -/
def stopIllegal (s : State) (d : Die) (q : CoreId) (x : SlotId) : State :=
  stopFault s d q x 2 .illegalWord 0

/-- The next stamp of issue order of a die. -/
def State.nextStamp (s : State) (d : Die) : Nat := (s.die d).stamp

/-- The state with the die's stamp moved on. -/
def State.bump (s : State) (d : Die) : State :=
  let x := s.die d
  s.setDie d { x with stamp := x.stamp + 1 }

/-- An instruction of a context completes: PC moves past it, the order of issues is kept (R332), and the context's next
instruction may issue on the next beat (R308). -/
def finish (s : State) (d : Die) (q : CoreId) (x : SlotId) : State :=
  let c := s.ctx d q x
  (s.setCtx d q x { c with pc := (c.pc + 4) % 2 ^ 48, lastIssue := some (s.nextStamp d), nextAt := s.beat d + 1 }).bump d

/-- An instruction completes at its issue, which is the core's only one on this beat (R308). -/
def advance (s : State) (d : Die) (q : CoreId) (x : SlotId) : State :=
  let s := finish s d q x
  s.setCore d q { s.core d q with issuedAt := some (s.beat d) }

/-- A context that cannot issue its next instruction (R331): WAIT, for a condition, from this beat on. -/
def park (s : State) (d : Die) (q : CoreId) (x : SlotId) (w : WaitCond) (stall : Nat) : State :=
  let c := s.ctx d q x
  s.setCtx d q x { c with st := .wait, waiting := some w, stall := stall }

/-- The present beat charged to the counter of a stalled context, once (R134, R211, R261, R270). -/
def chargeStall (s : State) (d : Die) (q : CoreId) (x : SlotId) : State :=
  let c := s.ctx d q x
  if c.stalledAt = some (s.beat d) then s
  else
    let s := s.setCtx d q x { c with stalledAt := some (s.beat d) }
    match c.stall with
    | 1 => s.addFld (.scvIssueStall d q) F.scvIssueStall_COUNT 1
    | 2 => s.addFld (.fdxFeedStall d q) F.fdxFeedStall_COUNT 1
    | 3 => s.addFld (.wstNarrowStall d) F.wstNarrowStall_COUNT 1
    | _ => s

/-- An instruction that finds its queue full: the context waits, and this beat is charged. -/
def parkFull (s : State) (d : Die) (q : CoreId) (x : SlotId) (which stall : Nat) : State :=
  chargeStall (park s d q x (.queueFull which) stall) d q x

/-- Whether a scalar register of a context still waits for a load (R308). -/
def loadPending (s : State) (d : Die) (q : CoreId) (x : SlotId) (r : Fin 32) : Bool :=
  let mine (a : AccDest) : Bool := match a with
    | .scalar d' q' x' rd _ => decide (d' = d ∧ q' = q ∧ x' = x ∧ rd = r)
    | _ => false
  (s.die d).accs.any (fun a => mine a.dest)
    || (s.die d).txns.any (fun t => match t.dest with | some a => mine a | none => false)
    || s.fcu.waiting.any (fun h => decide (h.writer = .ctx d q x ∧ h.rd = some r))

/-- Whether a vector register of a core still waits for a read (R308). -/
def vectorPending (s : State) (d : Die) (q : CoreId) (v : Nat) : Bool :=
  let mine (a : AccDest) : Bool := match a with
    | .vector d' q' _ vd _ => decide (d' = d ∧ q' = q ∧ vd.val = v)
    | _ => false
  (s.die d).accs.any (fun a => mine a.dest)
    || (s.die d).txns.any (fun t => match t.dest with | some a => mine a | none => false)

/-- A scalar instruction of the issuing context of a core: its word is fetched through an X region and decoded (R225), a
poisoned word stops the context, and an instruction that reads a register still loading waits (R308, R310, R334). Where
no context issues, nothing happens (log entry 2). -/
def withIssue (s : State) (d : Die) (q : CoreId) (srcs : List (Fin 32))
    (k : SlotId → Ctx → State → State) : State :=
  match issuing s d q with
  | none => s
  | some x =>
    let c := s.ctx d q x
    match c.translate c.pc 4 .x with
    | none => stopXlate s d q x c.pc
    | some a =>
      let s := readStore s a 4
      if s.poisonedIn a 4 then s.setCtx d q x (c.stop 7)
      else match srcs.find? (fun r => loadPending s d q x r) with
        | some r => park s d q x (.operand r.val) 0
        | none => k x c s

/-- Whether every engine word a slot pushed with a stamp below n has retired (R133, R325). -/
def engineFenced (s : State) (d : Die) (q : CoreId) (x : SlotId) (n : Nat) : Bool :=
  !(s.core d q).issueQ.any (fun w => decide (w.slot = x ∧ w.stamp < n))

/-- Whether an access is a write of the slot not yet effective. -/
def writeOf (d : Die) (q : CoreId) (x : SlotId) (a : AccDest) : Bool :=
  match a with
  | .store d' q' x' => decide (d' = d ∧ q' = q ∧ x' = x)
  | _ => false

/-- Whether every write a slot issued with a stamp below n has taken effect (R325, R353): in the own die at its
service, elsewhere when it is acknowledged. -/
def writesFenced (s : State) (d : Die) (q : CoreId) (x : SlotId) (n : Nat) : Bool :=
  !(s.core d q).combine.any (fun e => e.who.any (fun w => decide (w.1 = x ∧ w.2 < n)))
    && !(s.die d).accs.any (fun a => writeOf d q x a.dest && !a.served && decide (a.stamp < n))
    && !(s.die d).txns.any (fun t => match t.dest with | some a => writeOf d q x a && decide (t.stamp < n) | none => false)

/-- A 48-bit counter's value. -/
def counterValue (s : State) (d : Die) (n : Nat) : Nat :=
  if h : n < 8192 then bitsOf (s.reg (.syncCtr d ⟨n, h⟩)) 47 0 else 0

/-- Whether credit pair i is one, and whether it falls back (R361). -/
def creditPair (s : State) (d : Die) (i : Nat) : Bool × Bool :=
  if h : i < 4032 then
    (bitsOf (s.reg (.syncCrdMap d ⟨i / 64, by omega⟩)) (i % 64) (i % 64) == 1,
     bitsOf (s.reg (.syncCrdFb d ⟨i / 64, by omega⟩)) (i % 64) (i % 64) == 1)
  else (false, false)

/-- The consumes of a beat in ascending order of core (R345). -/
def byCore (l : List Consume) : List Consume :=
  (List.finRange 32).flatMap (fun q => l.filter (fun e => e.core = q))

/-- The consumed count of a pair after some of the beat's consumes (R345, R363). -/
def consumedAfter (s : State) (d : Die) (phys : Nat) (l : List Consume) : Nat :=
  l.foldl (fun v e =>
    if e.phys = phys then
      if e.inc ≤ counterValue s d phys - v then v + e.inc
      else if (creditPair s d (phys / 2)).2 then counterValue s d phys else v
    else v) (counterValue s d (phys + 1))

/-- Whether a counter wait's condition holds (R354): 0 GE, 1 CREDIT; the consumes issued on the beat are judged before it
(R345). -/
def counterHolds (s : State) (d : Die) (phys mode value : Nat) : Bool :=
  if mode = 0 then decide (value ≤ counterValue s d phys)
  else decide (value ≤ counterValue s d phys - consumedAfter s d phys (byCore (s.die d).consumes))

/-- Whether the tile path of a core holds no partial tile (R266). -/
def noPartialTile (c : Core) : Bool :=
  !c.tordHalf && c.engines.all (fun e => match e.2.shadow with | none => true | some t => t.complete)

/-- Whether a core's queue of a kind has room again. -/
def queueHasRoom (s : State) (d : Die) (q : CoreId) (which : Nat) : Bool :=
  let c := s.core d q
  match which with
  | 0 => decide (c.issueQ.length < s.fld (.scvCoreCtrl d q) F.scvCoreCtrl_QLIMIT)
  | 1 => decide (c.feeds.length < 4)
  | 2 => decide (c.treqs.length < 4)
  | 3 => decide ((s.die d).busQ.length < 32)
  | 4 => decide ((s.dma d ⟨q.val / 4, by omega⟩).queue.length < 32)
  | 5 => decide (c.sigQ.length < 8)
  | _ => decide (c.combine.length < 16)

/-- Whether the condition of a waiting context holds (R331). -/
def condHolds (s : State) (d : Die) (q : CoreId) (x : SlotId) (w : WaitCond) : Bool :=
  match w with
  | .counter _ phys mode value _ _ => counterHolds s d phys mode value
  | .beat t => decide (t ≤ s.beat d)
  | .time t => decide (t ≤ s.time d)
  | .efence => !(s.core d q).issueQ.any (fun e => decide (e.slot = x))
  | .pflush => (s.core d q).combine.isEmpty
  | .queueFull which => queueHasRoom s d q which
  | .operand r => if h : r < 32 then !loadPending s d q x ⟨r, h⟩ else !vectorPending s d q (r - 32)
  | .branch t => decide (t ≤ s.beat d)
  | .tileOrder _ => noPartialTile (s.core d q)

/-- WTORD's word loaded: the order starts again at i = 0 (R266). -/
def loadTileOrder (c : Core) (w : Word) : Core :=
  { c with
    tord := (List.range (bitsOf w 35 32 + 1)).map (fun i => ⟨bitsOf w (2 * i + 1) (2 * i) % 4, Nat.mod_lt _ (by decide)⟩)
    tordPos := 0, tordHalf := false }

/-- What a wait instruction does when its condition holds, beside completing (R354, R266). -/
def waitEffect (s : State) (d : Die) (q : CoreId) (x : SlotId) (w : WaitCond) : State :=
  match w with
  | .counter vid _ _ _ _ pd =>
    let c := s.ctx d q x
    s.setCtx d q x { c.wrP pd true with last := 1, lastVid := vid }
  | .tileOrder w => s.setCore d q (loadTileOrder (s.core d q) w)
  | _ => s

/-- Whether the wait belongs to an instruction that completes when the condition holds; the others issue again
(R308, R336). -/
def WaitCond.completes : WaitCond → Bool
  | .queueFull _ | .operand _ | .branch _ => false
  | _ => true

/-- CONTEXT_READY: the condition a waiting context needs holds, so it moves to READY, and a wait instruction
completes (R331); not while a STOP is outstanding (R336, log entry 22). -/
def contextReady (d : Die) (q : CoreId) (x : SlotId) (s : State) : State :=
  let c := s.ctx d q x
  match c.st, c.waiting with
  | .wait, some w =>
    if condHolds s d q x w && !c.stopReq then
      let s := s.setCtx d q x { c with st := .ready, waiting := none, stall := 0 }
      if w.completes then finish (waitEffect s d q x w) d q x else s
    else s
  | _, _ => s

/-- CONTEXT_READY (R331). -/
def execContextReady (d : Die) (q : CoreId) (x : SlotId) (s : State) : Res := .next (contextReady d q x s)

/-- A wait instruction at issue: it completes where its condition holds already, and waits otherwise (R308). -/
def issueWait (s : State) (d : Die) (q : CoreId) (x : SlotId) (w : WaitCond) : State :=
  if condHolds s d q x w then advance (waitEffect s d q x w) d q x else park s d q x w 0

/-- BEATS sD: the die beat count (R309). -/
def execBeats (d : Die) (q : CoreId) (sD : Fin 32) (s : State) : Res :=
  .next (withIssue s d q [] fun x c s => advance (s.setCtx d q x (c.wr sD (s.reg (.scvBeat d)))) d q x)

/-- TIME sD: the die's timebase replica (R309). -/
def execTime (d : Die) (q : CoreId) (sD : Fin 32) (s : State) : Res :=
  .next (withIssue s d q [] fun x c s => advance (s.setCtx d q x (c.wr sD (s.reg (.scvTime d)))) d q x)

/-- BWAIT sA (R309). -/
def execBwait (d : Die) (q : CoreId) (sA : Fin 32) (s : State) : Res :=
  .next (withIssue s d q [sA] fun x c s => issueWait s d q x (.beat (c.rd sA).toNat))

/-- TWAIT sA (R309). -/
def execTwait (d : Die) (q : CoreId) (sA : Fin 32) (s : State) : Res :=
  .next (withIssue s d q [sA] fun x c s => issueWait s d q x (.time (c.rd sA).toNat))

/-- EISSUE sA: the engine word joins the issue queue, or the context stalls (R134). -/
def execEissue (d : Die) (q : CoreId) (sA : Fin 32) (s : State) : Res :=
  .next (withIssue s d q [sA] fun x c s =>
    if queueHasRoom s d q 0 then
      let k := s.core d q
      advance (s.setCore d q { k with issueQ := k.issueQ ++ [⟨c.rd sA, x, s.nextStamp d, s.beat d⟩] }) d q x
    else parkFull s d q x 0 1)

/-- EFENCE (R133, R136). -/
def execEfence (d : Die) (q : CoreId) (s : State) : Res :=
  .next (withIssue s d q [] fun x _ s => issueWait s d q x .efence)

/-- ENG.CORE_STATUS as it reads (R142). -/
def coreStatus (s : State) (d : Die) (q : CoreId) : Word :=
  let w := s.reg (.engCoreStatus d q)
  let w := putBits w 35 32 (s.present q)
  let w := putBits w 19 16 (s.core d q).issueQ.length
  putBits w 3 3 (if (s.core d q).issueQ.isEmpty then 0 else 1)

/-- ESTAT sD (R133). -/
def execEstat (d : Die) (q : CoreId) (sD : Fin 32) (s : State) : Res :=
  .next (withIssue s d q [] fun x c s => advance (s.setCtx d q x (c.wr sD (coreStatus s d q))) d q x)

/-- PFLUSH (R213). -/
def execPflush (d : Die) (q : CoreId) (s : State) : Res :=
  .next (withIssue s d q [] fun x _ s => issueWait s d q x .pflush)

/-- Whether a listed scalar word is illegal (R133, R213, R291, R309, R310, R351): its reserved field is nonzero,
or its opcode lies among the listed ones' range and is none of them. -/
def illegalWord (w : Half) : Bool :=
  let z (n : Nat) : Bool := bitsOf32 w (n - 1) 0 != 0
  match bitsOf32 w 31 24 with
  | 0xE0 | 0xE2 | 0xE5 | 0xEA | 0xEC | 0xED | 0xEE | 0xEF | 0xF0 | 0xF1 | 0xF5 | 0xF8 | 0xFA | 0xFC => z 19
  | 0xE1 | 0xE8 => z 24
  | 0xE4 | 0xE6 | 0xE7 | 0xE9 | 0xF4 | 0xFB => z 14
  | 0xF9 => z 11
  | n => decide (n ≥ 0xE0)

/-- BRANCH: taken, the context waits 8 beats and goes on at the target; not taken, it goes on (R308). -/
def execBranch (d : Die) (q : CoreId) (taken : Bool) (target : Nat) (s : State) : Res :=
  .next (withIssue s d q [] fun x _ s =>
    let s := advance s d q x
    if taken then
      let s := s.setCtx d q x { s.ctx d q x with pc := target % 2 ^ 48 }
      park s d q x (.branch (s.beat d + 8)) 0
    else s)

/-! ### Commands to slots (R336) -/

/-- The narrow accesses of a context still outstanding (R336). -/
def narrowOutstanding (s : State) (d : Die) (q : CoreId) (x : SlotId) : Bool :=
  let mine (a : AccDest) : Bool := match a with
    | .scalar d' q' x' _ _ => decide (d' = d ∧ q' = q ∧ x' = x)
    | .store d' q' x' => decide (d' = d ∧ q' = q ∧ x' = x)
    | _ => false
  (s.die d).accs.any (fun a => mine a.dest && decide (a.size ≤ 8))
    || (s.die d).txns.any (fun t => match t.dest with | some a => mine a && decide (t.size ≤ 8) | none => false)

/-- START of a STOPPED slot (R336). -/
def startSlot (d : Die) (q : CoreId) (x : SlotId) (s : State) : Option State :=
  let c := s.ctx d q x
  if c.st = .stopped then some (s.setCtx d q x { c with st := .ready, cause := 0 }) else none

/-- STOP requested of a READY or WAIT slot (R336). -/
def stopSlot (d : Die) (q : CoreId) (x : SlotId) (s : State) : Option State :=
  let c := s.ctx d q x
  if c.st = .ready ∨ c.st = .wait then some (s.setCtx d q x { c with stopReq := true }) else none

/-- STOP_TAKES_EFFECT: the narrow accesses have returned, so the slot is STOPPED with CAUSE 0001 (R336). -/
def stopTakesEffect (d : Die) (q : CoreId) (x : SlotId) (s : State) : State :=
  let c := s.ctx d q x
  if c.stopReq && !narrowOutstanding s d q x then s.setCtx d q x (c.stop 1) else s

/-- STOP_TAKES_EFFECT (R336). -/
def execStopTakesEffect (d : Die) (q : CoreId) (x : SlotId) (s : State) : Res := .next (stopTakesEffect d q x s)

/-- Whether an address is a legal save area of a core (R335): 1 KiB aligned, 17 KiB within the activation slice
of its cluster. -/
def saveAreaOk (d : Die) (q : CoreId) (a : Nat) : Bool :=
  let b := unitBase d .ast (q.val / 4)
  decide (a % 1024 = 0 ∧ b ≤ a ∧ a + 17 * 1024 ≤ b + Store.unitSize .ast)

/-- SAVE of a STOPPED slot starts (R336). -/
def saveSlot (d : Die) (q : CoreId) (x : SlotId) (a : Nat) (s : State) : Option State :=
  let c := s.ctx d q x
  if c.st = .stopped ∧ saveAreaOk d q a then some (s.setCtx d q x { c with st := .saving, area := a }) else none

/-- RESTORE into an EMPTY slot starts (R336). -/
def restoreSlot (d : Die) (q : CoreId) (x : SlotId) (a : Nat) (s : State) : Option State :=
  let c := s.ctx d q x
  if c.st = .empty ∧ saveAreaOk d q a then some (s.setCtx d q x { c with st := .restoring, area := a }) else none

/-- DISCARD of a STOPPED slot (R336). Its translation table, which lies in SYNC, stays (R518). -/
def discardSlot (d : Die) (q : CoreId) (x : SlotId) (s : State) : Option State :=
  let c := s.ctx d q x
  if c.st = .stopped then some (s.setCtx d q x { Ctx.empty with xl := c.xl, prio := c.prio, prioNext := c.prioNext }) else none

/-- The complement of a number of n bits. -/
def comp (n v : Nat) : Nat := 2 ^ n - 1 - v % 2 ^ n

/-- The word of a region's SIZE and permissions (R335). -/
def Region.word (g : Region) : Nat :=
  g.size + g.r.toNat * 2 ^ 8 + g.w.toNat * 2 ^ 9 + g.a.toNat * 2 ^ 10 + g.x.toNat * 2 ^ 11

/-- Bytes 0x0400 to 0x43FF of a save area (R377). -/
def xlImage (c : Ctx) : List Byte :=
  let w0 := c.last % 4 * 2 ^ 14 + c.lastVid % 4096
  leBytes 4 (w0 + comp 16 w0 * 65536) ++
    (List.range 4095).flatMap (fun v => let e := c.xl.at_ 0 (v + 1) % 65536; leBytes 4 (e + comp 16 e * 65536))

/-- The 17 KiB image of a context (R335, R377). -/
def saveImage (c : Ctx) : List Byte :=
  let w0 := 2 ^ 56 + c.prioShown % 4 * 16 + c.ran.toNat
  leBytes 8 w0 ++ leBytes 8 c.pc ++ leBytes 8 (c.p % 256) ++ leBytes 8 (comp 64 w0) ++ List.replicate 224 (0 : Byte)
    ++ (List.finRange 32).flatMap (fun r => leBytes 8 (c.rd r).toNat)
    ++ (List.finRange 8).flatMap (fun r =>
      match c.regions.find r with
      | some g => leBytes 8 g.cbase ++ leBytes 8 g.mbase ++ leBytes 8 g.word ++ leBytes 8 (comp 64 g.word)
      | none => leBytes 8 0 ++ leBytes 8 0 ++ leBytes 8 0 ++ leBytes 8 0)
    ++ List.replicate 256 (0 : Byte) ++ xlImage c

/-- The image with the marks of the poisoned scalar registers, which lie at 0x100 (R335, R531). -/
def markedImage (c : Ctx) : List (Byte × Bool) :=
  (saveImage c).zipIdx.map (fun b => (b.1, c.bad.any (fun r => decide (0x100 + 8 * r.val ≤ b.2 ∧ b.2 < 0x108 + 8 * r.val))))

/-- SAVE_DONE: the save area is complete and the slot is EMPTY (R331, R335). Its bytes are written at this moment (log entry
60). -/
def saveDone (d : Die) (q : CoreId) (x : SlotId) (s : State) : State :=
  let c := s.ctx d q x
  if c.st = .saving then
    (s.poke c.area (markedImage c)).setCtx d q x { Ctx.empty with xl := c.xl, prio := c.prio, prioNext := c.prioNext }
  else s

/-- SAVE_DONE (R331). -/
def execSaveDone (d : Die) (q : CoreId) (x : SlotId) (s : State) : Res := .next (saveDone d q x s)

/-- The region that four words describe (R335); none where its check fails. -/
def parseRegion (cluster : Nat) (d : Die) (cb mb w nw : Nat) : Option Region :=
  let sz := w % 64
  let g : Region := ⟨cb, mb, sz, w / 256 % 2 = 1, w / 512 % 2 = 1, w / 1024 % 2 = 1, w / 2048 % 2 = 1⟩
  let eb := unitBase d .ast cluster + 0x780000
  if nw ≠ comp 64 w ∨ g.word ≠ w ∨ sz < 12 ∨ 40 < sz ∨ cb % 2 ^ sz ≠ 0 ∨ mb % 2 ^ sz ≠ 0 then none
  else if g.x ∧ ¬ (eb ≤ mb ∧ mb + 2 ^ sz ≤ eb + 0x80000) then none
  else some g

/-- Whether two regions overlap in context addresses. -/
def Region.overlaps (g h : Region) : Bool := decide (g.cbase < h.cbase + 2 ^ h.size ∧ h.cbase < g.cbase + 2 ^ g.size)

/-- The context that a save area describes (R335, R377, R378); none where its check fails. -/
def parseArea (s : State) (d : Die) (q : CoreId) (a : Nat) : Option Ctx :=
  let w (o : Nat) : Nat := (s.word (a + o)).toNat
  if s.poisonedIn a 0x20 || s.poisonedIn (a + 0x100) 0x200 || s.poisonedIn (a + 0x400) 0x4000 then none
  else if w 0 / 2 ^ 56 ≠ 1 ∨ w 0x18 ≠ comp 64 (w 0) then none
  else
    let regs := (List.finRange 8).map (fun r => (r, parseRegion (q.val / 4) d (w (0x200 + 32 * r.val))
      (w (0x208 + 32 * r.val)) (w (0x210 + 32 * r.val)) (w (0x218 + 32 * r.val))))
    let xw (v : Nat) : Nat := ofLe (s.bytes (a + 0x400 + 4 * v) 4)
    if regs.any (fun r => r.2 == none) then none
    else
      let good : Assoc (Fin 8) Region := regs.filterMap (fun r => match r.2 with | some g => some (r.1, g) | none => none)
      if good.any (fun g => good.any (fun h => g.1 ≠ h.1 && g.2.overlaps h.2)) then none
      else if (List.range 4096).any (fun v => xw v / 65536 ≠ comp 16 (xw v)) then none
      else if xw 0 / 4096 % 4 ≠ 0 then none
      else some { Ctx.empty with
        st := .stopped, cause := 6, prio := w 0 / 16 % 4, pc := w 8 % 2 ^ 48, p := w 16 % 256
        s := (List.finRange 32).map (fun r => (r, BitVec.ofNat 64 (w (0x100 + 8 * r.val))))
        regions := good
        xl := (List.range 4095).filterMap (fun v => let e := xw (v + 1) % 65536; if e = 0 then none else some (v + 1, e))
        last := xw 0 / 2 ^ 14 % 4, lastVid := xw 0 % 4096, ran := w 0 % 2 = 1 }

/-- RESTORE_DONE: the area is loaded and the slot STOPPED with CAUSE RESTORED, or its check fails and the slot is
EMPTY with a CONFIG fault (R331, R335). The area is read at this moment (log entry 60). -/
def restoreDone (d : Die) (q : CoreId) (x : SlotId) (s : State) : State :=
  let c := s.ctx d q x
  if c.st = .restoring then
    let s := readStore s c.area 17408
    match parseArea s d q c.area with
    | some n => s.setCtx d q x n
    | none =>
      (s.setCtx d q x { Ctx.empty with xl := c.xl, prio := c.prio, prioNext := c.prioNext }).raise (Report.plain .restoreFailed d.val q.val .scv c.area)
  else s

/-- RESTORE_DONE (R331, R335). -/
def execRestoreDone (d : Die) (q : CoreId) (x : SlotId) (s : State) : Res := .next (restoreDone d q x s)

/-- A write to SCV.CTX_CMD (R336); none is a rejection. -/
def ctxCommand (d : Die) (q : CoreId) (w : Word) (s : State) : Option State :=
  let x : SlotId := ⟨bitsOf w 49 48 % 4, Nat.mod_lt _ (by decide)⟩
  let a := bitsOf w 47 0
  match bitsOf w 63 61 with
  | 1 => startSlot d q x s
  | 2 => stopSlot d q x s
  | 3 => saveSlot d q x a s
  | 4 => restoreSlot d q x a s
  | 5 => discardSlot d q x s
  | _ => none

end Sys2Proof.Machine
end

