-- ==== Sys2Proof/Machine/Expander.lean ====
section
/-! DEFINITION. The expander (R179 to R183) and the staged form (R180, R268). -/

namespace Sys2Proof.Machine

/-- The engine form of a KIND (R180). -/
def ekindOf (kind : Nat) : TileKind := if kind = 4 then .bf16 else if kind = 5 then .b4 else .k8

/-- The engine form that an EKIND field names (R262); none for 11. -/
def ekindOfCode : Nat → Option TileKind
  | 0 => some .k8 | 1 => some .b4 | 2 => some .bf16 | _ => none

/-- The EPC table t of a die; none while it is not valid (R173). -/
def epcTable (s : State) (d : Die) (t : Nat) : Option EpcTable :=
  let t : Fin 16 := ⟨t % 16, Nat.mod_lt _ (by decide)⟩
  if s.fld (.fdxEpcTag d t) F.fdxEpcTag_VALID = 1 then
    some { width := s.fld (.fdxEpcTag d t) F.fdxEpcTag_WIDTH, tag := s.fld (.fdxEpcTag d t) F.fdxEpcTag_TAG
           lens := (List.finRange 16).flatMap (fun w => (List.range 16).map (fun j =>
             bitsOf (s.reg (.fdxEpcLen d t w)) (4 * j + 3) (4 * j))) }
  else none

/-- Engine-form bytes that n decoded plain bytes can have given (R160, R179): of a Brass-4 panel not yet complete, the
first run of tile A's codes, which are the lower half of each row of the code plane. -/
def engineBytes (k : TileKind) (n : Nat) : Nat :=
  match k with
  | .b4 => n / 2208 * 2304 + min 1024 (16 * (n % 2208 / 32) + min 16 (n % 2208 % 32))
  | _ => n

/-- A plain form cut into transfers of an engine form, each with the engine-form offset of its end (R160, R180). A
last transfer that the plain form leaves short is as short. -/
def transfersOf (k : TileKind) (plain : List Byte) : List (List Byte × Nat) :=
  match k with
  | .b4 => ((panelsOf plain (plain.length / 2208)).zipIdx).flatMap (fun p =>
      ((panelTransfers p.1).zip [1024, 1152, 2176, 2304]).map (fun t => (t.1, p.2 * 2304 + t.2)))
  | _ => (List.range ((plain.length + 1023) / 1024)).map (fun i =>
      let t := (plain.drop (1024 * i)).take 1024
      (t, 1024 * i + t.length))

/-- What the expander makes of a block: the transfers of the request's engine form, each with its end offset; the
engine-form offset from which output is poisoned; the cause of R182; whether it counts in LOWRATIO. -/
structure Expanded where
  transfers : List (List Byte × Nat)
  poisonFrom : Nat
  cause : Nat
  low : Bool
  deriving DecidableEq, Repr

/-- Zero output of E plain bytes in an engine form, wholly poisoned (R182). -/
def zeroOutput (e : Nat) (k : TileKind) (cause : Nat) : Expanded :=
  ⟨transfersOf k (List.replicate e (0 : Byte)), 0, cause, false⟩

/-- The first panel of a Brass-4 plain form that fails a K check (R182). -/
def badPanel (plain : List Byte) : Option Nat := (panelsOf plain (plain.length / 2208)).findIdx? (fun p => !panelPasses p)

/-- A block expanded for a request that expects E bytes in an engine form (R181 to R183). `stored` is what can be
read of it, with poison marks; `left` is how much output may have left when an error is found. -/
def expand (s : State) (d : Die) (stored : List (Byte × Bool)) (e : Nat) (k : TileKind) (left : Nat) : Expanded :=
  let bytes := stored.map Prod.fst
  let h := parseHeader bytes
  if bytes.length < 32 ∨ h.ok = false then zeroOutput e k 1
  else if h.plainLen ≠ e ∨ ekindOf h.kind ≠ k then zeroOutput e k 2
  else
    let table := epcTable s d h.table
    let usable := match table with
      | some t => decide (t.width = (epcWidths h.kind).1 ∧ t.tag = h.ttag)
      | none => false
    if h.codec = 1 ∧ usable = false then zeroOutput e k 3
    else
      let lens := (table.map (fun t => t.lens)).getD []
      let payload := (bytes.drop 32).take h.compLen
      let dec := decodePayload h lens payload
      let plain := (dec.out ++ List.replicate (h.plainLen - dec.out.length) (0 : Byte)).take h.plainLen
      let all := engineBytes k h.plainLen
      let bad := if h.kind = 5 then badPanel plain else none
      let fromErr := if dec.cause = 0 then all else min left (engineBytes k dec.good)
      let fromScale := match bad with | some p => min left (p * 2304 + 1024) | none => all
      let fromMark := match stored.findIdx? (fun b => b.2) with
        | some i =>
          if i < 32 then 0
          else if 32 + h.compLen ≤ i then min left all
          else min left (engineBytes k (decodePayload h lens (payload.take (i - 32))).good)
        | none => all
      ⟨transfersOf k plain, min fromErr (min fromScale fromMark),
        if dec.cause ≠ 0 then dec.cause else if bad.isSome then 7 else 0, h.lowRatio⟩

/-- Whether a transfer that ends at an engine-form offset holds poisoned output. -/
def Expanded.poisons (x : Expanded) (stop : Nat) : Bool := decide (x.poisonFrom < stop)

/-- The transfers for the tile path. -/
def Expanded.forTiles (x : Expanded) (k : TileKind) : List Transfer :=
  x.transfers.map (fun t => ⟨k, t.1, x.poisons t.2⟩)

/-! ### The staged form (R180, R268) -/

/-- Tiles of an expected plain length (R180). -/
def tilesOf (k : TileKind) (e : Nat) : Nat :=
  match k with | .k8 => (e + 1023) / 1024 | .bf16 => e / 2048 | .b4 => 2 * e / 2208

/-- Lines that T staged tiles fill (R180, R268). -/
def stagedLines (k : TileKind) (t : Nat) : Nat :=
  match k with | .k8 => t | .bf16 => 2 * t | .b4 => t + (t + 7) / 8

/-- Byte offset and size of transfer x of tile t among T staged tiles (R180, R268). -/
def stagedAt (k : TileKind) (total t x : Nat) : Nat × Nat :=
  match k with
  | .k8 => (1024 * t, 1024)
  | .bf16 => (1024 * (2 * t + x), 1024)
  | .b4 =>
    let g := t / 8
    let m := min 8 (total - 8 * g)
    if x = 0 then (1024 * (9 * g + t % 8), 1024) else (1024 * (9 * g + m) + 128 * (t % 8), 128)

/-- The STAGE writes of an output from an address, one for each transfer (R180), poisoned from its offset on. -/
def stagedWrites (a : Nat) (k : TileKind) (x : Expanded) : List (Nat × List (Byte × Bool)) :=
  let per := k.transfers
  let total := match k with | .k8 => x.transfers.length | _ => x.transfers.length / 2
  x.transfers.zipIdx.map (fun t =>
    let at_ := stagedAt k total (t.2 / per) (t.2 % per)
    let start := t.1.2 - t.1.1.length
    (a + at_.1, t.1.1.zipIdx.map (fun b => (b.1, decide (x.poisonFrom ≤ start + b.2)))))

/-! ### Serving requests (R269, R270) -/

/-- Whether a request of the queue is the expander's. -/
def TileReq.isExp : TileReq → Bool
  | .xpand _ _ _ _ _ _ _ _ | .expand _ _ _ _ _ _ _ | .zeros _ _ _ _ _ => true
  | _ => false

/-- Whether a request is a delivery whose header the bus has not read, which may be the expander's. -/
def TileReq.unread : TileReq → Bool
  | .mcast _ _ _ _ _ => true
  | _ => false

/-- Whether the destination of a request is STAGE (R180). -/
def TileReq.staged : TileReq → Bool
  | .xpand _ st _ _ _ _ _ _ | .mcast _ st _ _ _ | .expand _ st _ _ _ _ _ | .zeros _ st _ _ _ => st
  | .lines _ _ _ st => st.isSome
  | .tfeed _ _ _ _ _ _ => false

/-- The request that the expander serves, with its place: the first of its own in queue order (R270). -/
def expHead (c : Core) : Option (Nat × TileReq) :=
  match c.treqs.findIdx? (fun t => t.isExp || t.unread) with
  | none => none
  | some i => match c.treqs[i]? with
    | some t => if t.isExp then some (i, t) else none
    | none => none

/-- The expander's request in progress (R187): bytes of it are being read or taken, or its output is being delivered. -/
def expCurrent (c : Core) : Option TileReq :=
  match expHead c with
  | some (_, t) =>
    let begun := match t with
      | .xpand _ _ _ _ _ want _ _ => want.isSome
      | .expand id _ _ _ _ data _ => !data.isEmpty || c.rx.any (fun l => l.req = id)
      | _ => false
    if c.expBusy || begun then some t else none
  | none => none

/-- One beat of the expander's input: 64 bytes of what has been read for its request (R179, R258, R259). -/
def expInput (c : Core) (beat : Nat) : Core :=
  match expHead c with
  | some (i, .xpand a st ps e k w got data) =>
    { c with treqs := c.treqs.set i (.xpand a st ps e k w (got.drop 64) (data ++ got.take 64)) }
  | some (i, .expand id st ps e k data left) =>
    (match c.rx.findIdx? (fun l => l.req = id) with
    | none => c
    | some j => match c.rx[j]? with
      | none => c
      | some l =>
        if beat < l.at_ then c
        else if l.bytes.length ≤ 64 then
          { c with rx := c.rx.eraseIdx j, treqs := c.treqs.set i (.expand id st ps e k (data ++ l.bytes) (left - 1)) }
        else { c with rx := c.rx.set j { l with bytes := l.bytes.drop 64 }
                      treqs := c.treqs.set i (.expand id st ps e k (data ++ l.bytes.take 64) left) })
  | _ => c

/-- Bytes of the unit of a local block from an address on: those at or beyond its populated size are not read (R269). -/
def roomAt (a : Nat) : Nat := match placeOf a with | .store _ st _ _ off => st.unitSize - off | _ => 0

/-- How many stored bytes of a local block are read once its header is (R269): the stored size from COMP_LEN, where the
header passes its checks. -/
def localSize (a : Nat) (header : List (Byte × Bool)) : Nat :=
  let h := parseHeader ((header.take 32).map Prod.fst)
  if h.ok then min (storedSize h.compLen) (roomAt a) else header.length

/-- An error of the expander (R182): status, and one DATA fault. -/
def expanderError (s : State) (d : Die) (q : CoreId) (cause : Nat) : State :=
  if cause = 0 then s
  else
    let s := s.setFld (.fdxExpStatus d q) F.fdxExpStatus_ERR_CAUSE cause
    let s := s.setFld (.fdxExpStatus d q) F.fdxExpStatus_ERROR 1
    s.raise { Report.plain .expander d.val q.val .fdx 0 with detail := cause }

/-- An access of a core's expander to a store, issued on this beat (R198, R208, R269). -/
def expanderAcc (s : State) (d : Die) (k : AccKind) (a n : Nat) (data : List (Byte × Bool)) (dest : AccDest) : State :=
  let x := s.die d
  (s.setDie d { x with accs := x.accs ++ [{ stamp := s.nextStamp d, kind := k, addr := a, size := n, data := data, dest := dest
                                            portB := false, issue := s.beat d, ret := 0, served := false }] }).bump d

/-- The delivery of a request's output: STAGE writes, or transfers before the tile path; the entry is kept until the last
of them has gone (R270). -/
def deliverExpanded (s : State) (d : Die) (q : CoreId) (i : Nat) (stage : Bool) (psoff : Nat) (k : TileKind)
    (x : Expanded) : State :=
  let c := s.core d q
  if x.transfers.isEmpty then s.setCore d q { c with treqs := c.treqs.eraseIdx i }
  else if stage then
    (stagedWrites (unitBase d .pst q.val + psoff * 1024) k x).foldl
      (fun s w => expanderAcc s d .write w.1 w.2.length w.2 (.stage d q none)) (s.setCore d q { c with expBusy := true })
  else s.setCore d q { c with expOut := x.forTiles k, expBusy := true }

/-- A block of which all that is to be read has been read is decoded, and its output delivered (R181 to R183). -/
def expandBlock (s : State) (d : Die) (q : CoreId) (i : Nat) (stored : List (Byte × Bool)) (stage : Bool) (psoff e : Nat)
    (k : TileKind) : State :=
  let x := expand s d stored e k (Config.bytesLeft s.fresh)
  let s := expanderError (s.burn 1) d q x.cause
  let s := s.addFld (.fdxExpBlocks d q) F.fdxExpBlocks_COUNT 1
  let s := if x.low then s.addFld (.fdxLowratio d) F.fdxLowratio_COUNT 1 else s
  deliverExpanded s d q i stage psoff k x

/-- The expander's next read for the XPAND at place i, within one line, of the stored bytes up to a size (R202, R269). -/
def readNext (s : State) (d : Die) (q : CoreId) (i : Nat) (a : Nat) (st : Bool) (ps e : Nat) (k : TileKind)
    (want : Nat) (data : List (Byte × Bool)) : State :=
  let c := s.core d q
  let s := s.setCore d q { c with treqs := c.treqs.set i (.xpand a st ps e k (some want) [] data) }
  let from_ := a + data.length
  expanderAcc s d .read from_ (min (a + want) ((from_ / 1024 + 1) * 1024) - from_) [] (.expander d q)

/-- EXPANDER_REQUEST_START: the expander goes on with its request, in queue order (R181, R270): it reads the header of a
local block through the core's port, then the rest line by line, and decodes a block that it has read whole. -/
def expanderStart (d : Die) (q : CoreId) (s : State) : State :=
  let c := s.core d q
  if c.expBusy then s
  else match expHead c with
    | some (i, .xpand a st ps e k want got data) =>
      if !got.isEmpty || (s.die d).accs.any (fun x => decide (x.dest = .expander d q)) then s
      else
        (match want with
        | none => readNext s d q i a st ps e k (min 32 (roomAt a)) data
        | some w =>
          if data.length < w then readNext s d q i a st ps e k w data
          else if w < localSize a data then readNext s d q i a st ps e k (localSize a data) data
          else expandBlock s d q i data st ps e k)
    | some (i, .expand _ st ps e k data 0) => expandBlock s d q i data st ps e k
    | some (i, .zeros _ st ps e k) => deliverExpanded s d q i st ps k (zeroOutput e k 0)
    | _ => s

/-- EXPANDER_REQUEST_START (R181). -/
def execExpanderRequestStart (d : Die) (q : CoreId) (s : State) : Res :=
  .next (if s.dieUp d then expanderStart d q s else s)

end Sys2Proof.Machine
end

