-- ==== Sys2Proof/Machine/Feed.lean ====
section
/-! DEFINITION. Feeders, the die weight bus and the tile path (R250 to R274). -/

namespace Sys2Proof.Machine

/-- A feeder, bus or DMA-post instruction rejected at issue: a CONFIG fault whose originator is the context, which
goes on (R264, R513). -/
def feedReject (s : State) (d : Die) (q : CoreId) (x : SlotId) (addr : Nat) : State :=
  advance (s.raise { Report.plain .feedReject d.val q.val .fdx addr with ctx := ctxRef d q x }) d q x

/-! ### The activation feeder -/

/-- Whether n bytes at a module address lie in one line of a core's own cluster: its activation slice or Electrum
region, or one of its partial-sum stores (R202, R272). -/
def clusterLine (d : Die) (q : CoreId) (a n : Nat) : Bool :=
  match placeOf a with
  | .store d' st u _ off =>
    decide (d' = d) && decide (a % 1024 + n ≤ 1024) && decide (off + n ≤ st.unitSize)
      && (match st with | .ast => decide (u = q.val / 4) | .pst => decide (u / 4 = q.val / 4) | .wst => false)
  | _ => false

/-- The bytes an access of a feed reads (R271). -/
def feedBytes (rows rb : Nat) : Nat := (rows * rb + 31) / 32 * 32

/-- AFEED sA, sB (R271, R272). -/
def execAfeed (d : Die) (q : CoreId) (sA sB : Fin 32) (s : State) : Res :=
  .next (withIssue s d q [sA, sB] fun x c s =>
    let a := c.rd sA
    let b := c.rd sB
    let rows := bitsOf a 63 59 + 1
    let rb := if bitsOf a 58 58 = 1 then 32 else 16
    let n := feedBytes rows rb
    let count := bitsOf b 63 48 + 1
    let stride := bitsOf b 47 24
    match c.translate (bitsOf a 47 0) ((count - 1) * stride + n) .r with
    | none => stopXlate s d q x (bitsOf a 47 0)
    | some m =>
      let ok := bitsOf a 57 48 = 0 ∧ bitsOf b 15 0 = 0 ∧ m % 32 = 0 ∧ stride % 32 = 0
        ∧ (List.range count).all (fun i => clusterLine d q (m + i * stride) n)
      if ¬ ok then feedReject s d q x m
      else if queueHasRoom s d q 1 then
        let k := s.core d q
        advance (s.setCore d q { k with feeds := k.feeds ++ [⟨rows, rb, m, count, stride, bitsOf b 23 16 + 1, 0, 0⟩] }) d q x
      else parkFull s d q x 1 0)

/-- The feed after its next access has issued: the next access, the next pass, or done (R271). -/
def Feed.step (f : Feed) : Option Feed :=
  if f.next + 1 < f.count then some { f with next := f.next + 1 }
  else if f.pass + 1 < f.repeats then some { f with next := 0, pass := f.pass + 1 }
  else none

/-- AFEED_ACCESS_ISSUE: the feeder issues its next access, reserving its queue entries, on a beat for which the service
beat of R207 falls in a slot of the core's class, one access a beat (R273). -/
def afeedIssue (d : Die) (q : CoreId) (s : State) : State :=
  let c := s.core d q
  match c.feeds with
  | [] => s
  | f :: fs =>
    let a := directAddr (f.addr + f.next * f.stride)
    let acc : Access := { stamp := s.nextStamp d, kind := .read, addr := a, size := feedBytes f.rows f.rb, data := [],
                          dest := .feeder d q f.rows f.rb, portB := false, issue := s.beat d, ret := 0, served := false }
    if 64 < c.actQ.length + c.actReserved + f.rows ∨ (slotClass acc (acc.due s)).isNone
        ∨ (s.die d).accs.any (fun b => b.dest.core == some (d, q) && portRank b == 0 && b.issue == s.beat d) then s
    else
      let s := s.setCore d q { c with
        actReserved := c.actReserved + f.rows
        feeds := match f.step with | some g => g :: fs | none => fs }
      let y := s.die d
      (s.setDie d { y with accs := y.accs ++ [acc] }).bump d

/-- AFEED_ACCESS_ISSUE (R273). -/
def execAfeedAccessIssue (d : Die) (q : CoreId) (s : State) : Res :=
  .next (if s.dieUp d then afeedIssue d q s else s)

/-! ### Tile order and staged tiles -/

/-- WTORD sA (R266). -/
def execWtord (d : Die) (q : CoreId) (sA : Fin 32) (s : State) : Res :=
  .next (withIssue s d q [sA] fun x c s =>
    let w := c.rd sA
    if (List.range (bitsOf w 35 32 + 1)).any (fun i => s.present q / 2 ^ bitsOf w (2 * i + 1) (2 * i) % 2 = 0) then
      feedReject s d q x 0
    else issueWait s d q x (.tileOrder w))

/-- A request joins the core's tile and expander queue, or the context stalls (R270). -/
def queueTile (s : State) (d : Die) (q : CoreId) (x : SlotId) (r : TileReq) : State :=
  if queueHasRoom s d q 2 then
    let k := s.core d q
    advance (s.setCore d q { k with treqs := k.treqs ++ [r] }) d q x
  else parkFull s d q x 2 2

/-- TFEED sA (R268). -/
def execTfeed (d : Die) (q : CoreId) (sA : Fin 32) (s : State) : Res :=
  .next (withIssue s d q [sA] fun x c s =>
    let w := c.rd sA
    let n := bitsOf w 25 16 + 1
    match ekindOfCode (bitsOf w 29 28) with
    | none => feedReject s d q x 0
    | some k =>
      if bitsOf w 9 0 + stagedLines k n > 1024 ∨ bitsOf w 15 10 ≠ 0 ∨ bitsOf w 27 26 ≠ 0 ∨ bitsOf w 63 30 ≠ 0 then
        feedReject s d q x 0
      else queueTile s d q x (.tfeed (bitsOf w 9 0) n k 0 0 (s.beat d)))

/-- Whether EKIND, E and the staging range of a request break the rules of R264. -/
def formOk (k : Option TileKind) (stage : Bool) (psoff e : Nat) : Bool :=
  match k with
  | none => false
  | some k =>
    (match k with | .k8 => true | .b4 => decide (e % 2208 = 0) | .bf16 => decide (e % 2048 = 0))
      && (!stage || decide (psoff + stagedLines k (tilesOf k e) ≤ 1024))

/-- XPAND sA, sB (R269). -/
def execXpand (d : Die) (q : CoreId) (sA sB : Fin 32) (s : State) : Res :=
  .next (withIssue s d q [sA, sB] fun x c s =>
    let a := bitsOf (c.rd sA) 47 0
    let b := c.rd sB
    let k := ekindOfCode (bitsOf b 31 30)
    let st := bitsOf b 62 62 = 1
    match c.translate a 32 .r with
    | none => stopXlate s d q x a
    | some m =>
      let here := match placeOf m with
        | .store d' .ast u _ _ => decide (d' = d ∧ u = q.val / 4)
        | .store d' .pst u _ _ => decide (d' = d ∧ u = q.val)
        | _ => false
      if !here || decide (m % 32 ≠ 0) || decide (bitsOf b 63 63 ≠ 0 ∨ bitsOf b 51 47 ≠ 0 ∨ bitsOf b 29 0 ≠ 0)
          || !formOk k st (bitsOf b 61 52) (bitsOf b 46 32) then feedReject s d q x m
      else queueTile s d q x (.xpand (directAddr m) st (bitsOf b 61 52) (bitsOf b 46 32) (k.getD .k8) none [] []))

/-! ### The weight bus (R257 to R265) -/

/-- A request of the bus queue with nothing served. -/
def BusReq.fresh (id : Nat) (q : CoreId) (since : Nat) : BusReq :=
  { id := id, gacc := false, core := q, block := 0, cmask := 0, stage := false, psoff := 0, ndone := 0, e := 0,
    ekind := .k8, lines := false, lfirst := 0, lcount := 0, since := since, active := false, found := none,
    timedOut := false, buf := none, served := 0, total := 0, zero := false, checked := false, expand := false }

/-- A request joins the bus queue, or the context stalls (R261). -/
def queueBus (s : State) (d : Die) (q : CoreId) (x : SlotId) (r : BusReq) : State :=
  if queueHasRoom s d q 3 then
    let y := s.die d
    advance (s.setDie d { y with busQ := y.busQ ++ [r], nextReq := y.nextReq + 1 }) d q x
  else parkFull s d q x 3 2

/-- MCAST sA, sB (R262, R264). -/
def execMcast (d : Die) (q : CoreId) (sA sB : Fin 32) (s : State) : Res :=
  .next (withIssue s d q [sA, sB] fun x c s =>
    let a := c.rd sA
    let b := c.rd sB
    let k := ekindOfCode (bitsOf b 31 30)
    let st := bitsOf b 62 62 = 1
    let lines := bitsOf b 29 29 = 1
    let psoff := bitsOf b 61 52
    let e := bitsOf b 46 32
    let lf := bitsOf b 25 21
    let lc := bitsOf b 20 17
    let bad := bitsOf b 63 63 ≠ 0 ∨ bitsOf b 51 51 ≠ 0 ∨ bitsOf b 28 26 ≠ 0 ∨ bitsOf b 16 0 ≠ 0
      ∨ (¬ lines ∧ (lf ≠ 0 ∨ lc ≠ 0)) ∨ bitsOf a 31 0 = 0 ∨ (lines ∧ k = some .b4)
      ∨ formOk k (st && !lines) psoff e = false ∨ (st ∧ lines ∧ psoff + lc + 1 > 1024)
      ∨ lf + lc > 15 ∨ bitsOf b 50 47 > 8
    if bad then feedReject s d q x 0
    else queueBus s d q x { BusReq.fresh (s.die d).nextReq q (s.beat d) with
      block := bitsOf a 63 32, cmask := bitsOf a 31 0, stage := st, psoff := psoff, ndone := bitsOf b 50 47
      e := e, ekind := k.getD .k8, lines := lines, lfirst := lf, lcount := lc })

/-- The place in the window of the block with an ID that takes passes (R167, R254). A gradient block bears the ID of its
weight block (R162): a GACC means a gradient block that is not sealed (R265), a multicast the weight block before a
gradient (log entry 46). -/
def findBlock (y : DieSt) (gacc : Bool) (id : Nat) : Option Nat :=
  let mine (w : WinEntry) : Bool := !w.skip && !w.copy && w.id == id
  if gacc then y.window.findIdx? (fun w => mine w && w.grad && !w.sealed_)
  else match y.window.findIdx? (fun w => mine w && !w.grad && w.state == .resident) with
    | some i => some i
    | none => match y.window.findIdx? (fun w => mine w && w.state == .resident) with
      | some i => some i
      | none => y.window.findIdx? mine

/-- The block-table entry that a request would find resident (R260, R265). -/
def residentFor (y : DieSt) (r : BusReq) : Option WinEntry :=
  match findBlock y r.gacc r.block with
  | some j => (match y.window[j]? with | some w => if w.state = .resident then some w else none | none => none)
  | none => none

/-- A range of lines of a gradient block's plain form passes its end (R175, R265). -/
def pastPlain (w : WinEntry) (lf lc : Nat) : Bool := decide (w.plain < 1024 * (lf + lc + 1))

/-- GACC sA, sB (R265). -/
def execGacc (d : Die) (q : CoreId) (sA sB : Fin 32) (s : State) : Res :=
  .next (withIssue s d q [sA, sB] fun x c s =>
    let a := c.rd sA
    let b := c.rd sB
    let lf := bitsOf b 11 6
    let lc := bitsOf b 5 0
    let y := s.die d
    let past : Bool := match findBlock y true (bitsOf a 63 32) with
      | some i => (match y.window[i]? with | some w => pastPlain w lf lc | none => false)
      | none => false
    if bitsOf a 21 0 ≠ 0 ∨ bitsOf b 59 12 ≠ 0 ∨ bitsOf b 63 60 > 8 ∨ lf + lc > 63 ∨ bitsOf a 31 22 + lc + 1 > 1024
        ∨ past = true then feedReject s d q x 0
    else queueBus s d q x { BusReq.fresh y.nextReq q (s.beat d) with
      gacc := true, block := bitsOf a 63 32, psoff := bitsOf a 31 22, ndone := bitsOf b 63 60
      lfirst := lf, lcount := lc })

/-- Whether a core subscribes to a request. -/
def BusReq.names (r : BusReq) (q : CoreId) : Bool := r.cmask / 2 ^ q.val % 2 == 1

/-- Request i of the bus queue replaced. -/
def setReq (s : State) (d : Die) (i : Nat) (r : BusReq) : State :=
  let y := s.die d
  s.setDie d { y with busQ := y.busQ.set i r }

/-- Request i removed from the bus queue. -/
def dropReq (s : State) (d : Die) (i : Nat) : State :=
  let y := s.die d
  s.setDie d { y with busQ := y.busQ.eraseIdx i }

/-- An update of every subscriber of a request. -/
def eachSub (s : State) (d : Die) (r : BusReq) (f : Core → Core) : State :=
  (List.finRange 32).foldl (fun s q => if r.names q then s.setCore d q (f (s.core d q)) else s) s

/-- The subscribers' queues all have a free entry (R270). -/
def subsFree (s : State) (d : Die) (r : BusReq) : Bool :=
  (List.finRange 32).all (fun q => !r.names q || decide ((s.core d q).treqs.length < 4))

/-- The entry that a request takes in a subscriber's queue on its lookup (R270): the bus decides between the tile path
and the expander when it reads the header (R263); zero output is known already (R260). -/
def BusReq.entry (r : BusReq) : TileReq :=
  if !r.timedOut then .mcast r.id r.stage r.psoff r.e r.ekind
  else if r.lines then .lines r.id r.ekind (r.lcount + 1) (if r.stage then some r.psoff else none)
  else .zeros r.id r.stage r.psoff r.e r.ekind

/-- Whether a queued request can go on at its lookup (R259, R260, R270): its block is resident or it has timed out, and
every subscriber's queue has a free entry. -/
def lookupReady (s : State) (d : Die) (r : BusReq) : Bool :=
  (r.timedOut || (residentFor (s.die d) r).isSome) && subsFree s d r

/-- A request whose NDONE exceeds the use count that is left (R256). -/
def doneErr (s : State) (d : Die) (r : BusReq) (a : Nat) : State :=
  (s.addFld (.fdxMcastStatus d) F.fdxMcastStatus_DONE_ERRS 1).raise (Report.plain .doneErr d.val r.core.val .fdx a)

/-- Passes ended by a served request (R255, R256). -/
def endPasses (s : State) (d : Die) (r : BusReq) : State :=
  if r.ndone = 0 then s
  else
    let mine (w : WinEntry) : Bool := match r.found with | some f => !w.skip && w.id == f.id && w.addr == f.addr | none => false
    match (s.die d).window.findIdx? mine with
    | none => s
    | some j => match (s.die d).window[j]? with
      | none => s
      | some w =>
        let s := if w.use < r.ndone then doneErr s d r w.addr else s
        let use := w.use - r.ndone
        let y := s.die d
        s.setDie d { y with window := y.window.set j { w with use := use, state := if use = 0 then .forwarding else w.state } }

/-- A request that ends without its block (R260): one with a nonzero NDONE for a block whose use count is already 0
subtracts nothing and raises the fault of R256. -/
def endWithout (s : State) (d : Die) (r : BusReq) : State :=
  match findBlock (s.die d) r.gacc r.block with
  | some j => (match (s.die d).window[j]? with
    | some w => if r.ndone ≠ 0 ∧ w.state = .forwarding then doneErr s d r w.addr else s
    | none => s)
  | none => s

/-- BUS_REQUEST_LOOKUP: request i, on a beat after its issue, is looked up in the block table and takes its entries, or
waits (R259, R260, R270). A GACC whose range then proves to pass the plain form is rejected (log entry 47). -/
def busLookup (d : Die) (i : Nat) (s : State) : State :=
  match (s.die d).busQ[i]? with
  | none => s
  | some r =>
    if r.active || decide (s.beat d ≤ r.since) || !lookupReady s d r then s
    else
      let found := if r.timedOut then none else residentFor (s.die d) r
      let past := match found with | some w => r.gacc && pastPlain w r.lfirst r.lcount | none => false
      if past then (dropReq s d i).raise (Report.plain .feedReject d.val r.core.val .fdx 0)
      else
        let s := eachSub s d r (fun c => { c with treqs := c.treqs ++ [r.entry] })
        if r.timedOut && !r.lines then dropReq s d i
        else setReq s d i { r with active := true, found := found, checked := r.timedOut, zero := r.timedOut, total := r.lcount + 1 }

/-- BUS_REQUEST_LOOKUP (R259). -/
def execBusRequestLookup (d : Die) (i : Nat) (s : State) : Res :=
  .next (if s.dieUp d then busLookup d i s else s)

/-- MCAST_TIMEOUT: request i has waited WAIT_LIMIT beats for its block (R260): counted, a SCHED fault, and its
subscribers get poisoned zeros once their queues have room. -/
def mcastTimeout (d : Die) (i : Nat) (s : State) : State :=
  match (s.die d).busQ[i]? with
  | none => s
  | some r =>
    let due := r.since + 1 + s.fld (.fdxMcastCtrl d) F.fdxMcastCtrl_WAIT_LIMIT ≤ s.beat d
    if r.active || r.timedOut || (residentFor (s.die d) r).isSome || !due then s
    else
      let s := s.addFld (.fdxMcastStatus d) F.fdxMcastStatus_TIMEOUTS 1
      let s := endWithout (s.raise (Report.plain .mcastTimeout d.val r.core.val .fdx 0)) d r
      if r.gacc then dropReq s d i else busLookup d i (setReq s d i { r with timedOut := true })

/-- MCAST_TIMEOUT (R260). -/
def execMcastTimeout (d : Die) (i : Nat) (s : State) : Res :=
  .next (if s.dieUp d then mcastTimeout d i s else s)

/-- The stored bytes of a block in the window; a gradient block's header is kept beside its plain form (R175). -/
def windowBytes (s : State) (w : WinEntry) : List (Byte × Bool) :=
  if w.grad then w.header.take 32 |>.map (fun b => (b, false)) |>.append (s.peek w.addr w.plain)
  else s.peek w.addr w.size

/-- What the bus does with a request once it has read the block's header (R262, R263): through the expander or as
lines, how many lines, as zeros or not, and the cause. -/
structure BusPlan where
  expand : Bool
  total : Nat
  zero : Bool
  cause : Nat
  deriving DecidableEq, Repr

/-- The plan of a request for a block (R262, R263). -/
def busPlan (r : BusReq) (w : WinEntry) (bytes : List (Byte × Bool)) : BusPlan :=
  let h := parseHeader ((bytes.take 32).map Prod.fst)
  let hdr := h.checked && decide (h.ndie ≠ h.die)
  let stored := (w.addr % 1024 + w.size + 1023) / 1024
  if r.lines then
    if !hdr then ⟨false, r.lcount + 1, true, 1⟩
    else if h.plainLen ≠ r.e ∨ ekindOf h.kind ≠ r.ekind ∨ h.rawEngine = false
        ∨ h.plainLen < 1024 * (r.lfirst + r.lcount + 1) then ⟨false, r.lcount + 1, true, 2⟩
    else ⟨false, r.lcount + 1, false, 0⟩
  else if h.rawEngine && hdr then
    if h.plainLen ≠ r.e ∨ ekindOf h.kind ≠ r.ekind then ⟨false, (r.e + 1023) / 1024, true, 2⟩
    else ⟨false, (h.plainLen + 1023) / 1024, false, 0⟩
  else ⟨true, stored, false, 0⟩

/-- The subscribers' entries of a request rewritten by its plan; one with nothing to deliver is done. -/
def planEntry (r : BusReq) (p : BusPlan) (t : TileReq) : Option TileReq :=
  match t with
  | .mcast id st ps e k =>
    if id ≠ r.id then some t
    else if p.expand then some (.expand id st ps e k [] p.total)
    else if p.total = 0 then none
    else some (.lines id k p.total (if st then some ps else none))
  | t => some t

/-- The plan applied when the bus has read the header of request i (R263). -/
def applyPlan (s : State) (d : Die) (i : Nat) (r : BusReq) (p : BusPlan) : State :=
  let s := if p.cause = 0 then s
    else
      let s := (List.finRange 32).foldl (fun s q =>
        if r.names q then
          (s.setFld (.fdxExpStatus d q) F.fdxExpStatus_ERR_CAUSE p.cause).setFld (.fdxExpStatus d q) F.fdxExpStatus_ERROR 1
        else s) s
      s.raise { Report.plain .expander d.val r.core.val .fdx 0 with detail := p.cause }
  let s := eachSub s d r (fun c => { c with treqs := c.treqs.filterMap (planEntry r p) })
  let r' := { r with checked := true, total := p.total, zero := p.zero, expand := p.expand }
  if p.total = 0 then endPasses (dropReq s d i) d r' else setReq s d i r'

/-- Whether a core has a free receive line (R258). -/
def canTake (c : Core) : Bool := decide (c.rx.length < 4)

/-- The window address from which line j of a request is read, with its length (R259, R263). -/
def lineOf (r : BusReq) (w : WinEntry) (j : Nat) : Nat × Nat :=
  if r.expand then
    let a := if j = 0 then w.addr else (w.addr / 1024 + j) * 1024
    (a, min (w.addr + w.size) ((a / 1024 + 1) * 1024) - a)
  else (w.addr + (if w.grad then 0 else 32) + 1024 * (r.lfirst + j), 1024)

/-- The lane of a window address, and the key of its bank and its index (R194, R257). -/
def laneSlot (a : Nat) : Nat × Nat × Nat :=
  match placeOf a with
  | .store _ _ u _ off => (4 * u + off / 1024 / 6144, (rowOf a).1, bankIndex a)
  | _ => (0, 0, 0)

/-- The lane and bank that hold what a request does next at its block (R257, R259, R263, R265): its header, its next line,
or a zero line. A zero line beyond the block or its slice takes whichever bank class 4 owns, on the lane of the last
stored line. -/
def nextSlot (r : BusReq) (w : WinEntry) (v : Nat) : Nat × Nat × Nat :=
  if r.gacc then laneSlot (w.addr + 1024 * (r.lfirst + r.served))
  else if !r.checked then laneSlot w.addr
  else
    let a := (lineOf r w r.served).1
    let last := laneSlot (w.addr + w.size - 1)
    if r.zero && (decide (w.addr + w.size ≤ a) || (laneSlot a).1 / 4 != last.1 / 4) then
      let b := (4 + v) % 8
      (last.1, bankKey .wst (last.1 / 4) (8 * (last.1 % 4) + b), b)
    else laneSlot a

/-- Whether a request may use a slot on the present beat (R259): its lookup is done, and its lines not before the second
beat after its issue. -/
def BusReq.due (r : BusReq) (v : Nat) : Bool :=
  r.active && !r.timedOut && decide (r.since + (if r.checked || r.gacc then 2 else 1) ≤ v) && (!r.gacc || r.buf.isSome)

/-- Whether a request could take the slot of its lane on the present beat, given the cores that already get a line on it
(R257, R258). Reading the header delivers nothing where the block passes the expander by. -/
def slotFree (s : State) (d : Die) (r : BusReq) (w : WinEntry) (taken : List CoreId) : Bool :=
  let p := nextSlot r w (s.beat d)
  r.due (s.beat d) && slotOpen s d p.2.2 p.2.1 4 && !(s.die d).used.contains (.lane p.1)
    && (List.finRange 32).all (fun q => !r.names q || (canTake (s.core d q) && !taken.contains q))

/-- The request that takes a lane's slot on the present beat (R259): the oldest that can, unless an older one still waiting
on the lane shares a subscriber with it. -/
def laneWinner (s : State) (d : Die) (lane : Nat) (taken : List CoreId) : List (BusReq × Nat) → Nat → Option (Nat × BusReq)
  | [], _ => none
  | (r, i) :: l, older =>
    match r.found with
    | none => laneWinner s d lane taken l older
    | some w =>
      if r.active = false ∨ r.timedOut ∨ (nextSlot r w (s.beat d)).1 ≠ lane then laneWinner s d lane taken l older
      else if (r.cmask &&& older) = 0 ∧ slotFree s d r w taken then some (i, r)
      else laneWinner s d lane taken l (older ||| r.cmask)

/-- The cores that a request names. -/
def BusReq.cores (r : BusReq) : List CoreId := (List.finRange 32).filter r.names

/-- The places of the requests that the lanes serve on the present beat, lanes in ascending order (R258, R259). -/
def busWinners (s : State) (d : Die) : List Nat :=
  let got := (s.die d).used.filterMap (fun u => match u with | .sub _ q => some q | _ => none)
  ((List.range 32).foldl (fun (acc : List Nat × List CoreId) n =>
    match laneWinner s d n acc.2 (s.die d).busQ.zipIdx 0 with
    | some (i, r) => (acc.1 ++ [i], acc.2 ++ r.cores)
    | none => acc) ([], got)).1

/-- A line's bytes sent to the receive buffer of a subscriber, which they reach on a beat (R259); a line that bypasses the
expander into STAGE is written on from there (R198, R262). -/
def takeLine (s : State) (d : Die) (q : CoreId) (r : BusReq) (bytes : List (Byte × Bool)) (beat : Nat) : State :=
  let c := s.core d q
  let s := s.setCore d q { c with rx := c.rx ++ [⟨r.id, bytes, beat⟩] }
  if r.stage && !r.expand then
    let x := s.die d
    (s.setDie d { x with accs := x.accs ++ [{ stamp := s.nextStamp d, kind := .write
                                              addr := unitBase d .pst q.val + (r.psoff + r.served) * 1024
                                              size := bytes.length, data := bytes, dest := .stage d q (some r.id), portB := false
                                              issue := beat, ret := 0, served := false }] }).bump d
  else s

/-- A line of request i delivered to every subscriber, and the request's passes ended after its last (R255, R258). -/
def giveLine (s : State) (d : Die) (i : Nat) (r : BusReq) (lane : Nat) (bytes : List (Byte × Bool)) (beat : Nat) : State :=
  let x := s.die d
  let s := s.setDie d { x with used := x.used ++ r.cores.map (fun q => .sub lane q) }
  let s := r.cores.foldl (fun s q => takeLine s d q r bytes beat) s
  if r.served + 1 = r.total then endPasses (dropReq s d i) d r else setReq s d i { r with served := r.served + 1 }

/-- Zero lines, poisoned (R260, R263). -/
def zeroLine : List (Byte × Bool) := List.replicate 1024 ((0 : Byte), true)

/-- A zero line of a request that timed out (R260): one a beat, in no store slot, subject to R258. -/
def busZero (d : Die) (i : Nat) (r : BusReq) (s : State) : State :=
  let got := (s.die d).used.filterMap (fun u => match u with | .sub _ q => some q | _ => none)
  if (s.die d).used.contains (.lane (32 + r.id)) || !r.cores.all (fun q => canTake (s.core d q) && !got.contains q) then s
  else
    let x := s.die d
    giveLine (s.setDie d { x with used := x.used ++ [.lane (32 + r.id)] }) d i r (32 + r.id) zeroLine (s.beat d)

/-- The next line of request i served by its lane in the class 4 slot of the present beat (R257, R259, R263). -/
def busLine (d : Die) (i : Nat) (r : BusReq) (w : WinEntry) (lane : Nat) (s : State) : State :=
  let at_ := lineOf r w r.served
  if r.zero then giveLine s d i r lane zeroLine (s.beat d + 4)
  else
    let s := readStore s at_.1 at_.2
    giveLine s d i r lane (spread (s.peek at_.1 at_.2)) (s.beat d + 4)

/-- BUS_LINE_SERVE: the lane that holds the next line of request i serves it to every subscriber, where the slot of the
present beat is the request's (R257 to R259). The header is read in a slot before the first line, and with it where the
block goes to the expander whole (R262, R263). -/
def busServe (d : Die) (i : Nat) (s : State) : State :=
  match (s.die d).busQ[i]? with
  | none => s
  | some r =>
    if !r.active || r.gacc then s
    else if r.timedOut then busZero d i r s
    else match r.found with
      | none => s
      | some w =>
        let plan := if r.checked then none else some (busPlan r w (windowBytes s w))
        let early := match plan with | some p => p.expand && decide (s.beat d < r.since + 2) | none => false
        if early || !(busWinners s d).contains i then s
        else
          let p := nextSlot r w (s.beat d)
          let x := s.die d
          let s := s.setDie d { x with used := x.used ++ [.bank p.2.1 4, .lane p.1] }
          match plan with
          | none => busLine d i r w p.1 s
          | some pl =>
            let s := applyPlan s d i r pl
            if pl.expand then
              match (s.die d).busQ[i]? with
              | some r => busLine d i r w p.1 s
              | none => s
            else readStore s w.addr 32

/-- BUS_LINE_SERVE (R259). -/
def execBusLineServe (d : Die) (i : Nat) (s : State) : Res :=
  .next (if s.dieUp d then busServe d i s else s)

/-- A read of the tile path is due in a bank's class 1 slot (R265, R268). -/
def tileReadDue (s : State) (d : Die) (q : CoreId) (bank : Nat) : Bool :=
  match tileHead (s.core d q) with
  | some (_, .tfeed ps n k t x _) => (s.core d q).tileIn.isNone && decide ((ps + (stagedAt k n t x).1 / 1024) % 8 = bank)
  | _ => false

/-- GACC_LINE_ACCUMULATE: the next source line of GACC request i is read in a class 1 slot of the core's partial-sum store,
then accumulated into the plain form of its block in a class 4 slot, as a read-modify-write (R205, R259, R265). -/
def gaccLine (d : Die) (i : Nat) (s : State) : State :=
  match (s.die d).busQ[i]? with
  | none => s
  | some r =>
    if !r.active || !r.gacc then s
    else match r.found, r.buf with
      | none, _ => s
      | some _, none =>
        let line := r.psoff + r.served
        let key := bankKey .pst r.core.val (line % 8)
        if s.beat d < r.since + 2 || !slotOpen s d (line % 8) key 1 || tileReadDue s d r.core (line % 8) then s
        else
          let src := unitBase d .pst r.core.val + line * 1024
          let s := readStore (useSlot s d key 1) src 1024
          setReq s d i { r with buf := some (spread (s.peek src 1024)) }
      | some w, some data =>
        if !(busWinners s d).contains i then s
        else
          let p := nextSlot r w (s.beat d)
          let x := s.die d
          let s := s.setDie d { x with
            used := x.used ++ [.bank p.2.1 4, .lane p.1]
            effects := x.effects ++ [⟨4, .acc (decide ((parseHeader w.header).kind = 6)), w.addr + 1024 * (r.lfirst + r.served), data⟩]
            rmws := x.rmws ++ [⟨p.2.1, 4, s.beat d + 8⟩] }
          if r.served + 1 = r.total then endPasses (dropReq s d i) d r
          else setReq s d i { r with served := r.served + 1, buf := none }

/-- GACC_LINE_ACCUMULATE (R265). -/
def execGaccLineAccumulate (d : Die) (i : Nat) (s : State) : Res :=
  .next (if s.dieUp d then gaccLine d i s else s)

/-! ### The tile path (R104, R266, R267) -/

/-- The next transfer for the shadow tiles, in queue order, that is before the tile path on the present beat, and the core
with it taken (R259, R268, R270). -/
def nextTransfer (s : State) (d : Die) (q : CoreId) : Option (Transfer × Core) :=
  let c := s.core d q
  match c.tileIn with
  | some (t, v) => if v ≤ s.beat d then some (t, { c with tileIn := none }) else none
  | none =>
    match tileHead c with
    | some (i, .lines id k left none) =>
      (match c.rx.findIdx? (fun l => l.req = id) with
      | none => none
      | some j => match c.rx[j]? with
        | none => none
        | some l =>
          if s.beat d ≤ l.at_ then none
          else some (⟨k, l.bytes.map Prod.fst, l.bytes.any Prod.snd⟩, { c with
            rx := c.rx.eraseIdx j
            treqs := if left ≤ 1 then c.treqs.eraseIdx i else c.treqs.set i (.lines id k (left - 1) none) }))
    | some (i, t) =>
      if t.source ≠ some true then none
      else (match c.expOut with
        | [] => none
        | t :: ts => some (t, { c with
            expOut := ts, expBusy := !ts.isEmpty
            treqs := if ts.isEmpty then c.treqs.eraseIdx i else c.treqs }))
    | none => none

/-- The size of a transfer of a kind (R103). -/
def transferSize (k : TileKind) (x : Nat) : Nat := match k with | .b4 => if x = 0 then 1024 else 128 | _ => 1024

/-- A transfer filled up to its size: bytes that no output gives are free (log entry 10). -/
def fillTransfer (s : State) (k : TileKind) (x : Nat) (bs : List Byte) : List Byte :=
  bs ++ (List.range (transferSize k x - bs.length)).map (fun i => Config.freeByte (s.fresh + i))

/-- The tile path reads the next staged transfer of a TFEED in a class 1 slot of its bank, with near latency, to be written
into a shadow tile from the next beat on (R208, R209, R268; log entry 48). -/
def tileRead (s : State) (d : Die) (q : CoreId) : State :=
  let c := s.core d q
  match c.tileIn, tileHead c with
  | none, some (i, .tfeed ps n k t x issue) =>
    let at_ := stagedAt k n t x
    let a := unitBase d .pst q.val + ps * 1024 + at_.1
    let key := (rowOf a).1
    if s.beat d < issue + (latency (s.invar d) 0).1 || !slotOpen s d (bankIndex a) key 1 then s
    else
      let s := readStore (useSlot s d key 1) a at_.2
      let b := s.peek a at_.2
      let lastX := x + 1 = k.transfers
      let rest := if lastX ∧ t + 1 = n then c.treqs.eraseIdx i
        else c.treqs.set i (.tfeed ps n k (if lastX then t + 1 else t) (if lastX then 0 else x + 1) issue)
      s.setCore d q { s.core d q with treqs := rest, tileIn := some (⟨k, b.map Prod.fst, b.any Prod.snd⟩, s.beat d + 1) }
  | _, _ => s

/-- A transfer written into the shadow tile of the next engine of the tile order. -/
def putTransfer (s : State) (d : Die) (q : CoreId) (t : Transfer) (c : Core) : State :=
  let e : Fin 4 := c.tord.getD c.tordPos 0
  let g := c.engine e
  let sh := (g.shadow).getD ⟨t.kind, [], false⟩
  let bytes := fillTransfer s sh.kind sh.transfers.length t.bytes
  let sh' := { sh with transfers := sh.transfers ++ [bytes], poison := sh.poison || t.poison }
  let x := s.die d
  let s := (s.burn (bytes.length - t.bytes.length)).setDie d { x with used := x.used ++ [.tile q] }
  s.setCore d q { (c.setEngine e { g with shadow := some sh' }) with
    tordPos := if sh'.complete then (c.tordPos + 1) % max 1 c.tord.length else c.tordPos
    tordHalf := !sh'.complete }

/-- TILE_TRANSFER: the tile path writes one transfer into the shadow tile of the next engine of the tile order, at most one
a beat, which waits while that tile is complete; and it reads the next staged one (R104, R266 to R268). -/
def tileTransfer (d : Die) (q : CoreId) (s : State) : State :=
  let c := s.core d q
  let busy := match (c.engine (c.tord.getD c.tordPos 0)).shadow with | some sh => sh.complete | none => false
  let s := if busy || (s.die d).used.contains (.tile q) then s
    else match nextTransfer s d q with
      | some (t, c) => putTransfer s d q t c
      | none => s
  tileRead s d q

/-- TILE_TRANSFER (R104). -/
def execTileTransfer (d : Die) (q : CoreId) (s : State) : Res :=
  .next (if s.dieUp d then tileTransfer d q s else s)

end Sys2Proof.Machine
end

