-- ==== Sys2Proof/Machine/Steps.lean ====
section
/-! DEFINITION. Steps and their deadlines (R321 to R329). -/

namespace Sys2Proof.Machine

/-- The largest frozen-beat count of a step's participants (R328). -/
def Step.freezeMax (t : Step) : Nat := t.frozen.foldl (fun m p => max m p.2) 0

/-- A closed step put in its place by ascending ID. -/
def insertClosed (e : Nat × Word × Word) : List (Nat × Word × Word) → List (Nat × Word × Word)
  | [] => [e]
  | h :: t => if e.1 < h.1 then e :: h :: t else h :: insertClosed e t

/-- The records of the steps closed on one beat written to the die's log from an entry on (R329). -/
def writeClosed (d : Die) : List (Nat × Word × Word) → Nat → State → State
  | [], i, s => s.setFld (.scvStepStatus d) F.scvStepStatus_LOG_NEXT (i % 16)
  | e :: l, i, s =>
    let k : Fin 16 := ⟨i % 16, Nat.mod_lt _ (by decide)⟩
    writeClosed d l (i + 1) ((s.setReg (.scvStepLogA d k) e.2.1).setReg (.scvStepLogB d k) e.2.2)

/-- A step's record written to the die's log, after those of lower ID that closed on the same beat, and the step taken
from the table (R329, R341); only a late step has a LATE_NS. -/
def recordStep (s : State) (d : Die) (t : Step) (status : Nat) : State :=
  let now := s.time d
  let dur := min (now - t.opened) 0xFFFFFFFF
  let late := match t.late, t.deadline with | true, some dl => min (now - dl) 0xFFFFFFFF | _, _ => 0
  let x := s.die d
  let l := insertClosed (t.id, BitVec.ofNat 64 (t.id % 65536 * 2 ^ 48 + status * 2 ^ 46 + dur),
    BitVec.ofNat 64 (late * 2 ^ 32 + min t.freezeMax 0xFFFFFFFF)) x.closedNow
  let from_ := s.fld (.scvStepStatus d) F.scvStepStatus_LOG_NEXT + 16 - x.closedNow.length % 16
  writeClosed d l from_ (s.setDie d { x with steps := x.steps.filter (fun u => u.id ≠ t.id), closedNow := l })

/-- The default deadline after the open (R324): none where LEN is 0. -/
def defaultDeadline (margin len mhz : Nat) : Option Nat :=
  if len = 0 then none else some ((margin * len * 1000 + 100 * mhz - 1) / (100 * mhz))

/-- The failure of a STEP, if it fails (R323). -/
def stepFailure (s : State) (d : Die) (a b : Word) : Option Source :=
  let id := bitsOf a 63 48
  if (s.die d).steps.length ≥ 16 then some .stepFull
  else if id = 0 ∨ (s.die d).steps.any (fun t => t.id = id) then some .stepInvalid
  else if bitsOf a 31 0 = 0 ∨ bitsOf a 47 32 ≠ 0 ∨ (bitsOf b 63 63 = 1 ∧ bitsOf b 62 32 = 0) then some .stepInvalid
  else none

/-- The step that two words open (R321, R322, R324). -/
def newStep (s : State) (d : Die) (a b : Word) : Step :=
  let now := s.time d
  let dl := if bitsOf b 63 63 = 1 then some (bitsOf b 62 32)
    else defaultDeadline (s.fld (.scvSchedCtrl d) F.scvSchedCtrl_MARGIN_PCT) (bitsOf b 31 0)
      (s.fld (.scvRate d) F.scvRate_CAL_MHZ)
  { id := bitsOf a 63 48, mask := bitsOf a 31 0, opened := now, deadline := dl.map (fun n => now + n),
    arrived := 0, frozen := [], late := false }

/-- STEP sA, sB (R322 to R324). -/
def execStep (d : Die) (q : CoreId) (sA sB : Fin 32) (s : State) : Res :=
  .next (withIssue s d q [sA, sB] fun x c s =>
    match stepFailure s d (c.rd sA) (c.rd sB) with
    | some src =>
      (s.setCtx d q x (c.stop 4)).raise { Report.plain src d.val q.val .scv 0 with
        ctx := ctxRef d q x, tag := bitsOf (c.rd sA) 63 48 }
    | none =>
      let y := s.die d
      advance (s.setDie d { y with steps := y.steps ++ [newStep s d (c.rd sA) (c.rd sB)] }) d q x)

/-- A misuse of a step (R327): the arrival is ignored, MISUSE counts, STEP_MISUSE is raised. -/
def stepMisuse (s : State) (d : Die) (q : CoreId) (x : SlotId) (id : Nat) : State :=
  (s.addFld (.scvStepStatus d) F.scvStepStatus_MISUSE 1).raise
    { Report.plain .stepMisuse d.val q.val .scv 0 with ctx := ctxRef d q x, tag := id }

/-- Whether an arrival of a core at a step may be recorded (R327). -/
def mayArrive (s : State) (d : Die) (q : CoreId) (id : Nat) : Bool :=
  match (s.die d).steps.find? (fun t => t.id = id) with
  | none => false
  | some t => t.mask / 2 ^ q.val % 2 == 1 && t.arrived / 2 ^ q.val % 2 == 0
      && !(s.die d).stepArr.any (fun a => decide (a.core = q ∧ a.target = id) && !a.stale)

/-- STEPEND sA: a pending arrival, or a misuse (R325, R327). -/
def execStepend (d : Die) (q : CoreId) (sA : Fin 32) (s : State) : Res :=
  .next (withIssue s d q [sA] fun x c s =>
    let id := bitsOf (c.rd sA) 63 48
    if bitsOf (c.rd sA) 47 0 ≠ 0 ∨ mayArrive s d q id = false then advance (stepMisuse s d q x id) d q x
    else
      let y := s.die d
      advance (s.setDie d { y with stepArr := y.stepArr ++ [⟨q, x, id, s.nextStamp d, s.beat d, false⟩] }) d q x)

/-- Whether the conditions of a pending arrival hold, on a later beat than that of its issue (R325, R370). -/
def arrivalClear (s : State) (d : Die) (a : Arrival) : Bool :=
  decide (a.beat < s.beat d) && engineFenced s d a.core a.slot a.stamp && writesFenced s d a.core a.slot a.stamp

/-- A step with the arrival of a core. -/
def Step.arrive (t : Step) (q : CoreId) : Step := { t with arrived := t.arrived ||| 2 ^ q.val }

/-- STEP_ARRIVAL: the pending arrival i takes effect, and the last one closes the step, on time or late (R325, R326); an
arrival at a step that has been aborted or is not open is a misuse (R327). -/
def stepArrival (d : Die) (i : Nat) (s : State) : State :=
  match (s.die d).stepArr[i]? with
  | none => s
  | some a =>
    if arrivalClear s d a then
      let x := s.die d
      let s := s.setDie d { x with stepArr := x.stepArr.eraseIdx i }
      match (s.die d).steps.find? (fun t => !a.stale && decide (t.id = a.target)) with
      | none => stepMisuse s d a.core a.slot a.target
      | some t =>
        let t' := t.arrive a.core
        if t'.arrived &&& t.mask = t.mask then recordStep s d t' (if t.late then 2 else 1)
        else
          let x := s.die d
          s.setDie d { x with steps := x.steps.map (fun u => if u.id = t.id then t' else u) }
    else s

/-- STEP_ARRIVAL (R325). -/
def execStepArrival (d : Die) (i : Nat) (s : State) : Res := .next (stepArrival d i s)

/-- Whether a step closes on this beat: the arrivals that can take effect on it complete its mask (R325, R327). -/
def closesNow (s : State) (d : Die) (t : Step) : Bool :=
  let t' := (s.die d).stepArr.foldl (fun t a => if a.target = t.id ∧ a.stale = false ∧ arrivalClear s d a then t.arrive a.core else t) t
  decide (t'.arrived &&& t.mask = t.mask)

/-- A step is late once the replica has reached its deadline, and only once: STEP_LATE is raised and LATE counts; not
where the step closes on the same beat (R326, R327). -/
def lateStep (d : Die) (t : Step) (s : State) : State :=
  match t.deadline with
  | none => s
  | some dl =>
    if !t.late && decide (dl ≤ s.time d) && !closesNow s d t then
      let s := s.addFld (.scvStepStatus d) F.scvStepStatus_LATE 1
      let s := s.raise { Report.plain .stepLate d.val 0 .scv 0 with tag := t.id }
      let x := s.die d
      s.setDie d { x with steps := x.steps.map (fun u => if u.id = t.id then { u with late := true } else u) }
    else s

/-- STEP_DEADLINE: the replica has reached the deadline of an open step (R326). -/
def stepDeadline (d : Die) (id : Nat) (s : State) : State :=
  match (s.die d).steps.find? (fun t => t.id = id) with
  | none => s
  | some t => lateStep d t s

/-- The arrivals that could still take effect on this beat do, and then the steps past their deadlines are late: the
conditions of a beat are judged by its end (R325 to R327). -/
def closeBeat (s : State) (d : Die) : State :=
  let s := ((s.die d).stepArr.map (fun a => decide (arrivalClear s d a))).zipIdx.foldr
    (fun p s => if p.1 then stepArrival d p.2 s else s) s
  (s.die d).steps.foldl (fun s t => lateStep d t s) s

/-- STEP_DEADLINE (R326). -/
def execStepDeadline (d : Die) (id : Nat) (s : State) : Res := .next (stepDeadline d id s)

/-- A write of SCV.STEP_ABORT: the step closes ABORTED, and the arrivals still pending at it are misuse when they take
effect (R327); none is a rejection. -/
def abortStep (d : Die) (id : Nat) (s : State) : Option State :=
  ((s.die d).steps.find? (fun t => t.id = id)).map (fun t =>
    let x := s.die d
    recordStep (s.setDie d { x with stepArr := x.stepArr.map (fun a => if a.target = id then { a with stale := true } else a) }) d t 3)

/-- A forward step of the timebase carried to a die: its replica and its open steps move (R319). -/
def stepReplica (s : State) (d : Die) (n : Nat) : State :=
  let s := s.setReg (.scvTime d) (s.reg (.scvTime d) + BitVec.ofNat 64 n)
  let x := s.die d
  s.setDie d { x with steps := x.steps.map (fun t =>
    { t with opened := t.opened + n, deadline := t.deadline.map (fun v => v + n) }) }

end Sys2Proof.Machine
end

