-- ==== Sys2Proof/Machine/Sync.lean ====
section
/-! DEFINITION. Counters, virtual IDs, signals, waits, credits and barriers (chapter 08). -/

namespace Sys2Proof.Machine

/-- The register of a physical counter. -/
def ctrReg (d : Die) (n : Nat) : Reg := .syncCtr d ⟨n % 8192, Nat.mod_lt _ (by decide)⟩

/-- A SYNC fault: STATUS keeps its source code and its counter (R384). -/
def syncFault (s : State) (d : Die) (code phys : Nat) (src : Source) (ctx : Option CtxRef) (unit : Nat) : State :=
  let s := s.setFld (.syncStatus d) F.syncStatus_LAST_SRC code
  let s := s.setFld (.syncStatus d) F.syncStatus_LAST_PHYS phys
  s.raise { Report.plain src d.val unit .sync 0 with ctx := ctx, tag := phys }

/-- An update of a counter (R344): it saturates at 2^48 - 1, and the fault is raised when SAT goes from 0 to 1. -/
def ctrAdd (s : State) (d : Die) (n amt : Nat) : State :=
  let w := s.reg (ctrReg d n)
  let v := bitsOf w 47 0 + amt
  if v > 2 ^ 48 - 1 then
    let s' := s.setReg (ctrReg d n) (putBits (putBits w 47 0 (2 ^ 48 - 1)) 63 63 1)
    if bitsOf w 63 63 = 1 then s' else syncFault s' d 3 n .ctrSat none 0
  else s.setReg (ctrReg d n) (putBits w 47 0 v)

/-- A misuse (R356): it counts, and MISUSE is raised. -/
def syncMisuse (s : State) (d : Die) (phys : Nat) (ctx : Option CtxRef) (unit : Nat) : State :=
  syncFault (s.addFld (.syncStatus d) F.syncStatus_MISUSE 1) d 1 phys .misuse ctx unit

/-- Whether a counter may be signalled (R346, R364): not a barrier, reserved or landing counter, and not the
consumed counter of a credit pair. -/
def signalable (s : State) (d : Die) (phys : Nat) : Bool :=
  decide (phys < 8064) && !(decide (phys % 2 = 1) && (creditPair s d (phys / 2)).1)

/-- A VID's translation: VALID, S, W, PHYS (R347); VID 0 never translates. -/
def xlate (c : Ctx) (vid : Nat) : Option (Bool × Bool × Nat) :=
  let e := c.xl.at_ 0 vid
  if vid = 0 ∨ e / 2 ^ 15 % 2 = 0 then none
  else some (e / 2 ^ 14 % 2 == 1, e / 2 ^ 13 % 2 == 1, e % 8192)

/-- The physical counter a context may signal through a VID. -/
def xlateS (c : Ctx) (vid : Nat) : Option Nat :=
  match xlate c vid with | some (true, _, p) => some p | _ => none

/-- The physical counter a context may wait on, read and consume through a VID. -/
def xlateW (c : Ctx) (vid : Nat) : Option Nat :=
  match xlate c vid with | some (_, true, p) => some p | _ => none

/-- SIGNAL sA: the signal joins the core's queue (R353), or is a misuse (R356). -/
def execSignal (d : Die) (q : CoreId) (sA : Fin 32) (s : State) : Res :=
  .next (withIssue s d q [sA] fun x c s =>
    let w := c.rd sA
    let scope := bitsOf w 51 50
    match xlateS c (bitsOf w 63 52) with
    | none => stopXlate s d q x 0
    | some phys =>
      if bitsOf w 31 0 = 0 ∨ scope = 3 ∨ 8064 ≤ phys ∨ (scope = 0 ∧ signalable s d phys = false) then
        advance (syncMisuse s d phys (ctxRef d q x) q.val) d q x
      else if queueHasRoom s d q 5 then
        let k := s.core d q
        advance (s.setCore d q { k with sigQ := k.sigQ ++ [⟨x, phys, scope, bitsOf w 49 44, bitsOf w 31 0, s.nextStamp d, s.beat d⟩] }) d q x
      else parkFull s d q x 5 0)

/-- A signal packet of a KIND (R357): PHYS, INC and NPKT with their complements. -/
def sigPacket (kind phys inc npkt : Nat) : SigPacket :=
  let w0 : Word := BitVec.ofNat 64 (phys % 8192 * 2 ^ 51 + kind % 4 * 2 ^ 49 + inc % 2 ^ 32)
  let w1 : Word := BitVec.ofNat 64 (npkt % 2 ^ 48)
  ⟨w0, w1, ~~~w0, ~~~w1⟩

/-- Whether a packet's words agree with their complements (R357). -/
def SigPacket.ok (p : SigPacket) : Bool := p.w2 == ~~~p.w0 && p.w3 == ~~~p.w1

/-- KIND of a packet (R357). -/
def SigPacket.kind (p : SigPacket) : Nat := bitsOf p.w0 50 49

/-- A packet of a barrier that names no barrier's counter (R365, R370). -/
def SigPacket.stray (p : SigPacket) : Bool :=
  (p.kind == 1 || p.kind == 2) && decide (bitsOf p.w0 63 51 < 8064 ∨ 8128 ≤ bitsOf p.w0 63 51)

/-- A packet put before a die's synchronisation unit. -/
def toBridge (s : State) (d : Die) (p : SigPacket) (id : XferId) : State :=
  let x := s.die d
  s.setDie d { x with bridge := x.bridge ++ [⟨p, id⟩] }

/-- The module's ring number in the braid (R416). -/
def State.ringId (s : State) : Nat := s.fld .circAdmit F.circAdmit_RING_ID

/-- A signal packet of a die sent to a position of a ring (R288, R357, R373, R405); its head's address is that of the
last packet of its transfer, or the window's REMOTE_BASE, which names the receiving die (R358). -/
def sendSig (s : State) (d : Die) (route ring pos win addr : Nat) (p : SigPacket) (xfer : Nat) : State :=
  { s with remoteOut := s.remoteOut ++ [{ RemotePkt.blank .sig with
      route := route, win := win, srcRing := s.ringId, srcPos := s.position, srcDie := d.val
      tgtRing := ring, tgtPos := pos, xfer := xfer, op := 4, len := 32, addr := addr, packet := some p }] }

/-- Whether a scalar signal may go through a window: it is OPEN and its PERM has the signal bit (R299, R360). -/
def windowSignals (s : State) (w : Nat) : Bool :=
  if h : w < 64 then
    s.fld (.dmaRwinA ⟨w, h⟩) F.dmaRwinA_STATE == 2 && s.fld (.dmaRwinA ⟨w, h⟩) F.dmaRwinA_PERM % 2 == 1
  else false

/-- Whether a queued signal may leave, on a later beat than it was issued: the combining buffer is empty (R212) and its
fence is clear (R353). -/
def signalClear (s : State) (d : Die) (q : CoreId) (e : SigEntry) : Bool :=
  decide (e.beat < s.beat d) && (s.core d q).combine.isEmpty && writesFenced s d q e.slot e.stamp

/-- The place of a queued signal that may leave; no earlier signal of its context is queued (R353). -/
def readySignal (s : State) (d : Die) (q : CoreId) : Option (Nat × SigEntry) :=
  let l := (s.core d q).sigQ
  (l.zipIdx.find? (fun p => signalClear s d q p.1 && !(l.take p.2).any (fun e => e.slot = p.1.slot))).map (fun p => (p.2, p.1))

/-- A signal leaves its queue by its scope (R353, R360). -/
def departSignal (s : State) (d : Die) (q : CoreId) (e : SigEntry) : State :=
  match e.scope with
  | 0 => ctrAdd s d e.phys e.inc
  | 1 => toBridge s (1 - d) (sigPacket 0 e.phys e.inc 0) ⟨0, 64 * d.val + 63, 0⟩
  | _ =>
    if windowSignals s e.win then
      let a : Reg := .dmaRwinA ⟨e.win % 64, Nat.mod_lt _ (by decide)⟩
      sendSig s d (s.fld a F.dmaRwinA_ROUTE) (s.fld a F.dmaRwinA_TARGET_RING) (s.fld a F.dmaRwinA_TARGET_POS) e.win
        (bitsOf (s.reg (.dmaRwinB ⟨e.win % 64, Nat.mod_lt _ (by decide)⟩)) 47 0) (sigPacket 0 e.phys e.inc 0) 0
    else s.raise { Report.plain .windowRefused d.val q.val .sync 0 with ctx := ctxRef d q e.slot }

/-- SIGNAL_DEPART (R353). -/
def signalDepart (d : Die) (q : CoreId) (s : State) : State :=
  match readySignal s d q with
  | none => s
  | some (i, e) =>
    let k := s.core d q
    departSignal (s.setCore d q { k with sigQ := k.sigQ.eraseIdx i }) d q e

/-- SIGNAL_DEPART (R353). -/
def execSignalDepart (d : Die) (q : CoreId) (s : State) : Res := .next (signalDepart d q s)

/-- A signal applied at its counter; a misuse at its target is discarded with the fault (R356, R358). -/
def applySignal (s : State) (d : Die) (p : SigPacket) : State :=
  let phys := bitsOf p.w0 63 51
  if signalable s d phys && decide (bitsOf p.w0 31 0 ≠ 0) then ctrAdd s d phys (bitsOf p.w0 31 0)
  else syncMisuse s d phys none 0

/-- The first packet before a die's synchronisation unit that a test admits, and the state without it. -/
def takeBridge (s : State) (d : Die) (f : SigPacket → Bool) : Option (HeldSig × State) :=
  let x := s.die d
  match x.bridge.findIdx? (fun h => f h.packet) with
  | none => none
  | some i => (x.bridge[i]?).map (fun h => (h, s.setDie d { x with bridge := x.bridge.eraseIdx i }))

/-- SIGNAL_PACKET: a packet is checked against its complements, then applied at once or held for its data
packets (R357 to R359). A barrier's packet for a counter that is none of a barrier's is a misuse (R356, R370; log entry
59). -/
def signalPacket (d : Die) (s : State) : State :=
  match takeBridge s d (fun p => !p.ok || p.kind == 0 || p.kind == 3 || p.stray) with
  | none => s
  | some (h, s) =>
    let x := s.die d
    if !h.packet.ok || h.packet.kind == 3 then syncFault s d 5 (bitsOf h.packet.w0 63 51) .sigBad none 0
    else if h.packet.stray then syncMisuse s d (bitsOf h.packet.w0 63 51) none 0
    else if bitsOf h.packet.w1 47 0 ≤ x.xferPkts.at_ 0 h.xfer then
      applySignal (s.setDie d { x with xferPkts := x.xferPkts.drop_ h.xfer }) d h.packet
    else
      s.setDie d { x with heldSigs := x.heldSigs ++ [h] }

/-- SIGNAL_PACKET (R357). -/
def execSignalPacket (d : Die) (s : State) : Res := .next (signalPacket d s)

/-- FENCED_SIGNAL_APPLY: the data packets of a held signal's transfer have been written (R358). -/
def fencedApply (d : Die) (i : Nat) (s : State) : State :=
  let x := s.die d
  match x.heldSigs[i]? with
  | none => s
  | some h =>
    if bitsOf h.packet.w1 47 0 ≤ x.xferPkts.at_ 0 h.xfer then
      applySignal (s.setDie d { x with heldSigs := x.heldSigs.eraseIdx i, xferPkts := x.xferPkts.drop_ h.xfer }) d h.packet
    else s

/-- FENCED_SIGNAL_APPLY (R358). -/
def execFencedSignalApply (d : Die) (i : Nat) (s : State) : Res := .next (fencedApply d i s)

/-- One data packet of a transfer written on a die (R358). -/
def countPacket (s : State) (d : Die) (id : XferId) (n : Nat) : State :=
  let x := s.die d
  s.setDie d { x with xferPkts := x.xferPkts.put id (x.xferPkts.at_ 0 id + n) }

/-- A WAIT that is a misuse ends at once with pD = 0 (R356, R377). -/
def waitMisuse (s : State) (d : Die) (q : CoreId) (x : SlotId) (vid phys pd : Nat) : State :=
  let s := syncMisuse s d phys (ctxRef d q x) q.val
  let c := s.ctx d q x
  advance (s.setCtx d q x { c.wrP pd false with last := 3, lastVid := vid }) d q x

/-- WAIT sA, sB, pD (R354, R364). -/
def execWait (d : Die) (q : CoreId) (sA sB : Fin 32) (pD : Fin 8) (s : State) : Res :=
  .next (withIssue s d q [sA, sB] fun x c s =>
    let w := c.rd sA
    let vid := bitsOf w 63 52
    match xlateW c vid with
    | none => stopXlate s d q x 0
    | some phys =>
      let mode := bitsOf w 51 50
      if mode ≥ 2 ∨ (mode = 1 ∧ ¬ (phys % 2 = 0 ∧ (creditPair s d (phys / 2)).1 = true)) then
        waitMisuse s d q x vid phys pD.val
      else issueWait s d q x (.counter vid phys mode (bitsOf w 47 0) (c.rd sB).toNat pD.val))

/-- What the signals that can still take effect on this beat add to a counter (R345): of the cores' queues, of the packets
that have come, and of the held packets whose data packets are written. -/
def dueUpdates (s : State) (d : Die) (phys : Nat) : Nat :=
  let x := s.die d
  let own := (List.finRange 32).map (fun q => (((s.core d q).sigQ.filter (fun e =>
    e.scope == 0 && e.phys == phys && signalClear s d q e)).map (fun e => e.inc)).sum)
  let come := ((x.bridge ++ x.heldSigs).filter (fun h => h.packet.ok && h.packet.kind == 0
    && bitsOf h.packet.w0 63 51 == phys && decide (bitsOf h.packet.w1 47 0 ≤ x.xferPkts.at_ 0 h.xfer))).map
      (fun h => bitsOf h.packet.w0 31 0)
  own.sum + come.sum

/-- Whether a counter wait's condition holds once the updates still due on this beat are counted (R345). -/
def counterWillHold (s : State) (d : Die) (phys mode value : Nat) : Bool :=
  counterHolds s d phys mode (value - dueUpdates s d phys)

/-- WAIT_TIMEOUT: the replica reaches TIMEOUT while the condition does not hold, the beat's updates counted first (R345,
R354). -/
def waitTimeout (d : Die) (q : CoreId) (x : SlotId) (s : State) : State :=
  let c := s.ctx d q x
  match c.st, c.waiting with
  | .wait, some (.counter vid phys mode value timeout pd) =>
    if !counterWillHold s d phys mode value && !c.stopReq && decide (timeout ≠ 0) && decide (timeout ≤ s.time d) then
      finish (s.setCtx d q x { c.wrP pd false with st := .ready, waiting := none, last := 2, lastVid := vid }) d q x
    else s
  | _, _ => s

/-- WAIT_TIMEOUT (R354). -/
def execWaitTimeout (d : Die) (q : CoreId) (x : SlotId) (s : State) : Res := .next (waitTimeout d q x s)

/-- CONSUME judged against its pair (R362 to R364). -/
def consume (s : State) (d : Die) (phys inc : Nat) (ctx : Option CtxRef) (unit : Nat) : State :=
  let avail := counterValue s d phys - counterValue s d (phys + 1)
  if inc ≤ avail then ctrAdd s d (phys + 1) inc
  else if (creditPair s d (phys / 2)).2 then
    let r := ctrReg d (phys + 1)
    let s := s.setReg r (putBits (putBits (s.reg r) 47 0 (counterValue s d phys)) 62 62 1)
    s.addFld (.syncStatus d) F.syncStatus_UNDER 1
  else syncFault s d 4 phys .crdUnder ctx unit

/-- CONSUME sA: it is judged at the end of its beat (R345, R362, R363). -/
def execConsume (d : Die) (q : CoreId) (sA : Fin 32) (s : State) : Res :=
  .next (withIssue s d q [sA] fun x c s =>
    let w := c.rd sA
    match xlateW c (bitsOf w 63 52) with
    | none => stopXlate s d q x 0
    | some phys =>
      if bitsOf w 31 0 = 0 ∨ bitsOf w 51 50 ≠ 0 ∨ 8064 ≤ phys
          ∨ ¬ (phys % 2 = 0 ∧ (creditPair s d (phys / 2)).1 = true) then
        advance (syncMisuse s d phys (ctxRef d q x) q.val) d q x
      else
        let y := s.die d
        advance (s.setDie d { y with consumes := y.consumes ++ [⟨q, x, phys, bitsOf w 31 0⟩] }) d q x)

/-- Step 2 of a beat: its consumes are judged in ascending order of core (R345, R363). -/
def judgeConsumes (s : State) (d : Die) : State :=
  (byCore (s.die d).consumes).foldl (fun s e => consume s d e.phys e.inc (ctxRef d e.core e.slot) e.core.val)
    (s.setDie d { s.die d with consumes := [] })

/-- CREAD sD, sA: the counter is read after the beat's updates and consumes (R345, R355). -/
def execCread (d : Die) (q : CoreId) (sD sA : Fin 32) (s : State) : Res :=
  .next (withIssue s d q [sA] fun x c s =>
    match xlateW c (bitsOf (c.rd sA) 63 52) with
    | none => stopXlate s d q x 0
    | some phys =>
      let y := s.die d
      advance (s.setDie d { y with reads := y.reads ++ [⟨q, x, sD, phys⟩] }) d q x)

/-- The reads of a beat (R345, R355). -/
def takeReads (s : State) (d : Die) : State :=
  (s.die d).reads.foldl (fun s e => s.setCtx d e.core e.slot ((s.ctx d e.core e.slot).wr e.rd (s.reg (ctrReg d e.phys))))
    (s.setDie d { s.die d with reads := [] })

/-! ### Barriers (R365 to R376) -/

/-- BARRIVE sA (R370). -/
def execBarrive (d : Die) (q : CoreId) (sA : Fin 32) (s : State) : Res :=
  .next (withIssue s d q [sA] fun x c s =>
    match xlateS c (bitsOf (c.rd sA) 63 52) with
    | none => stopXlate s d q x 0
    | some phys =>
      if phys < 8064 ∨ 8128 ≤ phys then advance (syncMisuse s d phys (ctxRef d q x) q.val) d q x
      else
        let y := s.die d
        advance (s.setDie d { y with barArr := y.barArr ++ [⟨q, x, phys - 8064, s.nextStamp d, s.beat d, false⟩] }) d q x)

/-- Barrier object b's first register on a die. -/
def barA (d : Die) (b : Fin 64) : Reg := .syncBarA d b
/-- Barrier object b's second register on a die. -/
def barB (d : Die) (b : Fin 64) : Reg := .syncBarB d b

/-- LEVEL of an object on a die (R366). -/
def barLevel (s : State) (d : Die) (b : Fin 64) : Nat := s.fld (barB d b) F.syncBarB_LEVEL
/-- STATE of an object on a die (R369). -/
def barState (s : State) (d : Die) (b : Fin 64) : Nat := s.fld (barB d b) F.syncBarB_STATE

/-- A barrier misuse (R371): the arrival is ignored. -/
def barMisuse (s : State) (d : Die) (b : Fin 64) : State :=
  syncFault (s.addFld (.syncStatus d) F.syncStatus_MISUSE 1) d 2 (8064 + b.val) .barMisuse none 0

/-- The release of an object applied on a die (R372): child bits cleared, ARMED, the release count plus 1. -/
def releaseDie (s : State) (d : Die) (b : Fin 64) : State :=
  let s := s.setFld (barA d b) F.syncBarA_ARRIVED 0
  let s := s.setFld (barB d b) F.syncBarB_STATE 1
  ctrAdd s d (8064 + b.val) 1

/-- The child field of an arrival or release packet (R373): position, die and segment. -/
def childInc (s : State) (d : Nat) : Nat := s.position % 512 + d * 512 + s.position / 16 % 32 * 1024

/-- The end of an update step (R83): it counts unless it is damaged. -/
def endStep (s : State) : State :=
  let s := if s.fld .circUpdate F.circUpdate_DAMAGED = 1 then s
    else s.setFld .circUpdate F.circUpdate_STEP (s.fld .circUpdate F.circUpdate_STEP + 1)
  { s with circ := { s.circ with wave := 0, fwdOver := false, released := false, skipped := false, issuing := false } }

/-- The backward wave is due once the forward pass has retired here and the barrier of the step has been released
(R70). -/
def backwardDue (s : State) : State :=
  if s.circ.wave = 1 ∧ s.circ.fwdOver ∧ s.circ.released then
    { s with circ := { s.circ with wave := 2, skipped := false } }
  else s

/-- A ring-level release in update mode (R70, R73): in the forward wave it is the barrier of R70, in the backward wave
under STRICT the owners' one, which ends the step (log entry 24). -/
def waveReleased (s : State) (b : Fin 64) : State :=
  if s.fld .circRingConf F.circRingConf_MODE = 1 ∧ 3 ≤ barLevel s 0 b then
    match s.circ.wave with
    | 1 => backwardDue { s with circ := { s.circ with released := true } }
    | 3 => if s.fld .circUpdate F.circUpdate_SYNC = 0 then endStep s else s
    | _ => s
  else s

/-- The release of the module's node: both taking dies are released; die 1 by a packet on the bridge (R373). -/
def releaseModule (s : State) (b : Fin 64) : State :=
  let m := s.fld (barB 0 b) F.syncBarB_DMASK
  let s := waveReleased (s.setFld (barB 0 b) F.syncBarB_DARR 0) b
  let s := if m % 2 = 1 then releaseDie s 0 b else s.setFld (barB 0 b) F.syncBarB_STATE 1
  if m / 2 % 2 = 1 then toBridge s 1 (sigPacket 2 (8064 + b.val) (childInc s 0) 0) ⟨0, 0, 0⟩ else s

/-- The positions of a segment that a 16-bit mask names. -/
def segPositions (seg mask : Nat) : List Nat :=
  (List.range 16).filterMap (fun i => if mask / 2 ^ i % 2 = 1 then some (16 * seg + i) else none)

/-- The release passed to the members of the segment node held here, which is ARMED again (R372). -/
def releaseSegment (s : State) (b : Fin 64) : State :=
  let s := (s.setFld (.syncBarD b) F.syncBarD_SEG_ARR 0).setFld (barB 0 b) F.syncBarB_STATE 1
  (segPositions (s.position / 16) (s.fld (.syncBarD b) F.syncBarD_SEG_MASK)).foldl (fun s p =>
    if p = s.position then releaseModule s b
    else sendSig s 0 0 s.ringId p 64 0 (sigPacket 2 (8064 + b.val) (childInc s 0) 0) 0) s

/-- The release passed to the segments of the ring node held here (R372): to each segment's host. -/
def releaseRing (s : State) (b : Fin 64) : State :=
  let s := s.setFld (.syncBarC b) F.syncBarC_RING_ARR 0
  (List.range 32).foldl (fun s g =>
    if s.fld (.syncBarC b) F.syncBarC_RING_MASK / 2 ^ g % 2 = 1 then
      if g = s.position / 16 ∧ s.fld (barB 0 b) F.syncBarB_SEG_HOST = s.position then releaseSegment s b
      else sendSig s 0 0 s.ringId (16 * g + s.fld (barB 0 b) F.syncBarB_SEG_HOST % 16) 64 0 (sigPacket 2 (8064 + b.val) (childInc s 0) 0) 0
    else s) s

/-- Segment g arrives at the ring node held here (R371, R372). -/
def ringArrive (s : State) (b : Fin 64) (g : Nat) : State :=
  if s.fld (.syncBarC b) F.syncBarC_RING_ARR / 2 ^ g % 2 = 1 ∨ s.fld (.syncBarC b) F.syncBarC_RING_MASK / 2 ^ g % 2 = 0 then
    barMisuse s 0 b
  else
    let s := s.setFld (.syncBarC b) F.syncBarC_RING_ARR (s.fld (.syncBarC b) F.syncBarC_RING_ARR ||| 2 ^ g)
    if s.fld (.syncBarC b) F.syncBarC_RING_ARR = s.fld (.syncBarC b) F.syncBarC_RING_MASK then releaseRing s b else s

/-- The segment node here is complete: the root releases, any other sends its arrival up (R372); STATE shows UP where the
ring node is held elsewhere (R369). -/
def segComplete (s : State) (b : Fin 64) : State :=
  if barLevel s 0 b = 3 then releaseSegment s b
  else
    let host := s.fld (barB 0 b) F.syncBarB_RING_HOST
    let s := if host = s.position then s else s.setFld (barB 0 b) F.syncBarB_STATE 2
    if host = s.position then ringArrive s b (s.position / 16)
    else sendSig s 0 0 s.ringId host 64 0 (sigPacket 1 (8064 + b.val) (childInc s 0) 0) 0

/-- Position p arrives at the segment node held here (R371, R372). -/
def segArrive (s : State) (b : Fin 64) (p : Nat) : State :=
  let i := p % 16
  if s.fld (.syncBarD b) F.syncBarD_SEG_ARR / 2 ^ i % 2 = 1 ∨ s.fld (.syncBarD b) F.syncBarD_SEG_MASK / 2 ^ i % 2 = 0 then
    barMisuse s 0 b
  else
    let s := s.setFld (.syncBarD b) F.syncBarD_SEG_ARR (s.fld (.syncBarD b) F.syncBarD_SEG_ARR ||| 2 ^ i)
    if s.fld (.syncBarD b) F.syncBarD_SEG_ARR = s.fld (.syncBarD b) F.syncBarD_SEG_MASK then segComplete s b else s

/-- The module node on die 0 is complete (R372); STATE shows UP where no higher node of the object is held here (R369). -/
def moduleComplete (s : State) (b : Fin 64) : State :=
  if barLevel s 0 b = 2 then releaseModule s b
  else
    let host := s.fld (barB 0 b) F.syncBarB_SEG_HOST
    let s := if host = s.position ∨ (barLevel s 0 b = 4 ∧ s.fld (barB 0 b) F.syncBarB_RING_HOST = s.position) then s
      else s.setFld (barB 0 b) F.syncBarB_STATE 2
    if host = s.position then segArrive s b s.position
    else sendSig s 0 0 s.ringId host 64 0 (sigPacket 1 (8064 + b.val) (childInc s 0) 0) 0

/-- Die d arrives at the module node on die 0 (R371, R372). -/
def moduleArrive (s : State) (b : Fin 64) (d : Nat) : State :=
  let darr := s.fld (barB 0 b) F.syncBarB_DARR
  let mask := s.fld (barB 0 b) F.syncBarB_DMASK
  if barState s 0 b = 3 then s
  else if barState s 0 b = 0 ∨ darr / 2 ^ d % 2 = 1 ∨ mask / 2 ^ d % 2 = 0 then barMisuse s 0 b
  else
    let s := s.setFld (barB 0 b) F.syncBarB_DARR (darr ||| 2 ^ d)
    if s.fld (barB 0 b) F.syncBarB_DARR = mask then moduleComplete s b else s

/-- Beats from the last arrival of a die to what follows from it, by LEVEL (R373): the release of a cluster, the counter's
update of a die, the arrival sent upward. -/
def barDelay (level : Nat) : Nat :=
  match level with | 0 => 1 | 1 => 4 | _ => 2

/-- The last arrival of a die has taken effect on this beat (R373). -/
def dieComplete (s : State) (d : Die) (b : Fin 64) : State :=
  let x := s.die d
  s.setDie d { x with barDue := x.barDue ++ [⟨s.beat d + barDelay (barLevel s d b), b⟩] }

/-- A die's own part of an object, complete for R373's beats: it releases, or sends its arrival upward (R372). -/
def dieUpward (s : State) (d : Die) (b : Fin 64) : State :=
  if barState s d b ≠ 1 then s
  else if barLevel s d b ≤ 1 then releaseDie s d b
  else if d = 0 then moduleArrive s b 0
  else
    let s := s.setFld (barB d b) F.syncBarB_STATE 2
    toBridge s 0 (sigPacket 1 (8064 + b.val) (childInc s 1) 0) ⟨0, 64, 0⟩

/-- The objects of a die whose beat of R373 has come. -/
def barsDue (s : State) (d : Die) : State :=
  let x := s.die d
  let (now, later) := x.barDue.partition (fun e => decide (e.due ≤ s.beat d))
  now.foldl (fun s e => dieUpward s d e.obj) (s.setDie d { x with barDue := later })

/-- What an object still had to do is dropped: it is armed anew, disarmed or broken. -/
def dropDue (s : State) (d : Die) (b : Fin 64) : State :=
  let x := s.die d
  s.setDie d { x with barDue := x.barDue.filter (fun e => e.obj ≠ b) }

/-- A core's arrival at an object of its die (R369, R371). -/
def barArrive (s : State) (d : Die) (b : Fin 64) (q : CoreId) (x : SlotId) : State :=
  let a := barA d b
  let arrived := s.fld a F.syncBarA_ARRIVED
  let mask := s.fld a F.syncBarA_CMASK
  if barState s d b = 0 then syncMisuse s d (8064 + b.val) (ctxRef d q x) q.val
  else if barState s d b = 3 then s
  else if arrived / 2 ^ q.val % 2 = 1 ∨ mask / 2 ^ q.val % 2 = 0 then barMisuse s d b
  else
    let s := s.setFld a F.syncBarA_ARRIVED (arrived ||| 2 ^ q.val)
    if s.fld a F.syncBarA_ARRIVED = mask then dieComplete s d b else s

/-- BARRIER_ARRIVAL: pending arrival i of a die takes effect (R370, R371). -/
def barrierArrival (d : Die) (i : Nat) (s : State) : State :=
  match (s.die d).barArr[i]? with
  | none => s
  | some a =>
    if arrivalClear s d a then
      let x := s.die d
      let s := s.setDie d { x with barArr := x.barArr.eraseIdx i }
      barArrive s d ⟨a.target % 64, Nat.mod_lt _ (by decide)⟩ a.core a.slot
    else s

/-- BARRIER_ARRIVAL (R371). -/
def execBarrierArrival (d : Die) (i : Nat) (s : State) : Res := .next (barrierArrival d i s)

/-- The object that a packet of KIND 01 or 10 names. -/
def packetObject (p : SigPacket) : Fin 64 := ⟨(bitsOf p.w0 63 51 - 8064) % 64, Nat.mod_lt _ (by decide)⟩

/-- BARRIER_ARRIVAL_PACKET: an arrival from the other die or another module reaches its parent node on die 0
(R373). -/
def barrierArrivalPacket (s : State) : State :=
  match takeBridge s 0 (fun p => p.ok && p.kind == 1 && !p.stray) with
  | none => s
  | some (h, s) =>
    let b := packetObject h.packet
    let pos := bitsOf h.packet.w0 8 0
    if barState s 0 b = 3 then s
    else if barState s 0 b = 0 then barMisuse s 0 b
    else if h.xfer.kind = 0 then moduleArrive s b (bitsOf h.packet.w0 9 9)
    else if barLevel s 0 b = 4 ∧ s.fld (barB 0 b) F.syncBarB_RING_HOST = s.position
        ∧ (pos / 16 ≠ s.position / 16 ∨ s.fld (barB 0 b) F.syncBarB_SEG_HOST ≠ s.position) then
      ringArrive s b (bitsOf h.packet.w0 14 10)
    else segArrive s b pos

/-- BARRIER_ARRIVAL_PACKET (R373). -/
def execBarrierArrivalPacket (s : State) : Res := .next (barrierArrivalPacket s)

/-- BARRIER_RELEASE_PACKET: a release reaches a die and passes down (R372 to R374). -/
def barrierReleasePacket (d : Die) (s : State) : State :=
  match takeBridge s d (fun p => p.ok && p.kind == 2 && !p.stray) with
  | none => s
  | some (h, s) =>
    let b := packetObject h.packet
    if barState s d b = 3 ∨ barState s d b = 0 then s
    else if d = 1 then releaseDie s 1 b
    else if barLevel s 0 b = 4 ∧ s.fld (barB 0 b) F.syncBarB_SEG_HOST = s.position then releaseSegment s b
    else releaseModule s b

/-- BARRIER_RELEASE_PACKET (R373). -/
def execBarrierReleasePacket (d : Die) (s : State) : Res := .next (barrierReleasePacket d s)

/-- Whether ARM = 1 with these words is accepted (R368). -/
def armOk (s : State) (d : Die) (a b : Word) : Bool :=
  let level := bitsOf b 60 58
  let cmask := bitsOf a 63 32
  let dmask := bitsOf b 57 56
  let clusters := ((List.range 8).filter (fun c => cmask / 2 ^ (4 * c) % 16 ≠ 0)).length
  !(decide (level ≥ 5)
    || (decide (cmask = 0) && (decide (level ≤ 1) || d == 1 || decide (dmask % 2 = 1)))
    || (decide (level = 0) && decide (clusters > 1))
    || (d == 0 && decide (level ≥ 2) && (decide (dmask = 0) || (decide (dmask % 2 = 1) != decide (cmask ≠ 0))))
    || (decide (level ≥ 3) && (s.fld .circArc F.circArc_VALID == 0
          || (d == 0 && (!inSpan s (bitsOf b 48 40) || !inSpan s (bitsOf b 39 31))))))

/-- An accepted arm (R368): every arrival mask cleared, ARMED. -/
def armObject (s : State) (d : Die) (b : Fin 64) (w : Word) : State :=
  let s := (dropDue s d b).setReg (barB d b) (putBits (putBits w 63 61 1) 55 54 0)
  let s := s.setFld (barA d b) F.syncBarA_ARRIVED 0
  if d = 0 then (s.setFld (.syncBarC b) F.syncBarC_RING_ARR 0).setFld (.syncBarD b) F.syncBarD_SEG_ARR 0 else s

/-- DISARM: the object is OFF and its masks are clear (R387). -/
def disarmObject (s : State) (d : Die) (b : Fin 64) : State :=
  let s := ((dropDue s d b).setReg (barA d b) 0).setReg (barB d b) 0
  if d = 0 then (s.setReg (.syncBarC b) 0).setReg (.syncBarD b) 0 else s

/-- Every object at LEVEL 011 or 100 of the arc moves to BROKEN (R376). -/
def breakBarriers (s : State) : State :=
  (List.finRange 2).foldl (fun s d => (List.finRange 64).foldl (fun s b =>
    if (barLevel s d b = 3 ∨ barLevel s d b = 4) ∧ barState s d b ≠ 3 then
      syncFault ((dropDue s d b).setFld (barB d b) F.syncBarB_STATE 3) d 6 (8064 + b.val) .barBroken none 0
    else s) s) s

/-- SYNC.CTRL.CLEAR (R379): counters zero, objects OFF, credit maps clear. -/
def syncClear (s : State) (d : Die) : State :=
  let s := s.setDie d { s.die d with barDue := [] }
  { s with regs := s.regs.filter (fun p => match p.1 with
      | .syncCtr d' _ => d' ≠ d
      | .syncCrdMap d' _ => d' ≠ d
      | .syncCrdFb d' _ => d' ≠ d
      | .syncBarA d' _ => d' ≠ d
      | .syncBarB d' _ => d' ≠ d
      | .syncBarC _ => d ≠ 0
      | .syncBarD _ => d ≠ 0
      | _ => true) }

/-! ### The end of a beat (R345) -/

/-- Every signal of a core's queue that can leave on this beat leaves (R353). -/
def departAll (d : Die) (q : CoreId) : Nat → State → State
  | 0, s => s
  | n + 1, s => departAll d q n (signalDepart d q s)

/-- Every packet before a die's synchronisation unit is taken (R358, R373). -/
def takePackets (d : Die) : Nat → State → State
  | 0, s => s
  | n + 1, s =>
    let s := barrierReleasePacket d (signalPacket d s)
    takePackets d n (if d = 0 then barrierArrivalPacket s else s)

/-- The held signals whose data packets have been written are applied (R358). -/
def applyHeld (s : State) (d : Die) : State :=
  (List.range (s.die d).heldSigs.length).foldr (fun i s => fencedApply d i s) s

/-- The arrivals at barriers whose conditions hold take effect (R370). -/
def arriveAll (s : State) (d : Die) : State :=
  (List.range (s.die d).barArr.length).foldr (fun i s => barrierArrival d i s) s

/-- The waits for a counter, a beat, a time or a queue's end whose conditions hold end, and then those past their TIMEOUT
(R308, R345). -/
def endWaits (s : State) (d : Die) : State :=
  (s.ctxs.filter (fun e => e.1.1 = d)).foldl (fun s e =>
    let q := e.1.2.1
    let x := e.1.2.2
    match e.2.waiting with
    | some w => if w.completes then waitTimeout d q x (contextReady d q x s) else s
    | none => s) s

/-- What a beat's synchronisation does by its end, in the order of R345: updates, consumes, reads, waits, timeouts. -/
def syncBeat (s : State) (d : Die) : State :=
  let s := (s.cores.filter (fun e => e.1.1 = d)).foldl (fun s e => departAll d e.1.2 (s.core d e.1.2).sigQ.length s) s
  let s := arriveAll (applyHeld (takePackets d (s.die d).bridge.length s) d) d
  endWaits (takeReads (judgeConsumes s d) d) d

end Sys2Proof.Machine
end

