-- ==== Sys2Proof/Machine/Tier.lean ====
section
/-! DEFINITION. Accesses to memory outside a die's own stores: which addresses may be accessed (R10 to R14, R453,
R454, R457, R464), HBM3E reads through the stack's code (R446), and writes through the windows that share storage (R12). -/

namespace Sys2Proof.Machine

/-- The status and error registers of stack n (R466). -/
def stackStatus (n : Nat) : Reg := .hbmStackStatus ⟨n / 4 % 2, Nat.mod_lt _ (by decide)⟩ ⟨n % 4, Nat.mod_lt _ (by decide)⟩
/-- The error register of stack n. -/
def stackErr (n : Nat) : Reg := .hbmStackErr ⟨n / 4 % 2, Nat.mod_lt _ (by decide)⟩ ⟨n % 4, Nat.mod_lt _ (by decide)⟩
/-- STATE of stack n (R453). -/
def stackState (s : State) (n : Nat) : Nat := s.fld (stackStatus n) F.hbmStackStatus_STATE

/-- The status register of LPDDR5X channel k (R472). -/
def chStatus (k : Nat) : Reg := .lpdChStatus ⟨k % 16, Nat.mod_lt _ (by decide)⟩

/-- The package of an LPDDR5X address (R89). -/
def packageOf (a : Nat) : Nat := (a - 0x8000000000) / 0x800000000

/-- The channel of an LPDDR5X address (R448). -/
def channelOf (a : Nat) : Nat :=
  let o := (a - 0x8000000000) % 0x800000000
  2 * packageOf a + (o / 256 % 2 + o / 65536 % 2) % 2

/-- A region of LPDDR5X (R471): first address and one past its last. -/
def lpdRegion (s : State) (r : Reg) : Nat × Nat :=
  let b := bitsOf (s.reg r) 63 36 * 1048576
  (b, b + bitsOf (s.reg r) 35 17 * 1048576)

/-- The populated range of addresses that an access at a may not leave (R10 to R14): first address and one past the
last; none where a is reserved now (R453, R454, R457). Remote windows are judged by their opened size (R299). -/
def rangeOf (s : State) (a : Nat) : Option (Nat × Nat) :=
  match placeOf a with
  | .hbm n => if stackState s n = 2 then some (0, 0x4800000000) else none
  | .lpd => if s.fld (chStatus (2 * packageOf a)) F.lpdChStatus_STATE = 2
      ∧ s.fld (chStatus (2 * packageOf a + 1)) F.lpdChStatus_STATE = 2 then some (0x8000000000, 0xC000000000) else none
  | .store _ st _ _ off => some (a - off, a - off + st.unitSize)
  | .remote slot off =>
    if h : slot < 64 then
      let r := s.reg (.dmaRwinA ⟨slot, h⟩)
      if bitsOf r 63 61 = 0 ∨ 2 ^ bitsOf r 54 50 ≤ off then none else some (a - off, a - off + 2 ^ bitsOf r 54 50)
    else none
  | _ => none

/-- Stacks and packages that n bytes from a cross are all in service. -/
def tierServes (s : State) (a n : Nat) : Bool :=
  match placeOf a with
  | .hbm k => (List.range ((a + n - 1) / 0x900000000 + 1 - k)).all (fun i => stackState s (k + i) = 2)
  | .lpd => (List.range ((a + n - 1 - 0x8000000000) / 0x800000000 + 1 - packageOf a)).all (fun i =>
      s.fld (chStatus (2 * (packageOf a + i))) F.lpdChStatus_STATE = 2
        && s.fld (chStatus (2 * (packageOf a + i) + 1)) F.lpdChStatus_STATE = 2)
  | _ => true

/-- Whether accesses in flight to n bytes from a still end normally (R454): a stack serves them while it is RETIRING. -/
def tierHolds (s : State) (a n : Nat) : Bool :=
  match placeOf a with
  | .hbm k => (List.range ((a + n - 1) / 0x900000000 + 1 - k)).all (fun i => stackState s (k + i) == 2 || stackState s (k + i) == 3)
  | _ => tierServes s a n

/-- Whether n bytes from a lie in one populated range (R13, R14). -/
def inRange (s : State) (a n : Nat) : Bool :=
  match rangeOf s a with
  | some (lo, hi) => decide (lo ≤ a ∧ a + n ≤ hi) && tierServes s a n
  | none => false

/-- Whether n bytes from a touch the BACK region, which only the hub writes (R464). -/
def inBack (s : State) (a n : Nat) : Bool :=
  let r := lpdRegion s .lpdBack
  decide (a < r.2 ∧ r.1 < a + n)

/-- The window of a store address (R12): 0 direct, 1 bit-set, 2 bit-clear, 3 accumulate. -/
def windowOf (a : Nat) : Nat := match placeOf a with | .store _ _ _ w _ => w | _ => 0

/-- The kind of a write at an address with an accumulate element type (R218, R219). -/
def writeKind (a etype : Nat) : AccKind :=
  match windowOf a with | 1 => .bitSet | 2 => .bitClear | 3 => .acc (etype == 2) | _ => .write

/-- Whether a step runs (R69, R74): at the first member from its forward wave to its end; another member whose forward
wave has not come cannot tell whether it has passed the first member, so that is a free value (log entry 24). -/
def stepRuns (s : State) : Bool :=
  decide (s.circ.wave ≠ 0) || (!isFirst s && Config.freeNat s.fresh % 2 == 1)

/-- A running step is marked damaged (R74): it runs again from its forward wave, and no gradient block of it that still
circulates is applied. -/
def damageStep (s : State) : State :=
  if updateMode s ∧ s.fld .circRingConf F.circRingConf_ENABLE = 1 then
    let s' := if s.circ.wave = 0 ∧ ¬ isFirst s then s.burn 1 else s
    if stepRuns s then
      { s'.setFld .circUpdate F.circUpdate_DAMAGED 1 with
        circ := { s'.circ with wave := 0, fwdOver := false, released := false, skipped := false, issuing := false, grads := [] } }
    else s'
  else s

/-- A stack in UP is retired (R452, R453, R456). -/
def retireStack (s : State) (n cause : Nat) : State :=
  if stackState s n = 2 then
    let s := (s.setFld (stackStatus n) F.hbmStackStatus_STATE 3).setFld (stackStatus n) F.hbmStackStatus_CAUSE cause
    damageStep { s with tier := { s.tier with retiring := s.tier.retiring.put n s.now } }
  else s

/-- A trigger of R452 that AUTO governs: with AUTO 0 it is only noted, with the fault of R454. -/
def triggerRetire (s : State) (n cause : Nat) : State :=
  let d : Die := ⟨n / 4 % 2, Nat.mod_lt _ (by decide)⟩
  if s.fld (.hbmRetireCtrl d) F.hbmRetireCtrl_AUTO = 1 then retireStack s n cause
  else if stackState s n = 2 ∧ s.fld (stackStatus n) F.hbmStackStatus_PENDING = 0 then
    (s.setFld (stackStatus n) F.hbmStackStatus_PENDING 1).raise (Report.plain .stackRetired d.val n .hbm 0)
  else s

/-- Both channels of a package move to LOST (R457). -/
def losePackage (s : State) (j : Nat) : State :=
  if s.fld (chStatus (2 * j)) F.lpdChStatus_STATE = 3 then s
  else
    let s := (s.setFld (chStatus (2 * j)) F.lpdChStatus_STATE 3).setFld (chStatus (2 * j + 1)) F.lpdChStatus_STATE 3
    s.raise (Report.plain .lpdLost 2 j .lpd 0)

/-- Uncorrectable events of one target (a stack, or 1000 + a channel) within the last second (R452, R457). -/
def noteEvent (s : State) (target : Nat) : State × Nat :=
  let recent := (s.tier.ueTimes.at_ [] target).filter (fun t => s.now ≤ t + 1000000000) ++ [s.now]
  ({ s with tier := { s.tier with ueTimes := s.tier.ueTimes.put target recent } }, recent.length)

/-- A link-ECC event of an LPDDR5X channel (R457, R472). -/
def linkEvent (s : State) (k : Nat) (ce : Bool) : State :=
  if ce then s.addFld (chStatus k) F.lpdChStatus_LINK_CE 1
  else
    let r := noteEvent (s.addFld (chStatus k) F.lpdChStatus_LINK_UE 1) (1000 + k)
    if 16 ≤ r.2 then losePackage r.1 (k / 2) else r.1

/-- The retrain target that serves an address (R445, R448): 32 n + c for pseudo-channel c of stack n, 1000 + k for
channel k; none elsewhere. -/
def retrainTarget (a : Nat) : Option Nat :=
  match placeOf a with
  | .hbm n => let o := a - n * 0x900000000
              some (32 * n + (o / 256 % 32 ^^^ o / 8192 % 32))
  | .lpd => some (1000 + channelOf a)
  | _ => none

/-- A request to the address waits for a retrain step to end (R451). -/
def stepBusy (s : State) (a : Nat) : Bool :=
  match retrainTarget a with | some t => s.tier.steps.contains t | none => false

/-- A request of the target that serves an address has ended (R450). -/
def noteRequest (s : State) (a : Nat) : State :=
  match retrainTarget a with
  | some t => { s with tier := { s.tier with lastBusy := s.tier.lastBusy.put t s.now } }
  | none => s

/-- Errors of an HBM3E stack counted at its controller, with the trigger of R452 (R446, R470). -/
def countStack (s : State) (n : Nat) (ce : Bool) : State :=
  if ce then s.addFld (stackErr n) F.hbmStackErr_CE 1
  else
    let r := noteEvent (s.addFld (stackErr n) F.hbmStackErr_UE 1) n
    let d : Die := ⟨n / 4 % 2, Nat.mod_lt _ (by decide)⟩
    if s.fld (.hbmRetireCtrl d) F.hbmRetireCtrl_UE_LIMIT ≤ r.2 then triggerRetire r.1 n 1 else r.1

/-- A read of the HBM3E word at w (R446): decoded as a weight-store word; its scrub or poison write-back is made
by the controller. -/
def readHbmWord (s : State) (n w : Nat) : State :=
  match s.latent.find w with
  | none => s
  | some u =>
    let o := eccOutcome .wst u (s.poisoned w)
    let clean := { leaveErrors s .wst u o w with latent := s.latent.drop_ w }
    match o with
    | .clean => clean
    | .poison => { s with latent := s.latent.drop_ w, poison := NatSet.add s.poison w }
    | .corrected _ _ => countStack clean n true
    | .uncorrectable | .badPair =>
      let s := (countStack s n false).raise (Report.plain .hbmUe (n / 4) n .hbm w)
      { s with latent := s.latent.drop_ w, poison := NatSet.add s.poison w }

/-- A read of n bytes anywhere in memory, through the protection of the place it lies in; the state after it. -/
def readAt (s : State) (a n : Nat) : State :=
  match placeOf a with
  | .hbm k => (List.range ((a % 32 + n + 31) / 32)).foldl (fun s i => readHbmWord s k (a / 32 * 32 + 32 * i)) s
  | .store _ _ _ _ _ => readStore s (directAddr a) n
  | _ => s

/-- The bytes a read of n bytes at a returns (R203): the windows that share storage show the direct one; a stack that has left
service gives zeros marked poisoned (R454). -/
def fetchAt (s : State) (a n : Nat) : List (Byte × Bool) :=
  if tierHolds s a n then s.peek (directAddr a) n else List.replicate n (0, true)

/-- The words of an HBM3E stack that a write covers in part are read first (R204, R446). -/
def readEnds (s : State) (a n : Nat) : State :=
  let s := if a % 32 ≠ 0 ∨ n < 32 then readAt s a 1 else s
  if (a + n) % 32 ≠ 0 ∧ a / 32 ≠ (a + n) / 32 then readAt s (a + n - 1) 1 else s

/-- A write of a kind at an address, through the window it names (R12, R204, R218 to R221, R227); dropped at a stack or
package that has left service (R454). -/
def writeAt (s : State) (a : Nat) (k : AccKind) (data : List (Byte × Bool)) : State :=
  if tierHolds s a data.length then
    match placeOf a with
    | .store _ _ _ _ _ => writeEffect s k (directAddr a) data
    | .hbm _ => (readEnds s a data.length).poke a (spread data)
    | _ => s.poke a data
  else s

end Sys2Proof.Machine
end

