-- ==== Sys2Proof/Machine/Desc.lean ====
section
/-! DEFINITION. DMA descriptors: their fields, their posting, and the checks of R278 (R275 to R280). -/

namespace Sys2Proof.Machine

/-! ### Fields (R276) -/

/-- Word i of a descriptor. -/
def Post.w (p : Post) (i : Nat) : Word := p.words.getD i 0
/-- OP. -/
def Post.op (p : Post) : Nat := bitsOf (p.w 0) 63 60
/-- ETYPE. -/
def Post.etype (p : Post) : Nat := bitsOf (p.w 0) 59 58
/-- FORM. -/
def Post.form (p : Post) : Nat := bitsOf (p.w 0) 57 56
/-- FENCE. -/
def Post.fence (p : Post) : Bool := bitsOf (p.w 0) 55 55 == 1
/-- SIG. -/
def Post.sig (p : Post) : Bool := bitsOf (p.w 0) 54 54 == 1
/-- Rows. -/
def Post.rows (p : Post) : Nat := bitsOf (p.w 0) 47 32 + 1
/-- LEN. -/
def Post.len (p : Post) : Nat := bitsOf (p.w 0) 31 0
/-- SRC_STRIDE. -/
def Post.srcStride (p : Post) : Nat := bitsOf (p.w 3) 63 32
/-- DST_STRIDE. -/
def Post.dstStride (p : Post) : Nat := bitsOf (p.w 3) 31 0
/-- SIG_SCOPE. -/
def Post.scope (p : Post) : Nat := bitsOf (p.w 5) 51 50
/-- SIG_WIN. -/
def Post.win (p : Post) : Fin 64 := ⟨bitsOf (p.w 5) 49 44 % 64, Nat.mod_lt _ (by decide)⟩
/-- SIG_INC. -/
def Post.inc (p : Post) : Nat := bitsOf (p.w 5) 31 0
/-- FIRST. -/
def Post.first (p : Post) : Nat := bitsOf (p.w 6) 63 40
/-- KIND of a PACK's header template. -/
def Post.kind (p : Post) : Nat := bitsOf (p.w 4) 21 18

/-- Bytes the source rows span; of BLOCKS, the first byte of the area (its blocks are judged one by one). -/
def Post.srcSpan (p : Post) : Nat :=
  match p.op with | 1 => 0 | 3 => 1 | _ => (p.rows - 1) * p.srcStride + p.len

/-- Bytes the destination spans (R277, R278). -/
def Post.dstSpan (p : Post) : Nat :=
  match p.op with
  | 2 => p.rows * storedSize p.len
  | 3 => p.len
  | _ => (p.rows - 1) * p.dstStride + p.len

/-! ### Posting (R212, R275) -/

/-- A post whose descriptor has not been read. -/
def Post.unread (a : Nat) (c : Option Ctx) (stamp : Nat) : Post :=
  { addr := a, ready := false, ctx := c, words := [], poison := false, ok := false, src := 0, dst := 0, arg := 0, sigPhys := 0,
    stamp := stamp }

/-- A descriptor as read, its addresses and SIG_VID translated in the posting context as that stood at the post; the
privileged view uses module addresses and physical counters (R275, R281, R334, R348). -/
def Post.fill (p : Post) (data : List (Byte × Bool)) : Post :=
  let ws : List Word := (List.range 8).map (fun i => BitVec.ofNat 64 (ofLe (((data.drop (8 * i)).take 8).map Prod.fst)))
  let p := { p with ready := true, ok := true, words := ws, poison := data.any Prod.snd }
  let p := { p with src := bitsOf (p.w 1) 47 0, dst := bitsOf (p.w 2) 47 0, arg := bitsOf (p.w 4) 47 0
                    sigPhys := bitsOf (p.w 5) 63 52 }
  match p.ctx with
  | none => p
  | some c =>
    let src := if p.op = 1 ∨ p.len = 0 then some p.src else c.translate p.src p.srcSpan .r
    let dst := if p.len = 0 then some p.dst else c.translate p.dst p.dstSpan
      (if p.etype ≠ 0 ∨ (c.translate p.dst p.dstSpan .a).any (fun m => windowOf m ≠ 0) then .a else .w)
    let arg := if p.op = 3 ∧ p.len ≠ 0 then c.translate p.arg 1 .r else some p.arg
    let sig := if p.sig then xlateS c (bitsOf (p.w 5) 63 52) else some 0
    { p with ok := src.isSome && dst.isSome && arg.isSome && sig.isSome
             src := src.getD 0, dst := dst.getD 0, arg := arg.getD 0, sigPhys := sig.getD 0 }

/-- Whether an address may hold a descriptor of a cluster's DMA: 64-byte aligned, in the cluster's activation slice, its
Electrum region included (R11, R275). -/
def postAddrOk (d : Die) (c : Cluster) (a : Nat) : Bool :=
  match placeOf a with
  | .store d' .ast u _ _ => decide (d' = d ∧ u = c.val ∧ a % 64 = 0)
  | _ => false

/-- An access put before a die's stores (R201), with the die's next stamp. -/
def pushAccess (s : State) (d : Die) (k : AccKind) (a n : Nat) (data : List (Byte × Bool)) (dest : AccDest) : State :=
  let x := s.die d
  (s.setDie d { x with accs := x.accs ++ [{ stamp := s.nextStamp d, kind := k, addr := directAddr a, size := n, data := data
                                            dest := dest, portB := false, issue := s.beat d, ret := 0, served := false }] }).bump d

/-- A post put in a cluster's queue; the DMA is to read its descriptor in class 5 slots (R275). -/
def pushPost (s : State) (d : Die) (c : Cluster) (a : Nat) (q : Option CoreId) (x : Option Ctx) : State :=
  let m := s.dma d c
  let s := s.setDma d c { m with queue := m.queue ++ [Post.unread a x (s.nextStamp d)] }
  pushAccess s d .read a 64 [] (.post d c q)

/-- The cluster of a core. -/
def clusterOf (q : CoreId) : Cluster := ⟨q.val / 4, by omega⟩

/-- DPOST sA (R275): the writes that the core's combining buffer then holds take effect before the descriptor is read
(R212). -/
def execDpost (d : Die) (q : CoreId) (sA : Fin 32) (s : State) : Res :=
  .next (withIssue s d q [sA] fun x c s =>
    let a := bitsOf (c.rd sA) 47 0
    match c.translate a 64 .r with
    | none => stopXlate s d q x a
    | some m =>
      if !postAddrOk d (clusterOf q) m then feedReject s d q x m
      else if queueHasRoom s d q 4 then advance (pushPost s d (clusterOf q) (directAddr m) (some q) (some c)) d q x
      else parkFull s d q x 4 0)

/-- A post through DMA.POST_c (R297); none is a rejection. -/
def postPrivileged (d : Die) (c : Cluster) (a : Nat) (s : State) : Option State :=
  if postAddrOk d c a ∧ (s.dma d c).queue.length < 32 then some (pushPost s d c (directAddr a) none none) else none

/-- The descriptor of the post with a stamp has been read. -/
def fillPost (s : State) (d : Die) (c : Cluster) (stamp : Nat) (data : List (Byte × Bool)) : State :=
  let m := s.dma d c
  s.setDma d c { m with queue := m.queue.map (fun p => if p.stamp = stamp ∧ p.ready = false then p.fill data else p) }

/-- DMA.QSTATUS_c as it reads (R296). -/
def dmaStatus (s : State) (d : Die) (c : Cluster) : Word :=
  putBits (putBits (s.reg (.dmaQstatus d c)) 8 6 (s.dma d c).active.length) 5 0 (s.dma d c).queue.length

/-- DSTAT sD (R291). -/
def execDstat (d : Die) (q : CoreId) (sD : Fin 32) (s : State) : Res :=
  .next (withIssue s d q [] fun x c s => advance (s.setCtx d q x (c.wr sD (dmaStatus s d (clusterOf q)))) d q x)

/-! ### Checks (R278) -/

/-- The remote window slot an address lies in. -/
def slotOfAddr (a : Nat) : Option (Fin 64) :=
  match placeOf a with | .remote w _ => if h : w < 64 then some ⟨w, h⟩ else none | _ => none

/-- The address at its target of an address in a remote window (R299). -/
def windowTarget (s : State) (w : Fin 64) (a : Nat) : Nat := (bitsOf (s.reg (.dmaRwinB w)) 47 0 + a % 0x4000000) % 2 ^ 48

/-- A window is OPEN and has a permission bit: 4 write, 2 read, 1 signal (R299). -/
def winAllows (s : State) (w : Fin 64) (bit : Nat) : Bool :=
  s.fld (.dmaRwinA w) F.dmaRwinA_STATE == 2 && s.fld (.dmaRwinA w) F.dmaRwinA_PERM / bit % 2 == 1

/-- Check 0110 for one address. -/
def addrAllows (s : State) (a bit : Nat) : Bool :=
  match slotOfAddr a with | some w => winAllows s w bit | none => true

/-- Whether an address is of the accumulate window of a store, here or at the target of a remote window (R12, R219). -/
def accumulates (s : State) (a : Nat) : Bool :=
  match slotOfAddr a with | some w => windowOf (windowTarget s w a) == 3 | none => windowOf a == 3

/-- Whether two stretches of bytes meet, both as direct addresses (R203). -/
def meets (a n b m : Nat) : Bool :=
  decide (0 < n ∧ 0 < m ∧ directAddr a < directAddr b + m ∧ directAddr b < directAddr a + n)

/-- Source and destination stretches of every row (R277). -/
def rowPairs (p : Post) : List (Nat × Nat × Nat × Nat) :=
  let z := storedSize p.len
  (List.range p.rows).map (fun r => (p.src + r * p.srcStride, p.len,
    if p.op = 2 then p.dst + r * z else p.dst + r * p.dstStride, if p.op = 2 then z else p.len))

/-- The form and KIND of a PACK disagree with R163. -/
def packDisagrees (p : Post) : Bool :=
  !(kindListed p.kind && plainLenOk p.kind p.len
    && (match p.form with | 0 => p.kind != 6 | 1 => p.kind == 6 | _ => p.kind == 15))

/-- The element size of an accumulate type. -/
def elemSize (etype : Nat) : Nat := if etype = 2 then 4 else 2

/-- Whether every given number is a multiple of n. -/
def multiples (n : Nat) (l : List Nat) : Bool := l.all (fun v => v % n = 0)

/-- Check 0001: complement, reserved codes, bits and fields, SIG_INC, ETYPE (R278). A descriptor that carries a
poison mark fails it. -/
def badFields (p : Post) : Bool :=
  p.poison || p.w 7 != ~~~(p.w 0) || decide (p.op > 3 ∨ p.etype = 3 ∨ p.form = 3
    ∨ bitsOf (p.w 0) 53 48 ≠ 0 ∨ bitsOf (p.w 1) 63 48 ≠ 0 ∨ bitsOf (p.w 2) 63 48 ≠ 0
    ∨ bitsOf (p.w 5) 43 32 ≠ 0 ∨ bitsOf (p.w 6) 39 0 ≠ 0 ∨ p.scope = 3 ∨ (p.sig = true ∧ p.inc = 0)
    ∨ (p.etype ≠ 0 ∧ p.op ≠ 0) ∨ (p.op = 1 ∧ bitsOf (p.w 1) 47 0 ≠ 0) ∨ (p.op = 2 ∧ bitsOf (p.w 4) 1 0 ≠ 0))

/-- The blocks that a BLOCKS descriptor names and its index table holds, in order: address and stored size (R178). -/
def blockSpans (p : Post) (w : List Nat) : List (Nat × Nat) :=
  (List.range p.rows).filterMap (fun i =>
    if p.first + i < w.getD 0 0 then
      let a := w.getD (p.first + i + 1) 0
      some (p.src + a, w.getD (p.first + i + 2) 0 - a)
    else none)

/-- Whether the posting context may read n bytes at a module address that lies k bytes on from one it named (R334). -/
def Post.reaches (p : Post) (raw base k n : Nat) : Bool :=
  match p.ctx with | none => true | some c => c.translate (raw + k) n .r == some (base + k)

/-- Whether the blocks of an index table all lie where the descriptor may read: in one populated range, and in a region of
the context (R178, R278, R334). -/
def spansOk (s : State) (p : Post) (w : List Nat) : Bool :=
  (blockSpans p w).all (fun b => inRange s b.1 b.2 && p.reaches (bitsOf (p.w 1) 47 0) p.src (b.1 - p.src) b.2)

/-- The DMA of a BLOCKS descriptor may read its index table (R278). -/
def tableReadable (s : State) (p : Post) (n : Nat) : Bool :=
  inRange s p.arg n && addrAllows s p.arg 2 && p.reaches (bitsOf (p.w 4) 47 0) p.arg 0 n

/-- The signal target fails its check: its remote window is not OPEN or lacks the permission (R278, R279). -/
def signalBad (s : State) (p : Post) : Bool := p.sig && p.scope == 2 && !winAllows s p.win 1

/-- Check 0010 (R278, R464). -/
def outOfWindow (s : State) (p : Post) (w : List Nat) : Bool :=
  !p.ok || (decide (p.op ≠ 1) && !inRange s p.src p.srcSpan) || !inRange s p.dst p.dstSpan || inBack s p.dst p.dstSpan
    || (p.op == 3 && (!inRange s p.arg 4 || !spansOk s p w))

/-- Check 0011. -/
def misaligned (p : Post) : Bool :=
  let l := [p.src, p.dst, p.len, p.srcStride, p.dstStride]
  (p.etype != 0 && !multiples (elemSize p.etype) l) || (decide (2 ≤ p.op) && !multiples 32 l)

/-- Check 0101. -/
def overlapping (p : Post) (w : List Nat) : Bool :=
  ((p.op == 0 || p.op == 2) && (rowPairs p).any (fun a => (rowPairs p).any (fun b => meets a.1 a.2.1 b.2.2.1 b.2.2.2)))
    || (p.op == 3 && (blockSpans p w).any (fun b => meets b.1 b.2 p.dst p.len))

/-- Check 0110. -/
def windowsBad (s : State) (p : Post) : Bool :=
  (decide (p.op ≠ 1) && !addrAllows s p.src 2) || !addrAllows s p.dst 4 || (p.op == 3 && !addrAllows s p.arg 2) || signalBad s p

/-- Check 0111 (R26). -/
def spansWeights (s : State) (p : Post) : Bool :=
  match placeOf p.src, slotOfAddr p.dst with
  | .store _ .wst _ _ _, some w => decide (p.op ≠ 1) && decide (2 ≤ s.fld (.dmaRwinA w) F.dmaRwinA_ROUTE)
  | _, _ => false

/-- The cause of a descriptor's rejection, if it fails a check (R278, R279); of BLOCKS with the words of its index table,
none where the table may not be used (R178). -/
def postCause (s : State) (p : Post) (tbl : Option (List Nat)) : Option Nat :=
  let w := tbl.getD []
  if badFields p then some 1
  else if p.len = 0 then (if p.ok = false then some 2 else if signalBad s p then some 6 else none)
  else if outOfWindow s p w then some 2
  else if misaligned p then some 3
  else if decide (p.etype ≠ 0) ≠ accumulates s p.dst then some 4
  else if overlapping p w then some 5
  else if windowsBad s p then some 6
  else if spansWeights s p then some 7
  else if p.op = 3 ∧ w.getD 0 0 ≤ p.first + p.rows - 1 then some 8
  else if (p.op = 3 ∧ p.len < ((blockSpans p w).map Prod.snd).sum) ∨ (p.op = 2 ∧ packDisagrees p) then some 9
  else none

/-- The source of the fault of a cause (R278, R283, R513). -/
def causeSource (cause : Nat) : Source :=
  match cause with | 2 => .windowViolation | 8 => .indexTable | 10 => .windowLost | _ => .dmaDesc

/-- A descriptor rejected or aborted, by its address: cause, address, flag and fault (R278, R283). -/
def descError (s : State) (d : Die) (c : Cluster) (addr cause : Nat) : State :=
  let s := s.setFld (.dmaQstatus d c) F.dmaQstatus_CAUSE cause
  let s := s.setFld (.dmaQstatus d c) F.dmaQstatus_ERROR 1
  let s := s.setFld (.dmaErrDesc d c) F.dmaErrDesc_ADDR addr
  s.raise { Report.plain (causeSource cause) d.val c.val .dma addr with detail := cause }

end Sys2Proof.Machine
end

