-- ==== Sys2Proof/Machine/Dma.lean ====
section
/-! DEFINITION. The cluster DMAs, transactions in flight and remote windows at their source (R277 to R300). -/

namespace Sys2Proof.Machine

/-! ### Moving bytes (R277, R284, R289)

A running descriptor reaches its own die's stores by accesses in class 5 slots, one line at most in each, and everything else
by transactions. Both return in the order in which they were made, so rows are moved in ascending order. -/

/-- Whether an address is in a die's own stores, which are reached without a transaction (R289). -/
def ownStore (d : Die) (a : Nat) : Bool := match placeOf a with | .store d' _ _ _ _ => decide (d' = d) | _ => false

/-- Stretches of n bytes from a cut at multiples of g, with a bound on how many. -/
def granules (g : Nat) : Nat → Nat → Nat → List (Nat × Nat)
  | 0, _, _ => []
  | fuel + 1, a, n =>
    if n = 0 then []
    else
      let m := min n (g - a % g)
      (a, m) :: granules g fuel (a + m) (n - m)

/-- The pieces of a stretch: a line of the die's own stores, 256 bytes elsewhere (R202, R289). -/
def pieces (d : Die) (a n : Nat) : List (Nat × Nat) :=
  if ownStore d a then granules 1024 (n / 1024 + 2) a n else granules 256 (n / 256 + 2) a n

/-- A transaction added to a die, with its next stamp. -/
def addTxn (s : State) (d : Die) (t : Txn) : State :=
  let x := s.die d
  (s.setDie d { x with txns := x.txns ++ [{ t with stamp := s.nextStamp d }] }).bump d

/-- A transaction that waits for an entry. -/
def Txn.waiting (owner : TxnOwner) (number pkt : Nat) (k : AccKind) (a n : Nat) (data : List (Byte × Bool)) (dest : Option AccDest)
    (into : Option (Nat × AccKind)) : Txn :=
  { owner := owner, stamp := 0, fromPool := false, issued := false, returned := false, kind := k, addr := a, size := n, data := data
    dest := dest, number := number, pkt := pkt, into := into }

/-- One piece of a descriptor's reads or writes. -/
def dmaPiece (s : State) (d : Die) (c : Cluster) (number a n : Nat) (k : AccKind) (data : List (Byte × Bool))
    (into : Option (Nat × AccKind)) : State :=
  if ownStore d a then pushAccess s d k a n data (.dma d c number into)
  else addTxn s d (Txn.waiting (.dma c) number 0 k a n data none into)

/-- The running descriptor with a number. -/
def runningOf (s : State) (d : Die) (c : Cluster) (number : Nat) : Option Running :=
  (s.dma d c).active.find? (fun r => r.number = number)

/-- The running descriptor with a number, changed. -/
def onRunning (s : State) (d : Die) (c : Cluster) (number : Nat) (f : Running → Running) : State :=
  let m := s.dma d c
  s.setDma d c { m with active := m.active.map (fun r => if r.number = number then f r else r) }

/-- A descriptor has met poison (R282). -/
def meetPoison (s : State) (d : Die) (c : Cluster) (number : Nat) : State :=
  (onRunning s d c number (fun r => { r with met := true })).setFld (.dmaQstatus d c) F.dmaQstatus_POISON 1

/-- A write of a descriptor's bytes at a destination (R277, R282, R289). -/
def dmaWrite (s : State) (d : Die) (c : Cluster) (number a : Nat) (k : AccKind) (data : List (Byte × Bool)) : State :=
  let s := if data.any Prod.snd then meetPoison s d c number else s
  (pieces d a data.length).foldl (fun s g => dmaPiece s d c number g.1 g.2 k ((data.drop (g.1 - a)).take g.2) none) s

/-- A read of n bytes of a descriptor, whose bytes go to a destination or are gathered (R277, R289). -/
def dmaRead (s : State) (d : Die) (c : Cluster) (number a n : Nat) (into : Option (Nat × AccKind)) : State :=
  (pieces d a n).foldl (fun s g => dmaPiece s d c number g.1 g.2 .read [] (into.map (fun t => (t.1 + (g.1 - a), t.2)))) s

/-- The table that FDX.COMP_CTRL selects for a KIND, where compressors may use it (R177, R190). -/
def compTable (s : State) (d : Die) (kind : Nat) : Nat × Option EpcTable :=
  let r := s.reg (.fdxCompCtrl d)
  let i := match kind with
    | 5 => bitsOf r 35 32 | 4 => bitsOf r 31 28 | 2 | 3 => bitsOf r 27 24 | 1 => bitsOf r 23 20 | _ => bitsOf r 19 16
  (i, if bitsOf r 1 1 = 1 then none else epcTable s d i)

/-- The stored block of row r of a PACK (R162, R163, R170, R176, R177, R276). A row of the scaled form holds LEN elements
of E4M3 (log entry 49). -/
def packRow (s : State) (d : Die) (p : Post) (r : Nat) (src : List Byte) : List Byte :=
  let t := (p.w 4).toNat
  let h : Header := { id := (nbits t 63 32 + r) % 2 ^ 32, layer := nbits t 31 23, die := nbits t 22 22, ndie := 1 - nbits t 22 22
                      grad := false, sealed_ := false, colgrp := nbits t 17 2, codec := 0, kind := p.kind, table := 0, ttag := 0
                      plainLen := p.len, compLen := 0, stepTag := 0, bscale := 0, zeros := true, checked := true }
  let tab := compTable s d p.kind
  let zoff := bitsOf (s.reg (.fdxCompCtrl d)) 2 2 = 1
  match p.form with
  | 2 => assemble h src
  | 1 =>
    let e := scaledEncode (src.map (fun b => Val.ofE4M3 b.toNat))
    compressBlock { h with bscale := e.1 } tab.1 tab.2 zoff e.2
  | _ => compressBlock h tab.1 tab.2 zoff src

/-- The next stretch of a descriptor that gathers whole stretches is read (R277). -/
def nextStretch (s : State) (d : Die) (c : Cluster) (number : Nat) : State :=
  match (runningOf s d c number).map Running.rows with
  | some ((a, n) :: rest) =>
    dmaRead (onRunning s d c number (fun r => { r with rows := rest, got := [], need := n })) d c number a n none
  | _ => onRunning s d c number (fun r => { r with got := [], need := 0 })

/-- The bytes of a FILL row (R277). -/
def fillRow (w : Word) (n : Nat) : List (Byte × Bool) :=
  (List.range n).map (fun i => (BitVec.ofNat 8 (w.toNat / 2 ^ (8 * (i % 8))), false))

/-- What a descriptor that has passed its checks moves (R277, R279); of BLOCKS with the words of its index table. -/
def moveBytes (s : State) (d : Die) (c : Cluster) (number : Nat) (p : Post) (tbl : List Nat) : State :=
  if p.len = 0 then s
  else match p.op with
    | 0 => (List.range p.rows).foldl (fun s r =>
        dmaRead s d c number (p.src + r * p.srcStride) p.len (some (p.dst + r * p.dstStride, writeKind p.dst p.etype))) s
    | 1 => (List.range p.rows).foldl (fun s r =>
        dmaWrite s d c number (p.dst + r * p.dstStride) (writeKind p.dst 0) (fillRow (p.w 4) p.len)) s
    | 2 => nextStretch (onRunning s d c number (fun r =>
        { r with rows := (List.range p.rows).map (fun i => (p.src + i * p.srcStride, p.len)) })) d c number
    | _ => nextStretch (onRunning s d c number (fun r => { r with rows := blockSpans p tbl })) d c number

/-! ### Windows in use (R285, R286) -/

/-- Whether a descriptor uses a window: as its source, its destination, its table or its signal's target. -/
def Post.uses (p : Post) (w : Fin 64) : Bool :=
  (p.sig && p.scope == 2 && p.win == w)
    || (p.len != 0 && ((p.op != 1 && slotOfAddr p.src == some w) || slotOfAddr p.dst == some w || (p.op == 3 && slotOfAddr p.arg == some w)))

/-- Whether a transaction of either die goes through a window, or a running descriptor uses it: its accesses count as in
flight until it ends (R286; log entry 50). -/
def windowBusy (s : State) (w : Fin 64) : Bool :=
  (List.finRange 2).any (fun d => (s.die d).txns.any (fun t => slotOfAddr t.addr == some w)
    || (List.finRange 8).any (fun c => (s.dma d c).active.any (fun r => r.post.uses w)))

/-- A CLOSING window with nothing left in flight is CLOSED (R286). -/
def closeWindow (s : State) (w : Fin 64) : State :=
  if s.fld (.dmaRwinA w) F.dmaRwinA_STATE = 4 ∧ windowBusy s w = false then
    s.setFld (.dmaRwinA w) F.dmaRwinA_STATE 0
  else s

/-- The windows that a descriptor used, once it is gone. -/
def closeUsed (s : State) (p : Post) : State :=
  (List.finRange 64).foldl (fun s w => if p.uses w then closeWindow s w else s) s

/-- Whether an access or a transaction is of a running descriptor. -/
def Access.ofDesc (a : Access) (d : Die) (c : Cluster) (number : Nat) : Bool :=
  match a.dest with | .dma d' c' n _ => decide (d' = d ∧ c' = c ∧ n = number) | _ => false
/-- Whether a transaction is of a descriptor of a cluster's DMA. -/
def Txn.ofDesc (t : Txn) (c : Cluster) (number : Nat) : Bool := decide (t.owner = .dma c ∧ t.number = number)

/-- A running descriptor taken off its DMA with what it has in flight. -/
def dropDesc (s : State) (d : Die) (c : Cluster) (r : Running) : State :=
  let x := s.die d
  let s := s.setDie d { x with txns := x.txns.filter (fun t => !t.ofDesc c r.number)
                               accs := x.accs.filter (fun a => !a.ofDesc d c r.number) }
  let m := s.dma d c
  closeUsed (s.setDma d c { m with active := m.active.filter (fun o => o.number ≠ r.number) }) r.post

/-- A running descriptor rejected, or aborted after bytes have moved (R278, R283): what is written stays, and no signal is
sent. -/
def abortDesc (s : State) (d : Die) (c : Cluster) (number cause : Nat) : State :=
  match runningOf s d c number with
  | none => s
  | some r => descError (dropDesc s d c r) d c r.post.addr cause

/-! ### Stretches read whole: the index table, PACK and BLOCKS (R166, R277, R278) -/

/-- A BLOCKS descriptor judged with its index table (R278). -/
def judgeTable (s : State) (d : Die) (c : Cluster) (r : Running) (tbl : Option (List Nat)) : State :=
  match postCause s r.post tbl with
  | some cause => abortDesc s d c r.number cause
  | none => moveBytes (onRunning s d c r.number (fun r => { r with checking := false })) d c r.number r.post (tbl.getD [])

/-- A part of an index table read: its COUNT first, which tells its length, then all of it (R178). -/
def gotTable (s : State) (d : Die) (c : Cluster) (r : Running) (got : List (Byte × Bool)) : State :=
  let w := wordsOf32 (got.map Prod.fst)
  let n := w.getD 0 0
  if got.any Prod.snd then judgeTable s d c r none
  else if r.need = 4 then
    if 1 ≤ n ∧ n ≤ 2 ^ 24 ∧ tableReadable s r.post (4 * (n + 4)) then
      nextStretch (onRunning s d c r.number (fun r => { r with rows := [(r.post.arg, 4 * (n + 4))] })) d c r.number
    else judgeTable s d c r none
  else judgeTable s d c r (if indexOk w then some w else none)

/-- A stored block of a PACK or BLOCKS descriptor goes to the destination, after the last one (R277). -/
def placeBlock (s : State) (d : Die) (c : Cluster) (r : Running) (blk : List (Byte × Bool)) : State :=
  let s := onRunning s d c r.number (fun r => { r with dst := r.dst + blk.length, done := r.done + 1 })
  nextStretch (dmaWrite s d c r.number r.dst (writeKind r.post.dst 0) blk) d c r.number

/-- A stretch read whole: a part of the table, a row to be packed, or a block to be verified (R166, R277). -/
def gotStretch (s : State) (d : Die) (c : Cluster) (r : Running) (got : List (Byte × Bool)) : State :=
  if r.checking then gotTable s d c r got
  else if r.post.op = 2 then
    let bad := got.any Prod.snd
    placeBlock s d c r ((packRow s d r.post r.done (got.map Prod.fst)).map (fun b => (b, bad)))
  else
    let good := blockPasses (got.map Prod.fst)
    let s := if good then s else s.raise (Report.plain .blockCheck d.val c.val .dma r.dst)
    placeBlock s d c r (got.map (fun b => (b.1, b.2 || !good)))

/-- Bytes read for a descriptor: they go to their destination, or join its present stretch (R277). -/
def dmaGot (s : State) (d : Die) (c : Cluster) (number : Nat) (into : Option (Nat × AccKind)) (data : List (Byte × Bool)) : State :=
  match into, runningOf s d c number with
  | some (a, k), _ => dmaWrite s d c number a k data
  | none, none => s
  | none, some r =>
    let got := r.got ++ data
    if got.length < r.need then onRunning s d c number (fun r => { r with got := got }) else gotStretch s d c r got

/-! ### Starting and completing (R278, R281, R284) -/

/-- A descriptor at the head of a queue starts where its operation is one of those named: checked, and run or
rejected (R278, R284). BLOCKS reads its index table before its checks end. Transfer numbers of a die's DMAs differ, and
are never those of its cores (R358, R405; log entry 19). -/
def startHead (d : Die) (c : Cluster) (mine : Nat → Bool) (s : State) : State :=
  let m := s.dma d c
  match m.queue with
  | [] => s
  | p :: rest =>
    if !p.ready || !mine p.op || decide (4 ≤ m.active.length) || (p.fence && !m.active.isEmpty) || !s.dieUp d then s
    else
      let n := 8 * (m.nextNumber % 4095 + 1) + c.val
      let table := p.op == 3 && p.len != 0 && !badFields p && p.ok && tableReadable s p 4
      let run : Running := { post := p, number := n, start := s.beat d, bridged := 0, frames := 0, met := false, remotePoison := false,
                             checking := table, rows := [], got := [], need := 0, dst := p.dst, done := 0 }
      let started := s.setDma d c { m with queue := rest, active := m.active ++ [run], nextNumber := m.nextNumber + 1 }
      if table then nextStretch (onRunning started d c n (fun r => { r with rows := [(p.arg, 4)] })) d c n
      else match postCause s p none with
        | some cause => descError (s.setDma d c { m with queue := rest }) d c p.addr cause
        | none => moveBytes started d c n p []

/-- DMA_COPY: a COPY descriptor starts (R277); a reserved OP is rejected here too (R278). -/
def execDmaCopy (d : Die) (c : Cluster) (s : State) : Res := .next (startHead d c (fun o => o == 0 || decide (3 < o)) s)
/-- DMA_FILL: a FILL descriptor starts (R277). -/
def execDmaFill (d : Die) (c : Cluster) (s : State) : Res := .next (startHead d c (fun o => o == 1) s)
/-- DMA_PACK: a PACK descriptor starts (R277). -/
def execDmaPack (d : Die) (c : Cluster) (s : State) : Res := .next (startHead d c (fun o => o == 2) s)
/-- DMA_BLOCKS: a BLOCKS descriptor starts (R277). -/
def execDmaBlocks (d : Die) (c : Cluster) (s : State) : Res := .next (startHead d c (fun o => o == 3) s)

/-- The address in a signal's head (R358): that of the last packet of the transfer; where no packet has gone through the
window, its REMOTE_BASE. -/
def signalAddr (s : State) (r : Running) : Nat :=
  let p := r.post
  if r.frames = 0 then bitsOf (s.reg (.dmaRwinB p.win)) 47 0
  else
    let last := match p.op with | 2 | 3 => r.dst - 1 | _ => p.dst + (p.rows - 1) * p.dstStride + p.len - 1
    windowTarget s p.win last

/-- The signal of a completed descriptor, by scope (R281, R358, R360); one through a window is remembered by its transfer
number until it is refused. -/
def postSignal (s : State) (d : Die) (c : Cluster) (r : Running) : State :=
  let p := r.post
  if p.sig = false then s
  else match p.scope with
    | 0 => if signalable s d p.sigPhys then ctrAdd s d p.sigPhys p.inc else syncMisuse s d p.sigPhys none 0
    | 1 => toBridge s (1 - d) (sigPacket 0 p.sigPhys p.inc r.bridged) ⟨0, 64 * d.val + c.val, r.number⟩
    | _ =>
      let a : Reg := .dmaRwinA p.win
      let m := s.dma d c
      sendSig (s.setDma d c { m with signalled := m.signalled.put r.number p.addr }) d (s.fld a F.dmaRwinA_ROUTE)
        (s.fld a F.dmaRwinA_TARGET_RING) (s.fld a F.dmaRwinA_TARGET_POS) p.win.val (signalAddr s r)
        (sigPacket 0 p.sigPhys p.inc r.frames) r.number

/-- DMA_DESCRIPTOR_COMPLETE: every write of running descriptor i has taken effect and, elsewhere, been acknowledged
(R281); one that moves nothing completes on the beat after its start (R279). -/
def descComplete (d : Die) (c : Cluster) (i : Nat) (s : State) : State :=
  let m := s.dma d c
  match m.active[i]? with
  | none => s
  | some r =>
    let x := s.die d
    if decide (s.beat d ≤ r.start) || r.checking || decide (r.need ≠ 0) || x.txns.any (fun t => t.ofDesc c r.number)
        || x.accs.any (fun a => a.ofDesc d c r.number) then s
    else
      let s := s.setDma d c { m with active := m.active.eraseIdx i }
      closeUsed (postSignal (s.addFld (.dmaDoneCount d c) F.dmaDoneCount_COUNT 1) d c r) r.post

/-- DMA_DESCRIPTOR_COMPLETE (R281). -/
def execDmaDescriptorComplete (d : Die) (c : Cluster) (i : Nat) (s : State) : Res := .next (descComplete d c i s)

/-! ### Transactions (R289, R290) -/

/-- A reserve of a requester (R290). -/
def reserveOf (s : State) (d : Die) : TxnOwner → Nat
  | .dma c => s.fld (.dmaTxnRes d c) F.dmaTxnRes_COUNT
  | .cores => s.fld (.dmaTxnCore d) F.dmaTxnCore_COUNT

/-- All reserves of a die together (R290). -/
def reserves (s : State) (d : Die) : Nat :=
  ((List.finRange 8).map (fun c => s.fld (.dmaTxnRes d c) F.dmaTxnRes_COUNT)).sum + s.fld (.dmaTxnCore d) F.dmaTxnCore_COUNT

/-- Pool entries held. -/
def poolUsed (s : State) (d : Die) : Nat := (s.die d).txns.countP (fun t => t.issued && t.fromPool)

/-- DMA.TXN_STATUS as it reads (R297). -/
def txnStatus (s : State) (d : Die) : Word :=
  let w := s.reg (.dmaTxnStatus d)
  let w := putBits w 29 16 (8192 - reserves s d - poolUsed s d)
  putBits w 13 0 ((s.die d).txns.countP (fun t => t.issued))

/-- Poisoned 32-byte words of a remote packet sent as ones (R533). -/
def hideMarks (bs : List (Byte × Bool)) : List Byte :=
  bs.zipIdx.map (fun b =>
    if ((bs.drop (b.2 / 32 * 32)).take 32).any Prod.snd then 0xFF else b.1.1)

/-- ETYPE of an access kind (R276). -/
def AccKind.etype : AccKind → Nat
  | .acc true => 2 | .acc false => 1 | _ => 0

/-- The frames of a transaction through window w (R405): a write in one or two RWR frames, a read in one RRD. -/
def remoteFrames (s : State) (d : Die) (w : Fin 64) (t : Txn) (pkt : Nat) : List RemotePkt :=
  let a := s.reg (.dmaRwinA w)
  let base : RemotePkt := { RemotePkt.blank .rwr with
    route := bitsOf a 59 58, win := w.val, srcRing := s.ringId, srcPos := s.position, srcDie := d.val
    tgtRing := bitsOf a 40 38, tgtPos := bitsOf a 49 41, xfer := t.number, pkt := pkt
    op := match t.kind with | .read => 2 | .acc _ => 1 | _ => 0
    etype := t.kind.etype, len := t.size, addr := windowTarget s w t.addr }
  match t.kind with
  | .read => [{ base with kind := .rrd }]
  | _ =>
    let bs := hideMarks t.data
    if bs.length ≤ 224 then [{ base with data := bs, len := bs.length }]
    else [{ base with data := bs.take 224, len := 224 },
          { base with data := bs.drop 224, len := bs.length - 224, addr := base.addr + 224, pkt := pkt + 1 }]

/-- Transaction i of a die replaced. -/
def setTxn (s : State) (d : Die) (i : Nat) (t : Txn) : State :=
  let x := s.die d
  s.setDie d { x with txns := x.txns.set i t }

/-- The poison of a remote write noted once per descriptor (R533). -/
def noteRemotePoison (s : State) (d : Die) (c : Cluster) (number : Nat) : State :=
  match runningOf s d c number with
  | none => s
  | some r =>
    if r.remotePoison then s
    else
      let s := meetPoison s d c number
      (onRunning s d c number (fun r => { r with remotePoison := true })).raise
        (Report.plain .remotePoison d.val c.val .dma r.post.addr)

/-- A transaction that has its entry is sent: through its window (R288, R289, R358, R405), or as an access before the other
die's stores (R93, R198). A vector access of a core there is the activation exchange (log entry 45). -/
def sendTxn (s : State) (d : Die) (i : Nat) (t : Txn) : State :=
  match slotOfAddr t.addr with
  | none =>
    let s := setTxn s d i { t with issued := true }
    match placeOf t.addr with
    | .store e _ _ _ _ =>
      let exch := match t.dest with | some (.vector _ _ _ _ _) => true | some (.store _ _ _) => decide (8 < t.size) | _ => false
      let x := s.die e
      s.setDie e { x with accs := x.accs ++ [{ stamp := t.stamp, kind := t.kind, addr := directAddr t.addr, size := t.size
                                               data := t.data, dest := .txn d exch, portB := false, issue := s.beat e, ret := 0
                                               served := false }] }
    | _ => s
  | some w =>
    let pkt := match t.owner with
      | .dma c => ((runningOf s d c t.number).map Running.frames).getD 0
      | .cores => t.pkt
    let fs := remoteFrames s d w t pkt
    let writes := match t.kind with | .read => 0 | _ => fs.length
    let s := setTxn s d i { t with issued := true, pkt := pkt }
    let s := match t.owner with
      | .dma c =>
        let s := onRunning s d c t.number (fun r => { r with frames := r.frames + writes })
        if t.data.any Prod.snd then noteRemotePoison s d c t.number else s
      | .cores => s
    { s with remoteOut := s.remoteOut ++ fs }

/-- Whether a waiting transaction finds an entry, and whether that is one of the pool (R290). -/
def freeEntryFor (s : State) (d : Die) (t : Txn) : Option Bool :=
  let mine := (s.die d).txns.countP (fun u => u.issued && !u.fromPool && decide (u.owner = t.owner))
  if mine < reserveOf s d t.owner then some false
  else if poolUsed s d < 8192 - reserves s d then some true
  else none

/-- Whether the window of a transaction carries accesses: it is OPEN, or CLOSING with this one in flight (R285, R286). -/
def windowCarries (s : State) (t : Txn) : Bool :=
  match slotOfAddr t.addr with
  | some w => s.fld (.dmaRwinA w) F.dmaRwinA_STATE == 2 || s.fld (.dmaRwinA w) F.dmaRwinA_STATE == 4
  | none => true

/-- TRANSACTION_ISSUE: transaction i takes an entry from its reserve or the pool and is issued, or waits (R290). -/
def txnIssue (d : Die) (i : Nat) (s : State) : State :=
  match (s.die d).txns[i]? with
  | none => s
  | some t =>
    if t.issued || !windowCarries s t then s
    else match freeEntryFor s d t with
      | some pool => sendTxn s d i { t with fromPool := pool }
      | none => s

/-- TRANSACTION_ISSUE (R290). -/
def execTransactionIssue (d : Die) (i : Nat) (s : State) : Res := .next (txnIssue d i s)

/-- The die that holds an address: its stores and its stacks (R87, R358). -/
def dieOfAddr (a : Nat) : Option Die :=
  match placeOf a with
  | .store d _ _ _ _ => some d
  | .hbm n => if n < 4 then some 0 else some 1
  | _ => none

/-- The data of a transaction's read put where it goes. -/
def landRead (s : State) (d : Die) (t : Txn) (data : List (Byte × Bool)) : State :=
  match t.dest, t.owner with
  | some dest, _ => deliver s { stamp := 0, kind := .read, addr := t.addr, size := t.size, data := data, dest := dest,
                                portB := false, issue := 0, ret := 0, served := true }
  | none, .dma c => dmaGot s d c t.number t.into data
  | none, .cores => s

/-- The answer of a transaction has come: its access to the other die's stores has returned, or its window's RRSP. -/
def txnBack (s : State) (d : Die) (stamp : Nat) (data : List (Byte × Bool)) : State :=
  let x := s.die d
  s.setDie d { x with txns := x.txns.map (fun t => if t.stamp = stamp then { t with returned := true, data := data } else t) }

/-- A completed write transaction to the other die is a packet of its transfer there (R358). -/
def countBridge (s : State) (d : Die) (t : Txn) : State :=
  match t.owner with
  | .dma c =>
    if dieOfAddr t.addr = some (1 - d) then
      let s := countPacket s (1 - d) ⟨0, 64 * d.val + c.val, t.number⟩ 1
      onRunning s d c t.number (fun r => { r with bridged := r.bridged + 1 })
    else s
  | .cores => s

/-- The effect of a transaction that completes (R281, R289, R454): one that has an answer has taken effect already; memory
is read or written now. -/
def txnEffect (s : State) (d : Die) (t : Txn) : State :=
  match t.kind with
  | .read =>
    if t.returned then landRead s d t t.data
    else
      let s := readAt s t.addr t.size
      landRead s d t (fetchAt s t.addr t.size)
  | k =>
    if t.returned then countBridge s d t
    else
      let dropped := !tierHolds s t.addr t.size
      let s := writeAt s t.addr k t.data
      let s := match t.owner with
        | .dma c => if dropped then meetPoison s d c t.number else s
        | .cores => s
      countBridge s d t

/-- Whether a transaction completes only with an answer: of the other die's stores or of a window's target. -/
def Txn.answers (t : Txn) : Bool := match placeOf t.addr with | .store _ _ _ _ _ | .remote _ _ => true | _ => false

/-- TRANSACTION_COMPLETE: an issued transaction's data or completion returns and its entry is freed (R289), those of one
descriptor in order (R277). An error pattern may have come to a word an HBM3E read finds, or a link-ECC event to an LPDDR5X
access (log entry 12); a retrain step of the target is waited for (R451). -/
def txnComplete (d : Die) (i : Nat) (u : Upset) (s : State) : State :=
  match (s.die d).txns[i]? with
  | none => s
  | some t =>
    let behind := decide (t.owner ≠ .cores)
      && ((s.die d).txns.take i).any (fun o => decide (o.owner = t.owner ∧ o.number = t.number))
    if !t.issued || behind || (t.answers && !t.returned) || stepBusy s t.addr then s
    else
      let s := if u = ⟨[], 0⟩ then s
        else match placeOf t.addr with
          | .hbm _ => addUpset s (protBase t.addr) u
          | .lpd => linkEvent s (channelOf t.addr) (decide (u.syms.length ≤ 1))
          | _ => s
      let x := s.die d
      let s := noteRequest (s.setDie d { x with txns := x.txns.eraseIdx i }) t.addr
      let s := txnEffect s d t
      match slotOfAddr t.addr with
      | some w => closeWindow s w
      | none => s

/-- TRANSACTION_COMPLETE (R289). -/
def execTransactionComplete (d : Die) (i : Nat) (u : Upset) (s : State) : Res := .next (txnComplete d i u s)

/-! ### Windows at their source (R285 to R288) -/

/-- Everything through a window given up: running descriptors that use it abort with a cause; a core's store is lost, its
load returns zeros marked poisoned. -/
def dropWindowTxns (s : State) (w : Fin 64) (cause : Nat) : State :=
  (List.finRange 2).foldl (fun s d =>
    let s := (List.finRange 8).foldl (fun s c =>
      ((s.dma d c).active.filter (fun r => r.post.uses w)).foldl (fun s r => abortDesc s d c r.number cause) s) s
    let cores := (s.die d).txns.filter (fun t => slotOfAddr t.addr == some w)
    let x := s.die d
    let s := s.setDie d { x with txns := x.txns.filter (fun t => slotOfAddr t.addr != some w) }
    cores.foldl (fun s t => match t.kind with
      | .read => landRead s d t (List.replicate t.size (0, true)) | _ => s) s) s

/-- A window moves to LOST from OPEN, OPENING or CLOSING (R286): a LINK fault. -/
def loseWindow (s : State) (w : Fin 64) : State :=
  let st := s.fld (.dmaRwinA w) F.dmaRwinA_STATE
  if st = 1 ∨ st = 2 ∨ st = 4 then
    let s := (s.setFld (.dmaRwinA w) F.dmaRwinA_STATE 5).raise (Report.plain .windowLost 2 0 .dma 0)
    dropWindowTxns s w 10
  else s

/-- Every window that a test names moves to LOST. -/
def loseWindows (s : State) (f : Fin 64 → Bool) : State :=
  (List.finRange 64).foldl (fun s w => if f w then loseWindow s w else s) s

/-- Whether the fields of a window are valid for an opening (R299). -/
def openFieldsOk (s : State) (w : Fin 64) (a : Word) : Bool :=
  let size := bitsOf a 54 50
  decide (12 ≤ size ∧ size ≤ 26) && decide (bitsOf (s.reg (.dmaRwinB w)) 47 0 % 2 ^ size = 0)
    && (decide (2 ≤ bitsOf a 59 58) || bitsOf a 40 38 == s.ringId)

/-- Whether the peer of a span port is a window's target (R432). -/
def spanPeer (s : State) (a : Word) : Bool :=
  let p := s.reg (.circPortPeer (if bitsOf a 59 58 = 2 then 4 else 5))
  bitsOf p 31 29 == bitsOf a 40 38 && bitsOf p 28 20 == bitsOf a 49 41

/-- A window refused at its source or target, or with no reply (R286): a CONFIG fault. -/
def refuseWindow (s : State) (w : Fin 64) : State :=
  (s.setFld (.dmaRwinA w) F.dmaRwinA_STATE 3).raise (Report.plain .windowRefused 2 0 .dma 0)

/-- The write of OPEN = 1 in CLOSED (R286, R288): OPENING, with the request sent, or refused at the source. -/
def openWindow (s : State) (w : Fin 64) (a : Word) : State :=
  let s := s.setReg (.dmaRwinA w) (putBits a 63 61 1)
  let ring := bitsOf a 59 58 < 2
  if (if ring then inArc s (bitsOf a 49 41) else spanPeer s a) = false then refuseWindow s w
  else
    { s with
      windowSince := s.windowSince.put w s.now
      remoteOut := s.remoteOut ++ [{ RemotePkt.blank .openReq with
        route := bitsOf a 59 58, win := w.val, srcRing := s.ringId, srcPos := s.position
        tgtRing := bitsOf a 40 38, tgtPos := bitsOf a 49 41, addr := bitsOf (s.reg (.dmaRwinB w)) 47 0
        job := bitsOf (s.reg .circArc) 63 48, perm := bitsOf a 57 55, size := bitsOf a 54 50 }] }

/-- A write to DMA.RWIN_w_A (R286, R299); none is a rejection. -/
def writeWindowA (w : Fin 64) (v : Word) (s : State) : Option State :=
  let old := s.reg (.dmaRwinA w)
  let st := bitsOf old 63 61
  let same := bitsOf v 59 38 = bitsOf old 59 38
  if bitsOf v 0 0 = 1 then
    if bitsOf old 0 0 = 1 ∧ same ∧ st ≠ 0 then none
    else if st = 0 ∧ openFieldsOk s w v then some (openWindow s w v) else none
  else if st = 0 then some (s.setReg (.dmaRwinA w) v)
  else if !same then none
  else match st with
    | 2 => some (closeWindow (s.setReg (.dmaRwinA w) (putBits (putBits old 63 61 4) 0 0 0)) w)
    | 3 | 5 => some (s.setReg (.dmaRwinA w) (putBits (putBits old 63 61 0) 0 0 0))
    | 4 => some s
    | _ => none

/-- A write to DMA.RWIN_w_B: only in CLOSED (R286). -/
def writeWindowB (w : Fin 64) (v : Word) (s : State) : Option State :=
  if s.fld (.dmaRwinA w) F.dmaRwinA_STATE = 0 ∨ v = s.reg (.dmaRwinB w) then some (s.setReg (.dmaRwinB w) v) else none

/-- WINDOW_OPEN_REPLY: the target's answer reaches an OPENING window (R286). -/
def openReply (w : Fin 64) (accepted : Bool) (s : State) : State :=
  if s.fld (.dmaRwinA w) F.dmaRwinA_STATE = 1 then
    if accepted then s.setFld (.dmaRwinA w) F.dmaRwinA_STATE 2 else refuseWindow s w
  else s

/-- WINDOW_OPEN_REPLY (R286). -/
def execWindowOpenReply (w : Fin 64) (accepted : Bool) (s : State) : Res := .next (openReply w accepted s)

/-- WINDOW_OPEN_TIMEOUT: no answer within 100 µs of timebase (R286). -/
def openTimeout (w : Fin 64) (s : State) : State :=
  if s.fld (.dmaRwinA w) F.dmaRwinA_STATE = 1 ∧ s.windowSince.at_ 0 w + 100000 ≤ s.now then refuseWindow s w else s

/-- WINDOW_OPEN_TIMEOUT (R286). -/
def execWindowOpenTimeout (w : Fin 64) (s : State) : Res := .next (openTimeout w s)

/-- REVOKE_NOTIFY: a target has revoked the import of window w of this source, opened there on `base`; it moves to LOST
(R287). A window of that number opened since on another target or base is not the one revoked (log entry 50). -/
def revokeNotify (ring pos : Nat) (w : Fin 64) (base : Nat) (s : State) : State :=
  let a := s.reg (.dmaRwinA w)
  if bitsOf a 40 38 = ring ∧ bitsOf a 49 41 = pos ∧ bitsOf (s.reg (.dmaRwinB w)) 47 0 = base then loseWindow s w else s

/-- REVOKE_NOTIFY (R287). -/
def execRevokeNotify (ring pos : Nat) (w : Fin 64) (base : Nat) (s : State) : Res := .next (revokeNotify ring pos w base s)

/-- The refusal of a packet of a descriptor: it aborts with CAUSE 1011; where only its signal was refused, after it had
completed, the cause is set then (R283, R360; log entry 51). -/
def refuseDesc (s : State) (d : Die) (c : Cluster) (xfer : Nat) : State :=
  match runningOf s d c xfer, (s.dma d c).signalled.find xfer with
  | some _, _ => abortDesc s d c xfer 11
  | none, some addr =>
    let m := s.dma d c
    descError (s.setDma d c { m with signalled := m.signalled.drop_ xfer }) d c addr 11
  | none, none => s

/-- The refusal of a scalar access, or of a scalar signal: it is lost with a CONFIG fault; a load returns 0, marked poisoned
(R10, R283, R360). -/
def refuseScalar (s : State) (d : Die) (w : Fin 64) (pkt : Nat) : State :=
  match (s.die d).txns.zipIdx.find? (fun e => slotOfAddr e.1.addr == some w && decide (e.1.owner = .cores) && e.1.issued && e.1.pkt == pkt) with
  | some (t, i) =>
    let x := s.die d
    let s := s.setDie d { x with txns := x.txns.eraseIdx i }
    let s := match t.kind with | .read => landRead s d t (List.replicate t.size (0, true)) | _ => s
    closeWindow (s.raise (Report.plain .windowRefused d.val 0 .dma t.addr)) w
  | none => s.raise (Report.plain .windowRefused d.val 0 .sync 0)

/-- PACKET_REFUSAL: a target's refusal of a packet of transfer `xfer` from die d through window w reaches the
source (R283, R360). -/
def packetRefusal (d : Die) (w : Fin 64) (xfer pkt : Nat) (s : State) : State :=
  if 8 ≤ xfer then refuseDesc s d ⟨xfer % 8, Nat.mod_lt _ (by decide)⟩ xfer else refuseScalar s d w pkt

/-- PACKET_REFUSAL (R283). -/
def execPacketRefusal (d : Die) (w : Fin 64) (xfer pkt : Nat) (s : State) : Res := .next (packetRefusal d w xfer pkt s)

/-! ### Imports (R287, R300) -/

/-- Whether an import entry covers a stretch for a source with permissions (R287). -/
def entryCovers (a b : Word) (ring pos base n perm : Nat) : Bool :=
  bitsOf a 63 63 == 1 && decide (bitsOf a 47 0 ≤ base ∧ base + n ≤ bitsOf a 47 0 + 2 ^ bitsOf a 59 55)
    && decide (bitsOf a 62 60 &&& perm = perm)
    && (bitsOf b 13 13 == 1 || (bitsOf b 11 9 == ring && bitsOf b 8 0 == pos))

/-- Whether import i covers a stretch for a source with permissions (R287). -/
def importCovers (s : State) (i : Fin 16) (ring pos base n perm : Nat) : Bool :=
  entryCovers (s.reg (.dmaRimpA i)) (s.reg (.dmaRimpB i)) ring pos base n perm

/-- Whether import i meets every condition for an open request (R287). -/
def importAccepts (s : State) (i : Fin 16) (p : RemotePkt) : Bool :=
  importCovers s i p.srcRing p.srcPos p.addr (2 ^ p.size) p.perm && bitsOf (s.reg (.dmaRimpB i)) 63 48 == p.job

/-- A packet of this module's to the source of another packet. -/
def RemotePkt.back (p : RemotePkt) : RemotePkt :=
  { p with srcRing := p.tgtRing, srcPos := p.tgtPos, tgtRing := p.srcRing, tgtPos := p.srcPos }

/-- The windows that import i covers, as it stands before it is written, are revoked: this module refuses their packets, and
notifies each source (R287, R300). -/
def revokeImport (s : State) (i : Fin 16) : State :=
  let hit (p : Fin 16 × RemotePkt) : Bool := p.1 == i || importAccepts s i p.2
  { s with
    accepted := s.accepted.filter (fun p => !hit p)
    remoteOut := s.remoteOut ++ (s.accepted.filter hit).map (fun p => { p.2.back with kind := .revoke }) }

/-- A write to DMA.RIMP_i_A (R300); none is a rejection. -/
def writeImportA (i : Fin 16) (v : Word) (s : State) : Option State :=
  let size := bitsOf v 59 55
  if bitsOf v 63 63 = 1 ∧ (size < 12 ∨ 26 < size ∨ bitsOf v 47 0 % 2 ^ size ≠ 0) then none
  else some ((revokeImport s i).setReg (.dmaRimpA i) v)

/-- A write to DMA.RIMP_i_B (R300). -/
def writeImportB (i : Fin 16) (v : Word) (s : State) : Option State := some ((revokeImport s i).setReg (.dmaRimpB i) v)

/-- Whether the path of an open request is one that R288 allows at its target: on a ring route its source is a member of this
position's arc. -/
def pathAllowed (s : State) (p : RemotePkt) : Bool := decide (2 ≤ p.route) || (p.srcRing == s.ringId && inArc s p.srcPos)

/-- WINDOW_OPEN_REQUEST: an open request reaches the target, which accepts it against an import entry of the
source's job or refuses it (R287, R288). -/
def openRequest (p : RemotePkt) (s : State) : State :=
  let old (e : Fin 16 × RemotePkt) : Bool := e.2.srcRing == p.srcRing && e.2.srcPos == p.srcPos && e.2.win == p.win
  match (List.finRange 16).find? (fun i => pathAllowed s p && importAccepts s i p) with
  | some i =>
    { s with accepted := s.accepted.filter (fun e => !old e) ++ [(i, p)]
             remoteOut := s.remoteOut ++ [{ p.back with kind := .openRsp, status := 0 }] }
  | none => { s with remoteOut := s.remoteOut ++ [{ p.back with kind := .openRsp, status := 1 }] }

/-- WINDOW_OPEN_REQUEST (R287): the window of the source and the route of its path. -/
def execWindowOpenRequest (ring pos : Nat) (path : Fin 64 × Fin 4) (base size perm job : Nat) (s : State) : Res :=
  .next (openRequest { RemotePkt.blank .openReq with srcRing := ring, srcPos := pos, win := path.1.val, route := path.2.val, tgtRing := s.ringId
                                                     tgtPos := s.position, addr := base, size := size, perm := perm
                                                     job := job } s)

/-! ### Accesses that return (R207) -/

/-- What an access brings when it returns: to the core, the DMA or the other die that made it. -/
def accessBack (s : State) (d : Die) (a : Access) : State :=
  match a.dest with
  | .dma _ c n into => match a.kind with | .read => dmaGot s d c n into a.data | _ => s
  | .post _ c _ => fillPost s d c a.stamp a.data
  | .txn e _ => txnBack s e a.stamp a.data
  | _ => deliver s a

/-- STORE_READ_RETURN: the data or the acknowledgement of access i, which has been served, returns on its beat (R207), in
the order of issue where its requester needs that. -/
def returnAccess (d : Die) (i : Nat) (s : State) : State :=
  match (s.die d).accs[i]? with
  | none => s
  | some a =>
    if !a.served || decide (s.beat d < a.ret) || ((s.die d).accs.take i).any (fun b => sameOrder b a) || a.dest = .remote then s
    else
      let x := s.die d
      accessBack (s.setDie d { x with accs := x.accs.eraseIdx i }) d a

end Sys2Proof.Machine
end

