-- ==== Sys2Proof/Machine/Link.lean ====
section
/-! DEFINITION. Ports, lanes, frames and the link layer (R389 to R413): what a port receives and sends. -/

namespace Sys2Proof.Machine

/-! ### Ports and lanes -/

namespace State

/-- A port. -/
def port (s : State) (p : Port) : PortSt := s.circ.ports.at_ PortSt.reset p
/-- The state with a port replaced. -/
def setPort (s : State) (p : Port) (x : PortSt) : State := { s with circ := { s.circ with ports := s.circ.ports.put p x } }
/-- A stream. -/
def stream (s : State) (x : StreamId) : StreamSt := s.circ.streams.at_ StreamSt.reset x
/-- The state with a stream replaced. -/
def setStream (s : State) (x : StreamId) (t : StreamSt) : State :=
  { s with circ := { s.circ with streams := s.circ.streams.put x t } }

end State

/-- STATE of a port (R409): 0 DOWN, 1 TRAIN, 2 IDENT, 3 UP, 4 FAILED. -/
def portState (s : State) (p : Port) : Nat := s.fld (.circPortStatus p) F.circPortStatus_STATE

/-- Logical lanes of a port direction (R389). -/
def logicalOf (p : Port) : Nat := match p.val with | 0 | 1 => 32 | 2 | 3 => 16 | _ => 4

/-- The register of a physical lane. -/
def laneA (p : Port) (l : Nat) : Reg := .circLaneA p ⟨l % 34, Nat.mod_lt _ (by decide)⟩
/-- The error register of a physical lane. -/
def laneB (p : Port) (l : Nat) : Reg := .circLaneB p ⟨l % 34, Nat.mod_lt _ (by decide)⟩

/-- STATE of a physical lane, receive direction (R394): 0 OFF, 1 TRAIN, 2 ACTIVE, 3 SPARE, 4 SWITCH, 5 FAILED. -/
def laneState (s : State) (p : Port) (l : Nat) : Nat := s.fld (laneA p l) F.circLaneA_STATE
/-- A lane's state replaced. -/
def setLane (s : State) (p : Port) (l st : Nat) : State := s.setFld (laneA p l) F.circLaneA_STATE st

/-- Physical lanes of a port in a state. -/
def lanesIn (s : State) (p : Port) (st : Nat) : List Nat := (List.range (lanesOf p)).filter (fun l => laneState s p l = st)

/-- The physical lane that carries a logical lane, receive direction. -/
def laneCarrying (s : State) (p : Port) (logical : Nat) : Option Nat :=
  (List.range (lanesOf p)).find? (fun l => laneState s p l = 2 ∧ s.fld (laneA p l) F.circLaneA_LOGICAL = logical)

/-- A LINK fault of a port (R409, R436). -/
def portFault (s : State) (src : Source) (p : Port) (detail : Nat) : State :=
  s.raise { Report.plain src 2 p.val .circ 0 with detail := detail }

/-! ### The upstream neighbour (R314, R319) -/

/-- STATE of alignment (R314): 0 FREE, 1 ACQUIRE, 2 LOCKED, 3 HOLDOVER, 4 MASTER. -/
def tbState (s : State) : Nat := s.fld .ptcTbStatus F.ptcTbStatus_STATE
/-- The alignment state replaced. -/
def setTb (s : State) (st : Nat) : State := s.setFld .ptcTbStatus F.ptcTbStatus_STATE st

/-- The port named in UPSTREAM. -/
def upstreamPort (s : State) : Port := ⟨s.fld .ptcTbConf F.ptcTbConf_UPSTREAM % 4, by omega⟩
/-- The port named in ALT. -/
def altPort (s : State) : Port := ⟨s.fld .ptcTbConf F.ptcTbConf_ALT % 4, by omega⟩

/-- A port is in service: LINK frames flow (R408, R409). -/
def inService (s : State) (p : Port) : Bool := portState s p == 2 || portState s p == 3

/-- The upstream is lost in ACQUIRE or LOCKED (R314): alignment follows ALT where it is usable, else holds over. -/
def upstreamLost (s : State) : State :=
  if tbState s = 1 ∨ tbState s = 2 then
    if s.fld .ptcTbConf F.ptcTbConf_ALT_VALID = 1 ∧ inService s (altPort s) then
      let s := s.setFld .ptcTbConf F.ptcTbConf_UPSTREAM (s.fld .ptcTbConf F.ptcTbConf_ALT)
      { setTb s 1 with circ := { s.circ with tbHeard := s.now, tbBand := s.now } }
    else setTb s 3
  else s

/-- FREE moves to ACQUIRE once the UPSTREAM port is in service (R314). -/
def upstreamServes (s : State) (p : Port) : State :=
  if tbState s = 0 ∧ p = upstreamPort s ∧ s.fld .ptcTbConf F.ptcTbConf_MASTER = 0 then
    { setTb s 1 with circ := { s.circ with tbHeard := s.now, tbBand := s.now } }
  else s

/-- The module timebase steps forward, and each die with it (R315, R318, R319). -/
def forwardStep (s : State) (n : Nat) : State :=
  let s := s.setReg .ptcTbTime (s.reg .ptcTbTime + BitVec.ofNat 64 n)
  (List.finRange 2).foldl (fun s d => stepReplica s d n) s

/-- A port moves to FAILED with a CAUSE (R409, R436): a LINK fault, the alignment loses an upstream, and the windows
routed by the port are LOST unless a bypass takes over (R286, R419, R433). -/
def failPort (s : State) (p : Port) (cause : Nat) (bypassed : Bool) : State :=
  if portState s p = 4 then s
  else
    let s := s.setFld (.circPortStatus p) F.circPortStatus_STATE 4
    let s := portFault (s.setFld (.circPortStatus p) F.circPortStatus_CAUSE cause) .portFailed p cause
    let s := if p = upstreamPort s then upstreamLost s else s
    if bypassed then s
    else loseWindows s (fun w => match p.val with
      | 0 => s.fld (.dmaRwinA w) F.dmaRwinA_ROUTE == 0
      | 1 => s.fld (.dmaRwinA w) F.dmaRwinA_ROUTE == 1
      | 4 => s.fld (.dmaRwinA w) F.dmaRwinA_ROUTE == 2
      | 5 => s.fld (.dmaRwinA w) F.dmaRwinA_ROUTE == 3
      | _ => false)

/-- A logical lane is lost with no spare (R409, R413): a span port goes on with its other lanes, renumbered from 0;
any other port fails with CAUSE LANES. -/
def loseLane (s : State) (p : Port) (phys : Nat) : State :=
  let s := setLane s p phys 5
  if 4 ≤ p.val then
    match lanesIn s p 2 with
    | [] => failPort s p 2 false
    | l => l.zipIdx.foldl (fun s e => s.setFld (laneA p e.1) F.circLaneA_LOGICAL e.2) s
  else failPort s p 2 false

/-! ### Partition tables (R63, R64, R435) -/

/-- An entry of a partition table (R63). -/
structure PartEntry where
  valid : Bool
  arc : Nat
  role : Nat
  count : Nat
  deriving DecidableEq, Repr

/-- Entry e of a table word. -/
def partEntry (w : Word) (e : Nat) : PartEntry :=
  let v := bitsOf w (16 * e + 15) (16 * e)
  { valid := v / 2 ^ 15 = 1, arc := v / 2 ^ 10 % 32, role := v / 2 ^ 8 % 4, count := v % 64 }

/-- The first logical lane of entry e (R64): lanes go to valid entries in ascending order. -/
def partStart (w : Word) (e : Nat) : Nat :=
  ((List.range e).map (fun i => if (partEntry w i).valid then (partEntry w i).count else 0)).sum

/-- The entry that owns a logical lane. -/
def entryOfLane (w : Word) (l : Nat) : Option Nat :=
  (List.range 4).find? (fun e => (partEntry w e).valid ∧ partStart w e ≤ l ∧ l < partStart w e + (partEntry w e).count)

/-- The entry with an arc and a role. -/
def entryFor (w : Word) (arc role : Nat) : Option Nat :=
  (List.range 4).find? (fun e => (partEntry w e).valid ∧ (partEntry w e).arc = arc ∧ (partEntry w e).role = role)

/-- The table of a span port with n lanes, whose frames carry ARC 0 and ROLE 00 (R395, R409, R431): one entry. -/
def spanTable (n : Nat) : Word := BitVec.ofNat 64 (0x8000 + n % 64)

/-- The outgoing table of a port. -/
def tableOf (s : State) (p : Port) : Word :=
  match p.val with
  | 0 => s.reg .circPartE | 1 => s.reg .circPartW | 2 => s.reg .circPartSe | 3 => s.reg .circPartSw | _ => spanTable 4

/-- The table the peer has announced for the direction that arrives here (R407); a span port goes on with the lanes it has
left (R409). -/
def peerTable (s : State) (p : Port) : Word :=
  if 4 ≤ p.val then spanTable (lanesIn s p 2).length else (s.port p).peerPart

/-! ### Sending -/

/-- A frame put before a port. -/
def sendFrame (s : State) (p : Port) (f : Frame) : State :=
  let x := s.port p
  s.setPort p { x with out := x.out ++ [f] }

/-- A LINK frame of a code (R398). -/
def sendLink (s : State) (p : Port) (code : Nat) (w0 w1 w2 : Word) : State :=
  sendFrame s p { arc := 0, role := 0, body := .link code w0 w1 w2, credit := none }

/-- MOD.IDENT (R4). -/
def identWord (s : State) : Word :=
  BitVec.ofNat 64 (0x7A080000 + s.fuses.stepping % 256 * 256 + s.fuses.grade % 16 * 16 + s.presentedGrade % 16)

/-- The ID frame of a port (R398): fingerprint, ring, position, port, epoch, admission; MOD.IDENT; EPOCH. -/
def sendId (s : State) (p : Port) : State :=
  let epoch := s.fld .circAdmit F.circAdmit_EPOCH
  let w0 := bitsOf (s.reg (.secIdHash 0)) 31 0 * 2 ^ 32 + s.ringId * 2 ^ 29 + s.position * 2 ^ 20 + p.val * 2 ^ 17
    + s.fld .circPosition F.circPosition_VALID * 2 ^ 16 + epoch % 256 * 2 ^ 8
    + (if s.fld .circAdmit F.circAdmit_STATE = 1 then 1 else 0)
  sendLink s p 1 (BitVec.ofNat 64 w0) (identWord s) (BitVec.ofNat 64 epoch)

/-- ID frames on every port that is trained. -/
def sendIds (s : State) : State :=
  (List.finRange 6).foldl (fun s p => if portState s p = 2 ∨ portState s p = 3 then sendId s p else s) s

/-- A PART_ANN frame (R398, R402): the outgoing table, and landing space for the peer's frames, an amount no rule
gives (log entry 10). -/
def sendPartAnn (s : State) (p : Port) : State :=
  let c (i : Nat) : Nat := Config.freeNat (s.fresh + i) % 65536
  (sendLink s p 7 (tableOf s p) (BitVec.ofNat 64 (c 0 + c 1 * 2 ^ 16 + c 2 * 2 ^ 32 + c 3 * 2 ^ 48)) 0).burn 4

/-- The bypass mode (R441): bit 0 for SKIP_E, bit 1 for SKIP_W; PASS apart. -/
def skipBits (s : State) : Nat :=
  match s.fld .circBypass F.circBypass_MODE with | 2 => 1 | 3 => 2 | 4 => 3 | _ => 0

/-- The port on which eastward (true) or westward traffic leaves: the near port, or the skip port across a bypassed
position or an empty spare station (R24, R389, R419). -/
def outPort (s : State) (east : Bool) : Port :=
  let n := 16 * s.fld .circRingConf F.circRingConf_SEGMENTS
  if east then
    if skipBits s % 2 = 1 ∨ (portState s 0 ≠ 3 ∧ (s.position + 1) % 16 = 15 ∧ portState s 2 = 3 ∧ n ≠ 0) then 2 else 0
  else if skipBits s / 2 = 1 ∨ (portState s 1 ≠ 3 ∧ s.position % 16 = 0 ∧ portState s 3 = 3 ∧ n ≠ 0) then 3 else 1

/-- Whether frames that arrive on a port move East: the W and SW ports face West. -/
def movesEast (p : Port) : Bool := p.val == 1 || p.val == 3

/-! ### The arc (R60, R61, R407) -/

/-- Whether the arc's loop is the ring itself (R60). -/
def wholeRing (s : State) : Bool :=
  let n := ringSize s
  decide (n ≠ 0 ∧ (s.fld .circArc F.circArc_LAST + 1) % n = s.fld .circArc F.circArc_FIRST % n)

/-- The module passes everything: off the ring, in PASS, or on standby (R23, R418, R426). -/
def passesAll (s : State) : Bool :=
  s.fld .circBypass F.circBypass_MODE == 1 || s.fld .fcuStatus F.fcuStatus_OFF_RING == 1
    || (let st := s.fld .circSplice F.circSplice_STATE; st == 1 || st == 2 || st == 6)

/-- Whether this position is a live member of an arc (R82, R407). -/
def isMember (s : State) (arc : Nat) : Bool :=
  s.fld .circArc F.circArc_VALID == 1 && s.fld .circArc F.circArc_INDEX == arc && !passesAll s


/-- The port and role on which this member sends what moves East (true) or West: at the outermost live member of a
partial arc it turns onto the return lanes (R62, R407). -/
def wayOut (s : State) (east : Bool) : Port × Nat :=
  if east then
    if !wholeRing s && isMember s (s.fld .circArc F.circArc_INDEX) && isLast s then (outPort s false, 2) else (outPort s true, 0)
  else
    if !wholeRing s && isMember s (s.fld .circArc F.circArc_INDEX) && isFirst s then (outPort s true, 3) else (outPort s false, 1)

/-- A NOTE sent one way round the arc's loop (R398). -/
def sendNoteWay (s : State) (east : Bool) (code : Nat) (w0 w1 w2 : Word) : State :=
  let o := wayOut s east
  sendFrame s o.1 { arc := s.fld .circArc F.circArc_INDEX, role := o.2, body := .note code w0 w1 w2, credit := none }

/-- A NOTE of this module sent once each way round its arc's loop (R398). -/
def sendNote (s : State) (code : Nat) (w0 w1 w2 : Word) : State :=
  sendNoteWay (sendNoteWay s true code w0 w1 w2) false code w0 w1 w2

/-! ### Receiving: the retry protocol and lane maps (R401, R402, R412) -/

/-- LSEQ a is at or before b, modulo 1024 (R401: at most 512 are outstanding). -/
def lseqLe (a b : Nat) : Bool := decide ((b + 1024 - a % 1024) % 1024 < 512)

/-- The stream of an arc, as twice the arc plus the stream, and the SSEQ of a block frame. -/
def Frame.sseq (f : Frame) : Option (Nat × Nat) :=
  match f.body with | .block q _ _ _ _ => some (2 * f.arc + f.role % 2, q) | _ => none

/-- NB of a stream of an arc (R400): STREAM_LEN for this position's arc; what a hub takes for another arc, whose NB no
register tells, is all the values an SSEQ can have (log entry 57). -/
def streamSpan (s : State) (st : Nat) : Nat :=
  if st / 2 = s.fld .circArc F.circArc_INDEX ∧ s.fld .circArc F.circArc_VALID = 1 then
    if st % 2 = 0 then s.fld .circStreamLen F.circStreamLen_NB_E else s.fld .circStreamLen F.circStreamLen_NB_W
  else 2 ^ 24

/-- Frames acknowledged on a logical lane (R401), with the highest SSEQ acknowledged of each stream (R423). -/
def ackFrames (s : State) (p : Port) (lane lack : Nat) : State :=
  let x := s.port p
  let hit (f : SentFrame) : Bool := f.lane == lane && lseqLe f.lseq lack
  let hi := (x.unacked.filter hit).foldl (fun (t : Assoc Nat Nat) f => match f.frame.sseq with
    | some (st, q) =>
      let nb := streamSpan s st
      (match t.find st with
        | some old => if (q + nb - old) % nb < nb / 2 then t.put st q else t
        | none => t.put st q)
    | none => t) x.ackHi
  s.setPort p { x with unacked := x.unacked.filter (fun f => !hit f), ackHi := hi
                       progress := if x.unacked.any hit then x.progress.put lane s.now else x.progress
                       resend := x.resend.filter (fun r => !(r.1 == lane && lseqLe r.2 lack)) }

/-- Frames of a lane from an LSEQ on are to be sent again (R401). -/
def resendFrom (s : State) (p : Port) (lane from_ : Nat) : State :=
  let x := s.port p
  let again := (x.unacked.filter (fun f => f.lane == lane && lseqLe from_ f.lseq)).map (fun f => (f.lane, f.lseq))
  s.setPort p { x with resend := x.resend.filter (fun r => r.1 ≠ lane) ++ again }

/-- Credits of an outgoing entry returned by the peer (R402). -/
def gainCredits (s : State) (p : Port) (e n : Nat) : State :=
  let x := s.port p
  s.setPort p { x with credits := x.credits.put e (x.credits.at_ 0 e + n) }

/-- A credit of the peer's entry to be returned (R402). -/
def oweCredit (s : State) (p : Port) (e : Nat) : State :=
  let x := s.port p
  s.setPort p { x with owed := x.owed.put e (x.owed.at_ 0 e + 1) }

/-- The receiver picks the lowest spare for a logical lane and sends SUBST, or queues the trigger (R411 to R413);
without a spare the lane is lost. -/
def startSubst (s : State) (p : Port) (logical : Nat) (hard : Bool) : State :=
  let x := s.port p
  if x.sub.isSome then
    if x.subQ.any (fun e => e.1 = logical) ∨ (x.sub.map (fun e => e.logical)) = some logical then s
    else s.setPort p { x with subQ := x.subQ ++ [(logical, hard)] }
  else
    let old := (laneCarrying s p logical).getD logical
    match (lanesIn s p 3).head? with
    | none => loseLane s p old
    | some sp =>
      let s := if hard then s else setLane s p sp 4
      let s := s.setPort p { x with sub := some ⟨logical, old, sp, hard⟩ }
      sendLink s p 5 (BitVec.ofNat 64 (logical * 256 + sp)) 0 0

/-- The next queued trigger of a port direction starts (R413). -/
def nextSubst (s : State) (p : Port) : State :=
  let x := s.port p
  match x.subQ with
  | [] => s.setPort p { x with sub := none }
  | (l, hard) :: rest => startSubst (s.setPort p { x with sub := none, subQ := rest }) p l hard

/-- The map switches to the spare on the first good frame there (R412): the old lane fails, SUBST_DONE is sent. -/
def switchMap (s : State) (p : Port) (b : Subst) (lseq : Nat) : State :=
  let s := setLane s p b.old 5
  let s := (setLane s p b.spare 2).setFld (laneA p b.spare) F.circLaneA_LOGICAL b.logical
  nextSubst (sendLink s p 6 (BitVec.ofNat 64 (b.logical * 2 ^ 24 + b.spare * 2 ^ 16 + lseq % 1024)) 0 0) p

/-- The logical lane an ACTIVE physical lane carries. -/
def carried (s : State) (h : RxHead) : Option Nat :=
  if laneState s h.port h.phys = 2 then some (s.fld (laneA h.port h.phys) F.circLaneA_LOGICAL) else none

/-- The logical lane of an arriving frame, after the map switch that the first good frame on a spare makes. -/
def rxLane (s : State) (h : RxHead) : Option Nat × State :=
  match (s.port h.port).sub with
  | some b =>
    if b.spare = h.phys ∧ h.good then (some b.logical, switchMap s h.port b h.lseq) else (carried s h, s)
  | none => (carried s h, s)

/-- A NAK sent for a logical lane (R398, R401). -/
def sendNak (s : State) (p : Port) (phys lane : Nat) : State :=
  let s := s.addFld (laneB p phys) F.circLaneB_NAKS 1
  sendLink s p 3 (BitVec.ofNat 64 (lane * 1024 + (s.port p).rx.at_ 0 lane % 1024)) 0 0

/-- What the link layer makes of an arriving frame: discarded; or taken, with its logical lane (none on a spare). -/
inductive Taken where
  | no (s : State)
  | yes (s : State) (lane : Option Nat)

/-- A frame arrives (R397, R401, R402): good and in order it is taken, with its LACK and credits; any other is
discarded and answered with NAK. An IDLE frame uses no LSEQ. A frame of a reserved TYPE or code is discarded with a LINK
fault (R396, R398). -/
def receive (s : State) (h : RxHead) (idle : Bool) : Taken :=
  if portState s h.port < 2 ∨ 3 < portState s h.port then .no s
  else
    let r := rxLane s h
    let s := r.2.addFld (laneA h.port h.phys) F.circLaneA_CORR_SYM h.corr
    let s := s.addFld (laneB h.port h.phys) F.circLaneB_UNCORR_CW h.uncorr
    match r.1 with
    | none => if h.good ∧ laneState s h.port h.phys = 3 then .yes s none else .no s
    | some lane =>
      let next := (s.port h.port).rx.at_ 0 lane
      if !h.good then .no (sendNak s h.port h.phys lane)
      else if !idle && h.lseq % 1024 != next % 1024 then .no (sendNak s h.port h.phys lane)
      else
        let x := s.port h.port
        let s := if idle then s else s.setPort h.port { x with rx := x.rx.put lane ((next + 1) % 1024) }
        let s := gainCredits (ackFrames s h.port lane h.lack) h.port h.cpart h.ccnt
        if h.reserved then
          .no (match entryOfLane (peerTable s h.port) lane with
            | some e => oweCredit (portFault s .frameBad h.port 0) h.port e
            | none => portFault s .frameBad h.port 0)
        else .yes s (some lane)

/-- The frame's ARC and ROLE match the entry that owns its lane in the announced table (R407); the entry. -/
def partMatch (s : State) (h : RxHead) (lane : Option Nat) : Option Nat :=
  match lane with
  | none => none
  | some l =>
    match entryOfLane (peerTable s h.port) l with
    | none => none
    | some e =>
      let t := partEntry (peerTable s h.port) e
      if t.arc = h.arc ∧ t.role = h.role then some e else none

/-- A frame passed through (R407): on the opposite port on the entry with the same ARC and ROLE, turned at the
outermost live member of its arc, and back onto its forward lanes at the loop's other end (R62); discarded with PART_MISMATCH where no entry has them. -/
def passFrame (s : State) (h : RxHead) (e : Nat) (body : FrameBody) : State :=
  let east := movesEast h.port
  let mine := isMember s h.arc
  let turn := if h.role = 2 then isFirst s else isLast s
  let (p, role) :=
    if mine ∧ h.role < 2 then wayOut s east
    else if mine ∧ turn then wayOut s (h.role == 2)
    else (outPort s east, h.role)
  match entryFor (tableOf s p) h.arc role with
  | none => oweCredit (portFault s .partMismatch h.port 0) h.port e
  | some _ => sendFrame s p { arc := h.arc, role := role, body := body, credit := some (h.port, e) }

end Sys2Proof.Machine
end

