-- ==== Sys2Proof/Machine/Uplink.lean ====
section
/-! DEFINITION. What the module says to the control node, cohorts, and the ends of sequences (R46, R477 to R481,
R492, R497). -/

namespace Sys2Proof.Machine

/-! ### The uplink (R477, R478, R497) -/

/-- A message sent to the control node while a session exists (R477, R479). -/
def sendUp (s : State) (typ rtag : Nat) (body : List Byte) : State :=
  if s.fld .mldLinkStatus F.mldLinkStatus_STATE = 3 then
    let m := s.mld
    { s with mld := { m with nextUp := m.nextUp + 1
                             sent := m.sent ++ [⟨typ, rtag, s.fld .mldLinkStatus F.mldLinkStatus_SESSION, m.nextUp, body⟩] } }
  else s

/-- The body of a BLOCK_REQ (R478). -/
def BlockReq.body (r : BlockReq) : List Byte :=
  leBytes 8 (r.stream.val * 2 ^ 63 + r.first % 2 ^ 24 * 2 ^ 32 + r.count % 2 ^ 24) ++ leBytes 8 r.dest

/-- Blocks asked of the control node; the request stays open until it is answered, and is issued again in a new
session (R480, R497). -/
def requestBlocks (s : State) (r : BlockReq) : State :=
  let s := sendUp s 0x86 0 r.body
  { s with mld := { s.mld with blockReqs := s.mld.blockReqs ++ [r] } }

/-! ### Sequences -/

/-- The tokens generated so far, committed ones included (R492). -/
def Seq.count (q : Seq) : Nat :=
  ofLe ((q.head.drop 12).take 4) + (q.toks.length - q.base)

/-- The body of a SEQ_END (R478). -/
def seqEndBody (id reason count : Nat) : List Byte :=
  let w := id % 2 ^ 32 * 2 ^ 32 + reason % 16 * 2 ^ 24 + count % 2 ^ 24
  leBytes 8 w ++ leBytes 8 (2 ^ 64 - 1 - w)

/-- SEQ_END sent, or kept for the next session while there is none (R480, R492). -/
def sendSeqEnd (s : State) (id reason count : Nat) : State :=
  if s.fld .mldLinkStatus F.mldLinkStatus_STATE = 3 then sendUp s 0x83 0 (seqEndBody id reason count)
  else { s with mld := { s.mld with held := s.mld.held ++ [(id, reason, count)] } }

/-- Sequences that a test names are lost: each that has not ended sends SEQ_END LOST, and none of them stays
(R481, R519). -/
def loseSeqs (s : State) (f : Seq → Bool) : State :=
  let s' := (s.mld.seqs.filter (fun q => f q && !q.ended)).foldl (fun s q => sendSeqEnd s q.id 8 q.count) s
  { s' with mld := { s'.mld with seqs := s'.mld.seqs.filter (fun q => !f q) } }

/-! ### Cohorts -/

/-- STATE of a cohort (R46): 0 FREE, 1 WAIT_E, 2 RUN_E, 3 WAIT_W, 4 RUN_W, 5 SAMPLE, 6 HELD. -/
def cohortState (s : State) (c : Fin 8) : Nat := s.fld (.circCohort c) F.circCohort_STATE
/-- A cohort enters a state; FREE and HELD end its token intervals (R57). -/
def setCohort (s : State) (c : Fin 8) (st : Nat) : State :=
  let s := s.setFld (.circCohort c) F.circCohort_STATE st
  { s with circ := { s.circ with entered := s.circ.entered.put c s.now
                                 tokenAt := if st = 0 ∨ st = 6 then s.circ.tokenAt.drop_ c else s.circ.tokenAt } }

/-- A cohort is stopped by a fault: HELD, and its sequences end LOST (R47, R55, R481). -/
def holdCohort (s : State) (c : Fin 8) : State :=
  let s := setCohort s c 6
  loseSeqs s (fun q => q.cohort == some c && (q.st == .prefill || q.st == .decode || q.st == .ending))

/-- Every cohort that runs is HELD (R47, R419, R517). -/
def holdCohorts (s : State) : State :=
  (List.finRange 8).foldl (fun s c => if 2 ≤ cohortState s c ∧ cohortState s c ≤ 5 then holdCohort s c else s) s

end Sys2Proof.Machine
end

