-- ==== Sys2Proof/Machine/Ctrl.lean ====
section
/-! DEFINITION. The frames of the control link (R474, R475): retry, credits, the rebuilding of messages and their order. -/

namespace Sys2Proof.Machine

/-- STATE of the control link (R476): 0 DOWN, 1 TRAIN, 2 LINKED, 3 SESSION, 4 LOST. -/
def linkState (s : State) : Nat := s.fld .mldLinkStatus F.mldLinkStatus_STATE

/-- Frames flow on the control link (R476). -/
def ctrlUp (s : State) : Bool := linkState s == 2 || linkState s == 3

/-- The link layer replaced. -/
def State.setCtrl (s : State) (x : CtrlSt) : State := { s with mld := { s.mld with ctrl := x } }

/-- The link layer as the link becomes LINKED (R475): nothing is outstanding, and the peer's first credits, which no rule gives,
are a free value (log entry 54). -/
def ctrlBegin (s : State) : State :=
  { (s.setCtrl { CtrlSt.reset with credits := Config.freeNat s.fresh % 65536, next := s.mld.sent.length
                                   heard := (List.range 4).foldl (fun t l => t.put l s.now) [] }).burn 1 with inbox := [] }

/-! ### Receiving -/

/-- Frames acknowledged on a lane (R401). -/
def CtrlSt.ack (x : CtrlSt) (lane lack now : Nat) : CtrlSt :=
  let hit (f : CtrlSent) : Bool := f.lane == lane && lseqLe f.lseq lack
  { x with unacked := x.unacked.filter (fun f => !hit f)
           progress := if x.unacked.any hit then x.progress.put lane now else x.progress
           resend := x.resend.filter (fun r => !(r.1 == lane && lseqLe r.2 lack)) }

/-- Frames of a lane from an LSEQ on are to be sent again (R401). -/
def CtrlSt.resendFrom (x : CtrlSt) (lane from_ : Nat) : CtrlSt :=
  let again := (x.unacked.filter (fun f => f.lane == lane && lseqLe from_ f.lseq)).map (fun f => (f.lane, f.lseq))
  { x with resend := x.resend.filter (fun r => r.1 ≠ lane) ++ again }

/-- A frame of the control link arrives (R397, R401, R474, R475): whether it is taken. One that is not good or not in order is
discarded and answered with NAK; one of a reserved TYPE is discarded with a LINK fault. IDLE uses no LSEQ. -/
def ctrlTake (s : State) (f : CtrlHead) : Bool × State :=
  if !ctrlUp s then (false, s)
  else
    let x := s.mld.ctrl
    let lane := f.lane.val
    let next := x.rx.at_ 0 lane
    if !f.good || (f.typ != 0 && f.lseq % 1024 != next % 1024) then
      (false, s.setCtrl { x with naks := if x.naks.contains lane then x.naks else x.naks ++ [lane] })
    else
      let x := x.ack lane f.lack s.now
      let s := s.setCtrl { x with rx := if f.typ = 0 then x.rx else x.rx.put lane ((next + 1) % 1024)
                                  credits := x.credits + f.ccnt, heard := x.heard.put lane s.now }
      if f.typ = 0 ∨ f.typ = 1 ∨ f.typ = 6 then (true, s) else (false, s.raise (Report.plain .frameBad 2 0 .mld 0))

/-- Every frame of a message has come. -/
def CtrlBuild.whole (b : CtrlBuild) : Bool :=
  match b.last with | some n => (List.range (n + 1)).all (fun i => b.subs.contains i) | none => false

/-- How far a message follows the one whose turn it is. -/
def turnGap (s : State) (tag : Nat) : Nat := (tag + 2 ^ 24 - s.mld.ctrl.turn % 2 ^ 24) % 2 ^ 24

/-- A MSG frame put to the message it belongs to (R404, R475): whether that message is now whole. At most 8 are rebuilt at
once; a frame of a message that does not follow the last one handed on by 1 to 8 is discarded with a LINK fault, but for the
HELLO that begins a session anew from MSEQ 0 (log entry 54). -/
def rebuildMsg (s : State) (f : CtrlHead) (hello : Bool) : Bool × State :=
  let x := s.mld.ctrl
  let tag := f.tag % 2 ^ 24
  let old := x.building.find? (fun b => b.tag == tag)
  let fits := decide (turnGap s tag < 8) || (hello && tag == 0)
  let owe (s : State) (n : Nat) : State := s.setCtrl { s.mld.ctrl with owed := s.mld.ctrl.owed + n }
  if fits = false ∨ 256 ≤ f.sub ∨ (old.isNone ∧ 8 ≤ x.building.length) then
    (false, owe (s.raise (Report.plain .frameBad 2 0 .mld 0)) 1)
  else
    let b := old.getD ⟨tag, [], none⟩
    if b.subs.contains f.sub then (false, owe s 1)
    else
      let b : CtrlBuild := { b with subs := b.subs ++ [f.sub], last := if f.eot then some f.sub else b.last }
      let rest := x.building.filter (fun c => c.tag != tag)
      if b.whole then (true, owe (s.setCtrl { x with building := rest }) b.subs.length)
      else (false, s.setCtrl { x with building := rest ++ [b] })

/-- The next message is the one after this. -/
def takeTurn (s : State) (tag : Nat) : State := s.setCtrl { s.mld.ctrl with turn := (tag + 1) % 2 ^ 24 }

/-- A frame of a message comes (R474, R475): once the message is whole and its turn has come, it acts; before its turn it
waits, as the command that hands it on. -/
def overLink (again : MsgHead → Instr) (h : MsgHead) (hello : Bool) (act : State → State) (s : State) : State :=
  match h.frame with
  | none => act s
  | some f =>
    let r := ctrlTake s f
    if r.1 = false ∨ f.typ ≠ 1 then r.2
    else
      let w := rebuildMsg r.2 f hello
      let tag := f.tag % 2 ^ 24
      if w.1 = false then w.2
      else if turnGap w.2 tag = 0 then act (takeTurn w.2 tag)
      else if hello ∧ tag = 0 then act (takeTurn { w.2 with inbox := [] } tag)
      else { w.2 with inbox := w.2.inbox ++ [(tag, again { h with frame := none })] }

/-- The message that waits and whose turn has come, with the state in which it is handed on (R475). -/
def dueMessage (s : State) : Option (Instr × State) :=
  if !ctrlUp s then none
  else match s.inbox.find? (fun e => turnGap s e.1 = 0) with
    | some e => some (e.2, takeTurn { s with inbox := s.inbox.filter (fun o => o.1 ≠ e.1) } e.1)
    | none => none

/-! ### Sending -/

/-- Frames of a message of so many body bytes (R474, R477). -/
def framesOf (n : Nat) : Nat := (40 + n + 255) / 256

/-- Up to 255 credits travel in each frame sent (R395, R402). -/
def CtrlSt.pay (x : CtrlSt) : CtrlSt := { x with owed := x.owed - 255 }

/-- A frame leaves on a lane (R397, R401). -/
def CtrlSt.put (x : CtrlSt) (lane now : Nat) (f : Nat × Nat ⊕ Nat) : CtrlSt :=
  let n := x.lseq.at_ 0 lane
  { x.pay with lseq := x.lseq.put lane ((n + 1) % 1024), unacked := x.unacked ++ [⟨lane, n, f⟩]
               progress := if x.unacked.any (fun u => u.lane == lane) then x.progress else x.progress.put lane now }

/-- FRAME_TRANSMIT on the control link (R401, R402, R474, R475): a frame to be sent again, a NAK, the next frame of the next
message while a credit and the window of 512 allow, or IDLE. -/
def ctrlTransmit (s : State) : State :=
  if !ctrlUp s then s
  else
    let x := s.mld.ctrl
    match x.resend, x.naks with
    | _ :: rest, _ => (s.setCtrl { x.pay with resend := rest }).addFld .mldLinkStatus F.mldLinkStatus_RETRIES 1
    | [], lane :: rest => s.setCtrl (CtrlSt.put { x with naks := rest } lane s.now (.inr lane))
    | [], [] =>
      match s.mld.sent[x.next]? with
      | none => s.setCtrl x.pay
      | some m =>
        if x.credits = 0 ∨ 512 ≤ x.unacked.countP (fun u => u.lane == x.rot) then s.setCtrl x.pay
        else
          let last := decide (framesOf m.body.length ≤ x.part + 1)
          s.setCtrl (CtrlSt.put { x with credits := x.credits - 1, rot := (x.rot + 1) % 4
                                         next := if last then x.next + 1 else x.next
                                         part := if last then 0 else x.part + 1 } x.rot s.now (.inl (x.next, x.part)))

/-- IDLE on the control link (R474, R475). -/
def ctrlIdle (f : CtrlHead) (s : State) : State := (ctrlTake s f).2

/-- NAK on the control link (R401, R474): a LINK frame of code 0011. -/
def ctrlNak (f : CtrlHead) (w0 : Word) (s : State) : State :=
  let r := ctrlTake s f
  if r.1 ∧ f.typ = 6 ∧ f.tag / 2 ^ 20 % 16 = 3 then
    r.2.setCtrl (r.2.mld.ctrl.resendFrom (bitsOf w0 15 10) (bitsOf w0 9 0))
  else r.2

/-- No LACK progress on a lane of the control link for RETRY_NS with frames outstanding (R401, R475). -/
def ctrlRetry (lane : Nat) (s : State) : State :=
  let x := s.mld.ctrl
  match x.unacked.find? (fun u => u.lane == lane) with
  | none => s
  | some u =>
    if ctrlUp s ∧ x.progress.at_ 0 lane + s.fld .mldLinkCtrl F.mldLinkCtrl_RETRY_NS ≤ s.now then
      s.setCtrl (CtrlSt.resendFrom { x with progress := x.progress.put lane s.now } lane u.lseq)
    else s

/-- A lane has had no good frame for LOST_MS (R476). -/
def laneLost (s : State) : Bool :=
  (List.range 4).any (fun l => decide (s.mld.ctrl.heard.at_ 0 l + s.fld .mldLinkCtrl F.mldLinkCtrl_LOST_MS * 1000000 ≤ s.now))

end Sys2Proof.Machine
end

