-- ==== Sys2Proof/Machine/Circ.lean ====
section
/-! DEFINITION. Circulation (chapter 01): rebuilding blocks from frames, landing in the weight window, pass lists,
residence, forwarding, ownership and the circulating update. -/

namespace Sys2Proof.Machine

/-! ### Streams -/

/-- Blocks in a stream (R400, R443). -/
def streamLen (s : State) (x : StreamId) : Nat :=
  if x = 0 then s.fld .circStreamLen F.circStreamLen_NB_E else s.fld .circStreamLen F.circStreamLen_NB_W

/-- The stream of a ROLE (R63). -/
def streamOfRole (role : Nat) : StreamId := ⟨role % 2, Nat.mod_lt _ (by decide)⟩

/-- How far SSEQ a follows b, modulo NB (R400). -/
def seqGap (nb a b : Nat) : Nat := if nb = 0 then 0 else (a + nb - b % nb) % nb

/-- A block frame may be rebuilt (R404): its SSEQ follows the last block handed on by at most 8. A gradient block
carries the SSEQ of its weight block (R400). -/
def frameInWindow (s : State) (x : StreamId) (q : Nat) : Bool :=
  match (s.stream x).last with
  | none => decide (streamLen s x ≠ 0)
  | some l =>
    let k := seqGap (streamLen s x) q l
    decide (1 ≤ k ∧ k ≤ 8) || (decide (k = 0) && updateMode s && decide (x = 1) && !(s.stream x).lastGrad)

/-- A frame put into the rebuild of its block: the first one of its SSEQ in which its place is open. -/
def Rebuild.takes (r : Rebuild) (q sub : Nat) : Bool :=
  r.sseq == q && (r.frames.find sub).isNone && (match r.last with | some n => decide (sub ≤ n) | none => true)

/-- Every frame of the block has come. -/
def Rebuild.whole (r : Rebuild) : Bool :=
  match r.last with
  | some n => (List.range (n + 1)).all (fun i => (r.frames.find i).isSome)
  | none => false

/-- The block that a whole rebuild makes (R399). -/
def Rebuild.block (r : Rebuild) : Blk :=
  let bytes := (List.range (r.last.getD 0 + 1)).flatMap (fun i => r.frames.at_ [] i)
  { sseq := r.sseq, bytes := bytes, badSize := bytes.length % 32 ≠ 0 ∨ bytes.length < 64 ∨ 16448 < bytes.length
    credits := r.credits }

/-- Whether the module refills a gap of a stream (R424): GATHER, RELOAD or INJECT. -/
def refilling (s : State) (x : StreamId) : Bool :=
  decide (2 ≤ s.fld .circReinjA F.circReinjA_STATE) && s.fld .circReinjA F.circReinjA_STREAM == x.val

/-- Whole blocks handed on in SSEQ order (R404): to landing, or staged behind a gap (R424). -/
def handOn (s : State) (x : StreamId) : Nat → State
  | 0 => s
  | fuel + 1 =>
    let t := s.stream x
    let nb := streamLen s x
    let same := t.building.find? (fun r => match t.last with | some l => r.sseq == l | none => false)
    let next := t.building.find? (fun r => match t.last with | some l => seqGap nb r.sseq l == 1 | none => true)
    match (match same with | some r => some r | none => next) with
    | none => s
    | some r =>
      if r.whole = false then s
      else
        let b := r.block
        let t := { t with building := t.building.erase r, last := some r.sseq
                          lastGrad := (parseHeader (b.bytes.take 32)).grad && t.last == some r.sseq }
        let s := if refilling s x then
            let s := s.setStream x t
            { s with circ := { s.circ with reinj := { s.circ.reinj with later := s.circ.reinj.later ++ [b] } } }
          else s.setStream x { t with arrivals := t.arrivals ++ [b] }
        handOn s x fuel

/-- A frame of a block that lands here (R404); a frame outside the window is discarded with a LINK fault. -/
def rebuildFrame (s : State) (p : Port) (e : Nat) (x : StreamId) (q sub : Nat) (eot : Bool) (bytes : List Byte) : State :=
  let t := s.stream x
  let known := t.building.find? (fun r => r.takes q sub)
  if frameInWindow s x q = false ∨ 64 < sub ∨ (known.isNone ∧ 8 ≤ t.building.length) then
    oweCredit (portFault s .frameBad p 0) p e
  else
    let old := known.getD { sseq := q, frames := [], credits := [], last := none }
    let new := { old with frames := old.frames.put sub bytes, credits := old.credits ++ [(p, e)]
                          last := if eot then some sub else old.last }
    let building := if known.isSome then t.building.map (fun r => if r = old then new else r) else t.building ++ [new]
    let last := match t.last with | none => some ((q + streamLen s x - 1) % streamLen s x) | l => l
    handOn (s.setStream x { t with building := building, last := last }) x 9

/-- Whether a block frame of an arc and role lands here (R407, R429). -/
def landsHere (s : State) (arc role : Nat) (q : Nat) : Bool :=
  isMember s arc && !((s.stream (streamOfRole role)).passing.contains q && decide (role < 2))
    && (decide (role < 2) || (decide (role = 2) && isFirst s) || (decide (role = 3) && isLast s))

/-- BLOCK_FRAME: a block frame arrives (R395, R397, R401, R404, R407, R431). -/
def blockFrame (h : RxHead) (sot eot : Bool) (q sub : Nat) (bytes : List Byte) (s : State) : State :=
  match receive s h false with
  | .no s => s
  | .yes s lane =>
    if 4 ≤ h.port.val then portFault s .spanDiscard h.port 0
    else match partMatch s h lane with
      | none => portFault s .partMismatch h.port 0
      | some e =>
        let x := streamOfRole h.role
        let s := { s with circ := { s.circ with heardAt := some s.now } }
        if landsHere s h.arc h.role q then rebuildFrame s h.port e x q sub eot (bytes.take 256)
        else
          let t := s.stream x
          let passing := if eot then t.passing.erase q else if sot then t.passing ++ [q] else t.passing
          let s := if s.fld .circArc F.circArc_INDEX = h.arc ∧ s.fld .circArc F.circArc_VALID = 1 then
              s.setStream x { t with passing := passing }
            else s
          passFrame s h e (.block q sub sot eot (bytes.take 256))

/-- BLOCK_FRAME (R404). -/
def execBlockFrame (h : RxHead) (sot eot : Bool) (q sub : Nat) (bytes : List Byte) (s : State) : Res :=
  .next (blockFrame h sot eot q sub bytes s)

/-! ### Ownership and backing copies (R35 to R39, R463, R464) -/

/-- An OWN entry (R443). -/
def ownEntry (s : State) (r : Fin 16) : Bool × StreamId × Nat × Nat :=
  let w := s.reg (.circOwn r)
  (bitsOf w 63 63 == 1, ⟨bitsOf w 62 62 % 2, Nat.mod_lt _ (by decide)⟩, bitsOf w 47 24, bitsOf w 23 0)

/-- The entry that owns a block of a stream, with its place in the range. -/
def ownerOf (s : State) (x : StreamId) (q : Nat) : Option (Fin 16 × Nat) :=
  (List.finRange 16).findSome? (fun r =>
    let o := ownEntry s r
    let k := seqGap (streamLen s x) q o.2.2.1
    if o.1 ∧ o.2.1 = x ∧ streamLen s x ≠ 0 ∧ k < o.2.2.2 then some (r, k) else none)

/-- The slot of an owned block (R463). -/
def backSlot (s : State) (r : Fin 16) (k : Nat) : Nat :=
  let below := ((List.finRange 16).filter (fun i => i < r)).map (fun i => if (ownEntry s i).1 then (ownEntry s i).2.2.2 else 0)
  (lpdRegion s .lpdBack).1 + (below.sum + k) * 16448

/-- The slot lies within BACK (R464). -/
def slotFits (s : State) (a : Nat) : Bool := decide (a + 16448 ≤ (lpdRegion s .lpdBack).2)

/-- The stored block that begins at an address of LPDDR5X: its size by its header (R161). -/
def blockAt (s : State) (a : Nat) : List Byte :=
  let h := parseHeader (s.bytes a 32)
  s.bytes a (storedSize (min h.compLen 16384))

/-- A backing copy may be used: it stands in service and passes its check bits. -/
def copyGood (s : State) (a : Nat) : Bool := slotFits s a && tierServes s a 16448 && blockPasses (blockAt s a)

/-- A backing copy written by the hub (R36, R464); beyond BACK it is not written, with a CONFIG fault. -/
def writeCopy (s : State) (a : Nat) (bytes : List Byte) : State :=
  if slotFits s a then (if tierServes s a 16448 then s.pokeClean a bytes else s)
  else s.raise (Report.plain .loadRejected 2 0 .circ a)

/-- Whether a backing copy of an owned block is still to be captured (R38, R39, R429). -/
def uncaptured (s : State) (x : StreamId) (q : Nat) : Bool := s.circ.uncaptured.contains (x, q)

/-! ### The weight window (R33, R251 to R254) -/

/-- Window bytes of an entry that count as held (R33). -/
def WinEntry.held (w : WinEntry) : Nat := if w.grad ∧ w.skip = false then w.plain else w.size

/-- Bytes held by a die's window (R33). -/
def windowHeld (y : DieSt) : Nat := (y.window.map WinEntry.held).sum

/-- The circulation capacity of a die in bytes (R33, R81). -/
def windowCap (s : State) : Nat := (196608 - s.fld .circWindow F.circWindow_RESERVE_KIB) * 1024

/-- The first place at or above an offset of a slice where a block may start (R252). -/
def preSkew (raw : Bool) (off : Nat) : Nat :=
  if raw then (if off % 1024 ≤ 992 then off / 1024 * 1024 + 992 else (off / 1024 + 1) * 1024 + 992)
  else (off + 31) / 32 * 32

/-- Bytes of a die's weight slice. -/
abbrev sliceBytes : Nat := 25165824

/-- Where the next block goes (R251): the skipped stretch, if any, and the start, as offsets in the window. -/
def placeNext (y : DieSt) (raw : Bool) (n : Nat) : Option (Nat × Nat) × Nat :=
  let slice := y.head / sliceBytes
  let off := y.head % sliceBytes
  let start := preSkew raw off
  if start + n ≤ sliceBytes then (none, slice * sliceBytes + start)
  else
    let next := (slice + 1) % 8 * sliceBytes
    (if off = 0 then none else some (y.head, sliceBytes - off), next + preSkew raw 0)

/-- The module address of a window offset of a die (R251). -/
def windowAddr (d : Die) (o : Nat) : Nat := unitBase d .wst (o / sliceBytes % 8) + o % sliceBytes

/-- Whether two stretches meet. -/
def overlaps (a n b m : Nat) : Bool := decide (a < b + m ∧ b < a + n)

/-- The window with the stretch of the next block taken, if a table entry and the addresses are free (R251, R254).
Skipped bytes are free once the window wraps past them. A block that has room by R33 waits all the same while a live
block still stands at the addresses it would take (log entry 53). -/
def allocate (d : Die) (y : DieSt) (raw : Bool) (n : Nat) : Option (DieSt × Nat) :=
  let r := placeNext y raw n
  let a := windowAddr d r.2
  let crossed := match r.1 with | some (o, m) => [(windowAddr d o, m)] | none => []
  let live := y.window.filter (fun w => !(w.skip && (overlaps w.addr w.size a n
    || crossed.any (fun c => overlaps w.addr w.size c.1 c.2) || decide (r.1.isSome ∧ w.addr + w.size = windowAddr d (y.head / sliceBytes * sliceBytes) + sliceBytes))))
  if 16384 ≤ live.countP (fun w => !w.skip) ∨ live.any (fun w => overlaps w.addr w.held a n) then none
  else
    let skip : List WinEntry := crossed.map (fun c =>
      { skip := true, id := 0, addr := c.1, size := c.2, gap := 0, use := 0, state := .forwarding, west := false, sseq := 0
        layer := 0, grad := false, sealed_ := false, plain := 0, failed := false, copy := false, left := 0, header := []
        landing := [], credits := [], sent := 0, run := 0 })
    some ({ y with window := live ++ skip, head := (r.2 + n) % (8 * sliceBytes) }, a)

/-- Bytes of the plain form of a gradient block (R175): BF16 as it is, scaled E4M3 as FP32. -/
def plainBytes (h : Header) : Nat := if h.kind = 6 then 4 * h.plainLen else h.plainLen

/-! ### Pass lists (R48 to R51, R662) -/

/-- The first layer of a stream (R662): by its block of SSEQ 0; the first West layer of inference is H. -/
def firstLayerOf (s : State) (x : StreamId) : Option Nat :=
  if x = 1 ∧ updateMode s = false then some (s.fld .circArc F.circArc_SPLIT) else (s.stream x).firstLayer

/-- The last layer of a stream (R662): by its block of SSEQ NB - 1; the last East layer of inference is H - 1. -/
def lastLayerOf (s : State) (x : StreamId) : Option Nat :=
  if x = 0 ∧ updateMode s = false then some (s.fld .circArc F.circArc_SPLIT - 1) else (s.stream x).lastLayer

/-- The layer a cohort needs after layer l of a stream (R50). -/
def nextLayer (s : State) (x : StreamId) (l : Nat) : Nat :=
  if updateMode s then
    if x = 0 then (if lastLayerOf s x = some l then l else l + 1) else (if l = 0 then 0 else l - 1)
  else if x = 0 then (if lastLayerOf s x = some l then s.fld .circArc F.circArc_SPLIT else l + 1)
  else (if lastLayerOf s x = some l then 0 else l + 1)

/-- Whether a wave of a stream may begin at the next head of its first layer (R69, R70, R73): forward, once no step runs, or
under RELAXED at a member behind the first while its own backward wave ends; backward, once it is due. -/
def waveDue (s : State) (x : StreamId) : Bool :=
  if x = 0 then
    s.circ.wave == 0 || (s.circ.wave == 3 && s.fld .circUpdate F.circUpdate_SYNC == 1 && !isFirst s)
  else s.circ.wave == 2

/-- Whether the head of the first layer of a stream that begins landing is the wave of the step, so that cohorts enter
there (R69, R70). Waves are counted at the first member: there the first head that is due is the wave. The head that
another member sees first may have passed the first member too early: that is a free value, and the next head is the
wave then, for a stream has one head (log entry 24). -/
def waveTaken (s : State) (x : StreamId) : Bool × State :=
  if updateMode s = false then (true, s)
  else if waveDue s x = false then (false, s)
  else if isFirst s ∨ (s.circ.skipped ∧ s.circ.wave ≠ 3) then (true, s)
  else if Config.freeNat s.fresh % 2 = 0 then (true, s.burn 1)
  else
    let s := s.burn 1
    (false, { s with circ := { s.circ with skipped := s.circ.skipped || s.circ.wave != 3 } })

/-- A cohort is placed on the pass list of layer l (R48), at its first layer only where the head is open to it. -/
def placed (s : State) (x : StreamId) (l : Nat) (opened : Bool) (c : Fin 8) : Bool :=
  let w := s.reg (.circCohort c)
  let run := if x = 0 then 2 else 4
  let wait := if x = 0 then 1 else 3
  (bitsOf w 63 61 == run && bitsOf w 56 48 == l)
    || (firstLayerOf s x == some l && bitsOf w 63 61 == wait && decide (1 ≤ bitsOf w 47 39)
        && (x != 0 || bitsOf w 0 0 == 0) && opened)

/-- A cohort of the stream that sees another layer than its own arrive is HELD (R51). -/
def outOfOrder (s : State) (x : StreamId) (l : Nat) (c : Fin 8) : Bool :=
  let w := s.reg (.circCohort c)
  bitsOf w 63 61 == (if x = 0 then 2 else 4) && bitsOf w 56 48 != l
    && !((s.stream x).runs.any (fun r => r.cohorts.contains c && decide (r.layer = lastLayerOf s x)))

/-- The waves of update mode at the head of a stream's first layer (R69 to R74): a wave that is taken begins, and under
RELAXED the step ends as the next head follows the backward wave. DAMAGED falls as the forward wave of the next run
begins, a moment no rule gives (log entry 24). -/
def waveHead (s : State) (x : StreamId) (taken : Bool) : State :=
  if taken then
    if x = 0 then
      let s := if s.circ.wave = 3 then endStep s else s
      { s.setFld .circUpdate F.circUpdate_DAMAGED 0 with
        circ := { s.circ with wave := 1, fwdOver := false, released := false, skipped := false } }
    else { s with circ := { s.circ with wave := 3, skipped := false, issuing := isFirst s } }
  else if x = 1 ∧ s.circ.wave = 3 then
    if s.fld .circUpdate F.circUpdate_SYNC = 1 then endStep s else { s with circ := { s.circ with issuing := false } }
  else s

/-- The pass list of layer l is fixed as its head begins landing (R48 to R51, R517). CLASS counts East heads from the
first since reset, which is number 1, an origin no rule gives (log entry 55). -/
def fixPasses (s : State) (x : StreamId) (l : Nat) : State :=
  let broken := s.fld .fcuStatus F.fcuStatus_SCHED_BROKEN = 1
  let first := firstLayerOf s x = some l ∧ ¬ broken
  let s := (List.finRange 8).foldl (fun s c => if outOfOrder s x l c then
      (holdCohort s c).raise { Report.plain .layerOrder 2 0 .circ 0 with detail := c.val } else s) s
  let r := if first then waveTaken s x else (false, s)
  let s := r.2
  let on := if broken then [] else (List.finRange 8).filter (placed s x l r.1)
  let s := on.foldl (fun s c =>
    let s := if cohortState s c = 1 then
        (setCohort s c 2).setFld (.circCohort c) F.circCohort_CLASS ((s.stream 0).heads % 3)
      else if cohortState s c = 3 then setCohort s c 4 else s
    s.setFld (.circCohort c) F.circCohort_LAYER (nextLayer s x l % 512)) s
  let t := s.stream x
  let s := s.setStream x { t with runCount := t.runCount + 1
                                  runs := t.runs ++ [{ number := t.runCount + 1, layer := l, cohorts := on, landed := false }] }
  if updateMode s ∧ first then waveHead s x r.1 else s

/-- The times taken at the head of a layer. A head arrives on the beat on which its landing begins (log entry 55). At the
first East layer a circuit ends and is measured (R42, R45); at layer H of the West stream OFFSET_NS is taken, once for
each East head (R43). -/
def headTimes (s : State) (x : StreamId) (l : Nat) : State :=
  let t := s.stream x
  if x = 0 then
    if firstLayerOf s 0 = some l then
      s.setStream 0 { t with headAt := some s.now, heads := t.heads + 1, circuit := t.headAt.map (fun a => s.now - a) }
    else s
  else if l = s.fld .circArc F.circArc_SPLIT then
    let s' := s.setStream 1 { t with headAt := some s.now, heads := t.heads + 1 }
    match (s.stream 0).headAt, t.headAt with
    | some a, some b => if b < a then s'.setFld .circPhase F.circPhase_OFFSET_NS (s.now - a) else s'
    | some a, none => s'.setFld .circPhase F.circPhase_OFFSET_NS (s.now - a)
    | none, _ => s'
  else s

/-! ### Landing -/

/-- The window entry of a block that begins landing. -/
def landEntry (b : Blk) (h : Header) (x : StreamId) (a : Nat) (copy : Bool) : WinEntry :=
  { skip := false, id := h.id, addr := a, size := b.bytes.length, gap := 0, use := 0, state := .landing, west := x == 1
    sseq := b.sseq, layer := h.layer, grad := h.grad, sealed_ := h.sealed_, plain := if h.grad then plainBytes h else 0
    failed := b.badSize || !blockPasses b.bytes || h.ndie == h.die, copy := copy, left := b.bytes.length, header := []
    landing := b.bytes, credits := if copy then [] else b.credits, sent := 0, run := 0 }

/-- A block begins landing on the die named in its header (R30, R167), if there is room (R33, R254). -/
def landOn (s : State) (d : Die) (x : StreamId) (b : Blk) (copy : Bool) : Option State :=
  let h := parseHeader (b.bytes.take 32)
  let y := s.die d
  let n := if h.grad then max (plainBytes h) 32 else b.bytes.length
  if windowHeld y < windowCap s then
    match allocate d y (h.rawEngine && !h.grad) n with
    | none => none
    | some (y, a) =>
      let t := s.stream x
      let s := s.setDie d { y with window := y.window ++ [landEntry b h x a copy] }
      some (if copy then s else s.setStream x { t with order := t.order ++ [(d, a)] })
  else none

/-- The elements of a weight block's plain form (R163). -/
def elementsOf (h : Header) : Nat :=
  match h.kind with | 4 => h.plainLen / 2 | 5 => h.plainLen / 2208 * 4096 | _ => h.plainLen

/-- The zeroed gradient block of a weight block (R71, R175), tagged with the running step (log entry 24). GRAD_FMT 10
and 11, which R75 does not give, act as 00; a gradient that would pass the largest plain form of R163 is cut to
16,384 bytes (log entry 55). -/
def gradientOf (s : State) (q : Nat) (h : Header) : Blk :=
  let scaled := s.fld .circUpdate F.circUpdate_GRAD_FMT = 1
  let n := if scaled then min (elementsOf h) 16384 else min (2 * elementsOf h) 16384
  let g := { h with grad := true, sealed_ := false, codec := 0, kind := if scaled then 6 else 4, table := 0, ttag := 0
                    plainLen := n, stepTag := (s.fld .circUpdate F.circUpdate_STEP + 1) % 65536, bscale := 0 }
  { sseq := q, bytes := assemble g (List.replicate n 0), badSize := false, credits := [] }

/-- The staging slot of a gap block (R424). -/
def stageSlot (s : State) (q : Nat) : Nat :=
  let x : StreamId := ⟨s.fld .circReinjA F.circReinjA_STREAM % 2, Nat.mod_lt _ (by decide)⟩
  s.fld .circReinjCtrl F.circReinjCtrl_STAGE_BASE + seqGap (streamLen s x) q (s.fld .circReinjA F.circReinjA_FIRST) * 16448

/-- Blocks in the gap. -/
def gapCount (s : State) : Nat :=
  let x : StreamId := ⟨s.fld .circReinjA F.circReinjA_STREAM % 2, Nat.mod_lt _ (by decide)⟩
  seqGap (streamLen s x) (s.fld .circReinjA F.circReinjA_LAST) (s.fld .circReinjA F.circReinjA_FIRST) + 1

/-- The next block of a stream to land, and the state once it has been taken: arrivals, then the staged gap in SSEQ
order, then the blocks staged behind it (R424). A gap block that fails its check is asked for once. -/
def nextBlock (s : State) (x : StreamId) : Option (Blk × State) :=
  let t := s.stream x
  match t.arrivals with
  | b :: rest => some (b, s.setStream x { t with arrivals := rest })
  | [] =>
    if refilling s x ∧ s.fld .circReinjA F.circReinjA_STATE = 4 then
      let r := s.circ.reinj
      if r.next < gapCount s then
        let q := (s.fld .circReinjA F.circReinjA_FIRST + r.next) % streamLen s x
        if r.staged.contains q then
          let bytes := blockAt s (stageSlot s q)
          let s' := { s with circ := { s.circ with reinj := { r with next := r.next + 1 } } }
          if blockPasses bytes ∨ r.again.contains q then some ({ sseq := q, bytes := bytes, badSize := false, credits := [] }, s')
          else none
        else none
      else if r.hi ≠ some (s.fld .circReinjA F.circReinjA_LAST) then none
      else match r.later with
        | b :: rest => some (b, { s with circ := { s.circ with reinj := { r with later := rest } } })
        | [] => none
    else none

/-- A gap block that fails its check in staging is asked for once of the control node (R424). -/
def askAgain (s : State) (x : StreamId) : State :=
  let r := s.circ.reinj
  if (s.stream x).arrivals = [] ∧ refilling s x ∧ s.fld .circReinjA F.circReinjA_STATE = 4 ∧ r.next < gapCount s then
    let q := (s.fld .circReinjA F.circReinjA_FIRST + r.next) % streamLen s x
    if r.staged.contains q ∧ ¬ r.again.contains q ∧ blockPasses (blockAt s (stageSlot s q)) = false then
      let s := { s with circ := { s.circ with reinj := { r with staged := r.staged.filter (fun v => v ≠ q)
                                                                got := r.got.drop_ q, again := r.again ++ [q] } } }
      requestBlocks s { stream := x, first := q, count := 1, dest := stageSlot s q }
    else s
  else s

/-- The next note number. -/
def tickNote (s : State) : State := { s with circ := { s.circ with nextNote := s.circ.nextNote + 1 } }

/-- Slots in the staging area (R424, R442). -/
def stageSlots (s : State) : Nat := s.fld .circReinjCtrl F.circReinjCtrl_STAGE_MIB * 1048576 / 16448

/-- D gathers the next piece of a gap that ends at hi, from `first` on (R424): as many blocks as staging holds. -/
def gather (s : State) (x : StreamId) (first hi : Nat) : State :=
  let nb := streamLen s x
  let room := max 1 (stageSlots s - s.circ.reinj.later.length)
  let n := min room (seqGap nb hi first + 1)
  let last := (first + n - 1) % nb
  let a := first * 2 ^ 40 + last * 2 ^ 16 + 2 * 2 ^ 13 + x.val * 2 ^ 12
  let s := s.setReg .circReinjA (BitVec.ofNat 64 a)
  let s := { s with circ := { s.circ with reinj := { s.circ.reinj with
    hi := some hi, staged := [], got := [], next := 0, done := [], note := s.circ.nextNote, since := s.now, asked := [], again := [] } } }
  tickNote (sendNote s 7 (BitVec.ofNat 64 (x.val * 2 ^ 63 + first * 2 ^ 32 + last * 2 ^ 8))
    (BitVec.ofNat 64 (s.position + s.circ.nextNote % 2 ^ 32 * 2 ^ 32)) (BitVec.ofNat 64 (s.fld .circReinjCtrl F.circReinjCtrl_STAGE_BASE)))

/-- D has the bound of a stream (R423, R424): the gap runs from the block after the last one received whole; later
blocks are staged. -/
def openGap (s : State) (x : StreamId) (hi : Nat) : State :=
  let t := s.stream x
  let nb := streamLen s x
  match t.last with
  | none => s.setFld .circReinjA F.circReinjA_STATE 0
  | some l =>
    let k := seqGap nb hi l
    let s := s.setStream x { t with building := [] }
    if k = 0 ∨ nb ≤ 2 * k then s.setFld .circReinjA F.circReinjA_STATE 0
    else
      let s := (s.setReg .circReinjB (BitVec.ofNat 64 (s.fld .circReinjB F.circReinjB_GAPS)))
      gather (s.setStream x { s.stream x with last := some hi }) x ((l + 1) % nb) hi

/-- Staging is empty: D asks for the next piece of the gap, or the gap is filled and arrivals land directly again
(R424, R442); a further gap then opens. -/
def endRefill (s : State) (x : StreamId) : State :=
  let r := s.circ.reinj
  let last := s.fld .circReinjA F.circReinjA_LAST
  if refilling s x ∧ s.fld .circReinjA F.circReinjA_STATE = 4 ∧ gapCount s ≤ r.next then
    if r.hi ≠ some last then gather s x ((last + 1) % max (streamLen s x) 1) (r.hi.getD last)
    else if r.later = [] then
      let s := (s.setFld .circReinjA F.circReinjA_STATE 0).addFld .circReinjB F.circReinjB_GAPS 1
      match r.bounds with
      | [] => s
      | (y, hi) :: rest => openGap { s with circ := { s.circ with reinj := { s.circ.reinj with bounds := rest } } } y hi
    else s
  else s

/-- The layer bookkeeping of a block that begins landing (R43, R48, R662). A head is the block of SSEQ 0 or one whose
LAYER differs from that of the block before it; the first block here of another SSEQ is none, for what came before it
is not known (log entry 55). -/
def landLayer (s : State) (x : StreamId) (q : Nat) (h : Header) : State :=
  if h.grad then s
  else
    let t := s.stream x
    let nb := streamLen s x
    let isHead := q = 0 ∨ (t.layer.isSome ∧ t.layer ≠ some h.layer)
    let t := { t with layer := some h.layer
                      firstLayer := if q = 0 then some h.layer else t.firstLayer
                      lastLayer := if q + 1 = nb then some h.layer else t.lastLayer }
    let s := s.setStream x t
    let s := if q + 1 = nb then
        (t.runs.filter (fun r => r.layer = h.layer)).foldl (fun s r => r.cohorts.foldl (fun s c =>
          if cohortState s c = (if x = 0 then 2 else 4) ∧ s.fld (.circCohort c) F.circCohort_LAYER = h.layer + 1 then
            s.setFld (.circCohort c) F.circCohort_LAYER (nextLayer s x h.layer % 512)
          else s) s) s
      else s
    if isHead then fixPasses (headTimes s x h.layer) x h.layer else s

/-- What update mode notes of a West block that begins landing at its owner (R72, R74): its gradient of the running step
has passed, and then the block has come round again, so that the gradient behind it is the sealed one. -/
def noteGradient (s : State) (q : Nat) (h : Header) : State :=
  if (ownerOf s 1 q).isNone then s
  else if h.grad then
    if h.sealed_ = false ∧ s.circ.wave = 3 then { s with circ := { s.circ with grads := s.circ.grads.put q 1 } } else s
  else if s.circ.grads.at_ 0 q = 1 then { s with circ := { s.circ with grads := s.circ.grads.put q 2 } }
  else s

/-- A landing entry is put in the run that its block begins or goes on with (R48, R662). -/
def setRun (s : State) (x : StreamId) (d : Die) : State :=
  let y := s.die d
  match y.window.getLast? with
  | some w => if w.skip then s
      else s.setDie d { y with window := y.window.dropLast ++ [{ w with run := (s.stream x).runCount }] }
  | none => s

/-- BLOCK_LANDING_START: the next block of a stream begins landing (R33, R48, R71, R167, R661). -/
def landingStart (x : StreamId) (s : State) : State :=
  if s.fld .circRingConf F.circRingConf_ENABLE = 0 ∨ passesAll s then s
  else
    let s := askAgain s x
    match nextBlock s x with
    | none => s
    | some (b, s') =>
      let h := parseHeader (b.bytes.take 32)
      let d : Die := ⟨h.die % 2, Nat.mod_lt _ (by decide)⟩
      match (landOn s' d x b false).bind (fun s => if h.ndie = h.die then landOn s (1 - d) x b true else some s) with
      | none => s
      | some s' =>
        let s' := setRun (landLayer { s' with circ := { s'.circ with heardAt := some s.now } } x b.sseq h) x d
        let s' := if updateMode s' ∧ x = 1 then noteGradient s' b.sseq h else s'
        let s' := if updateMode s' ∧ x = 1 ∧ h.grad = false ∧ s'.circ.issuing then
            let t := s'.stream x
            s'.setStream x { t with arrivals := gradientOf s' b.sseq h :: t.arrivals }
          else s'
        let t := s'.stream x
        endRefill (s'.setStream x { t with begun := true }) x

/-- BLOCK_LANDING_START (R33). -/
def execBlockLandingStart (x : StreamId) (s : State) : Res := .next (landingStart x s)

/-! ### Residence (R34, R37, R38, R253, R255) -/

/-- The plain form of a gradient block in the window (R175), each byte marked where it could not be decoded. -/
def gradientPlain (s : State) (d : Die) (w : WinEntry) (bytes : List Byte) : List (Byte × Bool) :=
  let h := parseHeader (bytes.take 32)
  let tab := if h.codec = 1 then epcTable s d h.table else none
  let r := decodePayload h ((tab.map (fun t => t.lens)).getD []) ((bytes.drop 32).take h.compLen)
  let bad := w.failed || !h.ok || decide (r.cause ≠ 0)
    || (h.codec == 1 && (match tab with | some t => decide (t.tag ≠ h.ttag ∨ t.width ≠ (epcWidths h.kind).1) | none => true))
  let plain := if h.kind = 6 then (scaledDecode h.bscale r.out).flatMap (fun v => leBytes 4 (toFp32 v)) else r.out
  if bad then List.replicate w.plain (0, true) else plain.map (fun b => (b, false))

/-- The cohorts on the pass list of a block's layer: its use count at residence (R255). -/
def useCount (s : State) (x : StreamId) (w : WinEntry) : Nat :=
  if w.copy ∨ w.sealed_ then 0
  else match (s.stream x).runs.find? (fun r => r.number = w.run) with
    | some r => r.cohorts.length
    | none => 0

/-- The owner's check of a block of its own (R37, R38, R429): a good one is captured where that is due; a poisoned
one is replaced by its backing copy, or goes on unbacked. -/
def ownerCheck (s : State) (d : Die) (x : StreamId) (w : WinEntry) (bytes : List Byte) : State × WinEntry :=
  if w.copy ∨ w.grad then (s, w)
  else match s.circ.due.find? (fun e => e.1 == x && e.2.1 == w.id) with
  | some e =>
    let s := { s with circ := { s.circ with due := s.circ.due.erase e } }
    let new := blockAt s e.2.2
    (match ownerOf s x w.sseq with
      | some (r, k) => if x = 0 then writeCopy s (backSlot s r k) new else s
      | none => s, { w with header := new })
  | none => match ownerOf s x w.sseq with
    | none => (s, w)
    | some (r, k) =>
      let a := backSlot s r k
      if uncaptured s x w.sseq then
        if w.failed then
          (requestBlocks s { stream := x, first := w.sseq, count := 1, dest := a }, w)
        else
          let s := writeCopy s a bytes
          let s := if s.fld .circSplice F.circSplice_STATE = 4 then s.addFld .circSplice F.circSplice_CAPTURED 1 else s
          ({ s with circ := { s.circ with uncaptured := s.circ.uncaptured.filter (fun e => e ≠ (x, w.sseq)) } }, w)
      else if w.failed = false then (s, w)
      else if copyGood s a then
        (s.raise (Report.plain .copySubstituted d.val 0 .circ w.addr), { w with header := blockAt s a })
      else (s.raise (Report.plain .unbacked d.val 0 .circ w.addr), w)

/-- The layers that have landed once a block is resident (R662): every one before its own, and its own with SSEQ
NB - 1. -/
def markLanded (s : State) (x : StreamId) (w : WinEntry) : State :=
  let t := s.stream x
  let done (r : LayerRun) : Bool := decide (r.number < w.run) || (decide (w.sseq + 1 = streamLen s x) && r.number == w.run && !w.grad)
  s.setStream x { t with runs := t.runs.map (fun r => if done r then { r with landed := true } else r) }

/-- The splice moves on (R426): CAPTURE once a block of each stream is landed, SPLICED once NB of each have passed. -/
def spliceProgress (s : State) : State :=
  let all (f : StreamId → Bool) : Bool := f 0 && f 1
  match s.fld .circSplice F.circSplice_STATE with
  | 3 => if all (fun x => (s.stream x).begun || streamLen s x == 0) then s.setFld .circSplice F.circSplice_STATE 4 else s
  | 4 =>
    if all (fun x => decide (streamLen s x ≤ (s.stream x).passed)) then
      sendNote (s.setFld .circSplice F.circSplice_STATE 5) 5
        (BitVec.ofNat 64 (s.position + 2 ^ 16 * ((List.finRange 16).countP (fun r => (ownEntry s r).1) % 16)
          + s.circ.nextNote % 2 ^ 32 * 2 ^ 32)) 0 0
    else s
  | _ => s

/-- BLOCK_RESIDENT: the last byte of landing entry i of a die has taken effect (R34, R167, R175, R253, R255). -/
def blockResident (d : Die) (i : Nat) (s : State) : State :=
  match (s.die d).window[i]? with
  | none => s
  | some w =>
    if w.skip ∨ w.state ≠ .landing then s
    else
      let x : StreamId := if w.west then 1 else 0
      let bytes := w.landing
      let s := if w.grad then s.poke w.addr (gradientPlain s d w bytes)
        else s.poke w.addr (bytes.map (fun b => (b, w.failed)))
      let s := if w.failed ∧ w.copy = false then s.raise (Report.plain .blockCheck d.val 0 .circ w.addr) else s
      let r := ownerCheck s d x w bytes
      let s := r.1
      let w := r.2
      let first := w.grad && isFirst s && !w.credits.isEmpty
      let w := { w with sealed_ := w.sealed_ || first, landing := [], left := 0
                        header := if w.grad then (if w.failed then bytes else bytes.take 32) else w.header }
      let use := useCount s x w
      let w := { w with use := use, state := if use = 0 then .forwarding else .resident }
      let y := s.die d
      let s := s.setDie d { y with window := y.window.set i w }
      if w.copy then s
      else
        let s := ctrAdd s d (8190 + x.val) 1
        let s := w.credits.foldl (fun s c => oweCredit s c.1 c.2) s
        let t := s.stream x
        let s := s.setStream x { t with passed := if w.grad then t.passed else t.passed + 1 }
        spliceProgress (markLanded s x w)

/-- BLOCK_RESIDENT (R253). -/
def execBlockResident (d : Die) (i : Nat) (s : State) : Res := .next (blockResident d i s)

/-! ### Forwarding (R31, R32, R175, R255, R532) -/

/-- A gradient block compressed again (R175). -/
def reencode (s : State) (d : Die) (w : WinEntry) : List Byte :=
  let h := { parseHeader (w.header.take 32) with sealed_ := w.sealed_ }
  let plain := s.bytes w.addr w.plain
  let tab := compTable s d h.kind
  let zoff := bitsOf (s.reg (.fdxCompCtrl d)) 2 2 = 1
  if h.kind = 6 then
    let e := scaledEncode ((List.range (w.plain / 4)).map (fun i => Val.ofFp32 (ofLe ((plain.drop (4 * i)).take 4))))
    compressBlock { h with bscale := e.1 } tab.1 tab.2 zoff e.2
  else compressBlock h tab.1 tab.2 zoff plain

/-- NBCHK replaced by BCHK (R532). -/
def spoilTrailer (bs : List Byte) : List Byte :=
  let n := bs.length
  bs.take (n - 4) ++ (bs.drop (n - 8)).take 4

/-- The stored block sent for a window entry (R32, R34, R37, R175, R532): a block that arrived failing its check goes on
with its bytes unchanged, a gradient block too. -/
def forwardBytes (s : State) (d : Die) (w : WinEntry) : List Byte :=
  if w.grad ∧ w.failed then w.header
  else if w.grad then
    let bs := reencode s d w
    if s.poisonedIn w.addr w.plain then spoilTrailer bs else bs
  else if w.header ≠ [] then w.header
  else
    let bs := s.bytes w.addr w.size
    if w.failed = false ∧ s.poisonedIn w.addr w.size then spoilTrailer bs else bs

/-- The index in a die's window of the entry at an address. -/
def entryAt (s : State) (d : Die) (a : Nat) : Option Nat :=
  (s.die d).window.findIdx? (fun w => w.skip = false ∧ w.copy = false ∧ w.addr = a)

/-- The block at the front of a stream, if it may be forwarded (R31, R661): die, index, entry. A sealed gradient at its
owner is not: it ends there (R72). -/
def frontBlock (s : State) (x : StreamId) : Option (Die × Nat × WinEntry) :=
  if s.fld .circRingConf F.circRingConf_ENABLE = 0 ∨ passesAll s then none
  else match (s.stream x).order with
    | (d, a) :: _ => (match entryAt s d a with
      | some i => (match (s.die d).window[i]? with
        | some w => if w.state = .forwarding ∧ ¬ (w.grad ∧ w.sealed_ ∧ (ownerOf s 1 w.sseq).isSome) then some (d, i, w) else none
        | none => none)
      | none => none)
    | [] => none

/-- BLOCK_FORWARDED: the front block's last byte has left the hub, so its entry and window bytes are freed, with the
second copy of R167 (R255). -/
def blockForwarded (x : StreamId) (s : State) : State :=
  match frontBlock s x with
  | none => s
  | some (d, _, w) =>
    if w.sent = 0 ∨ w.landing.length > 256 * w.sent then s
    else
      let t := s.stream x
      let s := s.setStream x { t with order := t.order.drop 1 }
      (List.finRange 2).foldl (fun s d' =>
        let y := s.die d'
        s.setDie d' { y with window := y.window.filter (fun v =>
          !(v.skip == false && v.west == w.west && v.sseq == w.sseq && v.grad == w.grad
            && ((d' == d && v.addr == w.addr) || (v.copy && d' != d)))) }) s

/-- BLOCK_FORWARDED (R255). -/
def execBlockForwarded (x : StreamId) (s : State) : Res := .next (blockForwarded x s)

/-! ### The period (R42) -/

/-- PERIOD_REFRESH: PERIOD_NS is refreshed, and NS compared with it (R42, R80). The circuit is the East stream's, in update
mode too, where the two differ (log entry 55). -/
def periodRefresh (s : State) : State :=
  let t := s.stream 0
  match t.circuit with
  | none => s
  | some p =>
    let p := p % 2 ^ 32
    let ns := s.fld .circPeriodTarget F.circPeriodTarget_NS
    let s := (s.setStream 0 { t with circuit := none }).setFld .circPhase F.circPhase_PERIOD_NS p
    s.setFld .circStatus F.circStatus_PERIOD_SHORT (if ns ≠ 0 ∧ ns * 1000 < p * 999 then 1 else 0)

/-- PERIOD_REFRESH (R42). -/
def execPeriodRefresh (s : State) : Res := .next (periodRefresh s)

/-! ### The update (R72, R74, R534) -/

/-- GRADIENT_APPLY: the owner takes the sealed gradient block at entry i of a die. The program's optimizer gives the
new version of the block and the OPT bytes it writes; both are operands (log entry 18). A gradient of a damaged step
is discarded: one whose block has not come round since its gradient of the running step passed here (R74). -/
def gradientApply (d : Die) (i : Nat) (block : List Byte) (opt : List (Nat × List Byte)) (s : State) : State :=
  match (s.die d).window[i]? with
  | none => s
  | some w =>
    if w.skip ∨ w.grad = false ∨ w.sealed_ = false ∨ w.state = .landing then s
    else match ownerOf s 1 w.sseq with
      | none => s
      | some (r, k) =>
        let drop (s : State) : State :=
          let y := s.die d
          let s := s.setDie d { y with window := y.window.eraseIdx i }
          let t := s.stream 1
          s.setStream 1 { t with order := t.order.filter (fun o => o ≠ (d, w.addr)) }
        if w.failed ∨ s.poisonedIn w.addr w.plain then
          let s := (drop s).raise (Report.plain .gradPoison d.val 0 .circ w.addr)
          damageStep s
        else if s.fld .circUpdate F.circUpdate_DAMAGED = 1 ∨ s.circ.grads.at_ 0 w.sseq ≠ 2 then drop s
        else
          let s := { s with circ := { s.circ with grads := s.circ.grads.drop_ w.sseq } }
          let s := opt.foldl (fun s o => if inRange s o.1 o.2.length
              ∧ (lpdRegion s .lpdOpt).1 ≤ o.1 ∧ o.1 + o.2.length ≤ (lpdRegion s .lpdOpt).2 then s.pokeClean o.1 o.2 else s) s
          let s := writeCopy (drop s) (backSlot s r k) block
          let west (v : WinEntry) : Bool := !v.skip && !v.grad && v.west && v.id == w.id && v.sent == 0
          let here := ((s.die 0).window ++ (s.die 1).window).any west
          let due : List (StreamId × Nat × Nat) :=
            (0, w.id, backSlot s r k) :: (if here then [] else [(1, w.id, backSlot s r k)])
          let s := { s with circ := { s.circ with due := s.circ.due ++ due } }
          (List.finRange 2).foldl (fun s d' =>
            let y := s.die d'
            s.setDie d' { y with window := y.window.map (fun v =>
              if west v then { v with header := block } else v) }) s

/-- GRADIENT_APPLY (R72). -/
def execGradientApply (d : Die) (i : Nat) (block : List Byte) (opt : List (Nat × List Byte)) (s : State) : Res :=
  .next (gradientApply d i block opt s)

end Sys2Proof.Machine
end

