-- ==== Sys2Proof/Machine/Port.lean ====
section
/-! DEFINITION. What ports do: sending frames (R402 to R406), port states (R409), LINK frames (R398, R408 to R413),
the timebase commands (R314, R318), and the SKIP bypass (R418 to R420, R423). -/

namespace Sys2Proof.Machine

/-! ### Sending a frame (R401, R402, R404, R406) -/

/-- Whether traffic may leave on a port (R409, R415): UP, and ADMITTED at both ends with one ring and epoch. -/
def trafficOk (s : State) (p : Port) : Bool :=
  portState s p == 3 && s.fld .circAdmit F.circAdmit_STATE == 1
    && s.fld (.circPortPeer p) F.circPortPeer_PEER_ADMITTED == 1
    && (decide (4 ≤ p.val) || (s.fld (.circPortPeer p) F.circPortPeer_PEER_RING == s.ringId
        && s.fld (.circPortEpoch p) F.circPortEpoch_PEER_EPOCH_FULL == s.fld .circAdmit F.circAdmit_EPOCH))

/-- The order of precedence of a frame (R406); 0 for LINK frames and NOTE FORM, which need no credit (R415). -/
def Frame.group (f : Frame) : Nat :=
  match f.body with
  | .link _ _ _ _ => 0
  | .note code _ _ _ => if code = 1 then 0 else 1
  | .remote r => if r.op = 5 then 2 else 4
  | .block _ _ _ _ _ => 3

/-- The position holds its arc's streams (R661). -/
def holdsStreams (s : State) : Bool :=
  s.fld .circRingConf F.circRingConf_ENABLE == 0 && s.fld .circArc F.circArc_VALID == 1 && !passesAll s

/-- A block frame of the arc that waits while the position holds its streams (R661); what the hub only passes, such as
return traffic and remote frames for other positions, does not. -/
def heldBack (s : State) (f : Frame) : Bool :=
  holdsStreams s && f.credit.isSome && f.arc == s.fld .circArc F.circArc_INDEX && decide (f.role < 2) && f.group == 3

/-- A queued frame of a block that has not begun to leave. -/
def notBegun (s : State) (p : Port) (f : Frame) : Bool :=
  match f.body with
  | .block q _ _ _ _ => (s.port p).out.any (fun g => g.arc == f.arc && g.role == f.role && (match g.body with
    | .block q' _ sot _ _ => q' == q && sot
    | _ => false))
  | _ => false

/-- A frame of the block eight places or more before block q of a stream has not been acknowledged on a port, so q may not
start there (R404). -/
def eightBehind (s : State) (p : Port) (st nb q : Nat) : Bool :=
  (s.port p).unacked.any (fun f => match f.frame.sseq with
    | some (st', q') => st' == st && decide (8 ≤ seqGap nb q q')
    | none => false)

/-- A queued frame of a block that may not start: on a skip port that is being restored (R422), or eight places ahead of an
unacknowledged one (R404). -/
def mayNotStart (s : State) (p : Port) (f : Frame) : Bool :=
  notBegun s p f && (s.circ.restoring.contains p || (match f.sseq with
    | some (st, q) => eightBehind s p st (streamSpan s st) q
    | none => false))

/-- The place in a port's queue of the first frame of a group for an entry that may leave. -/
def waitingFrame (s : State) (p : Port) (t : PartEntry) (group : Nat) : Option Nat :=
  (s.port p).out.findIdx? (fun f => f.group == group && f.arc == t.arc && f.role == t.role && !heldBack s f && !mayNotStart s p f)

/-- Whether a route leads to an entry of a port (R288, R299). -/
def routeLeads (s : State) (p : Port) (t : PartEntry) (route : Nat) : Bool :=
  match route with
  | 0 => wayOut s true == (p, t.role) && t.arc == s.fld .circArc F.circArc_INDEX
  | 1 => wayOut s false == (p, t.role) && t.arc == s.fld .circArc F.circArc_INDEX
  | 2 => p == 4
  | _ => p == 5

/-- The first packet of this module's own for an entry, stage packets (true) or others. -/
def ownRemote (s : State) (p : Port) (t : PartEntry) (stage : Bool) : Option Nat :=
  s.remoteOut.findIdx? (fun r => routeLeads s p t r.route && (r.op == 5) == stage)

/-- The stream whose front block may start or go on leaving by an entry (R31, R404, R422): the block 8 places
earlier has been acknowledged. -/
def ownBlock (s : State) (p : Port) (t : PartEntry) : Option StreamId :=
  ([0, 1] : List StreamId).find? (fun x =>
    wayOut s (x == 0) == (p, t.role) && t.arc == s.fld .circArc F.circArc_INDEX && isMember s t.arc
      && match frontBlock s x with
        | none => false
        | some (_, _, w) =>
          if w.sent = 0 then
            !s.circ.restoring.contains p && !eightBehind s p (2 * t.arc + x.val) (streamLen s x) w.sseq
          else decide (256 * w.sent < w.landing.length))

/-- What leaves next on an entry. -/
inductive Leaving where
  | queued (i : Nat) | remote (i : Nat) | block (x : StreamId) | nothing
  deriving DecidableEq, Repr

/-- The frame that leaves next on a lane of an entry by precedence (R406): the fourth group has 1 frame in 16 of the lane. -/
def nextLeaving (s : State) (p : Port) (lane : Nat) (t : PartEntry) : Leaving :=
  let queued (g : Nat) : Option Leaving := (waitingFrame s p t g).map .queued
  let rem (st : Bool) : Option Leaving := (ownRemote s p t st).map .remote
  let fourth := queued 4 <|> rem false
  let block := queued 3 <|> (ownBlock s p t).map .block
  let first := if 15 ≤ (s.port p).since4.at_ 0 lane then fourth <|> queued 1 <|> queued 2 <|> rem true <|> block
    else queued 1 <|> queued 2 <|> rem true <|> block <|> fourth
  first.getD .nothing

/-- The next frame of the front block of a stream (R395, R399), and the state once it has left the window. -/
def blockFrameOut (s : State) (x : StreamId) : Option (FrameBody × State) :=
  match frontBlock s x with
  | none => none
  | some (d, i, w) =>
    let bytes := if w.sent = 0 then forwardBytes s d w else w.landing
    let y := s.die d
    let s := s.setDie d { y with window := y.window.set i { w with landing := bytes, sent := w.sent + 1 } }
    let part := (bytes.drop (256 * w.sent)).take 256
    some (.block w.sseq w.sent (w.sent = 0) (bytes.length ≤ 256 * (w.sent + 1)) part, s)

/-- Up to 255 credits of one entry travel in each frame sent (R395, R402). -/
def payCredits (s : State) (p : Port) : State :=
  let x := s.port p
  match (List.range 4).find? (fun e => 0 < x.owed.at_ 0 e) with
  | some e => s.setPort p { x with owed := x.owed.put e (x.owed.at_ 0 e - 255) }
  | none => s

/-- A frame leaves on a logical lane: it takes the next LSEQ and is kept until it is acknowledged (R397, R401). -/
def putOnLane (s : State) (p : Port) (lane : Nat) (f : Frame) : State :=
  let s := match f.credit with | some c => oweCredit s c.1 c.2 | none => s
  let x := s.port p
  let n := x.lseq.at_ 0 lane
  let busy := x.unacked.any (fun u => u.lane == lane)
  payCredits (s.setPort p { x with lseq := x.lseq.put lane ((n + 1) % 1024)
                                   unacked := x.unacked ++ [⟨lane, n, { f with credit := none }⟩]
                                   progress := if busy then x.progress else x.progress.put lane s.now }) p

/-- A port that has exchanged ID frames both ways is UP (R409): it announces its table. -/
def portUp (s : State) (p : Port) : State :=
  let x := s.port p
  if portState s p = 2 ∧ x.idIn ∧ x.idOut then
    sendPartAnn (s.setFld (.circPortStatus p) F.circPortStatus_STATE 3) p
  else s

/-- GAP_DONE notes leave once no stage frame of this module waits (R424). -/
def flushDone (s : State) : State :=
  if s.remoteOut.any (fun r => r.op == 5) then s
  else
    let s' := s.circ.doneNotes.foldl (fun s w => sendNote s 8 w.1 w.2 0) s
    { s' with circ := { s'.circ with doneNotes := [] } }

/-- A frame as it departs: a TS frame carries its departure time (R398, R408). -/
def Frame.departing (f : Frame) (now : Nat) : Frame :=
  match f.body with
  | .link 2 _ w1 w2 => { f with body := .link 2 (BitVec.ofNat 64 now) w1 w2 }
  | _ => f

/-- FRAME_TRANSMIT: a port sends its next frame on a partition entry: a resend, a LINK or FORM frame, traffic for
which it holds a credit, or IDLE (R401, R402, R404, R406, R415). -/
def frameTransmit (p : Port) (e : Fin 4) (s : State) : State :=
  if ¬ inService s p ∨ (s.port p).silent then s
  else
    let x := s.port p
    match x.resend with
    | _ :: rest => (s.setPort p { x with resend := rest }).addFld (.circPortStatus p) F.circPortStatus_RETRIES 1
    | [] =>
      match x.out.findIdx? (fun f => f.group == 0 && decide (x.unacked.countP (fun u => u.lane == 0) < 512)
          && (match f.body with | .link _ _ _ _ => true | _ => portState s p == 3)) with
      | some i => (match x.out[i]? with
        | some f =>
          let id := match f.body with | .link code _ _ _ => code == 1 | _ => false
          portUp (putOnLane (s.setPort p { x with out := x.out.eraseIdx i, idOut := x.idOut || id }) p 0 (f.departing s.now)) p
        | none => s)
      | none =>
        let t := partEntry (tableOf s p) e.val
        let lane := partStart (tableOf s p) e.val + x.rot.at_ 0 e.val % max t.count 1
        if ¬ t.valid ∨ ¬ trafficOk s p ∨ x.credits.at_ 0 e.val = 0 ∨ 512 ≤ x.unacked.countP (fun u => u.lane == lane) then payCredits s p
        else
          let got : Option (Frame × State) := match nextLeaving s p lane t with
            | .nothing => none
            | .queued i => (x.out[i]?).map (fun f => (f, s.setPort p { x with out := x.out.eraseIdx i }))
            | .remote i => (s.remoteOut[i]?).map (fun r =>
                ({ arc := t.arc, role := t.role, body := .remote r, credit := none }, { s with remoteOut := s.remoteOut.eraseIdx i }))
            | .block st => (blockFrameOut s st).map (fun b => ({ arc := t.arc, role := t.role, body := b.1, credit := none }, b.2))
          match got with
          | none => payCredits s p
          | some (f, s) =>
            let waits := (waitingFrame s p t 4).isSome || (ownRemote s p t false).isSome
            let x := s.port p
            putOnLane (s.setPort p { x with
              credits := x.credits.put e.val (x.credits.at_ 0 e.val - 1), rot := x.rot.put e.val ((x.rot.at_ 0 e.val + 1) % max t.count 1)
              since4 := x.since4.put lane (if f.group = 4 ∨ ¬ waits then 0 else x.since4.at_ 0 lane + 1) }) p lane f |> flushDone

/-- FRAME_TRANSMIT (R402, R475). -/
def execFrameTransmit (p : LinkPort) (e : Fin 4) (s : State) : Res :=
  .next (match p with | .port p => frameTransmit p e s | .ctrl => ctrlTransmit s)

/-- IDLE: LACK and credits arrive (R396, R401, R402). -/
def idle (h : RxHead) (s : State) : State := match receive s h true with | .no s => s | .yes s _ => s

/-- IDLE (R396, R474). -/
def execIdle (h : LinkHead) (s : State) : Res := .next (match h with | .port h => idle h s | .ctrl f => ctrlIdle f s)

/-! ### Bypass by SKIP (R418 to R420, R423) -/

/-- An arc is lost (R419): its cohorts are HELD, ARC_LOST is set, a LINK fault is raised. -/
def loseArc (s : State) : State :=
  if s.fld .circBypass F.circBypass_ARC_LOST = 1 then s
  else
    let s := (holdCohorts s).setFld .circBypass F.circBypass_ARC_LOST 1
    s.raise (Report.plain .arcLost 2 0 .circ 0)

/-- The position that a near or skip port faces (R389). -/
def facing (s : State) (p : Port) : Nat :=
  let n := ringSize s
  match p.val with
  | 0 => (s.position + 1) % n | 1 => (s.position + n - 1) % n
  | 2 => (s.position + 2) % n | _ => (s.position + n - 2) % n

/-- A follower of the bypassed position q moves to ALT (R314, R419). -/
def leaveUpstream (s : State) (q : Nat) : State :=
  if ringSize s ≠ 0 ∧ s.fld .ptcTbConf F.ptcTbConf_MASTER = 0 ∧ facing s (upstreamPort s) = q then upstreamLost s else s

/-- A member's share in the bypass of position q (R419): fewer active members, windows to q LOST, barriers BROKEN, a
running update step damaged, and alignment moved to ALT. -/
def positionLost (s : State) (q : Nat) : State :=
  if s.circ.bypassed.contains q then s
  else
    let was := (liveMembers s).contains q
    let s := { s with circ := { s.circ with bypassed := s.circ.bypassed ++ [q] } }
    let n := s.fld .circRingConf F.circRingConf_ARC_ACTIVE
    let s := if was then s.setFld .circRingConf F.circRingConf_ARC_ACTIVE (n - 1) else s
    let s := loseWindows s (fun w => decide (s.fld (.dmaRwinA w) F.dmaRwinA_ROUTE < 2) && s.fld (.dmaRwinA w) F.dmaRwinA_TARGET_POS == q)
    leaveUpstream (damageStep (breakBarriers s)) q

/-- The word of a BYPASS or RESTORE note (R398): position, kind, origin, note number. -/
def bypassWord (s : State) (q kind : Nat) : Word :=
  BitVec.ofNat 64 (q % 512 + Config.noteKind kind % 4 * 2 ^ 9 + s.position * 2 ^ 16 + s.circ.nextNote % 2 ^ 32 * 2 ^ 32)

/-- A held frame of a block at or before SSEQ_HI is discarded (R423). -/
def atOrBefore (s : State) (hi : Assoc Nat Nat) (f : Frame) : Bool :=
  match f.sseq with
  | some (st, q) => (match hi.find st with
    | some h => decide (seqGap (streamSpan s st) h q < max 1 (streamSpan s st / 2))
    | none => false)
  | none => false

/-- Frames dropped: the credits that they would have returned as they left are returned (R402). -/
def owedFor (s : State) (l : List Frame) : State :=
  l.foldl (fun s f => match f.credit with | some c => oweCredit s c.1 c.2 | none => s) s

/-- The rest of this member's block that has begun to leave by a port is discarded where the failed hub has its first
frames, at or before SSEQ_HI (R423). -/
def endHalfSent (s : State) (near : Port) (hi : Assoc Nat Nat) : State :=
  ([0, 1] : List StreamId).foldl (fun s x => match frontBlock s x, hi.find (2 * s.fld .circArc F.circArc_INDEX + x.val) with
    | some (d, i, w), some h =>
      if (wayOut s (x == 0)).1 = near ∧ 0 < w.sent ∧ seqGap (streamLen s x) h w.sseq < max 1 (streamLen s x / 2) then
        let y := s.die d
        s.setDie d { y with window := y.window.set i { w with sent := w.landing.length / 256 + 1 } }
      else s
    | _, _ => s) s

/-- U discards what it has not sent of the blocks at or before SSEQ_HI, where its port goes on in use (R423; log entry
25). -/
def discardHeld (s : State) (near : Port) : State :=
  let hi := (s.port near).ackHi
  let s := endHalfSent s near hi
  let x := s.port near
  owedFor (s.setPort near { x with out := x.out.filter (fun f => !atOrBefore s hi f) }) (x.out.filter (atOrBefore s hi))

/-- The frames of the near port sent over the skip link (R403, R419): every entry that the skip table has too; frames
of any other arc are discarded there, and those at or before SSEQ_HI (R423). -/
def moveFrames (s : State) (near skip : Port) : State :=
  let x := s.port near
  let held := (x.unacked.map (fun u => u.frame) ++ x.out).filter (fun f => f.group ≠ 0)
  let goes (f : Frame) : Bool := (entryFor (tableOf s skip) f.arc f.role).isSome && !atOrBefore s x.ackHi f
  let s := s.setPort near { x with out := [], unacked := [], resend := [] }
  let y := s.port skip
  owedFor (s.setPort skip { y with out := y.out ++ held.filter goes }) (held.filter (fun f => !goes f))

/-- GAP_BOUND sent across the new path for each stream that crossed the failed hub (R423). -/
def sendBounds (s : State) (near skip : Port) (q : Nat) (hi : Assoc Nat Nat) : State :=
  (List.range 4).foldl (fun s e =>
    let t := partEntry (tableOf s near) e
    match hi.find (2 * t.arc + t.role % 2) with
    | some h => if t.valid ∧ (entryFor (tableOf s skip) t.arc t.role).isSome then
        sendFrame s skip { arc := t.arc, role := t.role, credit := none
                           body := .note 6 (BitVec.ofNat 64 (t.role % 2 * 2 ^ 63 + h % 2 ^ 24 * 2 ^ 32 + q % 512)) 0 0 }
      else s
    | none => s) s

/-- MODE with a side in SKIP (R441). -/
def skipMode (e w : Bool) : Nat := if e && w then 4 else if e then 2 else if w then 3 else 0

/-- A NOTE of this hub sent each way round the loop of an arc it carries for others (R398, R419). -/
def sendForeign (s : State) (arc : Nat) (w0 : Word) : State :=
  [true, false].foldl (fun s east =>
    let p := outPort s east
    match ([if east then 0 else 1, if east then 3 else 2] : List Nat).find? (fun r => (entryFor (tableOf s p) arc r).isSome) with
    | some r => sendFrame s p { arc := arc, role := r, body := .note 2 w0 0 0, credit := none }
    | none => s) s

/-- The other arcs whose loops crossed the bypassed position q hear of it; one that the skip link does not carry, or whose
loop is cut, is lost, with a LINK fault (R419, R420). -/
def tellForeign (s : State) (near skip : Port) (own : Option Nat) (cut : Bool) (q : Nat) : State :=
  let es := ((List.range 4).map (partEntry (tableOf s near))).filter (fun t => t.valid && own != some t.arc)
  (es.map PartEntry.arc).eraseDups.foldl (fun s a =>
    let lost := cut || es.any (fun t => t.arc == a && (entryFor (tableOf s skip) a t.role).isNone)
    let s := if lost then s.raise (Report.plain .arcLost 2 0 .circ 0) else s
    sendForeign s a (bypassWord s q (if lost then 2 else 1))) s

/-- SKIP begins here, on the East (true) or West side (R418 to R420, R423): the neighbour is bypassed over the skip
link. -/
def startSkip (s : State) (east : Bool) : State :=
  let n := ringSize s
  let bit := if east then skipBits s % 2 else skipBits s / 2
  if n = 0 ∨ bit = 1 then s
  else
    let q := if east then (s.position + 1) % n else (s.position + n - 1) % n
    let far := if east then (s.position + 2) % n else (s.position + n - 2) % n
    let near : Port := if east then 0 else 1
    let skip : Port := if east then 2 else 3
    let m := s.fld .circBypass F.circBypass_MODE
    let s := endHalfSent s near (s.port near).ackHi
    let s := s.setFld .circBypass F.circBypass_MODE (if m = 1 then 1 else skipMode (east || skipBits s % 2 == 1) (!east || skipBits s / 2 == 1))
    let s := s.setFld .circBypass F.circBypass_BYP_POS q
    let hi := (s.port near).ackHi
    let cut := s.circ.bypassed.contains far
    let arc := s.fld .circArc F.circArc_INDEX
    let mine := s.fld .circArc F.circArc_VALID = 1
    let crosses := (List.range 4).any (fun e => (partEntry (tableOf s near) e).valid && (partEntry (tableOf s near) e).arc == arc)
    let covered := (List.range 4).all (fun e =>
      let t := partEntry (tableOf s near) e
      !t.valid || t.arc != arc || (entryFor (tableOf s skip) t.arc t.role).isSome)
    let s := sendBounds s near skip q hi
    let s := moveFrames s near skip
    let s := positionLost s q
    let lost := mine ∧ crosses ∧ (cut ∨ ¬ covered)
    let s := if lost then loseArc s else s
    let s := if mine then sendNote s 2 (bypassWord s q (if lost then 2 else 1)) 0 0 else s
    let s := tellForeign s near skip (if mine then some arc else none) cut q
    let s := if mine ∧ ¬ lost ∧ s.fld .circReinjA F.circReinjA_STATE = 0 then
        (s.setFld .circReinjA F.circReinjA_STATE 1).setFld .circReinjA F.circReinjA_STREAM (if east then 1 else 0)
      else s
    tickNote s

/-- A near port fails with CAUSE PORT_LOST or EPOCH, and SKIP begins where AUTO is 1 (R409, R418). -/
def failPortBypass (s : State) (p : Port) (cause : Nat) : State :=
  let auto := s.fld .circBypass F.circBypass_AUTO = 1 ∧ p.val < 2 ∧ s.fld .circPosition F.circPosition_VALID = 1
  let s' := failPort s p cause (decide auto)
  if auto ∧ portState s p ≠ 4 then startSkip s' (p == 0) else s'

/-! ### Port states (R409) -/

/-- PORT_SIGNAL_DETECT: signal appears on an enabled port that is DOWN, and training starts (R409), from the Ring phase
of bring-up on (R570). -/
def portSignal (p : Port) (s : State) : State :=
  if portState s p = 0 ∧ s.fld (.circPortCtrl p) F.circPortCtrl_ENABLE = 1 ∧ s.pow.phases.contains 6 then
    let s := (List.range (lanesOf p)).foldl (fun s l => if laneState s p l = 5 then s else setLane s p l 1) s
    let s := s.setFld (.circPortStatus p) F.circPortStatus_STATE 1
    s.setPort p { (s.port p).renewed with trainSince := s.now }
  else s

/-- PORT_SIGNAL_DETECT (R409). -/
def execPortSignalDetect (p : Port) (s : State) : Res := .next (portSignal p s)

/-- The physical lanes of a port's logical lanes, receive direction, by the map that governs (R393): the lane not FAILED
with that number. A span port has only the logical lanes it has left (R409). -/
def mappedLanes (s : State) (p : Port) : List (Option Nat) :=
  let alive := (List.range (lanesOf p)).filter (fun l => laneState s p l ≠ 5)
  if 4 ≤ p.val then alive.map some
  else (List.range (logicalOf p)).map (fun n => alive.find? (fun l => s.fld (laneA p l) F.circLaneA_LOGICAL = n))

/-- Every logical lane of a port has its physical lane in training. -/
def lanesReady (s : State) (p : Port) : Bool :=
  mappedLanes s p != [] && (mappedLanes s p).all (fun m => match m with | some l => laneState s p l == 1 | none => false)

/-- PORT_TRAINED: every logical lane's physical lane is ACTIVE, and the spares named have finished too (R409). -/
def portTrained (p : Port) (spares : List Nat) (s : State) : State :=
  if portState s p = 1 ∧ s.now ≤ (s.port p).trainSince + 100000000 ∧ lanesReady s p = true then
    let used := (mappedLanes s p).filterMap id
    let rest := (lanesIn s p 1).filter (fun l => !used.contains l)
    let s := used.foldl (fun s l => setLane s p l 2) s
    let s := rest.foldl (fun s l => setLane s p l (if spares.contains l then 3 else 5)) s
    let s := s.setFld (.circPortStatus p) F.circPortStatus_STATE 2
    upstreamServes (sendId s p) p
  else s

/-- PORT_TRAINED (R409). -/
def execPortTrained (p : Port) (spares : List Nat) (s : State) : Res := .next (portTrained p spares s)

/-- PORT_TRAIN_TIMEOUT: 100 ms have passed in TRAIN (R409). -/
def portTrainTimeout (p : Port) (s : State) : State :=
  if portState s p = 1 ∧ (s.port p).trainSince + 100000000 ≤ s.now then failPort s p 1 false else s

/-- PORT_TRAIN_TIMEOUT (R409). -/
def execPortTrainTimeout (p : Port) (s : State) : Res := .next (portTrainTimeout p s)

/-- ENABLE written 0: the port is DOWN (R409, R286, R314). -/
def portDown (s : State) (p : Port) : State :=
  if portState s p = 0 then s
  else
    let s := (List.range (lanesOf p)).foldl (fun s l => if laneState s p l = 5 then s else setLane s p l 0) s
    let s := s.setFld (.circPortStatus p) F.circPortStatus_STATE 0
    let s := if p = upstreamPort s then upstreamLost s else s
    let s := s.setPort p (s.port p).renewed
    loseWindows s (fun w => match p.val with
      | 0 => s.fld (.dmaRwinA w) F.dmaRwinA_ROUTE == 0
      | 1 => s.fld (.dmaRwinA w) F.dmaRwinA_ROUTE == 1
      | 4 => s.fld (.dmaRwinA w) F.dmaRwinA_ROUTE == 2
      | 5 => s.fld (.dmaRwinA w) F.dmaRwinA_ROUTE == 3
      | _ => false)

/-- A check of formation fails here (R416): FORM is FAILED with a cause, POSITION.VALID falls, a CONFIG fault. -/
def formFail (s : State) (cause : Nat) : State :=
  let s := (s.setFld .circForm F.circForm_STATE 3).setFld .circForm F.circForm_CAUSE cause
  (s.setFld .circPosition F.circPosition_VALID 0).raise { Report.plain .formation 2 0 .circ 0 with detail := cause }

/-- The skip peer's position is this one plus 2 (R416). -/
def skipPeerOk (s : State) : Bool :=
  let w := s.reg (.circPortPeer 2)
  bitsOf w 16 16 == 0 || bitsOf w 28 20 == (s.position + 2) % (16 * max s.circ.formSegs 1)

/-- A module admitted at a bypassed position takes the place beside the near peer that shows one, and stands by (R426,
R427). -/
def standIn (s : State) (p : Port) : State :=
  let w := s.reg (.circPortPeer p)
  if p.val < 2 ∧ s.fld .circAdmit F.circAdmit_STATE = 1 ∧ s.fld .circPosition F.circPosition_VALID = 0
      ∧ s.fld .circForm F.circForm_STATE = 0 ∧ bitsOf w 16 16 = 1 ∧ bitsOf w 0 0 = 1 then
    let n := max 1 (if ringSize s = 0 then 512 else ringSize s)
    let q := if p = 1 then (bitsOf w 28 20 + 1) % n else (bitsOf w 28 20 + n - 1) % n
    let s := (s.setFld .circPosition F.circPosition_POS q).setFld .circPosition F.circPosition_VALID 1
    sendIds (if s.fld .circSplice F.circSplice_STATE = 0 then s.setFld .circSplice F.circSplice_STATE 1 else s)
  else s

/-- What an ID frame tells of positions: a formed module checks its SE peer (R416), and a module that has none may take one
(R427). -/
def peerPlace (s : State) (p : Port) : State :=
  if p = 2 ∧ s.fld .circForm F.circForm_STATE = 2 ∧ skipPeerOk s = false then formFail s 3 else standIn s p

/-- ID: the peer's ID frame (R398, R409, R415, R437). An UP port whose admitted module sees another ring, another
epoch or no admission fails with CAUSE EPOCH. -/
def idFrame (h : RxHead) (w0 w2 : Word) (s : State) : State :=
  match receive s h false with
  | .no s => s
  | .yes s _ =>
    let p := h.port
    let s := s.setReg (.circPortPeer p) (putBits w0 7 1 0)
    let s := s.setFld (.circPortEpoch p) F.circPortEpoch_PEER_EPOCH_FULL (bitsOf w2 31 0)
    let x := s.port p
    let s := s.setPort p { x with idIn := true }
    let differs : Bool := bitsOf w0 0 0 == 0
      || (decide (p.val < 4) && (bitsOf w0 31 29 != s.ringId || bitsOf w2 31 0 != s.fld .circAdmit F.circAdmit_EPOCH))
    if portState s p = 3 ∧ s.fld .circAdmit F.circAdmit_STATE = 1 ∧ differs then failPortBypass s p 4
    else peerPlace (portUp s p) p

/-- ID (R409). -/
def execId (h : RxHead) (w0 w2 : Word) (s : State) : Res := .next (idFrame h w0 w2 s)

/-- A physical lane is silent (R411, R413): an ACTIVE lane triggers a hard substitution, a spare fails, and a lane in
SWITCH gives up its substitution for the next spare; with none left the old lane, which still works, stays in use. -/
def laneSilent (s : State) (p : Port) (l : Nat) : State :=
  match (s.port p).sub with
  | some b =>
    if b.spare = l then
      let s := setLane s p l 5
      if lanesIn s p 3 = [] ∧ b.hard = false then nextSubst s p
      else startSubst (s.setPort p { s.port p with sub := none }) p b.logical b.hard
    else if laneState s p l = 2 then startSubst s p (s.fld (laneA p l) F.circLaneA_LOGICAL) true
    else if laneState s p l = 3 then portFault (setLane s p l 5) .spareFailed p l
    else s
  | none =>
    if laneState s p l = 2 then startSubst s p (s.fld (laneA p l) F.circLaneA_LOGICAL) true
    else if laneState s p l = 3 then portFault (setLane s p l 5) .spareFailed p l
    else s

/-- LANE_SILENCE: the physical lanes named have lost lock or had no good frame for 4 µs; all of a direction is a port
loss (R409, R411, R413). -/
def laneSilence (p : Port) (lanes : List Nat) (s : State) : State :=
  let active := lanesIn s p 2
  if portState s p ≠ 2 ∧ portState s p ≠ 3 then s
  else if active ≠ [] ∧ active.all lanes.contains then failPortBypass s p 3
  else lanes.foldl (fun s l =>
    if s.fld .circLinkCtrl F.circLinkCtrl_SUB_AUTO = 1 ∨ laneState s p l ≠ 2 then laneSilent s p l else s) s

/-- LANE_SILENCE (R411). -/
def execLaneSilence (p : Port) (lanes : List Nat) (s : State) : Res := .next (laneSilence p lanes s)

/-- A soft trigger of a physical lane (R411): a substitution where SUB_AUTO is 1 and the lane is ACTIVE. -/
def softTrigger (s : State) (p : Port) (l : Nat) : State :=
  if s.fld .circLinkCtrl F.circLinkCtrl_SUB_AUTO = 1 ∧ laneState s p l = 2 then
    startSubst s p (s.fld (laneA p l) F.circLaneA_LOGICAL) false
  else s

/-- LANE_UNCORR_LIMIT: n uncorrectable codewords have come on a lane within 1 ms (R411). -/
def execLaneUncorrLimit (p : Port) (l n : Nat) (s : State) : Res :=
  .next (if inService s p ∧ s.fld .circLinkCtrl F.circLinkCtrl_SUB_UNCORR ≤ n then softTrigger s p l else s)

/-- LANE_MARGIN_LOW: a lane's margin has stayed at or below a value for 10 ms (R410, R411). -/
def execLaneMarginLow (p : Port) (l margin : Nat) (s : State) : Res :=
  .next (if inService s p then
    let s := s.setFld (laneA p l) F.circLaneA_MARGIN (min margin 255)
    if margin < s.fld .circLinkCtrl F.circLinkCtrl_SUB_MARGIN then softTrigger s p l else s
  else s)

/-- SUBST: the sender starts sending a logical lane on its lane and on the spare (R412). -/
def substFrame (h : RxHead) (w0 : Word) (s : State) : State :=
  match receive s h false with
  | .no s => s
  | .yes s _ =>
    let x := s.port h.port
    s.setPort h.port { x with dual := x.dual.filter (fun e => e.1 ≠ bitsOf w0 13 8) ++ [(bitsOf w0 13 8, bitsOf w0 5 0)] }

/-- SUBST (R412). -/
def execSubst (h : RxHead) (w0 : Word) (s : State) : Res := .next (substFrame h w0 s)

/-- SUBST_DONE: the sender stops the old lane, which is FAILED, and the spare carries the logical lane (R412). -/
def substDone (h : RxHead) (w0 : Word) (s : State) : State :=
  match receive s h false with
  | .no s => s
  | .yes s _ =>
    let x := s.port h.port
    let l := bitsOf w0 29 24
    s.setPort h.port { x with dual := x.dual.filter (fun e => e.1 ≠ l), txFailed := x.txFailed ++ [x.tx.at_ l l]
                              tx := x.tx.put l (bitsOf w0 21 16) }

/-- SUBST_DONE (R412). -/
def execSubstDone (h : RxHead) (w0 : Word) (s : State) : Res := .next (substDone h w0 s)

/-- ADAPT: one coefficient step of a transmitter (R398, R410). -/
def adaptFrame (h : RxHead) (w0 : Word) (s : State) : State :=
  match receive s h false with
  | .no s => s
  | .yes s _ =>
    let x := s.port h.port
    let k := (bitsOf w0 13 8, bitsOf w0 7 4)
    let step : Int := match bitsOf w0 1 0 with | 1 => 1 | 3 => -1 | _ => 0
    s.setPort h.port { x with coeff := x.coeff.put k (x.coeff.at_ 0 k + step) }

/-- ADAPT (R410). -/
def execAdapt (h : RxHead) (w0 : Word) (s : State) : Res := .next (adaptFrame h w0 s)

/-- ADAPT_REQUEST: a receiver asks for a coefficient step of a lane, at most once per 100 µs (R410). -/
def adaptRequest (p : Port) (l idx : Nat) (up : Bool) (s : State) : State :=
  let x := s.port p
  if inService s p ∧ (laneState s p l = 2 ∨ laneState s p l = 3)
      ∧ (match x.adaptAt.find l with | some t => decide (t + 100000 ≤ s.now) | none => true) = true then
    let s := s.setPort p { x with adaptAt := x.adaptAt.put l s.now }
    let s := if p.val < 4 then s.calPassed 4 (64 * p.val + l) else s
    sendLink s p 4 (BitVec.ofNat 64 (l % 64 * 256 + idx % 16 * 16 + (if up then 1 else 3))) 0 0
  else s

/-- ADAPT_REQUEST (R410). -/
def execAdaptRequest (p : Port) (l idx : Nat) (up : Bool) (s : State) : Res := .next (adaptRequest p l idx up s)

/-- NAK: the sender sends again from the expected LSEQ (R401). -/
def nakFrame (h : RxHead) (w0 : Word) (s : State) : State :=
  match receive s h false with
  | .no s => s
  | .yes s _ => resendFrom s h.port (bitsOf w0 15 10) (bitsOf w0 9 0)

/-- NAK (R401, R475). -/
def execNak (h : LinkHead) (w0 : Word) (s : State) : Res :=
  .next (match h with | .port h => nakFrame h w0 s | .ctrl f => ctrlNak f w0 s)

/-- PART_ANN: the peer's table, and the initial credits of this module's entries (R398, R402). -/
def partAnn (h : RxHead) (w0 w1 : Word) (s : State) : State :=
  match receive s h false with
  | .no s => s
  | .yes s _ =>
    let x := s.port h.port
    s.setPort h.port { x with peerPart := w0, announced := true
                              credits := [(0, bitsOf w1 15 0), (1, bitsOf w1 31 16), (2, bitsOf w1 47 32), (3, bitsOf w1 63 48)] }

/-- PART_ANN (R402). -/
def execPartAnn (h : RxHead) (w0 w1 : Word) (s : State) : Res := .next (partAnn h w0 w1 s)

/-- LINK_RETRY_TIMEOUT: no LACK progress on a logical lane for RETRY_NS with frames outstanding (R401). -/
def retryTimeout (p : Port) (lane : Nat) (s : State) : State :=
  let x := s.port p
  match x.unacked.find? (fun u => u.lane == lane) with
  | none => s
  | some u =>
    let since := x.progress.at_ 0 lane
    if inService s p ∧ since + s.fld .circLinkCtrl F.circLinkCtrl_RETRY_NS ≤ s.now then
      resendFrom (s.setPort p { x with progress := x.progress.put lane s.now }) p lane u.lseq
    else s

/-- LINK_RETRY_TIMEOUT (R401, R475). -/
def execLinkRetryTimeout (p : LinkPort) (lane : Nat) (s : State) : Res :=
  .next (match p with | .port p => retryTimeout p lane s | .ctrl => ctrlRetry lane s)

/-! ### The timebase (R314, R315, R318, R408) -/

/-- TS_SEND: every 8 µs a TS frame leaves on each near and skip port in service (R398, R408). -/
def tsSend (s : State) : State :=
  (List.finRange 4).foldl (fun s i =>
    let p : Port := ⟨i.val, by omega⟩
    let x := s.port p
    if inService s p ∧ x.tsSent + 8000 ≤ s.now then
      let t := x.tsIn.getD (0, 0)
      sendLink (s.setPort p { x with tsSent := s.now }) p 2 (BitVec.ofNat 64 s.now) (BitVec.ofNat 64 t.1) (BitVec.ofNat 64 t.2)
    else s) s

/-- TS_SEND (R408). -/
def execTsSend (s : State) : Res := .next (tsSend s)

/-- The offset that a TS exchange gives (R408), upstream minus own; the half nanosecond of an odd sum is measured
either way (log entry 10). -/
def tsOffset (s : State) (w0 w1 w2 : Word) : Int :=
  let sum := ((w2.toNat : Int) - w1.toNat) + ((w0.toNat : Int) - s.now)
  (sum + (Config.freeNat s.fresh % 2 : Nat)) / 2

/-- A timestamp of the upstream neighbour has come: its silence is over, and HOLDOVER moves to ACQUIRE (R314). -/
def upstreamHeard (s : State) : State :=
  if tbState s = 3 then { setTb s 1 with circ := { s.circ with tbHeard := s.now, tbBand := s.now } }
  else { s with circ := { s.circ with tbHeard := s.now } }

/-- The measured offset acts on alignment (R314, R315): a forward step in ACQUIRE, a band kept or left. -/
def applyOffset (s : State) (o : Int) : State :=
  let s := s.setFld .ptcTbStatus F.ptcTbStatus_OFFSET_NS (ofSigned 32 o)
  let band (s : State) : State := { s with circ := { s.circ with tbBand := s.now } }
  match tbState s with
  | 1 =>
    if 1000 < o then band (forwardStep s o.toNat)
    else if o.natAbs ≤ 4 then s else band s
  | 2 => if 8 < o.natAbs then band (setTb s 1) else s
  | _ => s

/-- TS: the peer's timestamps arrive (R398, R408). -/
def tsFrame (h : RxHead) (w0 w1 w2 : Word) (s : State) : State :=
  match receive s h false with
  | .no s => s
  | .yes s _ =>
    let x := s.port h.port
    let s := s.setPort h.port { x with tsIn := some (w0.toNat, s.now) }
    let s := upstreamServes s h.port
    if h.port = upstreamPort s ∧ s.fld .ptcTbConf F.ptcTbConf_MASTER = 0 then
      let s := upstreamHeard s
      if w1 ≠ 0 then (applyOffset s (tsOffset s w0 w1 w2)).burn 1 else s
    else s

/-- TS (R408). -/
def execTs (h : RxHead) (w0 w1 w2 : Word) (s : State) : Res := .next (tsFrame h w0 w1 w2 s)

/-- TB_LOCK: the offset has stayed within 4 ns for 1 ms (R314). -/
def tbLock (s : State) : State :=
  let o := toSigned 32 (s.fld .ptcTbStatus F.ptcTbStatus_OFFSET_NS)
  if tbState s = 1 ∧ o.natAbs ≤ 4 ∧ s.circ.tbBand + 1000000 ≤ s.now ∧ s.circ.tbBand < s.circ.tbHeard then setTb s 2 else s

/-- TB_LOCK (R314). -/
def execTbLock (s : State) : Res := .next (tbLock s)

/-- TB_UPSTREAM_TIMEOUT: no timestamp from upstream for 100 µs (R314). -/
def tbTimeout (s : State) : State := if s.circ.tbHeard + 100000 ≤ s.now then upstreamLost s else s

/-- TB_UPSTREAM_TIMEOUT (R314). -/
def execTbUpstreamTimeout (s : State) : Res := .next (tbTimeout s)

/-- A write of PTC.TB_CONF (R314, R342). -/
def writeTbConf (v : Word) (s : State) : State :=
  let old := s.reg .ptcTbConf
  let s := s.setReg .ptcTbConf v
  let start (s : State) : State := { s with circ := { s.circ with tbBand := s.now, tbHeard := s.now } }
  if bitsOf v 0 0 = 1 then setTb s 4
  else
    let s := if tbState s = 4 then setTb s 0 else if tbState s = 2 then start (setTb s 1)
      else if bitsOf old 3 2 ≠ bitsOf v 3 2 then start s else s
    if inService s (upstreamPort s) then upstreamServes s (upstreamPort s) else s

/-- A write of PTC.TB_SET (R318): accepted only at the master and only forward. -/
def writeTbSet (v : Word) (s : State) : Option State :=
  if s.fld .ptcTbConf F.ptcTbConf_MASTER = 1 ∧ s.now < v.toNat then some (forwardStep s (v.toNat - s.now)) else none

end Sys2Proof.Machine
end

