-- ==== Sys2Proof/Machine/Break.lean ====
section
/-! DEFINITION. Schedule breaks, and leaving the ring (R517, R519). -/

namespace Sys2Proof.Machine

/-- Every running slot of a die STOPPED with CAUSE 0101 (R517). -/
def stopSlots (s : State) (d : Die) : State :=
  (List.finRange 32).foldl (fun s q => (List.finRange 4).foldl (fun s x =>
    let c := s.ctx d q x
    if c.st = .ready ∨ c.st = .wait then s.setCtx d q x (c.stop 5) else s) s) s

/-- What the deliveries under way of a core leave (R517): queues emptied, incomplete shadow tiles emptied. -/
def Core.abandon (c : Core) : Core :=
  { c with rx := [], treqs := [], feeds := [], issueQ := [], expOut := [], expBusy := false, tileIn := none, prog := none, actReserved := 0, tordHalf := false
           engines := c.engines.map (fun e => (e.1, { e.2 with shadow := match e.2.shadow with
             | some t => if t.complete then some t else none
             | none => none })) }

/-- An access of a delivery under way: of the activation feeder, of the expander, or of a STAGE write. -/
def AccDest.delivers : AccDest → Bool
  | .feeder _ _ _ _ | .expander _ _ | .stage _ _ _ => true
  | _ => false

/-- The bus of a die abandoned, and every resident block of it forwarded (R517). -/
def abandonBus (s : State) (d : Die) : State :=
  let s := (List.finRange 32).foldl (fun s q => s.setCore d q (s.core d q).abandon) s
  let y := s.die d
  s.setDie d { y with busQ := [], accs := y.accs.filter (fun a => !a.dest.delivers)
                      window := y.window.map (fun w =>
                        if w.state = .landing then w else { w with use := 0, state := .forwarding }) }

/-- A schedule break (R517). -/
def scheduleBreak (s : State) : State :=
  let s := holdCohorts (s.setFld .fcuStatus F.fcuStatus_SCHED_BROKEN 1)
  let s := (List.finRange 2).foldl (fun s x =>
    let t := s.stream x
    s.setStream x { t with runs := t.runs.map (fun r => { r with cohorts := [] }) }) s
  (List.finRange 2).foldl (fun s d => abandonBus (stopSlots s d) d) s

/-- The hub begins to pass everything (R418, R424, R430): the credits of what will not land are returned, a splice
under way is ABORTED, and BYPASS goes round the arc (log entry 25). -/
def beginPass (s : State) : State :=
  let was := s.fld .circArc F.circArc_VALID = 1 ∧ ¬ passesAll s
  let s := if was then tickNote (sendNote s 2 (bypassWord s s.position 0) 0 0) else s
  let s := (List.finRange 2).foldl (fun s x =>
    let t := s.stream x
    let owed := t.arrivals.flatMap Blk.credits ++ t.building.flatMap Rebuild.credits
    let s := owed.foldl (fun s c => oweCredit s c.1 c.2) s
    s.setStream x { s.stream x with arrivals := [], building := [], runs := [] }) s
  let st := s.fld .circSplice F.circSplice_STATE
  let s := if st = 3 ∨ st = 4 then s.setFld .circSplice F.circSplice_STATE 6 else s
  let s := s.setFld .circBypass F.circBypass_MODE 1
  (List.finRange 2).foldl (fun s d =>
    let y := s.die d
    s.setDie d { y with stopped := true }) s

/-- The module leaves the ring (R519): with its hub intact it passes all traffic and ends every sequence, otherwise
its ports fall silent. -/
def leaveRing (s : State) (hubIntact : Bool) : State :=
  let s := scheduleBreak s
  let s := if hubIntact then loseSeqs (beginPass s) (fun _ => true)
    else (List.finRange 6).foldl (fun s p => s.setPort p { s.port p with silent := true }) s
  s.setFld .fcuStatus F.fcuStatus_OFF_RING 1

end Sys2Proof.Machine
end

