-- ==== Sys2Proof/Machine/Ring.lean ====
section
/-! DEFINITION. Admission, formation, bypass, re-injection, Solder, and the enabling of circulation (R45 to R55, R64,
R78, R241, R414 to R430, R661). -/

namespace Sys2Proof.Machine

/-! ### Admission (R414) -/

/-- A write of CIRC.ADMIT (R414); none is a rejection. -/
def writeAdmit (v : Word) (s : State) : Option State :=
  let old := s.reg .circAdmit
  let st := bitsOf old 63 62
  let new := bitsOf v 63 62
  if new = 2 then
    let s := s.setReg .circAdmit v
    some (sendIds (if st = 2 then s else s.raise (Report.plain .revoked 2 0 .circ 0)))
  else if new = 3 ∨ st = 2 then none
  else if st = 1 ∧ (bitsOf v 61 59 ≠ bitsOf old 61 59 ∨ bitsOf v 31 0 ≠ bitsOf old 31 0) then none
  else if new = 1 ∧ (s.fld .secStatus F.secStatus_ATTESTED = 0 ∨ bitsOf v 31 0 = 0) then none
  else some (standIn (standIn (sendIds (s.setReg .circAdmit v)) 1) 0)

/-! ### Formation (R416) -/

/-- FORM sent onward from position c (R416): East, or over the skip link past an empty spare station; none where
neither path serves. -/
def formOnward (s : State) (c segs : Nat) : Option State :=
  let note (n : Nat) : Frame :=
    { arc := 0, role := 0, credit := none
      body := .note 1 (BitVec.ofNat 64 (n % 512 + segs % 256 * 2 ^ 16 + s.fld .circAdmit F.circAdmit_EPOCH * 2 ^ 32)) 0 0 }
  if portState s 0 = 3 then some (sendFrame s 0 (note c))
  else if (c + 1) % 16 = 15 ∧ portState s 2 = 3 then some (sendFrame s 2 (note (c + 1)))
  else none

/-- The position is set (R79, R416, R426): a spare station stands by. -/
def takePosition (s : State) (c : Nat) : State :=
  let spare := c % 16 = 15
  let s := s.setReg .circPosition (BitVec.ofNat 64 (2 ^ 31 + (if spare then 2 ^ 30 else 0) + c % 512))
  let s := if spare ∧ s.fld .circSplice F.circSplice_STATE = 0 then s.setFld .circSplice F.circSplice_STATE 1 else s
  let s := s.setFld .circForm F.circForm_STATE 2
  if skipPeerOk s then sendIds s else formFail s 3

/-- A write of CIRC.FORM (R416, R440): START makes this module the anchor. -/
def writeForm (v : Word) (s : State) : Option State :=
  let s := s.setFld .circForm F.circForm_SEGMENTS (bitsOf v 47 40)
  if bitsOf v 0 0 = 0 then some s
  else
    let s := (s.setFld .circForm F.circForm_STATE 1).setFld .circForm F.circForm_CAUSE 0
    let segs := bitsOf v 47 40
    let s := { s with circ := { s.circ with anchor := true, taken := some 0, formSince := s.now, formSegs := segs } }
    some (match formOnward s 0 segs with | some s => s | none => formFail s 2)

/-- FORM: a module takes the position after the count and sends FORM on; the anchor completes formation (R416). How
the other modules learn that the ring is formed is given by no rule (log entry 26). -/
def formFrame (h : RxHead) (w0 : Word) (s : State) : State :=
  match receive s h false with
  | .no s => s
  | .yes s _ =>
    let q := bitsOf w0 8 0
    let segs := bitsOf w0 23 16
    if 4 ≤ h.port.val then portFault s .spanDiscard h.port 0
    else if h.port ≠ 1 ∧ h.port ≠ 3 then s
    else if s.circ.anchor ∧ s.fld .circForm F.circForm_STATE = 1 then
      if q + 1 = 16 * s.fld .circForm F.circForm_SEGMENTS then takePosition s 0 else formFail s 1
    else
      let s := { s with circ := { s.circ with anchor := false, taken := some (q + 1), formSince := s.now, formSegs := segs } }
      match formOnward s (q + 1) segs with
      | some s => takePosition s (q + 1)
      | none => formFail s 2

/-- FORM (R416). -/
def execForm (h : RxHead) (w0 : Word) (s : State) : Res := .next (formFrame h w0 s)

/-- FORM_TIMEOUT: FORM has not returned to the anchor within 10 ms (R416). -/
def formTimeout (s : State) : State :=
  if s.circ.anchor ∧ s.fld .circForm F.circForm_STATE = 1 ∧ s.circ.formSince + 10000000 ≤ s.now then formFail s 4 else s

/-- FORM_TIMEOUT (R416). -/
def execFormTimeout (s : State) : Res := .next (formTimeout s)

/-! ### Enabling circulation (R64, R78, R241, R417, R435, R661) -/

/-- A partition table breaks R64 or R435: too many lanes, an empty entry, or a role of the other direction. -/
def badPart (w : Word) (lanes : Nat) (east : Bool) : Bool :=
  let es := ((List.range 4).map (partEntry w)).filter PartEntry.valid
  decide (lanes < (es.map PartEntry.count).sum)
    || es.any (fun t => t.count == 0 || (if east then t.role == 1 || t.role == 2 else t.role == 0 || t.role == 3))

/-- Whether a write of ENABLE = 1 with these segments and mode is accepted (R64, R78, R241, R435). -/
def enableOk (s : State) (v : Word) : Bool :=
  let segs := bitsOf v 47 40
  decide (1 ≤ segs ∧ segs ≤ 32) && s.fld .circPosition F.circPosition_VALID == 1 && s.fld .circArc F.circArc_VALID == 1
    && !badPart (s.reg .circPartE) 32 true && !badPart (s.reg .circPartW) 32 false
    && !badPart (s.reg .circPartSe) 16 true && !badPart (s.reg .circPartSw) 16 false
    && decide (bitsOf v 31 30 < 2)
    && (List.finRange 2).all (fun d =>
        (s.fld (.wstJobTag d) F.wstJobTag_ANY == 1 || s.fld (.wstJobTag d) F.wstJobTag_JOB == s.fld .circArc F.circArc_JOB)
          && s.fld (.wstCtrl d) F.wstCtrl_CLEAR_BUSY == 0)

/-- The blocks of an OWN entry of a stream, in SSEQ order, with the slot of each copy. -/
def ownedBlocks (s : State) (x : StreamId) : List (Nat × Nat) :=
  let mine := (List.finRange 16).filter (fun r => (ownEntry s r).1 && (ownEntry s r).2.1 == x)
  let sorted := mine.foldl (fun (l : List (Fin 16)) r =>
    (l.filter (fun t => (ownEntry s t).2.2.1 ≤ (ownEntry s r).2.2.1)) ++ [r]
      ++ l.filter (fun t => (ownEntry s r).2.2.1 < (ownEntry s t).2.2.1)) []
  sorted.flatMap (fun r => (List.range (ownEntry s r).2.2.2).map (fun k =>
    (((ownEntry s r).2.2.1 + k) % max (streamLen s x) 1, backSlot s r k)))

/-- A block read from its backing copy; from a channel out of service it comes as zeros, which fail their check. -/
def copyBlock (s : State) (q a : Nat) : Blk :=
  let bytes := if slotFits s a ∧ tierServes s a 16448 then blockAt s a else List.replicate 64 0
  { sseq := q, bytes := bytes, badSize := false, credits := [] }

/-- The owned blocks put before landing when ENABLE first takes effect (R417). -/
def landOwned (s : State) : State :=
  (List.finRange 2).foldl (fun s x =>
    let t := s.stream x
    s.setStream x { t with arrivals := t.arrivals ++ (ownedBlocks s x).map (fun b => copyBlock s b.1 b.2) }) s

/-- The word of a SPLICE or SPLICED note (R398). -/
def spliceWord (s : State) (ranges : Nat) : Word :=
  BitVec.ofNat 64 (s.position + ranges % 16 * 2 ^ 16 + s.circ.nextNote % 2 ^ 32 * 2 ^ 32)

/-- An armed module switches (R426, R429): it is a live member, captures its owned blocks, and sends SPLICE. -/
def startSplice (s : State) : State :=
  let s := s.setReg .circSplice (BitVec.ofNat 64 (3 * 2 ^ 61))
  let s := if s.position % 16 = 15 then
      { s.setFld .circPosition F.circPosition_SPARE 0 with circ := { s.circ with joined := s.circ.joined ++ [s.position] } }
    else s
  let own (x : StreamId) := (ownedBlocks s x).map (fun b => (x, b.1))
  let s := { s with circ := { s.circ with uncaptured := own 0 ++ own 1
                                          bypassed := s.circ.bypassed.erase s.position
                                          standing := s.circ.standing.erase s.position } }
  let s := (List.finRange 2).foldl (fun s x => s.setStream x { s.stream x with begun := false, passed := 0 }) s
  tickNote (sendNote s 4 (BitVec.ofNat 64 (s.position + s.position * 2 ^ 16 + s.circ.nextNote % 2 ^ 32 * 2 ^ 32)) 0 0)

/-- Members counted in ARC_ACTIVE (R77). -/
def countMembers (s : State) : State :=
  s.setFld .circRingConf F.circRingConf_ARC_ACTIVE
    (if s.fld .circArc F.circArc_VALID = 1 then (liveMembers s).length else 0)

/-- Circulation begins or resumes here (R241, R417, R661). -/
def startCirculation (s : State) : State :=
  let s := (List.finRange 2).foldl (fun s d =>
    (s.setFld (.wstJobTag d) F.wstJobTag_JOB (s.fld .circArc F.circArc_JOB)).setFld (.wstJobTag d) F.wstJobTag_ANY 0) s
  let s := if s.fld .circSplice F.circSplice_STATE = 2 then startSplice s
    else if s.circ.ran then s else landOwned s
  countMembers { s with circ := { s.circ with ran := true } }

/-- A write of CIRC.RING_CONF (R77, R78, R661); none is a rejection. -/
def writeRingConf (v : Word) (s : State) : Option State :=
  let old := s.reg .circRingConf
  if bitsOf old 0 0 = 1 then
    if bitsOf v 47 40 ≠ bitsOf old 47 40 ∨ bitsOf v 31 30 ≠ bitsOf old 31 30 then none
    else
      some (s.setReg .circRingConf v)
  else if bitsOf v 0 0 = 1 then
    if enableOk s v then some (startCirculation (s.setReg .circRingConf v)) else none
  else some (countMembers (s.setReg .circRingConf v))

/-- A write of CIRC.ARC (R61, R78, R82): which positions of its span belong to nested arcs no register tells, so that is a
free value (log entry 23). A position that leaves its arc begins anew at its next ENABLE (log entry 55). -/
def writeArc (v : Word) (s : State) : Option State :=
  if s.fld .circRingConf F.circRingConf_ENABLE = 1 ∧ v ≠ s.reg .circArc then none
  else
    let s' := s.setReg .circArc v
    let nested := (Config.nestedPositions s.fresh).filter (fun p => inSpan s' p && p != s.position)
    some (countMembers { s'.burn 1 with circ := { s'.circ with nested := nested, ran := s'.circ.ran && bitsOf v 0 0 == 1 } })

/-- A write of a partition table (R78, R398): the peer is told of a new one. -/
def writePart (r : Reg) (p : Port) (locked : Bool) (v : Word) (s : State) : Option State :=
  if locked ∧ s.fld .circRingConf F.circRingConf_ENABLE = 1 ∧ v ≠ s.reg r then none
  else
    let changed := v ≠ s.reg r
    let s := s.setReg r v
    some (if changed ∧ portState s p = 3 then sendPartAnn s p else s)

/-- A write of CIRC.WINDOW (R78, R81): the capacity follows the reserve. -/
def writeWindow (v : Word) (s : State) : Option State :=
  let k := bitsOf v 47 32
  if k < 256 ∨ 16384 < k ∨ k % 64 ≠ 0 then none
  else if s.fld .circRingConf F.circRingConf_ENABLE = 1 ∧ k ≠ s.fld .circWindow F.circWindow_RESERVE_KIB then none
  else some (s.setReg .circWindow (putBits v 17 0 (196608 - k)))

/-- ROWS_MAX over all cohorts but one. -/
def rowsMaxBut (s : State) (c : Fin 8) : Nat :=
  (((List.finRange 8).filter (fun i => i ≠ c)).map (fun i => s.fld (.circCohort i) F.circCohort_ROWS_MAX)).sum

/-- A write of CIRC.COHORT_c (R45, R47, R53): ROWS_MAX, HOLD and RELEASE. -/
def writeCohort (c : Fin 8) (v : Word) (s : State) : Option State :=
  let max := bitsOf v 38 30
  if max ≠ s.fld (.circCohort c) F.circCohort_ROWS_MAX
      ∧ (max % 32 ≠ 0 ∨ 256 < max ∨ cohortState s c ≠ 0 ∨ 1024 < rowsMaxBut s c + max) then none
  else
    let s := (s.setFld (.circCohort c) F.circCohort_ROWS_MAX max).setFld (.circCohort c) F.circCohort_HOLD (bitsOf v 0 0)
    some (if bitsOf v 1 1 = 1 ∧ cohortState s c = 6 then
      setCohort (s.setFld (.circCohort c) F.circCohort_ROWS 0) c 0 else s)

/-- A write of CIRC.OWN_r (R39, R429, R443): a range written once circulation has run here is captured, also while the
position holds its streams. -/
def writeOwn (r : Fin 16) (v : Word) (s : State) : Option State :=
  let on := s.fld .circRingConf F.circRingConf_ENABLE = 1
  if on ∧ (ownEntry s r).1 then none
  else
    let s := s.setReg (.circOwn r) v
    if (on ∨ s.circ.ran) ∧ (ownEntry s r).1 then
      let o := ownEntry s r
      let new := (List.range o.2.2.2).map (fun k => (o.2.1, (o.2.2.1 + k) % max (streamLen s o.2.1) 1))
      some { s with circ := { s.circ with uncaptured := s.circ.uncaptured ++ new, interim := s.circ.interim ++ [r] } }
    else some s

/-! ### Bypass (R418 to R422, R441) -/

/-- Whether the module at the near port may be restored: its port is UP and it shows ADMITTED (log entry 27). -/
def peerStands (s : State) (p : Port) : Bool :=
  portState s p == 3 && s.fld (.circPortPeer p) F.circPortPeer_PEER_ADMITTED == 1

/-- A write of CIRC.BYPASS (R418, R422, R441). -/
def writeBypass (v : Word) (s : State) : Option State :=
  let auto (s : State) : State := s.setFld .circBypass F.circBypass_AUTO (bitsOf v 0 0)
  let restore (skip : Port) : State :=
    if s.circ.restoring.contains skip then auto s
    else { auto s with circ := { s.circ with restoring := s.circ.restoring ++ [skip] } }
  match bitsOf v 50 48 with
  | 0 => some (auto s)
  | 1 => some (startSkip (auto s) true)
  | 2 => some (startSkip (auto s) false)
  | 3 => some (leaveRing (auto s) true)
  | 4 => if skipBits s % 2 = 1 ∧ peerStands s 0 then some (restore 2) else none
  | 5 => if skipBits s / 2 = 1 ∧ peerStands s 1 then some (restore 3) else none
  | _ => none

/-- A block of this member has begun to leave by a port and has not left whole. -/
def blockHalfSent (s : State) (p : Port) : Bool :=
  ([0, 1] : List StreamId).any (fun x => (wayOut s (x == 0)).1 == p && (match frontBlock s x with
    | some (_, _, w) => decide (0 < w.sent ∧ 256 * w.sent < w.landing.length)
    | none => false))

/-- RESTORE_SWITCHOVER: every frame sent on the skip port has been acknowledged and no block is half sent, so sending moves
to the near port (R422). -/
def restoreSwitch (east : Bool) (s : State) : State :=
  let skip : Port := if east then 2 else 3
  let x := s.port skip
  let n := ringSize s
  if s.circ.restoring.contains skip ∧ x.unacked.isEmpty ∧ x.out.all (fun f => f.group != 3 || notBegun s skip f) ∧ ¬ blockHalfSent s skip ∧ n ≠ 0 then
    let q := if east then (s.position + 1) % n else (s.position + n - 1) % n
    let near : Port := if east then 0 else 1
    let s := s.setPort skip { x with out := x.out.filter (fun f => f.group == 0) }
    let s := (x.out.filter (fun f => f.group != 0)).foldl (fun s f => sendFrame s near f) s
    let m := s.fld .circBypass F.circBypass_MODE
    let s := s.setFld .circBypass F.circBypass_MODE
      (if m = 1 then 1 else skipMode (!east && skipBits s % 2 == 1) (east && skipBits s / 2 == 1))
    let s := { s with circ := { s.circ with restoring := s.circ.restoring.erase skip, bypassed := s.circ.bypassed.erase q
                                            standing := s.circ.standing ++ [q], joined := s.circ.joined.erase q } }
    tickNote (sendNote s 3 (bypassWord s q 1) 0 0)
  else s

/-- RESTORE_SWITCHOVER (R422). -/
def execRestoreSwitchover (east : Bool) (s : State) : Res := .next (restoreSwitch east s)

/-! ### Notes round the arc (R398, R407) -/

/-- A NOTE arrives: the first copy of a note of another origin is acted on by a member of its arc and forwarded; any
other copy is dropped (R398, R407, R431). -/
def noteFrame (h : RxHead) (code origin number : Nat) (w0 w1 w2 : Word) (act : State → State) (s : State)
    (other : State → State := id) : State :=
  match receive s h false with
  | .no s => s
  | .yes s lane =>
    if 4 ≤ h.port.val then portFault s .spanDiscard h.port 0
    else match partMatch s h lane with
      | none => portFault s .partMismatch h.port 0
      | some e =>
        if origin = s.position ∨ s.circ.seen.contains (code, origin, number) then oweCredit s h.port e
        else
          let s := { s with circ := { s.circ with seen := s.circ.seen ++ [(code, origin, number)] } }
          let s := if isMember s h.arc then act s else other s
          passFrame s h e (.note code w0 w1 w2)

/-- A bound that D waits for (R423, R442). -/
def awaitBound (s : State) (x : StreamId) : State :=
  if s.fld .circReinjA F.circReinjA_STATE = 0 then
    (s.setFld .circReinjA F.circReinjA_STATE 1).setFld .circReinjA F.circReinjA_STREAM x.val
  else s

/-- The last hub before a position that passes everything sends its bounds, and discards what it has not sent of the blocks
up to them (R423). -/
def boundPast (s : State) (near : Port) (q : Nat) : State :=
  discardHeld (sendBounds s near near q (s.port near).ackHi) near

/-- A hub that is no member beside a position that passes everything is the U of R423 as well. -/
def passBypass (s : State) (q kind : Nat) : State :=
  let n := ringSize s
  if n ≠ 0 ∧ kind = Config.noteKind 0 % 4 ∧ kind ≠ Config.noteKind 1 % 4 then
    if q = (s.position + 1) % n then boundPast s 0 q
    else if q = (s.position + n - 1) % n then boundPast s 1 q
    else s
  else s

/-- A member acts on BYPASS (R419, R423): the position is no live member, and its neighbours by a PASS send the
bounds. -/
def actBypass (s : State) (q kind : Nat) : State :=
  let s := positionLost s q
  let s := if kind = Config.noteKind 2 % 4 then loseArc s else s
  let n := ringSize s
  if n ≠ 0 ∧ kind = Config.noteKind 0 % 4 ∧ kind ≠ Config.noteKind 1 % 4 then
    if q = (s.position + 1) % n then awaitBound (boundPast s 0 q) 1
    else if q = (s.position + n - 1) % n then awaitBound (boundPast s 1 q) 0
    else s
  else s

/-- BYPASS (R419). -/
def bypassNote (h : RxHead) (w0 : Word) (s : State) : State :=
  noteFrame h 2 (bitsOf w0 24 16) (bitsOf w0 63 32) w0 0 0 (fun s => actBypass s (bitsOf w0 8 0) (bitsOf w0 10 9)) s
    (fun s => passBypass s (bitsOf w0 8 0) (bitsOf w0 10 9))

/-- BYPASS (R419). -/
def execBypass (h : RxHead) (w0 : Word) (s : State) : Res := .next (bypassNote h w0 s)

/-- A member acts on RESTORE (R422): the position stands in the ring again, and is no live member until it is
spliced. -/
def actRestore (s : State) (q : Nat) : State :=
  if s.circ.bypassed.contains q then
    { s with circ := { s.circ with bypassed := s.circ.bypassed.erase q, standing := s.circ.standing ++ [q]
                                   joined := s.circ.joined.erase q } }
  else s

/-- RESTORE_NOTE (R422). -/
def restoreNote (h : RxHead) (w0 : Word) (s : State) : State :=
  noteFrame h 3 (bitsOf w0 24 16) (bitsOf w0 63 32) w0 0 0 (fun s => actRestore s (bitsOf w0 8 0)) s

/-- RESTORE_NOTE (R422). -/
def execRestoreNote (h : RxHead) (w0 : Word) (s : State) : Res := .next (restoreNote h w0 s)

/-- A member acts on SPLICE (R286, R429): one more live member, windows to it LOST, barriers and a running step
broken. -/
def actSplice (s : State) (q : Nat) : State :=
  let s := { s with circ := { s.circ with
    bypassed := s.circ.bypassed.erase q, standing := s.circ.standing.erase q
    joined := if q % 16 = 15 ∧ ¬ s.circ.joined.contains q then s.circ.joined ++ [q] else s.circ.joined } }
  let s := loseWindows s (fun w => decide (s.fld (.dmaRwinA w) F.dmaRwinA_ROUTE < 2) && s.fld (.dmaRwinA w) F.dmaRwinA_TARGET_POS == q)
  damageStep (breakBarriers (s.addFld .circRingConf F.circRingConf_ARC_ACTIVE 1))

/-- SPLICE (R429). -/
def spliceNote (h : RxHead) (w0 : Word) (s : State) : State :=
  noteFrame h 4 (bitsOf w0 24 16) (bitsOf w0 63 32) w0 0 0 (fun s => actSplice s (bitsOf w0 8 0)) s

/-- SPLICE (R429). -/
def execSplice (h : RxHead) (w0 : Word) (s : State) : Res := .next (spliceNote h w0 s)

/-- The interim owner acts on SPLICED (R429): the entries it holds for the spliced module are cleared; which ones
they are is taken from the order in which they were written (log entry 28). -/
def actSpliced (s : State) (ranges : Nat) : State :=
  let gone := s.circ.interim.take ranges
  let lost (e : StreamId × Nat) : Bool := match ownerOf s e.1 e.2 with | some (r, _) => gone.contains r | none => true
  let keep := s.circ.uncaptured.filter (fun e => !lost e)
  let s := gone.foldl (fun s r => s.setReg (.circOwn r) 0) s
  { s with circ := { s.circ with interim := s.circ.interim.drop ranges, uncaptured := keep } }

/-- SPLICED (R429). -/
def splicedNote (h : RxHead) (w0 : Word) (s : State) : State :=
  noteFrame h 5 (bitsOf w0 8 0) (bitsOf w0 63 32) w0 0 0 (fun s => actSpliced s (bitsOf w0 19 16)) s

/-- SPLICED (R429). -/
def execSpliced (h : RxHead) (w0 : Word) (s : State) : Res := .next (splicedNote h w0 s)

/-! ### Solder (R426 to R430, R441) -/

/-- Whether ARM = 1 is accepted (R428). -/
def spliceArmOk (s : State) : Bool :=
  s.fld .circSplice F.circSplice_STATE == 1 && s.fld .circArc F.circArc_VALID == 1 && inSpan s s.position
    && (List.finRange 16).any (fun r => (ownEntry s r).1) && s.quiet 0 && s.quiet 1

/-- A write of CIRC.SPLICE (R426, R428, R441). -/
def writeSplice (v : Word) (s : State) : Option State :=
  let st := s.fld .circSplice F.circSplice_STATE
  if bitsOf v 1 1 = 1 then
    if spliceArmOk s then some (s.setFld .circSplice F.circSplice_STATE 2) else none
  else if bitsOf v 0 0 = 1 ∧ (st = 2 ∨ (st = 6 ∧ s.fld .fcuStatus F.fcuStatus_OFF_RING = 0)) then
    some (s.setFld .circSplice F.circSplice_STATE 1)
  else some s

/-! ### Re-injection (R423, R424, R442) -/

/-- GAP_BOUND: D learns SSEQ_HI of the failed hub (R423). A hub that is no live member passes it on. -/
def gapBound (h : RxHead) (w0 : Word) (s : State) : State :=
  match receive s h false with
  | .no s => s
  | .yes s lane =>
    if 4 ≤ h.port.val then portFault s .spanDiscard h.port 0
    else match partMatch s h lane with
      | none => portFault s .partMismatch h.port 0
      | some e =>
        if isMember s h.arc then
          let x : StreamId := ⟨bitsOf w0 63 63 % 2, Nat.mod_lt _ (by decide)⟩
          let s := oweCredit s h.port e
          if 2 ≤ s.fld .circReinjA F.circReinjA_STATE then
            { s with circ := { s.circ with reinj := { s.circ.reinj with bounds := s.circ.reinj.bounds ++ [(x, bitsOf w0 55 32)] } } }
          else openGap s x (bitsOf w0 55 32)
        else passFrame s h e (.note 6 w0 0 0)

/-- GAP_BOUND (R423). -/
def execGapBound (h : RxHead) (w0 : Word) (s : State) : Res := .next (gapBound h w0 s)

/-- The stage frames of one backing copy to D's slot (R405, R424), by the shorter way round. -/
def stageFrames (s : State) (dpos slot : Nat) (bytes : List Byte) : List RemotePkt :=
  let n := ringSize s
  let east := (dpos + n - s.position) % max n 1
  let route := if 2 * east ≤ n then 0 else 1
  (List.range ((bytes.length + 223) / 224)).map (fun i =>
    let part := (bytes.drop (224 * i)).take 224
    { RemotePkt.blank .rwr with route := route, srcRing := s.ringId, srcPos := s.position, tgtRing := s.ringId, tgtPos := dpos
                                pkt := i, op := 5, len := part.length, addr := slot + 224 * i, data := part })

/-- A member answers GAP_REQ (R424): the owned blocks of the gap whose copies it holds, then GAP_DONE. -/
def actGapReq (s : State) (w0 w1 w2 : Word) : State :=
  let x : StreamId := ⟨bitsOf w0 63 63 % 2, Nat.mod_lt _ (by decide)⟩
  let first := bitsOf w0 55 32
  let span := seqGap (streamLen s x) (bitsOf w0 31 8) first
  let dpos := bitsOf w1 8 0
  let blocks := (ownedBlocks s x).filter (fun b =>
    decide (seqGap (streamLen s x) b.1 first ≤ span) && !uncaptured s x b.1 && slotFits s b.2 && tierServes s b.2 16448)
  let fs := blocks.flatMap (fun b =>
    stageFrames s dpos (bitsOf w2 47 0 + seqGap (streamLen s x) b.1 first * 16448) (blockAt s b.2))
  let done := BitVec.ofNat 64 (x.val * 2 ^ 63 + blocks.length % 2 ^ 24 * 2 ^ 32 + s.position)
  let s := { s with remoteOut := s.remoteOut ++ fs
                    circ := { s.circ with doneNotes := s.circ.doneNotes ++ [(done, BitVec.ofNat 64 (bitsOf w1 63 32 * 2 ^ 32))] } }
  flushDone s

/-- GAP_REQ (R424). -/
def gapReq (h : RxHead) (w0 w1 w2 : Word) (s : State) : State :=
  noteFrame h 7 (bitsOf w1 8 0) (bitsOf w1 63 32) w0 w1 w2 (fun s => actGapReq s w0 w1 w2) s

/-- GAP_REQ (R424). -/
def execGapReq (h : RxHead) (w0 w1 w2 : Word) (s : State) : Res := .next (gapReq h w0 w1 w2 s)

/-- Gap blocks not yet staged. -/
def missingBlocks (s : State) (x : StreamId) : List Nat :=
  ((List.range (gapCount s)).map (fun k => (s.fld .circReinjA F.circReinjA_FIRST + k) % max (streamLen s x) 1)).filter
    (fun q => !s.circ.reinj.staged.contains q)

/-- Runs of consecutive blocks: first and count. -/
def runsOf (nb : Nat) (l : List Nat) : List (Nat × Nat) :=
  l.foldl (fun (r : List (Nat × Nat)) q => match r.getLast? with
    | some (f, n) => if (f + n) % nb = q then r.dropLast ++ [(f, n + 1)] else r ++ [(q, 1)]
    | none => [(q, 1)]) []

/-- D asks the control node for every gap block not staged; with none missing it injects (R424). -/
def startReload (s : State) : State :=
  let x : StreamId := ⟨s.fld .circReinjA F.circReinjA_STREAM % 2, Nat.mod_lt _ (by decide)⟩
  let lack := missingBlocks s x
  let s := { s with circ := { s.circ with reinj := { s.circ.reinj with asked := lack } } }
  if lack.isEmpty then s.setFld .circReinjA F.circReinjA_STATE 4
  else
    (runsOf (max (streamLen s x) 1) lack).foldl (fun s r =>
      requestBlocks s { stream := x, first := r.1, count := r.2, dest := stageSlot s r.1 })
      (s.setFld .circReinjA F.circReinjA_STATE 3)

/-- D acts on GAP_DONE (R424). -/
def actGapDone (s : State) (pos number : Nat) : State :=
  let r := s.circ.reinj
  if s.fld .circReinjA F.circReinjA_STATE = 2 ∧ r.note % 2 ^ 32 = number then
    let done := if r.done.contains pos then r.done else r.done ++ [pos]
    let s := { s with circ := { s.circ with reinj := { r with done := done } } }
    if (liveMembers s).all (fun p => p == s.position || done.contains p) then startReload s else s
  else s

/-- GAP_DONE (R424). -/
def gapDone (h : RxHead) (w0 w1 : Word) (s : State) : State :=
  noteFrame h 8 (bitsOf w0 8 0) (bitsOf w1 63 32) w0 w1 0 (fun s => actGapDone s (bitsOf w0 8 0) (bitsOf w1 63 32)) s

/-- GAP_DONE (R424). -/
def execGapDone (h : RxHead) (w0 w1 : Word) (s : State) : Res := .next (gapDone h w0 w1 s)

/-- REINJ_TIMEOUT: TIMEOUT_MS has passed without every GAP_DONE (R424). -/
def reinjTimeout (s : State) : State :=
  if s.fld .circReinjA F.circReinjA_STATE = 2
      ∧ s.circ.reinj.since + s.fld .circReinjCtrl F.circReinjCtrl_TIMEOUT_MS * 1000000 ≤ s.now then startReload s else s

/-- REINJ_TIMEOUT (R424). -/
def execReinjTimeout (s : State) : Res := .next (reinjTimeout s)

/-- A stretch of a gap block has been staged from a member (R424): once the block is whole it counts. -/
def stagePart (s : State) (a n : Nat) : State :=
  let x : StreamId := ⟨s.fld .circReinjA F.circReinjA_STREAM % 2, Nat.mod_lt _ (by decide)⟩
  let base := s.fld .circReinjCtrl F.circReinjCtrl_STAGE_BASE
  let k := (a - base) / 16448
  let q := (s.fld .circReinjA F.circReinjA_FIRST + k) % max (streamLen s x) 1
  let r := s.circ.reinj
  let got := r.got.at_ 0 q + n
  let size := storedSize (min (parseHeader (s.bytes (base + k * 16448) 32)).compLen 16384)
  let s := { s with circ := { s.circ with reinj := { r with got := r.got.put q got } } }
  if k < gapCount s ∧ 32 ≤ got ∧ size ≤ got ∧ ¬ r.staged.contains q then
    { s.addFld .circReinjB F.circReinjB_RECEIVED 1 with circ := { s.circ with reinj := { s.circ.reinj with staged := r.staged ++ [q] } } }
  else s

/-- The control node has put a gap block into staging (R424, R497). -/
def stageLoaded (s : State) (q : Nat) : State :=
  let x : StreamId := ⟨s.fld .circReinjA F.circReinjA_STREAM % 2, Nat.mod_lt _ (by decide)⟩
  let r := s.circ.reinj
  let s : State := s.addFld .circReinjB F.circReinjB_RELOADED 1
  let s : State := { s with
    circ := { s.circ with reinj := { r with staged := if r.staged.contains q then r.staged else r.staged ++ [q] } } }
  if s.fld .circReinjA F.circReinjA_STATE = 3 ∧ (missingBlocks s x).isEmpty then s.setFld .circReinjA F.circReinjA_STATE 4 else s

/-- A write of CIRC.REINJ_CTRL (R442). -/
def writeReinjCtrl (v : Word) (s : State) : Option State :=
  let base := bitsOf v 39 0
  let size := bitsOf v 63 48 * 1048576
  if s.fld .circRingConf F.circRingConf_ENABLE = 1 ∨ base % 1048576 ≠ 0 ∨ base < 0x8000000000 ∨ 0xC000000000 < base + size then none
  else some (s.setReg .circReinjCtrl v)

end Sys2Proof.Machine
end

