-- ==== Sys2Proof/Machine/Hbm.lean ====
section
/-! DEFINITION. Retraining, stack temperature and retirement, and loss of LPDDR5X packages (R444, R450 to R457). -/

namespace Sys2Proof.Machine

/-- Whether another step of the same stack or package runs (R450). -/
def stepElsewhere (s : State) (t : Nat) : Bool :=
  s.tier.steps.any (fun u => if t < 1000 then decide (u < 1000 ∧ u / 32 = t / 32) else decide (1000 ≤ u ∧ (u - 1000) / 2 = (t - 1000) / 2))

/-- Whether a target is a pseudo-channel of a stack in UP, or a channel in UP. -/
def targetUp (s : State) (t : Nat) : Bool :=
  if t < 256 then stackState s (t / 32) == 2
  else decide (1000 ≤ t ∧ t < 1016) && s.fld (chStatus (t - 1000)) F.lpdChStatus_STATE == 2

/-- The retraining register of a target's block (R468). -/
def retrainCtrl (t : Nat) : Reg :=
  if t < 1000 then .hbmRetrainCtrl ⟨t / 128 % 2, Nat.mod_lt _ (by decide)⟩ else .lpdRetrainCtrl

/-- The target's request queue has been empty for GAP_NS (R450). -/
def inGap (s : State) (t : Nat) : Bool :=
  !((s.die 0).txns ++ (s.die 1).txns).any (fun x => retrainTarget x.addr == some t)
    && decide (s.tier.lastBusy.at_ 0 t + bitsOf (s.reg (retrainCtrl t)) 7 0 ≤ s.now)

/-- A step of a target begins. -/
def beginStep (s : State) (t : Nat) : State :=
  { s with tier := { s.tier with steps := s.tier.steps ++ [t], stepAt := s.tier.stepAt.put t s.now } }

/-- RETRAIN_STEP_START: a step starts in a gap of its target (R450); refreshes are no state of the model (log entry 58). -/
def retrainStart (t : Nat) (s : State) : State :=
  if targetUp s t ∧ ¬ stepElsewhere s t ∧ inGap s t then beginStep s t else s

/-- RETRAIN_STEP_START (R450). -/
def execRetrainStepStart (t : Nat) (s : State) : Res := .next (retrainStart t s)

/-- RETRAIN_STEP_FORCED: PERIOD_US has passed with no gap (R451). -/
def retrainForced (t : Nat) (s : State) : State :=
  if targetUp s t ∧ ¬ s.tier.steps.contains t
      ∧ s.tier.stepAt.at_ 0 t + bitsOf (s.reg (retrainCtrl t)) 31 16 * 1000 ≤ s.now then
    let s := if t < 1000 then s.addFld (stackErr (t / 32)) F.hbmStackErr_FORCED 1
      else s.addFld (chStatus (t - 1000)) F.lpdChStatus_FORCED 1
    beginStep s t
  else s

/-- RETRAIN_STEP_FORCED (R451). -/
def execRetrainStepForced (t : Nat) (s : State) : Res := .next (retrainForced t s)

/-- The length of a step in ns (R450). -/
def stepNs (t : Nat) : Nat := if t < 1000 then 120 else 200

/-- RETRAIN_STEP_END: a step ends after its length, with lock or without; the third failure in a row retires the stack or loses the
channel (R451). -/
def retrainEnd (t : Nat) (lock : Bool) (s : State) : State :=
  if s.tier.steps.contains t ∧ s.tier.stepAt.at_ 0 t + stepNs t ≤ s.now then
    let n := if lock then 0 else s.tier.failRuns.at_ 0 t + 1
    let s := { s with tier := { s.tier with steps := s.tier.steps.erase t
                                            failRuns := s.tier.failRuns.put t (if n = 3 then 0 else n) } }
    if n = 3 then (if t < 1000 then triggerRetire s (t / 32) 2 else losePackage s ((t - 1000) / 2))
    else if lock then s.calPassed (if t < 128 then 6 else if t < 1000 then 7 else 8) t
    else s
  else s

/-- RETRAIN_STEP_END (R451). -/
def execRetrainStepEnd (t : Nat) (lock : Bool) (s : State) : Res := .next (retrainEnd t lock s)

/-- HBM_TEMP_READ: a stack's temperature is read; its catastrophic flag retires it (R444, R452). -/
def tempRead (n temp : Nat) (crit : Bool) (s : State) : State :=
  let s := s.setFld (stackStatus n) F.hbmStackStatus_TEMP (min temp 255)
  if crit then
    let s := if stackState s n = 2 then s.raise { Report.plain .hbmCrit (n / 4) n .hbm 0 with detail := 3 } else s
    retireStack s n 3
  else s

/-- HBM_TEMP_READ (R444). -/
def execHbmTempRead (n : Fin 8) (temp : Nat) (crit : Bool) (s : State) : Res := .next (tempRead n.val temp crit s)

/-- A write of HBM.STACK_i_CMD (R452, R470). -/
def writeStackCmd (n : Nat) (v : Word) (s : State) : Option State :=
  if bitsOf v 0 0 = 0 then some s
  else if stackState s n = 2 then some (retireStack s n 4) else none

/-- A transaction to a stack is in flight. -/
def stackBusy (s : State) (n : Nat) : Bool :=
  ((s.die 0).txns ++ (s.die 1).txns).any (fun t => t.issued && (match placeOf t.addr with | .hbm k => k == n | _ => false))

/-- Stack n is RETIRED (R453 to R455, R458): its fault is raised, and the sequences homed on it end LOST. -/
def stackRetire (s : State) (n : Nat) : State :=
  let second := s.tier.retired ≠ []
  let s := s.setFld (stackStatus n) F.hbmStackStatus_STATE 4
  let s := { s with tier := { s.tier with retired := s.tier.retired ++ [n], retiring := s.tier.retiring.drop_ n } }
  let s := s.raise (Report.plain (if second then .stackSecond else .stackRetired) (n / 4) n .hbm 0)
  loseSeqs s (fun q => q.stack == n && (q.st == .prefill || q.st == .decode || q.st == .ending))

/-- STACK_RETIRED: every transaction to the stack has completed, or 2 µs have passed (R453). -/
def stackRetired (n : Nat) (s : State) : State :=
  if stackState s n = 3 ∧ (stackBusy s n = false ∨ s.tier.retiring.at_ 0 n + 2000 ≤ s.now) then stackRetire s n else s

/-- STACK_RETIRED (R453). -/
def execStackRetired (n : Fin 8) (s : State) : Res := .next (stackRetired n.val s)

end Sys2Proof.Machine
end

