-- ==== Sys2Proof/Machine/RegRead.lean ====
section
/-! DEFINITION. What every register reads as: the stored word, with the fields that report other state (R4, R18, R95,
R142, R338, R498 and the maps of every chapter). -/

namespace Sys2Proof.Machine

/-! ### Fused and presented engines (R4, R95, R138, R146) -/

/-- The engine fuses of one die, 64 physical engines from `base` (R146). -/
def fusedWord (s : State) (d : Die) (base : Nat) : Word :=
  BitVec.ofNat 64 ((s.fuses.offEngines.filter (fun e => e.1 = d ∧ base ≤ e.2 ∧ e.2 < base + 64)).foldl
    (fun w e => w ||| 2 ^ (e.2 - base)) 0)

/-- The physical cores of a cluster in logical order: those with a fused-off engine come last (R138). -/
def coreOrder (s : State) (d : Die) (c : Nat) : List Nat :=
  let off (k : Nat) : Bool := s.fuses.offEngines.any (fun e => e.1 == d && e.2 / 4 == 4 * c + k)
  (List.range 4).filter (fun k => !off k) ++ (List.range 4).filter off

/-- ENG.CORE_MAP (R146). -/
def coreMap (s : State) (d : Die) : Word :=
  BitVec.ofNat 64 ((List.range 8).foldl (fun w c =>
    ((coreOrder s d c).zipIdx.foldl (fun w p => w + p.1 * 2 ^ (8 * c + 2 * p.2)) w)) 0)

/-- Engines that a grade presents on a die (R2, R95). -/
def gradeEngines (grade : Nat) : Nat := match grade with | 1 => 128 | 2 => 120 | _ => 112

/-- MOD.IDENT (R4). -/
def identity (s : State) : Word :=
  BitVec.ofNat 64 (0x7A080000 + s.fuses.stepping % 256 * 256 + s.fuses.grade % 16 * 16 + s.presentedGrade % 16)

/-- MOD.TOPOLOGY (R95): a stack in RETIRING is still shown, until it is RETIRED (R454). -/
def topology (s : State) : Word :=
  let n := gradeEngines s.presentedGrade
  let up := (List.range 8).foldl (fun w i => if stackState s i = 2 ∨ stackState s i = 3 then w + 2 ^ i else w) 0
  let chans := (List.range 16).foldl (fun w k => if s.fld (chStatus k) F.lpdChStatus_STATE = 2 then w + 2 ^ k else w) 0
  BitVec.ofNat 64 (n * 2 ^ 40 + n * 2 ^ 32 + up * 2 ^ 16 + chans)

/-! ### Stores (R243, R246, R247) -/

/-- The bank key and entry that REPAIR_SEL of a store selects (R246). -/
def repairSel (s : State) (d : Die) (st : Store) : Nat × Nat :=
  let w := s.reg (match st with | .wst => .wstRepairSel d | .ast => .astRepairSel d | .pst => .pstRepairSel d)
  (bankKey st (bitsOf w 23 16) (bitsOf w 9 4), bitsOf w 2 0)

/-- REPAIR_ENTRY of a store (R246). -/
def repairEntry (s : State) (d : Die) (st : Store) : Word :=
  let e := s.repair d (repairSel s d st).1 (repairSel s d st).2
  BitVec.ofNat 64 (e.valid.toNat * 2 ^ 15 + e.bad.toNat * 2 ^ 14 + e.source % 4 * 2 ^ 12 + e.row % 1024)

/-- Units of a store block of a die, and banks of a unit (R194, R246). -/
def storeBanks : Store → Nat × Nat
  | .wst => (8, 32) | .ast => (8, 40) | .pst => (32, 8)

/-- REPAIR_STATUS of a store (R247). -/
def repairStatus (s : State) (d : Die) (st : Store) : Word :=
  let mine := s.repairs.filter (fun e => e.1.1 = d ∧ storeOfKey e.1.2.1 = st)
  let used := mine.countP (fun e => e.2.valid)
  let banks := (mine.map (fun e => e.1.2.1)).eraseDups
  let full := banks.countP (fun b => (freeEntry s d b).isNone)
  putBits (putBits (s.reg (repairStatusReg d st)) 63 48 used) 47 40 full

/-! ### Feeders and expanders (R187, R293, R295) -/

/-- FDX.FEED_STATUS of a core (R293). -/
def feedStatus (s : State) (d : Die) (q : CoreId) : Word :=
  let c := s.core d q
  BitVec.ofNat 64 ((c.actQ.length + c.actReserved) % 128 * 2 ^ 40 + c.feeds.length % 8 * 2 ^ 32
    + c.treqs.length % 8 * 2 ^ 24 + c.rx.length % 8 * 2 ^ 16 + c.tordPos % 16 * 16 + (c.tord.length - 1) % 16)

/-- FDX.EXP_STATUS of a core (R187). -/
def expStatus (s : State) (d : Die) (q : CoreId) : Word :=
  let t := expCurrent (s.core d q)
  putBits (putBits (s.reg (.fdxExpStatus d q)) 1 1 (t.any TileReq.staged).toNat) 0 0 t.isSome.toNat

/-- FDX.MCAST_STATUS of a die (R295). -/
def mcastStatus (s : State) (d : Die) : Word :=
  putBits (putBits (s.reg (.fdxMcastStatus d)) 20 6 ((s.die d).window.countP (fun w => !w.skip))) 5 0 (s.die d).busQ.length

/-! ### Circulation (R80) -/

/-- Streams pass this position (R80): a block frame has passed or landed not long ago, how long no rule gives (log entry
55), and the position does not hold its streams (R661). -/
def streamsPass (s : State) : Bool :=
  (match s.circ.heardAt with | some t => decide (s.now ≤ t + Config.streamSilence) | none => false) && !holdsStreams s

/-! ### Translation tables (R385) -/

/-- The core, slot and VID that XL_SEL of a die selects (R350). -/
def xlSel (s : State) (d : Die) : CoreId × SlotId × Nat :=
  let w := s.reg (.syncXlSel d)
  (⟨bitsOf w 20 16 % 32, Nat.mod_lt _ (by decide)⟩, ⟨bitsOf w 13 12 % 4, Nat.mod_lt _ (by decide)⟩, bitsOf w 11 0)

/-- SYNC.XL_ENTRY of a die: the entry that XL_SEL selects (R385). -/
def xlEntry (s : State) (d : Die) : Word :=
  BitVec.ofNat 64 ((s.ctx d (xlSel s d).1 (xlSel s d).2.1).xl.at_ 0 (xlSel s d).2.2 % 2 ^ 16)

/-! ### The service (R505) -/

/-- Sequences in a state that holds rows (R505). -/
def Seq.resident (q : Seq) : Bool := q.st == .prefill || q.st == .decode || q.st == .ending

/-- MLD.SVC_STATUS (R505). -/
def svcStatus (s : State) : Word :=
  let m := s.mld
  BitVec.ofNat 64 (m.log.length % 2 ^ 15 * 2 ^ 49 + m.seqs.countP (fun q => q.st == .queued) % 2 ^ 13 * 2 ^ 36
    + m.seqs.countP Seq.resident % 2 ^ 11 * 2 ^ 25 + m.seqs.countP (fun q => q.st == .parked) % 2 ^ 16 * 2 ^ 9)

/-! ### The fault unit (R541, R543, R544) -/

/-- The unacknowledged level of a class (R522). -/
def unackLevel (s : State) (k : FaultClass) : Nat :=
  (s.fcu.unacked.filter (fun u => u.cls = k ∧ u.acked = false)).foldl (fun m u => max m u.level) 0

/-- A log entry is free (R509): its record is acknowledged, or has LEVEL 0 and has been sent. -/
def LogEntry.free (e : LogEntry) : Bool :=
  let w := e.words.getD 0 0
  bitsOf w 11 11 == 1 || (bitsOf w 16 14 == 0 && e.sent)

/-- FCU.STATUS (R541). -/
def fcuStatus (s : State) : Word :=
  let w := s.reg .fcuStatus
  let w := putBits w 31 21 (s.fcu.log.countP (fun e => !e.2.free))
  let w := putBits w 7 7 (if s.fcu.holdClass.isSome then 1 else 0)
  putBits w 2 0 (FaultClass.all.foldl (fun m k => max m (unackLevel s k)) 0)

/-! ### Calibration and the power points (R566, R577, R581) -/

/-- Units of a calibration function that must be passed over, and whether all of them are in service (R566). -/
def calUnitsOf (s : State) (f : Nat) : List Nat × Bool :=
  match f with
  | 0 => ([0], s.readyBit 7)
  | 1 => ([0], s.readyBit 8)
  | 2 | 5 => ([0], true)
  | 4 => ((List.range 4).flatMap (fun p => (lanesIn s ⟨p % 6, Nat.mod_lt _ (by decide)⟩ 2).map (fun l => 64 * p + l)),
          (List.range 4).all (fun p => inService s ⟨p % 6, Nat.mod_lt _ (by decide)⟩))
  | 6 => (List.range 128, (List.range 4).all (fun n => stackState s n = 2))
  | 7 => ((List.range 128).map (fun t => 128 + t), (List.range 4).all (fun n => stackState s (4 + n) = 2))
  | 8 => ((List.range 16).map (fun k => 1000 + k), (List.range 16).all (fun k => s.fld (chStatus k) F.lpdChStatus_STATE = 2))
  | _ => ([], false)

/-- CONVERGED of a function (R566). THERM has no live calibration, so it completes no pass (R558). -/
def converged (s : State) (f : Nat) : Bool :=
  let u := calUnitsOf s f
  u.2 && u.1.all (fun i => s.pow.calUnits.contains (f, i))
    && (match s.pow.calMoved.find f with | some t => decide (t + 1000000000 ≤ s.now) | none => true)

/-- PTC.CAP (R577). -/
def capStatus (s : State) : Word :=
  putBits (putBits (s.reg .ptcCap) 2 2 (if s.pow.thermPoint < 850 then 1 else 0)) 1 1 (if s.pow.capPoint < 850 then 1 else 0)

/-! ### Records and fuses (R609, R612) -/

/-- Bytes of a configuration record in its bank (R603). -/
def ConfRec.size (r : ConfRec) : Nat := 56 + (r.payload.length + 7) / 8 * 8

/-- Bytes left in the active bank (R587, R602). -/
def bankFree (s : State) : Nat := 2097152 - 16 - (s.sec.recs.map ConfRec.size).sum

/-- SEC.REC_STATUS (R612): the banks take turns with BANK_GEN, from bank A with 1 (R602, R607). -/
def recStatus (s : State) : Word :=
  putBits (putBits (putBits (s.reg .secRecStatus) 63 63 (s.sec.gen + 1)) 60 48 (s.sec.recs.countP (fun r => r.live))) 10 0 (bankFree s / 1024)

/-- SEC.STATUS (R609). -/
def secStatus (s : State) : Word :=
  let w := putBits (s.reg .secStatus) 59 56 (s.fuses.revoked.foldl (fun w k => w ||| 2 ^ k) 0)
  putBits (putBits w 47 40 s.fuses.rollback) 31 24 (Config.romRev 0)

/-! ### The value of a register -/

/-- A register as the privileged view reads it, before its write-only fields are left out. -/
def regValue (s : State) (r : Reg) : Word :=
  match r with
  | .modIdent => identity s
  | .modTopology => topology s
  | .engCoreStatus d q => coreStatus s d q
  | .engFusedLo d => fusedWord s d 0
  | .engFusedHi d => fusedWord s d 64
  | .engCoreMap d => coreMap s d
  | .engGradeMask => BitVec.ofNat 64 s.presentedGrade
  | .scvCtx d q x => (s.ctx d q x).regWord
  | .scvCtxPc d q x => BitVec.ofNat 64 ((s.ctx d q x).pc % 2 ^ 48)
  | .scvStepStatus d => putBits (s.reg r) 12 8 (s.die d).steps.length
  | .wstStoreCtrl d => putBits (s.reg r) 3 3 (s.quiet d).toNat
  | .wstRepairEntry d => repairEntry s d .wst
  | .astRepairEntry d => repairEntry s d .ast
  | .pstRepairEntry d => repairEntry s d .pst
  | .wstRepairStatus d => repairStatus s d .wst
  | .astRepairStatus d => repairStatus s d .ast
  | .pstRepairStatus d => repairStatus s d .pst
  | .fdxFeedStatus d q => feedStatus s d q
  | .fdxExpStatus d q => expStatus s d q
  | .fdxMcastStatus d => mcastStatus s d
  | .dmaQstatus d c => dmaStatus s d c
  | .dmaTxnStatus d => txnStatus s d
  | .syncXlEntry d => xlEntry s d
  | .circStatus => putBits (s.reg r) 0 0 (streamsPass s).toNat
  | .circWindow => putBits (s.reg r) 17 0 (196608 - s.fld .circWindow F.circWindow_RESERVE_KIB)
  | .circPortStatus p =>
    putBits (putBits (s.reg r) 45 40 (lanesIn s p 2).length) 39 38 (lanesIn s p 3).length
  | .mldSvcStatus => svcStatus s
  | .fcuStatus => fcuStatus s
  | .fcuLogData w => ((s.fcu.log.find (s.fld .fcuLogSel F.fcuLogSel_INDEX)).bind (fun e => e.words[w.val]?)).getD 0
  | .fcuClass k => putBits (s.reg r) 18 16 (unackLevel s k)
  | .ptcCap => capStatus s
  | .ptcCalFunc f => putBits (s.reg r) 60 60 (converged s f.val).toNat
  | .secStatus => secStatus s
  | .secRecStatus => recStatus s
  | _ => s.reg r

/-- The bits of a register that a view reads: no write-only field, and in view U no field of view P (R18, R498). -/
def viewMask (r : Reg) (priv : Bool) : Word :=
  r.fields.foldl (fun m f => if f.access ≠ .wo ∧ (priv ∨ f.view = .u) then m ||| maskOf f.hi f.lo else m) 0

/-- A register as a view reads it (R18, R498). -/
def readReg (s : State) (r : Reg) (priv : Bool) : Word := regValue s r &&& viewMask r priv

end Sys2Proof.Machine
end

