-- ==== Sys2Proof/Machine/Sampling.lean ====
section
/-! DEFINITION. Token selection: penalty, candidates, probabilities, nucleus, draw and stop matching (R487, R488, R490),
as functions of FP32 logits. -/

namespace Sys2Proof.Machine

/-- The quotient with 64 more bits and a sticky bit, so that one rounding gives the nearest value (R152). -/
def Val.div : Val → Val → Val
  | .nan, _ => .nan
  | _, .nan => .nan
  | .inf _, .inf _ => .nan
  | .inf a, .fin b _ _ => .inf (a != b)
  | .fin a _ _, .inf b => .fin (a != b) 0 0
  | .fin a m e, .fin b n f =>
    if n = 0 then (if m = 0 then .nan else .inf (a != b))
    else
      let q := m * 2 ^ 64 / n
      .fin (a != b) (2 * q + (if m * 2 ^ 64 % n = 0 then 0 else 1)) (e - f - 65)

/-- The parameters of a sequence that sampling reads (R483). -/
structure Params where
  nStop : Nat
  maxNew : Nat
  seed : Nat
  temp : Nat
  topP : Nat
  topK : Nat
  penWin : Nat
  penalty : Nat
  stopTok : List Nat
  stopSeq : List (List Nat)
  deriving DecidableEq, Repr

/-- A little-endian field of a PROMPT's head. -/
def headField (h : List Byte) (off n : Nat) : Nat := ofLe ((h.drop off).take n)

/-- The parameters in a PROMPT's first 352 bytes (R483). -/
def paramsOf (h : List Byte) : Params :=
  { nStop := headField h 7 1, maxNew := headField h 16 4, seed := headField h 20 8, temp := headField h 28 4
    topP := headField h 32 4, topK := headField h 36 2, penWin := headField h 38 2, penalty := headField h 40 4
    stopTok := (List.range (headField h 7 1)).map (fun i => headField h (56 + 4 * i) 4)
    stopSeq := (List.range 4).map (fun j => (List.range (headField h (88 + j) 1)).map (fun i => headField h (96 + 64 * j + 4 * i) 4)) }

/-- Step 1: the logit of a token after the penalty. -/
def penalise (p : Params) (toks : List Nat) (t l : Nat) : Nat :=
  if (toks.drop (toks.length - p.penWin)).contains t then
    let v := Val.ofFp32 l
    if Val.below Val.zero v && !v.isZero then toFp32 (Val.div v (Val.ofFp32 p.penalty)) else toFp32 (Val.mul v (Val.ofFp32 p.penalty))
  else l

/-- A logit that can be chosen: neither NaN nor minus infinity (R487). -/
def choosable (v : Val) : Bool := v != .nan && v != .inf true

/-- Rounds of Philox4x32 on a counter with a key (R487). -/
def philox : Nat → Nat × Nat → Nat × Nat × Nat × Nat → Nat × Nat × Nat × Nat
  | 0, _, c => c
  | n + 1, (k0, k1), (c0, c1, c2, c3) =>
    let p0 := 0xD2511F53 * c0
    let p1 := 0xCD9E8D57 * c2
    philox n ((k0 + 0x9E3779B9) % 2 ^ 32, (k1 + 0xBB67AE85) % 2 ^ 32)
      ((p1 / 2 ^ 32) ^^^ c1 ^^^ k0, p1 % 2 ^ 32, (p0 / 2 ^ 32) ^^^ c3 ^^^ k1, p0 % 2 ^ 32)

/-- u of step 7, in units of 2^-24. -/
def drawU (seed index : Nat) : Nat :=
  (philox 10 (seed % 2 ^ 32, seed / 2 ^ 32 % 2 ^ 32) (index % 2 ^ 32, 0, 0, 0)).1 / 256

/-- FP32 sum of two words. -/
def addFp32 (a b : Nat) : Nat := accFp32 a b

/-- Whether one FP32 word is at least another. -/
def geFp32 (a b : Nat) : Bool :=
  let x := Val.ofFp32 a; let y := Val.ofFp32 b
  x != .nan && y != .nan && (Val.same x y || Val.below y x)

/-- Candidates in descending order of probability, ties by token: (token, probability). -/
def insertProb (k : Nat × Nat) : List (Nat × Nat) → List (Nat × Nat)
  | [] => [k]
  | h :: t => if keyBefore (Val.ofFp32 k.2) k.1 (Val.ofFp32 h.2) h.1 then k :: h :: t else h :: insertProb k t

/-- The nucleus (step 6): tokens kept with their running sums, given what is kept, the sum so far and what is left. -/
def nucleus (topP : Nat) : List (Nat × Nat) → Nat → List (Nat × Nat) → List (Nat × Nat)
  | [], _, kept => kept
  | (t, p) :: rest, run, kept =>
    let run := addFp32 run p
    if geFp32 run topP then kept ++ [(t, run)] else nucleus topP rest run (kept ++ [(t, run)])

/-- Steps 4 to 7: the token drawn from the penalised and masked logits; none without a candidate. A probability that
is no number leaves the choice among the candidates open: `free` makes it (log entry 15). -/
def drawToken (p : Params) (index free : Nat) (logits : List Nat) : Option Nat :=
  let temp := Val.ofFp32 p.temp
  let scaled := logits.map (fun l => toFp32 (Val.div (Val.ofFp32 l) temp))
  let keys := scaled.zipIdx.map (fun l => (Val.ofBf16 (toBf16 (Val.ofFp32 l.1)), l.2))
  let order := (keys.filter (fun k => choosable k.1)).foldl (fun l k => insertKey k l) []
  let cand := (order.take (if p.topK = 0 then 256 else p.topK)).map Prod.snd
  if cand.isEmpty then none
  else
    let x (i : Nat) : Nat := scaled.getD i 0
    let x0 := cand.foldl (fun m i => if Val.below (Val.ofFp32 m) (Val.ofFp32 (x i)) then x i else m) (x (cand.headD 0))
    let es := cand.map (fun i => Config.expFp32 (toFp32 (Val.sum [Val.ofFp32 (x i), (Val.ofFp32 x0).neg])))
    let tot := es.foldl addFp32 0
    let probs := es.map (fun e => toFp32 (Val.div (Val.ofFp32 e) (Val.ofFp32 tot)))
    let sorted := (cand.zip probs).foldl (fun l k => insertProb k l) []
    if probs.any (fun q => Val.ofFp32 q == .nan) then some (cand.getD (free % cand.length) 0)
    else
      let kept := nucleus p.topP sorted 0 []
      let last := (kept.getLast?.map Prod.snd).getD 0
      let u := Val.mul (.fin false (drawU p.seed index) (-24)) (Val.ofFp32 last)
      match kept.find? (fun k => let r := Val.ofFp32 k.2; Val.same r u || Val.below u r) with
      | some k => some k.1
      | none => (kept.getLast?.map Prod.fst)

/-- Step 3: the token with the largest logit, the lowest on a tie. -/
def greedyToken (logits : List Nat) : Option Nat :=
  let ks := (logits.zipIdx.map (fun l => (Val.ofFp32 l.1, l.2))).filter (fun k => choosable k.1)
  ((ks.foldl (fun (b : Option (Val × Nat)) k => match b with
    | none => some k
    | some m => if keyBefore k.1 k.2 m.1 m.2 then some k else some m) none).map Prod.snd)

/-- A row's next token (R487, R488): the tokens so far, the index drawn, the tokens a grammar allows, and the row's
logits by token. None is NO_TOKEN. -/
def selectToken (p : Params) (toks : List Nat) (index free : Nat) (allowed : Nat → Bool) (logits : List Nat) : Option Nat :=
  let ls := logits.zipIdx.map (fun l => if allowed l.2 then penalise p toks l.2 l.1 else 0xFF800000)
  if ls.all (fun l => !choosable (Val.ofFp32 l)) then none
  else if (Val.ofFp32 p.temp).isZero then greedyToken ls
  else drawToken p index free ls

/-- The end reason that a drawn token brings (R490): 1 STOP_TOKEN, 2 STOP_SEQ, 3 MAX_NEW; `gen` holds the generated
tokens with the drawn one last. -/
def stopReason (p : Params) (gen : List Nat) : Option Nat :=
  let tok := gen.getLast?.getD 0
  if p.stopTok.contains tok then some 1
  else if p.stopSeq.any (fun q => !q.isEmpty && decide (q.length ≤ gen.length) && gen.drop (gen.length - q.length) == q) then some 2
  else if gen.length = p.maxNew then some 3
  else none

end Sys2Proof.Machine
end

