-- ==== Sys2Proof/Machine/Service.lean ====
section
/-! DEFINITION. The on-module service (chapter 11): the control link, messages, admission, sequences, sampling, commit,
parking and loads. -/

namespace Sys2Proof.Machine

/-! ### READY (R569) -/

/-- A bit of PTC.READY set or cleared, with its complement (R569). -/
def setReady (s : State) (i : Nat) (b : Bool) : State :=
  let w := putBits (s.reg .ptcReady) i i b.toNat
  s.setReg .ptcReady (putBits w 63 32 (2 ^ 32 - 1 - bitsOf w 31 0))

/-! ### The control link (R476) -/

/-- The session ends (R480). -/
def endSession (s : State) : State := s.setFld .mldLinkStatus F.mldLinkStatus_SESSION 0

/-- The control link leaves LINKED or SESSION (R476): a LINK fault, and the session ends. -/
def loseLink (s : State) (st : Nat) : State :=
  if linkState s = 2 ∨ linkState s = 3 then
    let s := (endSession s).setFld .mldLinkStatus F.mldLinkStatus_STATE st
    (setReady (s.setFld .mldLinkStatus F.mldLinkStatus_LANES_UP 0) 3 false).raise (Report.plain .ctrlLost 2 0 .mld 0)
  else s

/-- CTRL_LIGHT_DETECT (R476): light is present on an enabled link that is down or lost, from the end of the Image phase
on (R570, R591). -/
def lightDetect (s : State) : State :=
  if ((linkState s = 0 ∧ s.fld .mldLinkCtrl F.mldLinkCtrl_ENABLE = 1) ∨ linkState s = 4) ∧ s.pow.phases.contains 1 then
    s.setFld .mldLinkStatus F.mldLinkStatus_STATE 1
  else s

/-- CTRL_LIGHT_DETECT (R476). -/
def execCtrlLightDetect (s : State) : Res := .next (lightDetect s)

/-- CTRL_LINKED (R476): all four lanes carry good frames. -/
def ctrlLinked (s : State) : State :=
  if linkState s = 1 then
    ctrlBegin (setReady ((s.setFld .mldLinkStatus F.mldLinkStatus_STATE 2).setFld .mldLinkStatus F.mldLinkStatus_LANES_UP 15) 3 true)
  else s

/-- CTRL_LINKED (R476). -/
def execCtrlLinked (s : State) : Res := .next (ctrlLinked s)

/-- CTRL_LOST (R476): a lane has had no good frame for LOST_MS. -/
def execCtrlLost (s : State) : Res := .next (if laneLost s then loseLink s 4 else s)

/-! ### Messages (R477, R478) -/

/-- A HOST fault. -/
def hostFault (s : State) (src : Source) (detail : Nat) : State :=
  s.raise { Report.plain src 2 0 .mld 0 with detail := detail }

/-- A message handed on, of a type with the given roles, acts as `f` says if it is accepted (R477, R478). -/
def judgeMessage (h : MsgHead) (roles : List Nat) (f : State → State) (s : State) : State :=
  if linkState s ≠ 2 ∧ linkState s ≠ 3 then s
  else if h.ok = false ∨ 2 ≤ h.role then hostFault s .msgBad 0
  else if linkState s ≠ 3 ∨ h.session ≠ s.fld .mldLinkStatus F.mldLinkStatus_SESSION then
    s.addFld .mldLinkStatus F.mldLinkStatus_STALE 1
  else if roles.contains h.role then f s
  else hostFault s .msgRole 0

/-- A message comes (R474, R475, R477, R478): `again` is its command, `roles` those of its type, `f` what it does. -/
def onMessage (again : MsgHead → Instr) (h : MsgHead) (roles : List Nat) (f : State → State) (s : State) : State :=
  overLink again h false (judgeMessage h roles f) s

/-! ### Tokens (R493, R494) -/

/-- An entry of TOKENS (R493). -/
def tokenBytes (t : LogTok) (resend : Bool) : List Byte :=
  leBytes 8 (t.id % 2 ^ 32 * 2 ^ 32 + t.idx % 2 ^ 32)
    ++ leBytes 8 (t.tok % 2 ^ 20 * 2 ^ 44 + (t.fin.toNat + 2 * resend.toNat) * 2 ^ 40 + (2 ^ 20 - 1 - t.tok % 2 ^ 20))

/-- TOKENS messages of at most 4,093 entries each (R477, R493). -/
def sendTokens (s : State) (resend : Bool) (ts : List LogTok) : State :=
  (List.range ((ts.length + 4092) / 4093)).foldl (fun s i =>
    sendUp s 0x82 0 (((ts.drop (4093 * i)).take 4093).flatMap (fun t => tokenBytes t resend))) s

/-- Tokens in ascending order of SEQ_ID and INDEX (R479). -/
def insertTok (t : LogTok) : List LogTok → List LogTok
  | [] => [t]
  | u :: us => if t.id < u.id ∨ (t.id = u.id ∧ t.idx ≤ u.idx) then t :: u :: us else u :: insertTok t us

/-- Tokens of a sequence in the commit log. -/
def logOf (s : State) (id : Nat) : List LogTok := s.mld.log.filter (fun t => t.id = id)

/-! ### Sequences -/

/-- The sequence of an ID (R481). -/
def seqOf (s : State) (id : Nat) : Option Seq := s.mld.seqs.find? (fun q => q.id = id)

/-- A sequence replaced by what `f` makes of it; none removes it. -/
def setSeq (s : State) (id : Nat) (f : Seq → Option Seq) : State :=
  { s with mld := { s.mld with seqs := s.mld.seqs.filterMap (fun q => if q.id = id then f q else some q) } }

/-- NEXT_INDEX of a sequence (R483). -/
def Seq.next (q : Seq) : Nat := headField q.head 12 4

/-- Tokens generated, those below NEXT_INDEX included (R490). -/
def Seq.gen (q : Seq) : List Nat := q.toks.drop (q.base - q.next)

/-- A sequence ends with a reason of R492: SEQ_END is sent, and it is ENDING until its cohort enters WAIT_E. -/
def endSeq (s : State) (q : Seq) (reason : Nat) : State :=
  let s := sendSeqEnd s q.id reason q.count
  setSeq s q.id (fun q => some { q with st := .ending, ended := true })

/-! ### KV pages and parking (R458 to R461, R485) -/

/-- KV pages that a stack can hold below the reserve (R459, R485). -/
def stackPages (s : State) : Nat := (36864 - s.fld .mldSvcCtrl F.mldSvcCtrl_KV_RESERVE_MIB) / 2

/-- Free pages of a stack, ascending (log entry 16). -/
def freePages (s : State) (n : Nat) : List Nat :=
  let used := (s.mld.seqs.filter (fun q => q.stack = n)).flatMap (fun q => q.pages)
  (List.range (stackPages s)).filter (fun p => !used.contains p)

/-- The pages a sequence needs: its prompt positions and MAX_NEW - NEXT_INDEX further tokens (R485). -/
def Seq.need (q : Seq) : Nat := Config.kvPages (q.base + (headField q.head 16 4 - q.next))

/-- The home stack of a new sequence (R458): a stack in service with room, of the die that runs its attention where
one has room. The die and the choice among the stacks are open (log entry 16). -/
def homeStack (s : State) (need : Nat) : Option Nat :=
  let roomy := (List.range 8).filter (fun n => stackState s n = 2 ∧ need ≤ (freePages s n).length)
  let d := Config.freeNat s.fresh % 2
  let mine := roomy.filter (fun n => n / 4 = d)
  let from_ := if mine.isEmpty then roomy else mine
  from_[Config.freeNat (s.fresh + 1) % max from_.length 1]?

/-- The address of a page of a stack (R459). -/
def pageAddr (n p : Nat) : Nat := n * 0x900000000 + p * 2097152

/-- The address of a slot of PARK (R460). -/
def parkAddr (s : State) (k : Nat) : Nat := (lpdRegion s .lpdPark).1 + k * 2097152

/-- Free slots of PARK, ascending (log entry 16). -/
def freeSlots (s : State) : List Nat :=
  let r := lpdRegion s .lpdPark
  let used := s.mld.seqs.flatMap (fun q => q.park)
  (List.range ((r.2 - r.1) / 2097152)).filter (fun k => !used.contains k)

/-- A page that nothing has been packed into: its index table is zero. -/
def pageEmpty (s : State) (a : Nat) : Bool := (s.bytes a 4).all (fun b => b == 0)

/-- The words of the index table at an address (R178): COUNT first, which tells its length. -/
def tableAt (s : State) (a : Nat) : List Nat :=
  let n := ofLe (s.bytes a 4)
  if 1 ≤ n ∧ n ≤ 2 ^ 24 then wordsOf32 (s.bytes a (4 * (n + 4))) else []

/-- Whether an index table may be used: in one populated range, unpoisoned, and by R178. -/
def tableOk (s : State) (a : Nat) : Bool :=
  let w := tableAt s a
  indexOk w && inRange s a (4 * w.length) && !s.poisonedIn a (4 * w.length)

/-- Every block of a page passes its check (R277, R461). -/
def pageGood (s : State) (a : Nat) : Bool :=
  pageEmpty s a
    || (tableOk s a && (let w := tableAt s a
          (List.range (w.getD 0 0)).all (fun i =>
            let b := a + 4096 + w.getD (i + 1) 0
            let n := w.getD (i + 2) 0 - w.getD (i + 1) 0
            !s.poisonedIn b n && blockPasses (s.bytes b n))))

/-- A page copied whole (R460). -/
def copyPage (s : State) (src dst : Nat) : State :=
  let out (a : Nat) : Bool := decide (a < dst ∨ dst + 2097152 ≤ a)
  let moved := s.mem.filterMap (fun c => if src ≤ c.1 ∧ c.1 < src + 2097152 then some (c.1 - src + dst, c.2) else none)
  { s with mem := moved.foldl (fun m c => Mem.set m c.1 c.2) (Mem.clear s.mem dst (dst + 2097152))
           poison := s.poison.filter out
           latent := s.latent.filter (fun e => out e.1) }

/-- Pages copied from one list of places to another, checked block by block (R460, R461): the state after it and
whether every check passed. -/
def copyPages (s : State) : List (Nat × Nat) → State × Bool
  | [] => (s, true)
  | (a, b) :: rest =>
    let s := readAt s a 2097152
    if tierHolds s a 2097152 && pageGood s a then copyPages (copyPage s a b) rest else (s, false)

/-- A decoding sequence is parked (R460, R461, R481): its pages are copied out, it leaves its cohort, and SEQ_END PARKED
is sent; a failed check loses it. Without room in PARK the request waits. -/
def parkSeq (s : State) (q : Seq) : State :=
  let slots := (freeSlots s).take q.pages.length
  if slots.length < q.pages.length then s
  else
    let r := copyPages s (q.pages.zip slots |>.map (fun p => (pageAddr q.stack p.1, parkAddr s p.2)))
    if r.2 then
      sendSeqEnd (setSeq r.1 q.id (fun q => some { q with st := .parked, cohort := none, rows := 0, pages := [], park := slots
                                                          parkReq := false, unparking := false })) q.id 9 q.count
    else setSeq (sendSeqEnd r.1 q.id 8 q.count) q.id (fun _ => none)

/-! ### Grammars (R491, R492) -/

/-- Whether n bytes lie in the KV reserve of one stack (R485, R491). -/
def inReserve (s : State) (a n : Nat) : Bool :=
  match placeOf a with
  | .hbm k =>
    let top := (k + 1) * 0x900000000
    decide (top - s.fld .mldSvcCtrl F.mldSvcCtrl_KV_RESERVE_MIB * 1048576 ≤ a ∧ a + n ≤ top) && stackState s k == 2
  | _ => false

/-- The header fields of a grammar at an address: NSTATE, NCLASS, VOCAB, CLASS_MAP, NEXT. -/
def grammarHead (s : State) (a : Nat) : Nat × Nat × Nat × Nat × Nat :=
  (ofLe (s.bytes (a + 4) 2), ofLe (s.bytes (a + 6) 2), ofLe (s.bytes (a + 8) 4), ofLe (s.bytes (a + 12) 8), ofLe (s.bytes (a + 20) 8))

/-- A grammar passes R491; the offsets of its tables count from its header (log entry 29). -/
def grammarOk (s : State) (a : Nat) : Bool :=
  let h := grammarHead s a
  let bs := s.bytes a 64
  let c := crc32c (bs.take 56)
  inReserve s a 64 && bs.take 4 == [0x47, 0x52, 0x4D, 0x31] && (bs.drop 28).take 28 == List.replicate 28 0
    && decide (ofLe ((bs.drop 56).take 4) = c ∧ ofLe ((bs.drop 60).take 4) = not32 c)
    && decide (1 ≤ h.1 ∧ h.1 ≤ 65535 ∧ 1 ≤ h.2.1 ∧ h.2.1 ≤ 4096 ∧ h.2.2.1 = s.mld.vocab)
    && inReserve s (a + h.2.2.2.1) (2 * h.2.2.1) && inReserve s (a + h.2.2.2.2) (2 * h.1 * h.2.1)
    && decide (a / 0x900000000 = (a + h.2.2.2.1) / 0x900000000 ∧ a / 0x900000000 = (a + h.2.2.2.2) / 0x900000000)

/-- The next state of a grammar on a token; 0xFFFF is DEAD (R491). -/
def grammarNext (s : State) (a st tok : Nat) : Nat :=
  let h := grammarHead s a
  let c := ofLe (s.bytes (a + h.2.2.2.1 + 2 * tok) 2)
  if st = 0xFFFF then 0xFFFF else ofLe (s.bytes (a + h.2.2.2.2 + 2 * (st * h.2.1 + c)) 2)

/-- GRAMMAR of a sequence (R483). -/
def Seq.grammar (q : Seq) : Bool := headField q.head 6 1 / 16 % 2 == 1
/-- GADDR (R483). -/
def Seq.gaddr (q : Seq) : Nat := headField q.head 48 8

/-- The grammar state before the first draw (R492). -/
def startGrammar (s : State) (q : Seq) : Nat :=
  if q.grammar then q.gen.foldl (fun st t => grammarNext s q.gaddr st t) (headField q.head 44 2) else 0

/-! ### Rows and admission (R482) -/

/-- Rows of a class, each cohort of no class counted in the class with the fewest rows, in ascending order; the cohort
c itself is left out. -/
def classRows (s : State) (c : Fin 8) : List Nat :=
  let others := (List.finRange 8).filter (fun x => x ≠ c)
  let rows (x : Fin 8) : Nat := s.fld (.circCohort x) F.circCohort_ROWS
  let cls (x : Fin 8) : Nat := s.fld (.circCohort x) F.circCohort_CLASS
  let fixed := (List.range 3).map (fun k => ((others.filter (fun x => cls x = k)).map rows).sum)
  (others.filter (fun x => cls x = 3)).foldl (fun (t : List Nat) x =>
    let m := t.foldl min (t.headD 0)
    t.set (t.idxOf m) (m + rows x)) fixed

/-- Whether a cohort with n rows leaves its class at most 32 rows above the class with the fewest (R482). -/
def balanced (s : State) (c : Fin 8) (n : Nat) : Bool :=
  let t := classRows s c
  let m := t.foldl min (t.headD 0)
  let k := if s.fld (.circCohort c) F.circCohort_CLASS = 3 then t.idxOf m else s.fld (.circCohort c) F.circCohort_CLASS
  let t := t.set k (t.getD k 0 + n)
  decide (t.getD k 0 ≤ t.foldl min (t.headD 0) + 32)

/-- Rows of a cohort's sequences. -/
def rowsOf (s : State) (c : Fin 8) : Nat := ((s.mld.seqs.filter (fun q => q.cohort = some c)).map (fun q => q.rows)).sum

/-- Requests of a cohort's sequences that wait for WAIT_E (R52, R481): cancelled ones end, parked ones leave. -/
def applyRequests (s : State) (c : Fin 8) : State :=
  (s.mld.seqs.filter (fun q => q.cohort = some c)).foldl (fun s q =>
    if q.st = .ending then s
    else if q.cancelReq then endSeq s q 4
    else if q.parkReq ∧ q.st = .decode then parkSeq s q
    else s) s

/-- Ended sequences of a cohort free their rows and pages (R482). -/
def freeEnded (s : State) (c : Fin 8) : State :=
  { s with mld := { s.mld with seqs := s.mld.seqs.filter (fun q => !(q.cohort == some c && q.st == .ending)) } }

/-- Sequences in PREFILL go on to their next chunk (R482). -/
def nextChunks (s : State) (c : Fin 8) : State :=
  let most := s.fld .mldSvcCtrl F.mldSvcCtrl_PREFILL_MAX
  { s with mld := { s.mld with seqs := s.mld.seqs.map (fun q =>
      if q.cohort = some c ∧ q.st = .prefill ∧ q.done < q.base then
        let k := min (q.base - q.done) most
        { q with rows := k, done := q.done + k }
      else q) } }

/-- A queued sequence is given rows of a cohort and pages (R458, R481, R485). An unparked one gets its pages back; if a
check fails it is lost (R461). -/
def admitSeq (s : State) (c : Fin 8) (q : Seq) (n k : Nat) : State :=
  let pages := (freePages s n).take (if q.unparking then q.park.length else q.need)
  let s := s.burn 2
  if q.unparking then
    let r := copyPages s (q.park.zip pages |>.map (fun p => (parkAddr s p.1, pageAddr n p.2)))
    if r.2 then
      setSeq r.1 q.id (fun q => some { q with st := .decode, cohort := some c, rows := 1, stack := n, pages := pages, park := []
                                              unparking := false })
    else setSeq (sendSeqEnd r.1 q.id 8 q.count) q.id (fun _ => none)
  else
    setSeq s q.id (fun q => some { q with st := .prefill, cohort := some c, rows := k, done := k, stack := n, pages := pages
                                          gstate := startGrammar s q })

/-- Queued sequences admitted in arrival order into a cohort's free rows (R482 step 3). -/
def admitRows (s : State) (c : Fin 8) : List Seq → State
  | [] => s
  | q :: rest =>
    let k := if q.unparking then 1 else min q.base (s.fld .mldSvcCtrl F.mldSvcCtrl_PREFILL_MAX)
    let rows := rowsOf s c + k
    if s.fld (.circCohort c) F.circCohort_ROWS_MAX < rows ∨ balanced s c rows = false then s
    else match homeStack s (if q.unparking then q.park.length else q.need) with
      | none => s
      | some n => admitRows (admitSeq s c q n k) c rest

/-- What the service does for a cohort that enters WAIT_E or is FREE (R482), with ROWS written and the cohort moved as
R47 says. -/
def cohortMoment (s : State) (c : Fin 8) : State :=
  let s := nextChunks (freeEnded (applyRequests s c) c) c
  let s := if s.fld .mldSvcCtrl F.mldSvcCtrl_ADMIT = 1 ∧ s.fld .fcuStatus F.fcuStatus_OFF_RING = 0 then
      admitRows s c (s.mld.seqs.filter (fun q => q.st = .queued)) else s
  let rows := rowsOf s c
  let s := s.setFld (.circCohort c) F.circCohort_ROWS rows
  if cohortState s c = 0 ∧ rows ≠ 0 ∧ 32 ≤ s.fld (.circCohort c) F.circCohort_ROWS_MAX then setCohort s c 1
  else if cohortState s c = 1 ∧ rows = 0 then setCohort s c 0
  else s

/-- A cohort enters WAIT_E (R47, R52, R482). -/
def enterWait (s : State) (c : Fin 8) : State := cohortMoment (setCohort s c 1) c

/-- Every FREE cohort with ROWS_MAX of at least 32 is looked at (R482). -/
def admitFree (s : State) : State :=
  if s.readyBit 11 then
    (List.finRange 8).foldl (fun s c =>
      if cohortState s c = 0 ∧ 32 ≤ s.fld (.circCohort c) F.circCohort_ROWS_MAX then cohortMoment s c else s) s
  else s

/-- ADMISSION_TICK (R482). -/
def execAdmissionTick (s : State) : Res := .next (admitFree s)

/-! ### PROMPT (R483 to R486) -/

/-- The answer to a PROMPT (R478). -/
def admitRsp (s : State) (rtag id status : Nat) : State := sendUp s 0x84 rtag (leBytes 8 (id % 2 ^ 32 * 2 ^ 32 + status))

/-- NOT_READY (R486, R519). -/
def notReady (s : State) : Bool :=
  s.sec.recovery || s.fld .mldSvcCtrl F.mldSvcCtrl_ADMIT == 0 || !s.readyBit 7 || !s.readyBit 8 || !s.readyBit 11
    || s.fld .circRingConf F.circRingConf_ENABLE == 0 || s.fld .fcuStatus F.fcuStatus_OFF_RING == 1
    || s.fld .fcuPin F.fcuPin_DRIVEN_A == 0

/-- An FP32 word that is a finite number of at least zero. -/
def finiteNonNeg (w : Nat) : Bool :=
  match Val.ofFp32 w with | .fin s m _ => !s || m == 0 | _ => false

/-- The tokens of a PROMPT's body (R483). -/
def promptTokens (b : List Byte) : List Nat := wordsOf32 (b.drop 352)

/-- The fields that every PROMPT with tokens keeps to: N_TOK as the body has it, FLAGS, tokens below VOCAB (R483). -/
def tokensOk (s : State) (b : List Byte) : Bool :=
  let n := headField b 8 4
  decide (headField b 6 1 < 32 ∧ n ≤ 16286 ∧ b.length = 352 + 4 * n) && (promptTokens b).all (fun t => t < s.mld.vocab)

/-- The parameters of a first message keep to R483 (and to log entry 29 where R483 gives no range). -/
def paramsOk (s : State) (b : List Byte) : Bool :=
  let p := paramsOf b
  let ni := headField b 12 4
  let one := Val.ofFp32 0x3F800000
  decide (p.nStop ≤ 8 ∧ ni + 1 ≤ p.maxNew ∧ p.maxNew ≤ 2 ^ 31 ∧ p.topK ≤ 256 ∧ p.penWin ≤ 4096)
    && finiteNonNeg p.temp && finiteNonNeg p.topP && !(Val.ofFp32 p.topP).isZero && !Val.below one (Val.ofFp32 p.topP)
    && finiteNonNeg p.penalty && !Val.below (Val.ofFp32 p.penalty) one
    && (List.range 4).all (fun j => headField b (88 + j) 1 ≤ 16)
    && decide (headField b 46 2 = 0 ∧ headField b 92 4 = 0) && p.stopTok.all (fun t => t < s.mld.vocab)
    && (headField b 6 1 / 16 % 2 == 0
        || (grammarOk s (headField b 48 8) && decide (headField b 44 2 < (grammarHead s (headField b 48 8)).1)))

/-- A reservation that could never fit on one stack in service (R486). -/
def neverFits (s : State) (q : Seq) : Bool :=
  decide (stackPages s < q.need) || !(List.range 8).any (fun n => stackState s n = 2)

/-- A new sequence from a complete PROMPT (R481, R483). -/
def newSeq (id : Nat) (head : List Byte) (toks : List Nat) : Seq :=
  { id := id, st := .queued, head := head.take 352, toks := toks, base := toks.length, cohort := none, rows := 0, done := 0
    stack := 0, pages := [], park := [], committed := headField head 12 4, gstate := 0, parkReq := false, unparking := false
    cancelReq := false, ended := false }

/-- A complete PROMPT is queued or turned away (R486). -/
def queueSeq (s : State) (q : Seq) : State × Nat :=
  if q.toks.length ≤ q.next then (s, 2)
  else if 4096 ≤ s.mld.seqs.countP (fun q => q.st == .queued) then (s, 1)
  else if neverFits s q then (s, 4)
  else ({ s with mld := { s.mld with seqs := s.mld.seqs ++ [q] } }, 0)

/-- A PROMPT judged (R483, R486; the order of the answers is log entry 29): the state after it and its STATUS. -/
def judgePrompt (s : State) (b : List Byte) : State × Nat :=
  let id := headField b 0 4
  let flags := headField b 6 1
  let chain := s.mld.chains.find? (fun c => c.id = id)
  let s := { s with mld := { s.mld with chains := s.mld.chains.filter (fun c => c.id ≠ id) } }
  if notReady s then (s, 5)
  else if s.mld.jobSet = false ∨ headField b 4 2 ≠ s.fld .circArc F.circArc_JOB then (s, 6)
  else if flags / 2 % 2 = 1 then
    match seqOf s id with
    | some q =>
      if q.st ≠ .parked then (s, 7)
      else if flags / 32 ≠ 0 then (s, 2)
      else if 4096 ≤ s.mld.seqs.countP (fun q => q.st == .queued) then (s, 1)
      else
        let s := setSeq s id (fun _ => none)
        ({ s with mld := { s.mld with seqs := s.mld.seqs ++ [{ q with st := .queued, unparking := true, ended := false }] } }, 0)
    | none => (s, 7)
  else if (seqOf s id).isSome then (s, 3)
  else if tokensOk s b = false then (s, 2)
  else if flags / 8 % 2 = 1 then
    match chain with
    | none => (s, 2)
    | some c =>
      if (b.drop 12).take 340 ≠ List.replicate 340 0 then (s, 2)
      else
        let c := { c with toks := c.toks ++ promptTokens b }
        if flags / 4 % 2 = 1 then ({ s with mld := { s.mld with chains := s.mld.chains ++ [c] } }, 0)
        else queueSeq s (newSeq id c.head c.toks)
  else if paramsOk s b = false then (s, 2)
  else if flags / 4 % 2 = 1 then
    ({ s with mld := { s.mld with chains := s.mld.chains ++ [⟨id, b.take 352, promptTokens b⟩] } }, 0)
  else queueSeq s (newSeq id b (promptTokens b))

/-- A PROMPT is judged and answered, and FREE cohorts are looked at (R482, R486). -/
def prompt (b : List Byte) (rtag : Nat) (s : State) : State :=
  let r := judgePrompt s b
  let s := admitRsp r.1 rtag (headField b 0 4) r.2
  if r.2 = 0 then admitFree s else s

/-- PROMPT (R486). -/
def execPrompt (h : MsgHead) (b : List Byte) (s : State) : Res := .next (onMessage (.prompt · b) h [0] (prompt b h.rtag) s)

/-! ### ACK and EVICT (R481, R494) -/

/-- One entry of an ACK (R494). -/
def ackEntry (s : State) (e : Nat × Nat) : State :=
  let log := logOf s e.1
  let seq := seqOf s e.1
  if log.isEmpty ∧ seq.isNone then s
  else
    let done := match seq with | some q => q.committed | none => log.foldl (fun m t => min m t.idx) ((log.map (fun t => t.idx)).headD 0)
    let hi := log.foldl (fun m t => max m (t.idx + 1)) (match seq with | some q => q.count | none => 0)
    if e.2 ≤ done then s
    else if hi < e.2 then
      (hostFault s .ackBeyond 0).addFld .mldSvcCounts F.mldSvcCounts_ACK_ERRS 1
    else
      let s := { s with mld := { s.mld with log := s.mld.log.filter (fun t => !(t.id == e.1 && decide (t.idx < e.2))) } }
      setSeq s e.1 (fun q => some { q with committed := e.2 })

/-- ACK (R494). -/
def execAck (h : MsgHead) (entries : List (Nat × Nat)) (s : State) : Res :=
  .next (onMessage (.ack · entries) h [0] (fun s => if s.sec.recovery then s else entries.foldl ackEntry s) s)

/-- EVICT CANCEL (R481, R492): a queued or parked sequence ends at once, another at its cohort's next WAIT_E (R52). -/
def evictCancel (id : Nat) (s : State) : State :=
  match seqOf s id with
  | none => s
  | some q =>
    if s.sec.recovery then s
    else match q.st with
    | .queued | .parked => setSeq (sendSeqEnd s id 4 q.count) id (fun _ => none)
    | .prefill | .decode => setSeq s id (fun q => some { q with cancelReq := true })
    | .ending => s

/-- EVICT CANCEL (R481). -/
def execEvictCancel (h : MsgHead) (id : Nat) (s : State) : Res := .next (onMessage (.evictCancel · id) h [0] (evictCancel id) s)

/-- EVICT PARK (R460, R481): held until DECODE, and applied at the cohort's next WAIT_E. -/
def evictPark (id : Nat) (s : State) : State :=
  if s.sec.recovery then s
  else setSeq s id (fun q => some (if q.st = .ending ∨ q.st = .parked then q else { q with parkReq := true }))

/-- EVICT PARK (R460). -/
def execEvictPark (h : MsgHead) (id : Nat) (s : State) : Res := .next (onMessage (.evictPark · id) h [0] (evictPark id) s)

/-! ### SAMPLE (R487 to R495) -/

/-- A row that draws at this SAMPLE: in DECODE, or in PREFILL with its last chunk done (R481). -/
def Seq.draws (q : Seq) : Bool := q.st == .decode || (q.st == .prefill && decide (q.base ≤ q.done))

/-- The outcome of one drawing row (R487 to R495): the sequence lags, ends, or draws a token. The poison of the row and
its logits are the command's. -/
def sampleRow (s : State) (q : Seq) (poisoned : Bool) (logits : List Nat) : State × Option LogTok × Option Nat :=
  let s := setSeq s q.id (fun q => some { q with st := .decode, rows := 1 })
  if s.fld .mldSvcCtrl F.mldSvcCtrl_COMMIT_LAG ≤ (logOf s q.id).length ∨ 16384 ≤ s.mld.log.length then
    (s.addFld .mldSvcCounts F.mldSvcCounts_LAGGED 1, none, none)
  else if poisoned then (s, none, some 7)
  else
    let allowed (t : Nat) : Bool := !q.grammar || grammarNext s q.gaddr q.gstate t != 0xFFFF
    if q.grammar ∧ (List.range s.mld.vocab).all (fun t => !allowed t) then (s, none, some 5)
    else
      match selectToken (paramsOf q.head) q.toks q.count (Config.freeNat s.fresh) allowed logits with
      | none => (s.burn 1, none, some 6)
      | some tok =>
        let why := stopReason (paramsOf q.head) (q.gen ++ [tok])
        let t : LogTok := ⟨q.id, q.count, tok, why.isSome⟩
        let g := if q.grammar then grammarNext s q.gaddr q.gstate tok else q.gstate
        let s := setSeq (s.burn 1) q.id (fun q => some { q with toks := q.toks ++ [tok], gstate := g })
        ({ s with mld := { s.mld with log := s.mld.log ++ [t] } }, some t, why)

/-- The rows of a cohort sampled in order: tokens drawn and ends. -/
def sampleRows (rows : List (Nat × Bool × List Nat)) : List Seq → State → List LogTok → List (Nat × Nat) →
    State × List LogTok × List (Nat × Nat)
  | [], s, ts, es => (s, ts, es)
  | q :: rest, s, ts, es =>
    match rows.find? (fun r => r.1 = q.id) with
    | none => sampleRows rows rest s ts es
    | some r =>
      let o := sampleRow s q r.2.1 r.2.2
      sampleRows rows rest o.1 (ts ++ o.2.1.toList) (es ++ (o.2.2.map (fun why => (q.id, why))).toList)

/-- The token interval of a cohort judged against three periods (R57): from one SAMPLE completion to the next of the same
occupancy, with the measured PERIOD_NS for the P that a position cannot compute (log entry 55). -/
def judgeInterval (s : State) (c : Fin 8) : State :=
  let p := s.fld .circPhase F.circPhase_PERIOD_NS
  let s' := match s.circ.tokenAt.find c with
    | some t => if p ≠ 0 ∧ t + 3 * p < s.now then s.addFld .circStatus F.circStatus_JUNCTION_MISSES 1 else s
    | none => s
  { s' with circ := { s'.circ with tokenAt := s'.circ.tokenAt.put c s.now } }

/-- SAMPLE_COMPLETE: the service has produced the next token of every row of a cohort in SAMPLE (R47, R487 to R495).
`rows` gives, for every row that draws, its sequence, whether its logits are poisoned, and the logits in FP32. -/
def sampleComplete (c : Fin 8) (rows : List (Nat × Bool × List Nat)) (s : State) : State :=
  let mine := s.mld.seqs.filter (fun q => q.cohort = some c ∧ q.draws)
  if cohortState s c ≠ 5 ∨ mine.any (fun q => !rows.any (fun r => r.1 = q.id)) then s
  else
    let budget := s.fld .mldSvcCtrl F.mldSvcCtrl_SAMPLE_BUDGET_US * 1000
    let s := if s.circ.entered.at_ 0 c + budget < s.now then s.addFld .mldSvcCounts F.mldSvcCounts_SAMPLE_OVER 1 else s
    let r := sampleRows rows mine s [] []
    let s := sendTokens r.1 false r.2.1
    let s := r.2.2.foldl (fun s e => match seqOf s e.1 with | some q => endSeq s q e.2 | none => s) s
    enterWait (judgeInterval s c) c

/-- SAMPLE_COMPLETE (R487). -/
def execSampleComplete (c : Fin 8) (rows : List (Nat × Bool × List Nat)) (s : State) : Res := .next (sampleComplete c rows s)

/-! ### Layers retire (R47, R69, R70, R662) -/

/-- Every block of a run's layer that stands in a window, gradient blocks among them, has use count 0 (R662). -/
def runDone (s : State) (x : StreamId) (r : LayerRun) : Bool :=
  r.landed && ((s.die 0).window ++ (s.die 1).window).all (fun w =>
    w.skip || w.west != (x == 1) || w.run != r.number || (w.use == 0 && w.state != .landing))

/-- The cohorts of a pass list leave the last layer of their stream (R47). -/
def leaveStream (s : State) (x : StreamId) (cs : List (Fin 8)) : State :=
  cs.foldl (fun s c =>
    if x = 0 ∧ cohortState s c = 2 then setCohort s c 3
    else if x = 1 ∧ cohortState s c = 4 then (if updateMode s then enterWait s c else setCohort s c 5)
    else s) s

/-- LAYER_RETIRE: the first run of a stream whose layer has landed and reached use count 0 retires (R662); the waves of
update mode follow (R69, R70). -/
def layerRetire (x : StreamId) (s : State) : State :=
  let t := s.stream x
  match t.runs with
  | [] => s
  | r :: rest =>
    if runDone s x r = false then s
    else
      let s := s.setStream x { t with runs := rest }
      if updateMode s = false then (if lastLayerOf s x = some r.layer then leaveStream s x r.cohorts else s)
      else
        let last := if x = 0 then decide (lastLayerOf s x = some r.layer) else decide (r.layer = 0)
        if last = false then s
        else
          let s := leaveStream s x r.cohorts
          if x = 0 ∧ s.circ.wave = 1 then backwardDue { s with circ := { s.circ with fwdOver := true } } else s

/-- LAYER_RETIRE (R662). -/
def execLayerRetire (x : StreamId) (s : State) : Res := .next (layerRetire x s)

/-! ### HELLO and JOB (R478 to R480) -/

/-- The module's HELLO (R478). -/
def helloBody (s : State) : List Byte :=
  [regValue s .modIdent, regValue s .circPosition, regValue s .ptcReady, svcStatus s].flatMap (fun w => leBytes 8 w.toNat)

/-- A record's words agree with their complements (R510). -/
def LogEntry.good (e : LogEntry) : Bool := (e.words.drop 4) == (e.words.take 4).map (fun w => ~~~w)

/-- A record that waited is sent with its stored words; RECORD_BAD is raised once for a bad one (R510, R511). -/
def sendRecord (s : State) (ws : List Word) : State :=
  let s := sendUp s 0x87 0 (ws.flatMap (fun w => leBytes 8 w.toNat))
  let bad := s.fcu.log.any (fun e => e.2.words == ws && !e.2.good && !e.2.badSeen)
  let s := { s with fcu := { s.fcu with log := s.fcu.log.map (fun (e : Nat × LogEntry) =>
    if e.2.words == ws then (e.1, { e.2 with sent := true, badSeen := e.2.badSeen || !e.2.good }) else e) } }
  if bad then s.raise (Report.plain .recordBad 2 0 .fcu 0) else s

/-- A session begins (R479, R480, R511): HELLO, the logged tokens again, SEQ_ENDs and records that waited, and the open
requests for blocks again. -/
def beginSession (s : State) (session rtag : Nat) : State :=
  let s := (s.setFld .mldLinkStatus F.mldLinkStatus_STATE 3).setFld .mldLinkStatus F.mldLinkStatus_SESSION session
  let s := { s with mld := { s.mld with nextUp := 0 } }
  let s := sendUp s 0x81 rtag (helloBody s)
  let s := sendTokens s true (s.mld.log.foldl (fun l t => insertTok t l) [])
  let ends := s.mld.held
  let s := { s with mld := { s.mld with held := [] } }
  let s := ends.foldl (fun s e => sendSeqEnd s e.1 e.2.1 e.2.2) s
  let evs := s.fcu.events
  let s := { s with fcu := { s.fcu with events := [] } }
  let s := evs.foldl sendRecord s
  s.mld.blockReqs.foldl (fun s (r : BlockReq) => sendUp s 0x86 0 r.body) s

/-- HELLO (R479, R480). -/
def hello (h : MsgHead) (s : State) : State :=
  if linkState s ≠ 2 ∧ linkState s ≠ 3 then s
  else if h.ok = false ∨ 2 ≤ h.role then hostFault s .msgBad 0
  else if h.session = 0 then hostFault s .sessionZero 0
  else
    let s := beginSession s (h.session % 65536) h.rtag
    if s.sec.recovery then { s with sec := { s.sec with reqDue := true } } else s

/-- HELLO (R479). -/
def execHello (h : MsgHead) (s : State) : Res := .next (overLink .hello h true (hello h) s)

/-- JOB (R478): a VOCAB out of its range makes the message bad. -/
def setJob (job vocab : Nat) (s : State) : State :=
  if s.sec.recovery then s
  else if vocab = 0 ∨ 1048576 < vocab then hostFault s .msgBad 0
  else { s with mld := { s.mld with jobSet := true, job := job % 65536, vocab := vocab } }

/-- JOB (R478). -/
def execJob (h : MsgHead) (job vocab : Nat) (s : State) : Res := .next (onMessage (.job · job vocab) h [1] (setJob job vocab) s)

/-! ### LOAD (R464, R487, R497) -/

/-- The block slot of an open request that begins at an address. -/
def slotOfReq (a : Nat) (r : BlockReq) : Option Nat :=
  if r.dest ≤ a ∧ (a - r.dest) % 16448 = 0 ∧ (a - r.dest) / 16448 < r.count then some ((a - r.dest) / 16448) else none

/-- Whole stored blocks one after another from a slot of a request: the slots they fill (R497). -/
def blocksIn (r : BlockReq) : Nat → Nat → List Byte → List Nat
  | 0, _, _ => []
  | fuel + 1, a, data =>
    match slotOfReq a r with
    | none => []
    | some k =>
      let n := storedSize (min (parseHeader (data.take 32)).compLen 16384)
      if data.length < 32 ∨ data.length < n then []
      else k :: blocksIn r fuel (a + 16448) (data.drop 16448)

/-- Blocks that a LOAD has delivered are ticked off the open requests; a gap block counts as staged, and a backing copy
as captured (R38, R424, R497). -/
def answerReqs (s : State) (a : Nat) (data : List Byte) : State :=
  s.mld.blockReqs.foldl (fun s r =>
    let nb := max (streamLen s r.stream) 1
    let got := (blocksIn r 4 a data).map (fun k => (r.first + k) % nb)
    if got.isEmpty then s
    else
      let all := (List.range r.count).map (fun k => ((r.first + k) % nb, k))
      let left := all.filter (fun q => !got.contains q.1)
      let again := (runsOf nb (left.map Prod.fst)).map (fun u =>
        ({ r with first := u.1, count := u.2, dest := r.dest + seqGap nb u.1 r.first * 16448 } : BlockReq))
      let s := { s with mld := { s.mld with blockReqs := s.mld.blockReqs.flatMap (fun v => if v = r then again else [v]) } }
      let staged := s.fld .circReinjCtrl F.circReinjCtrl_STAGE_BASE ≤ r.dest
        ∧ r.dest < s.fld .circReinjCtrl F.circReinjCtrl_STAGE_BASE + s.fld .circReinjCtrl F.circReinjCtrl_STAGE_MIB * 1048576
      if staged then got.foldl stageLoaded s
      else { s with circ := { s.circ with uncaptured := s.circ.uncaptured.filter (fun e => !(e.1 == r.stream && got.contains e.2)) } }) s

/-- The blocks of a BACK load lie in slots of one open request (R497). -/
def namedInReq (s : State) (a : Nat) (data : List Byte) : Bool :=
  s.mld.blockReqs.any (fun r => !(blocksIn r 4 a data).isEmpty
    && decide (a + data.length ≤ r.dest + r.count * 16448))

/-- LOAD (R10 to R14, R464, R497, R571). -/
def load (addr : Word) (data : List Byte) (s : State) : State :=
  let back := bitsOf addr 63 63 = 1
  let a := bitsOf addr 47 0
  let n := data.length
  let no (src : Source) : State := s.raise (Report.plain src 2 0 .mld a)
  if s.sec.recovery then s
  else if bitsOf addr 62 48 ≠ 0 then no .addressHigh
  else if n = 0 then s
  else if back then
    if inBack s a 1 ∧ inBack s (a + n - 1) 1 ∧ inRange s a n
        ∧ (s.fld .circRingConf F.circRingConf_ENABLE = 0 ∨ namedInReq s a data) then
      answerReqs (s.pokeClean a data) a data
    else no .loadRejected
  else if inBack s a n then no .loadRejected
  else
    let up : Bool := match placeOf a with
      | .store d _ _ _ _ => s.readyBit (7 + d.val)
      | .hbm k => s.readyBit (5 + k / 4 % 2)
      | .lpd => s.readyBit 4
      | _ => false
    if up ∧ inRange s a n then
      answerReqs (writeAt s a (writeKind a 0) (data.map (fun b => (b, false)))) a data
    else no .windowViolation

/-- LOAD (R497). -/
def execLoad (h : MsgHead) (addr : Word) (data : List Byte) (s : State) : Res := .next (onMessage (.load · addr data) h [1] (load addr data) s)

/-! ### The sync dump (R380, R381) -/

/-- One section of a dump: its header and contents. -/
def dumpSection (s : State) (typ : Nat) (d : Die) (body : List Byte) : List Byte :=
  leBytes 4 (typ + 256 * d.val) ++ leBytes 4 body.length ++ leBytes 8 (s.beat d) ++ leBytes 8 (s.beat d) ++ leBytes 8 0 ++ body

/-- Registers as eight bytes each. -/
def dumpRegs (s : State) (rs : List Reg) : List Byte := rs.flatMap (fun r => leBytes 8 (readReg s r true).toNat)

/-- Signal packets that wait at a die, in the order they came (R380). -/
def dumpPackets (s : State) (d : Die) : List Byte :=
  ((s.die d).heldSigs ++ (s.die d).bridge).flatMap (fun h =>
    [h.packet.w0, h.packet.w1, h.packet.w2, h.packet.w3].flatMap (fun w => leBytes 8 w.toNat))

/-- The saved form of a slot for section 0x04 (R377, R380). -/
def dumpSlot (s : State) (d : Die) (q : CoreId) (x : SlotId) : List Byte :=
  leBytes 8 (q.val * 256 + x.val) ++ leBytes 8 (readReg s (.scvCtx d q x) true).toNat ++ xlImage (s.ctx d q x)

/-- The sections of one die (R380). -/
def dumpDie (s : State) (d : Die) : List (List Byte) :=
  [dumpSection s 1 d (dumpRegs s ((List.finRange 8192).map (fun n => .syncCtr d n))),
   dumpSection s 2 d (dumpRegs s ((List.finRange 64).map (fun w => .syncCrdMap d w) ++ (List.finRange 64).map (fun w => .syncCrdFb d w))),
   dumpSection s 3 d ((List.finRange 64).flatMap (fun b =>
     if d = 0 then dumpRegs s [.syncBarA d b, .syncBarB d b, .syncBarC b, .syncBarD b]
     else dumpRegs s [.syncBarA d b, .syncBarB d b] ++ List.replicate 16 0))]
  ++ (List.finRange 32).flatMap (fun q => (List.finRange 4).filterMap (fun x =>
       if (s.ctx d q x).st = .empty then none else some (dumpSection s 4 d (dumpSlot s d q x))))
  ++ [dumpSection s 5 d (dumpPackets s d), dumpSection s 6 d (dumpRegs s [.syncStatus d])]

/-- The dump image (R380). -/
def dumpImage (s : State) (mask : Nat) : List Byte :=
  let secs := (List.finRange 2).flatMap (fun d => if mask / 2 ^ d.val % 2 = 1 then dumpDie s d else [])
  let head (c : Nat) : List Byte :=
    [0x53, 0x59, 0x4E, 0x43, 1] ++ leBytes 1 (mask % 4) ++ leBytes 2 secs.length
      ++ leBytes 8 (readReg s .circPosition true).toNat ++ leBytes 8 (readReg s .circArc true).toNat
      ++ leBytes 8 s.now ++ leBytes 8 s.now ++ List.replicate 16 0
      ++ (if c = 0 then List.replicate 8 0 else leBytes 4 (c - 1) ++ leBytes 4 (not32 (c - 1)))
  let body := secs.flatten
  head (crc32c (head 0 ++ body) + 1) ++ body

/-- The dump sent in DUMP messages of at most 65,496 bytes (R477, R478). -/
def dumpReq (mask rtag : Nat) (s : State) : State :=
  let img := dumpImage s (if s.sec.recovery then 0 else mask)
  (List.range ((img.length + 65495) / 65496)).foldl (fun s i => sendUp s 0x88 rtag ((img.drop (65496 * i)).take 65496)) s

/-- DUMP_REQ (R380). -/
def execDumpReq (h : MsgHead) (mask : Nat) (s : State) : Res := .next (onMessage (.dumpReq · mask) h [1] (dumpReq mask h.rtag) s)

end Sys2Proof.Machine
end

