-- ==== Sys2Proof/Machine/Fcu.lean ====
section
/-! DEFINITION. The fault collection unit: records, levels, reactions, acknowledgement, the FAULT pins, block resets and
module resets (chapter 12). -/

namespace Sys2Proof.Machine

/-! ### Records (R507 to R511) -/

/-- Record number a is at or before b (R507). -/
def seqUpTo (a b : Nat) : Bool := decide ((b % 2 ^ 32 + 2 ^ 32 - a % 2 ^ 32) % 2 ^ 32 < 2 ^ 31)

/-- The level applied to a report (R515, R518, R522, R525). -/
structure Applied where
  cfg : Nat
  level : Nat
  /-- Escalation raised it. -/
  esc : Bool
  /-- Its reaction drives the pins. -/
  pin : Bool
  deriving DecidableEq, Repr

/-- A block that R518 lists: one that can be block-reset. -/
def Block.resettable : Block → Bool
  | .eng | .scv | .fdx | .dma | .wst | .ast | .pst => true
  | .mod | .sync | .circ | .hbm | .lpd | .mld | .fcu | .ptc | .sec => false

/-- The half of a block that a report arose in, when it can be block-reset (R518, R543). -/
def Report.resetDie (r : Report) : Option Die :=
  if h : r.die < 2 then (if r.block.resettable then some ⟨r.die, h⟩ else none) else none

/-- The level of a report whose source is configured at level c (R522, R525), before a block that cannot be reset turns
level 3 into 4. -/
def escalate (s : State) (k : FaultClass) (c : Nat) : Nat × Bool :=
  if c = 0 then (0, false)
  else
    let n := if s.fld (.fcuClass k) F.fcuClass_ESC_EN = 1 then max c (unackLevel s k + 1) else c
    if 6 ≤ n ∨ s.fcu.holdClass = some k then (5, true) else (n, false)

/-- What is applied to a report (R515, R522). -/
def applied (s : State) (r : Report) : Applied :=
  let c := s.fld (.fcuReact r.src) F.fcuReact_LEVEL
  let e := escalate s r.src.cls c
  let n := if e.1 = 3 ∧ r.resetDie = none then 4 else e.1
  { cfg := c, level := n, esc := decide (c < e.1), pin := e.2 || n == 4 }

/-- The eight words of a record (R508). -/
def recordWords (seq time : Nat) (r : Report) (a : Applied) : List Word :=
  let unit := match r.ctx with | some c => c.core.val | none => r.unit
  let w0 := seq % 2 ^ 32 * 2 ^ 32 + r.src.cls.code * 2 ^ 28 + r.src.id % 256 * 2 ^ 20 + a.cfg % 8 * 2 ^ 17 + a.level % 8 * 2 ^ 14
    + a.esc.toNat * 2 ^ 13 + r.injected.toNat * 2 ^ 12 + a.pin.toNat * 2 ^ 10 + r.die % 4 * 2 ^ 8 + unit % 256
  let w2 := r.block.num % 256 * 2 ^ 56 + r.addr % 2 ^ 48
  let w3 := (match r.ctx with | some c => 2 ^ 63 + c.slot.val * 2 ^ 61 | none => 0) + r.tag % 65536 * 2 ^ 32 + r.detail % 2 ^ 32
  let ws := [w0, time, w2, w3].map (fun n => BitVec.ofNat 64 n)
  ws ++ ws.map (fun w => ~~~w)

/-- A record is stored at NEXT and sent, or waits to be sent (R509, R511); none is a full log. -/
def storeRecord (s : State) (ws : List Word) : Option State :=
  let i := s.fld .fcuLogSel F.fcuLogSel_NEXT
  let free := match s.fcu.log.find i with | some e => e.free | none => true
  if free then
    let live := linkState s = 3
    let s := { s with fcu := { s.fcu with log := s.fcu.log.put i ⟨ws, live, false⟩
                                          events := if live then s.fcu.events else s.fcu.events ++ [ws] } }
    let s := s.setFld .fcuLogSel F.fcuLogSel_NEXT ((i + 1) % 1024)
    some (sendUp s 0x87 0 (ws.flatMap (fun w => leBytes 8 w.toNat)))
  else none

/-! ### Reactions (R515 to R522) -/

/-- The pair is driven (R527, R528). -/
def drivePins (s : State) (a b : Nat) : State :=
  (s.setFld .fcuPin F.fcuPin_DRIVEN_A a).setFld .fcuPin F.fcuPin_DRIVEN_B b

/-- What FAULT_A and FAULT_B show while no board fault forces them (R520, R526, R527, R641). -/
def faultPins (s : State) : Nat × Nat :=
  if s.pow.off then (0, 0)
  else if s.readyBit 2 ∨ s.pow.kept then (s.fld .fcuPin F.fcuPin_DRIVEN_A, s.fld .fcuPin F.fcuPin_DRIVEN_B)
  else (0, 0)

/-- The originating context is stopped by a trap (R515): one that has stopped already stays as it is. -/
def trapCtx (s : State) (c : CtxRef) : State :=
  let x := s.ctx c.die c.core c.slot
  let s := if x.st = .ready ∨ x.st = .wait then s.setCtx c.die c.core c.slot (x.stop 5) else s
  if s.fld .circRingConf F.circRingConf_ENABLE = 1 then scheduleBreak s else s

/-- Stages 1 to 4 are switched off and the compute dies leave service (R548). -/
def dropDies (s : State) : State :=
  let s := [1, 2, 3, 4].foldl (fun s (k : Fin 9) =>
    (s.setFld (.ptcStage k) F.ptcStage_STATE 0).setFld (.ptcStage k) F.ptcStage_WORKING 0) s
  [5, 6, 7, 8].foldl (fun s i => setReady s i false) s

/-- A level-3 reaction (R518): a reset of the block begins unless one runs; a schedule break for the blocks of R517. -/
def beginBlockReset (s : State) (b : Block) (d : Die) : State :=
  let s := if s.fcu.resets.contains (b, d) then s else { s with fcu := { s.fcu with resets := s.fcu.resets ++ [(b, d)] } }
  if (b = .eng ∨ b = .scv ∨ b = .fdx ∨ b = .dma) ∧ s.fld .circRingConf F.circRingConf_ENABLE = 1 then scheduleBreak s else s

/-- The actions of an applied level beyond its record (R515, R517, R519, R522, R525, R548). -/
def react (s : State) (r : Report) (a : Applied) : State :=
  let s := match r.ctx with | some c => if 2 ≤ a.level then trapCtx s c else s | none => s
  let s := match r.resetDie with | some d => if a.level = 3 then beginBlockReset s r.block d else s | none => s
  let s := if 4 ≤ a.level ∧ s.fld .fcuStatus F.fcuStatus_OFF_RING = 0 then leaveRing s r.src.hubIntact else s
  let s := if 4 ≤ a.level ∧ (r.src = .stageLostDie ∨ r.src = .tjCritDie) then dropDies s else s
  let s := if a.pin then drivePins s 0 1 else s
  if a.level = 5 ∧ s.fcu.holdClass = none then
    { s with fcu := { s.fcu with holdClass := some r.src.cls, holdAt := s.now } }
  else s

/-- A report is taken by the FCU (R507, R509, R515, R522, R660): its record is made, stored and sent unless it is
dropped or the log is full, it is counted, and its level is applied. -/
def takeReport (s : State) (r : Report) (time : Nat) (drop : Bool) : State :=
  let a := applied s r
  let seq := s.fcu.nextSeq
  let u : Unacked := ⟨seq, r.src.cls, a.level, a.pin, false⟩
  let s := s.addFld (.fcuCount r.src) F.fcuCount_COUNT 1
  let s := { s with fcu := { s.fcu with nextSeq := (seq + 1) % 2 ^ 32
                                        unacked := s.fcu.unacked ++ [u]
                                        handlers := if a.level = 0 then s.fcu.handlers else s.fcu.handlers ++ [u] } }
  let s := match (if drop then none else storeRecord s (recordWords seq time r a)) with
    | some t => t
    | none => s.addFld .fcuStatus F.fcuStatus_LOST 1
  react s r a

/-- Reports that the power controller holds before the FCU runs (R660). -/
def holdReport (s : State) (r : Report) : State :=
  if s.fcu.held.length < 16 then { s with fcu := { s.fcu with held := s.fcu.held ++ [r] } }
  else { s with fcu := { s.fcu with heldOver := s.fcu.heldOver ++ [r] } }

/-- A report reaches the FCU: held before the FCU runs (R660), taken afterwards; one whose complement disagrees is
replaced by REPORT_BAD of the sending die (R506, R513). -/
def receiveReport (s : State) (r : Report) (bad : Bool) : State :=
  let r := if bad then { Report.plain .reportBad r.die 0 .fcu 0 with found := r.found } else r
  if s.readyBit 2 then takeReport s r s.now false else holdReport s r

/-- Of two reports of one class, the one recorded first where they meet: the lower source, then the lower die (R525). -/
def Report.before (a b : Report) : Report :=
  if b.src.id < a.src.id ∨ (b.src.id = a.src.id ∧ b.die < a.die) then b else a

/-- The report that reaches the FCU next: the oldest, or one of its class that was detected at the same time and goes
before it (R525, log entry 13). -/
def nextReport : List Report → Option Report
  | [] => none
  | r :: rest => some ((rest.filter (fun o => o.found == r.found && o.src.cls == r.src.cls)).foldl Report.before r)

/-- FAULT_REPORT (R506, R515, R525): the next report on the fault path reaches the FCU, or the report that the command
gives, of an event that has no other row (log entry 13). -/
def faultReport (given : Option Report) (bad : Bool) (s : State) : State :=
  if s.pow.off then s
  else match given with
  | some r => receiveReport s { r with found := s.now } bad
  | none =>
    match nextReport s.reports with
    | none => s
    | some r => receiveReport { s with reports := s.reports.erase r } r bad

/-- FAULT_REPORT (R515). -/
def execFaultReport (given : Option Report) (bad : Bool) (s : State) : Res := .next (faultReport given bad s)

/-- The FCU starts (R570, R660): the held reports are recorded first, in order, then those beyond 16 take effect. -/
def startFcu (s : State) : State :=
  let held := s.fcu.held
  let late := s.fcu.heldOver
  let s := setReady { s with fcu := { s.fcu with held := [], heldOver := [] } } 2 true
  let s := held.foldl (fun s h => takeReport s h h.found false) s
  late.foldl (fun s r => takeReport s r s.now true) s

/-! ### Acknowledgement (R510, R523, R524) -/

/-- A log entry is acknowledged: ACKED is 1 and the complement rewritten; a bad one stays as it is (R510, R523). -/
def LogEntry.ack (e : LogEntry) : LogEntry :=
  if e.good then
    let w := e.words.headD 0 ||| BitVec.ofNat 64 (2 ^ 11)
    { e with words := (e.words.set 0 w).set 4 (~~~w) }
  else { e with badSeen := true }

/-- The log entries that a test names are acknowledged, in the log and where they wait to be sent (R511); RECORD_BAD is
raised once for each bad one (R510). -/
def ackLog (s : State) (f : LogEntry → Bool) : State :=
  let bad := s.fcu.log.countP (fun e => f e.2 && !e.2.good && !e.2.badSeen)
  let s := { s with fcu := { s.fcu with
    log := s.fcu.log.map (fun (e : Nat × LogEntry) => if f e.2 then (e.1, e.2.ack) else e)
    events := s.fcu.events.map (fun ws => let e : LogEntry := ⟨ws, false, false⟩; if f e then e.ack.words else ws) } }
  (List.range bad).foldl (fun s _ => s.raise (Report.plain .recordBad 2 0 .fcu 0)) s

/-- The SEQ and class of a log entry. -/
def LogEntry.seq (e : LogEntry) : Nat := bitsOf (e.words.headD 0) 63 32
/-- The class code of a log entry. -/
def LogEntry.cls (e : LogEntry) : Nat := bitsOf (e.words.headD 0) 31 28

/-- ACKED_SEQ of a class moves over every record at its front that has been acknowledged (R523). -/
def advanceAcked (s : State) (k : FaultClass) : State :=
  let mine := s.fcu.unacked.filter (fun u => u.cls = k)
  let front := mine.takeWhile (fun u => u.acked)
  let rest := mine.drop front.length
  let s := { s with fcu := { s.fcu with unacked := s.fcu.unacked.filter (fun u => u.cls ≠ k || rest.contains u) } }
  match front.getLast? with
  | some u =>
    let old := s.fld (.fcuClass k) F.fcuClass_ACKED_SEQ
    if seqUpTo u.seq old then s else s.setFld (.fcuClass k) F.fcuClass_ACKED_SEQ u.seq
  | none => s

/-- Every record of a class at or before a SEQ is acknowledged (R523). -/
def ackClass (s : State) (seq : Nat) (k : FaultClass) : State :=
  if seqUpTo seq (s.fld (.fcuClass k) F.fcuClass_ACKED_SEQ) then s
  else
    let s := ackLog s (fun e => e.cls == k.code && seqUpTo e.seq seq)
    let s := { s with fcu := { s.fcu with unacked := s.fcu.unacked.map (fun (u : Unacked) =>
      if u.cls = k ∧ seqUpTo u.seq seq then { u with acked := true } else u) } }
    advanceAcked (s.setFld (.fcuClass k) F.fcuClass_ACKED_SEQ seq) k

/-- A write of FCU.ACK (R523, R542): SEQ is limited to the latest record. -/
def writeAck (s : State) (classes seq : Nat) : State :=
  let last := (s.fcu.nextSeq + 2 ^ 32 - 1) % 2 ^ 32
  let seq := if seqUpTo seq last then seq else last
  FaultClass.all.foldl (fun s k => if classes / 2 ^ (k.code - 1) % 2 = 1 then ackClass s seq k else s) s

/-- The next handler of the service sequencer: traps go before all else (R515). -/
def nextHandler (hs : List Unacked) : Option Unacked :=
  match hs.find? (fun u => 2 ≤ u.level) with
  | some u => some u
  | none => hs.head?

/-- SERVICE_HANDLER_DONE (R524): a level-1 record of a class with SVC_ACK is acknowledged, that record alone. -/
def handlerDone (s : State) : State :=
  match nextHandler s.fcu.handlers with
  | none => s
  | some u =>
    let s := { s with fcu := { s.fcu with handlers := s.fcu.handlers.erase u } }
    if u.level = 1 ∧ s.fld (.fcuClass u.cls) F.fcuClass_SVC_ACK = 1 then
      let s := ackLog s (fun e => e.cls == u.cls.code && e.seq == u.seq)
      let s := { s with fcu := { s.fcu with unacked := s.fcu.unacked.map (fun (v : Unacked) =>
        if v.cls = u.cls ∧ v.seq = u.seq then { v with acked := true } else v) } }
      advanceAcked s u.cls
    else s

/-- SERVICE_HANDLER_DONE (R524). -/
def execServiceHandlerDone (s : State) : Res := .next (handlerDone s)

/-! ### Pins, heartbeats, injection, RESUME -/

/-- A write of FCU.PIN (R528); none is a rejection. -/
def writePin (s : State) (release : Bool) : Option State :=
  if release then
    if s.fcu.unacked.any (fun u => !u.acked && (u.pin || u.level == 4)) then none else some (drivePins s 1 0)
  else some s

/-- PIN_SENSE (R527): what the FCU senses on both pins. -/
def pinSense (a b : Bool) (s : State) : State :=
  if s.readyBit 2 then
    let s := (s.setFld .fcuPin F.fcuPin_SENSED_A a.toNat).setFld .fcuPin F.fcuPin_SENSED_B b.toNat
    let differs := decide (a.toNat ≠ s.fld .fcuPin F.fcuPin_DRIVEN_A ∨ b.toNat ≠ s.fld .fcuPin F.fcuPin_DRIVEN_B)
    let fresh := differs && !s.fcu.mismatch
    let s := { s with fcu := { s.fcu with mismatch := differs } }
    if fresh then s.raise (Report.plain .pinReadback 2 0 .fcu 0) else s
  else s

/-- PIN_SENSE (R527). -/
def execPinSense (a b : Bool) (s : State) : Res := .next (pinSense a b s)

/-- DIE_HEARTBEAT (R506). -/
def heartbeat (d : Die) (s : State) : State :=
  { s with fcu := { s.fcu with beats := s.fcu.beats.put d s.now, silent := s.fcu.silent.filter (fun e => e ≠ d) } }

/-- DIE_HEARTBEAT (R506). -/
def execDieHeartbeat (d : Die) (s : State) : Res := .next (if s.readyBit (7 + d.val) then heartbeat d s else s)

/-- HEARTBEAT_TIMEOUT (R506): no heartbeat of a die in service for 10 µs; raised once for each silence. -/
def heartbeatTimeout (d : Die) (s : State) : State :=
  if s.readyBit 2 ∧ s.readyBit (7 + d.val) ∧ d ∉ s.fcu.silent ∧ s.fcu.beats.at_ 0 d + 10000 ≤ s.now then
    { s with fcu := { s.fcu with silent := s.fcu.silent ++ [d] } }.raise (Report.plain .dieSilent d.val 0 .fcu 0)
  else s

/-- HEARTBEAT_TIMEOUT (R506). -/
def execHeartbeatTimeout (d : Die) (s : State) : Res := .next (heartbeatTimeout d s)

/-- A write of FCU.INJECT (R543); none is a rejection. -/
def writeInject (s : State) (id die unit block detail : Nat) : Option State :=
  match Source.ofId id, Block.ofNum block with
  | some src, some b =>
    if die = 3 then none
    else some (s.raise { Report.plain src die unit b 0 with detail := detail, injected := true })
  | _, _ => none

/-- What keeps a RESUME from being accepted (R537). -/
def resumeBusy (s : State) : Bool :=
  (List.finRange 8).any (fun c => 2 ≤ cohortState s c && cohortState s c ≤ 6)
    || (List.finRange 2).any (fun d => (List.finRange 32).any (fun q => (List.finRange 4).any (fun x =>
        (s.ctx d q x).st == .ready || (s.ctx d q x).st == .wait)))

/-- A write of FCU.CTRL with its own rules (R537, R540): RESET_HOLD_US, RESUME and CLR_COUNTS; none is a rejection. -/
def writeFcuCtrl (s : State) (hold : Nat) (resume clear : Bool) : Option State :=
  if hold < 100 ∨ (resume ∧ resumeBusy s) then none
  else
    let s := s.setFld .fcuCtrl F.fcuCtrl_RESET_HOLD_US hold
    let s := if resume then s.setFld .fcuStatus F.fcuStatus_SCHED_BROKEN 0 else s
    some (if clear then
      Source.all.foldl (fun s k => s.setFld (.fcuCount k) F.fcuCount_COUNT 0) (s.setFld .fcuStatus F.fcuStatus_LOST 0) else s)

/-! ### Block resets (R518) -/

/-- Registers of a block that a block reset keeps (R518). -/
def Reg.keptByReset : Reg → Bool
  | .engGradeMask | .engFusedLo _ | .engFusedHi _ | .engCoreMap _ => true
  | .scvBeat _ | .scvTime _ | .scvRate _ => true
  | .fdxEpcTag _ _ | .fdxEpcLen _ _ _ | .fdxCompCtrl _ => true
  | .dmaRwinA _ | .dmaRwinB _ | .dmaRimpA _ | .dmaRimpB _ | .dmaTxnRes _ _ | .dmaTxnCore _ => true
  | .wstStoreCtrl _ | .wstRepairEntry _ | .wstJobTag _ | .wstBistCtrl _ | .astRepairEntry _ | .pstRepairEntry _ => true
  | _ => false

/-- The registers of a block of a die at their reset values, but for those that are kept (R518). -/
def resetRegs (s : State) (b : Block) (d : Die) : State :=
  { s with regs := s.regs.filter (fun e => !(e.1.block == b && e.1.die == some d) || e.1.keptByReset) }

/-- Every core of a die changed. -/
def mapCores (s : State) (d : Die) (f : Core → Core) : State :=
  (List.finRange 32).foldl (fun s q => s.setCore d q (f (s.core d q))) s

/-- An engine after a block reset of ENG (R518): no tiles, and every accumulator slot poisoned. -/
def Engine.poisonAll (g : Engine) : Engine :=
  { g with active := none, shadow := none
           slots := (List.range 32).map (fun i => (i, ⟨(g.slots.at_ ⟨List.replicate 64 0, false⟩ i).lanes, true⟩)) }

/-- A core after a block reset of ENG. -/
def Core.resetEng (c : Core) : Core :=
  { c with issueQ := [], prog := none, engines := (List.finRange 4).map (fun e => (e, (c.engine e).poisonAll)) }

/-- A core after a block reset of FDX (R518). -/
def Core.resetFdx (c : Core) : Core :=
  { c with feeds := [], treqs := [], rx := [], actQ := [], actReserved := 0, tord := [0], tordPos := 0, tordHalf := false
           expOut := [], expBusy := false, tileIn := none }

/-- The context slots of a die EMPTY, with their translation tables kept (R518). -/
def emptySlots (s : State) (d : Die) : State :=
  (List.finRange 32).foldl (fun s q => (List.finRange 4).foldl (fun s x =>
    s.setCtx d q x { Ctx.empty with xl := (s.ctx d q x).xl }) s) s

/-- What a block reset does to its block (R518). -/
def blockReset (s : State) (b : Block) (d : Die) : State :=
  let s := match b with
    | .eng => mapCores s d Core.resetEng
    | .scv =>
      let s := emptySlots s d
      s.setDie d { s.die d with steps := [], stepArr := [], consumes := [], reads := [] }
    | .fdx =>
      let s := mapCores s d Core.resetFdx
      let y := s.die d
      s.setDie d { y with busQ := [], accs := y.accs.filter (fun a => !a.dest.delivers) }
    | .dma =>
      let s := (List.finRange 8).foldl (fun s c => s.setDma d c { s.dma d c with queue := [] }) s
      let y := s.die d
      s.setDie d { y with accs := y.accs.filter (fun a => match a.dest with | .post .. => false | _ => true) }
    | .wst | .ast | .pst => abandonBist s d
    | _ => s
  resetRegs s b d

/-- A block reset can end (R518): running descriptors of its DMAs have completed or been aborted. -/
def resetMayEnd (s : State) (b : Block) (d : Die) : Bool :=
  b != .dma || (List.finRange 8).all (fun c => (s.dma d c).active.isEmpty)

/-! ### Module resets (R520, R535, R568, R641) -/

/-- What a fuse blow that stops short leaves (R598): the steps that are done, and at most one half-blown pair. -/
def interruptBlow (s : State) : State :=
  match s.sec.blow with
  | none => s
  | some op =>
    let done := (s.now - s.sec.blowAt) / 1000000
    let half := Config.freeNat s.fresh % 2 == 1
    let s := s.burn 1
    match op with
    | .advance t =>
      let n := min t (s.fuses.rollback + done)
      { s with fuses := { s.fuses with rollback := n, half := if half ∧ n < t then some (.advance (n + 1)) else none } }
    | .revoke k =>
      { s with fuses := { s.fuses with revoked := if 1 ≤ done then s.fuses.revoked ++ [k] else s.fuses.revoked
                                       half := if half ∧ done = 0 then some (.revoke k) else none } }

/-- The flash and what the security block keeps over a reset; `power` says whether power was lost (R535, R568). -/
def Sec.persist (x : Sec) (power : Bool) : Sec :=
  { Sec.reset with flash := x.flash, recs := x.recs, gen := x.gen, certKey := x.certKey, certIdent := x.certIdent, torn := x.torn, fuseBad := x.fuseBad
                   repairDue := if power then [] else x.repairDue, unlocked := !power && x.unlocked }

/-- Registers that a module reset leaves: the timebase (R311, R641), the phases lost until power-on (R548), what holds
since power-on (R576, R609) and, after a level-5 reset, what R520 keeps. -/
def keptWord (s : State) (keep : Bool) (r : Reg) : Option Word :=
  match r with
  | .ptcTbTime => some (s.reg r)
  | .ptcStage _ => some (s.reg r)
  | .ptcInput => some (putBits 0 15 0 (s.fld .ptcInput F.ptcInput_PEAK_W))
  | .secStatus => some (putBits 0 37 37 (s.fld .secStatus F.secStatus_ATTESTED))
  | .fcuPin => if keep then some (s.reg r) else none
  | .fcuCount _ => if keep then some (s.reg r) else none
  | .fcuStatus => if keep then some (putBits 0 63 32 (s.fld .fcuStatus F.fcuStatus_LOST)) else none
  | .fcuLogSel => if keep then some (putBits 0 25 16 (s.fld .fcuLogSel F.fcuLogSel_NEXT)) else none
  | .fcuClass k => if keep then some (putBits (Reg.resetWord r) 63 32 (s.fld (.fcuClass k) F.fcuClass_ACKED_SEQ)) else none
  | _ => none

/-- What the FCU keeps over a level-5 reset (R520). -/
def Fcu.kept (f : Fcu) : Fcu :=
  { Fcu.reset with nextSeq := f.nextSeq, log := f.log, unacked := f.unacked, events := f.events, mismatch := f.mismatch }

/-- A module reset (R520, R535, R641): everything at its reset value but fuses, flash, the timebase, the repair entries,
lost phases and, after a level-5 reset, the FCU's state. Bring-up starts again at the ROM phase. -/
def moduleReset (s : State) (keep : Bool) : State :=
  let s := interruptBlow s
  { State.reset with
    pending := s.pending, fresh := s.fresh, fuses := s.fuses, repairs := s.repairs, reports := s.reports
    regs := s.regs.filterMap (fun e => (keptWord s keep e.1).map (fun w => (e.1, w)))
    fcu := if keep then s.fcu.kept else Fcu.reset
    sec := s.sec.persist false
    pow := { Pow.reset with refclkBad := s.pow.refclkBad, kept := keep } }

/-- RESET_HOLD_EXPIRY (R520): RESET_HOLD_US after a level-5 decision. -/
def resetHoldExpiry (s : State) : State :=
  if s.fcu.holdClass.isSome ∧ s.fcu.holdAt + s.fld .fcuCtrl F.fcuCtrl_RESET_HOLD_US * 1000 ≤ s.now then moduleReset s true
  else s

/-- RESET_HOLD_EXPIRY (R520). -/
def execResetHoldExpiry (s : State) : Res := .next (resetHoldExpiry s)

/-- RESET_N (R641): held low for at least 10 µs. -/
def resetN (s : State) : State := if s.pow.off then s else moduleReset s false

/-- RESET_N (R641). -/
def execResetN (s : State) : Res := .next (resetN s)

/-- The module is off (R535, R546, R568): only fuses and flash outlive it. -/
def powerOff (s : State) : State :=
  let s := interruptBlow s
  { State.reset with pending := s.pending, fresh := s.fresh, fuses := s.fuses, sec := s.sec.persist true
                     pow := { Pow.reset with off := true } }

end Sys2Proof.Machine
end

