-- ==== Sys2Proof/Machine/Power.lean ====
section
/-! DEFINITION. Power, voltage, thermal limits and live calibration (R546 to R581), and the phases of bring-up that use
no security hardware (R570). -/

namespace Sys2Proof.Machine

/-! ### Shared readings -/

/-- A report of the power, timebase and calibration controller. -/
def ptcReport (src : Source) (unit detail : Nat) : Report := { Report.plain src 2 unit .ptc 0 with detail := detail }

/-- Function f is in UNCAL (R563). -/
def uncal (s : State) (f : Nat) : Bool := bitsOf (s.reg .ptcCalStatus) f f == 1

/-- EFF_MV of a die (R552). -/
def effMv (s : State) (d : Die) : Nat := s.fld (.ptcDieV d) F.ptcDieV_EFF_MV

/-- How much earlier every temperature threshold applies while THERM is in UNCAL (R558). -/
def thermEarly (s : State) : Nat := if uncal s 3 then 5 else 0

/-- The junction threshold of thermal capping (R556, R558). -/
def tjCap (s : State) : Nat := s.fld .ptcThermCtrl F.ptcThermCtrl_TJ_CAP - thermEarly s

/-- The three readings of junction groups: die 0, die 1, hub (R555). -/
def tjReadings (s : State) : List Nat :=
  [s.fld .ptcTherm F.ptcTherm_TJ_D0, s.fld .ptcTherm F.ptcTherm_TJ_D1, s.fld .ptcTherm F.ptcTherm_TJ_HUB]

/-- A temperature as PTC.THERM holds it (R579). -/
def degrees (t : Int) : Nat := min t.toNat 255

/-- A condition that is raised once has begun or goes on (R548). -/
def raiseOnce (s : State) (k : Nat) (r : Report) : State :=
  let again := match s.pow.begun.find k with | some none => false | some (some t) => decide (t + 1000000000 ≤ s.now) | none => true
  let s := { s with pow := { s.pow with begun := s.pow.begun.put k none } }
  if again then s.raise r else s

/-- A condition that is raised once has ended. -/
def endCondition (s : State) (k : Nat) : State :=
  if s.pow.begun.find k = some none then { s with pow := { s.pow with begun := s.pow.begun.put k (some s.now) } } else s

/-! ### Rates (R305, R306, R553, R559, R561) -/

/-- The floor rate of the highest row of R304 at or below a voltage (R305). -/
def rowFloor (mv : Nat) : Nat := floorMhz (min (mv / 50 * 50) 850)

/-- The floor of a die at its effective set point (R304, R305). -/
def dieFloor (s : State) (d : Die) : Nat := if uncal s d.val then rowFloor (effMv s d) else floorMhz (effMv s d)

/-- CAL_MHZ of a die. -/
def calMhz (s : State) (d : Die) : Nat := s.fld (.scvRate d) F.scvRate_CAL_MHZ

/-- RATE_LOW judged again (R306). -/
def judgeRate (s : State) (d : Die) : State :=
  let least := s.fld (.scvSchedCtrl d) F.scvSchedCtrl_MIN_RATE_MHZ
  let low := decide (least ≠ 0 ∧ calMhz s d < least)
  let was := s.fld (.scvStepStatus d) F.scvStepStatus_RATE_LOW
  let s := s.setFld (.scvStepStatus d) F.scvStepStatus_RATE_LOW low.toNat
  if low ∧ was = 0 then s.raise (Report.plain .rateLow d.val 0 .scv 0) else s

/-- CAL_MHZ of a die takes a value. -/
def takeCal (s : State) (d : Die) (v : Nat) : State := judgeRate (s.setFld (.scvRate d) F.scvRate_CAL_MHZ (min v 65535)) d

/-- CAL_MHZ of a die set: a die that counts beats takes the value on its next one (R305). -/
def setCal (s : State) (d : Die) (v : Nat) : State :=
  if s.readyBit (7 + d.val) then
    let x := s.die d
    s.setDie d { x with calNew := some v }
  else takeCal s d v

/-- The value that CAL_MHZ of a die has been set to. -/
def calAim (s : State) (d : Die) : Nat := (s.die d).calNew.getD (calMhz s d)

/-- The calibrated rate for a lowered set point (R553): in UNCAL the floor, otherwise the record's coefficients give it,
between the floor and the present rate (log entry 31). -/
def lowerCal (s : State) (d : Die) : State :=
  let lo := dieFloor s d
  let now := calAim s d
  if uncal s d.val then setCal s d lo
  else if now ≤ lo then s
  else setCal (s.burn 1) d (lo + Config.freeNat s.fresh % (now - lo + 1))

/-- EFF_MV of a die from its set point, the cap point and the thermal point (R552, R553). -/
def applyPoint (s : State) (d : Die) : State :=
  let old := effMv s d
  let new := min (s.fld (.ptcDieV d) F.ptcDieV_SET_MV) (min s.pow.capPoint s.pow.thermPoint)
  if new = old then s
  else
    let s := s.setFld (.ptcDieV d) F.ptcDieV_EFF_MV new
    let s := { s with pow := { s.pow with settled := s.pow.settled.filter (fun e => e ≠ d), railSince := s.pow.railSince.drop_ d } }
    if new < old then lowerCal s d else s

/-- Both dies' effective set points. -/
def applyPoints (s : State) : State := applyPoint (applyPoint s 0) 1

/-- A write of SET_MV (R554); none is a rejection. -/
def writeSetMv (s : State) (d : Die) (mv : Nat) : Option State :=
  if 600 ≤ mv ∧ mv ≤ 850 ∧ mv % 5 = 0 then some (applyPoint (s.setFld (.ptcDieV d) F.ptcDieV_SET_MV mv) d) else none

/-! ### Input and phases (R546 to R548) -/

/-- INPUT_LOSS and THERMAL_TRIP: every converter stops and the module is off (R546, R557). -/
def execInputLoss (s : State) : Res := .next (if s.pow.off then s else powerOff s)

/-- THERMAL_TRIP (R557): the comparator stops every converter; no record is made. -/
def execThermalTrip (s : State) : Res := .next (if s.pow.off then s else powerOff s)

/-- INPUT_RANGE (R548): the input has stayed out of its range for 1 ms. -/
def inputRange_ (s : State) : State :=
  match s.pow.vinSince with
  | some t => if s.pow.off = false ∧ t + 1000000 ≤ s.now then raiseOnce s 0 (ptcReport .inputRange 0 (s.fld .ptcInput F.ptcInput_VIN)) else s
  | none => s

/-- INPUT_RANGE (R548). -/
def execInputRange (s : State) : Res := .next (inputRange_ s)

/-- The loss class of a stage is Die (R547). -/
def stageOfDie (k : Fin 9) : Bool := decide (1 ≤ k.val ∧ k.val ≤ 4)

/-- STATE and WORKING of a stage from its lost phases (R547, R580): UP, DEGRADED, LOST. -/
def settleStage (s : State) (k : Fin 9) : State :=
  let n := s.fld (.ptcStage k) F.ptcStage_PHASES
  let lost := (List.range n).countP (fun i => bitsOf (s.reg (.ptcStage k)) i i == 1)
  let s := s.setFld (.ptcStage k) F.ptcStage_WORKING (n - lost)
  s.setFld (.ptcStage k) F.ptcStage_STATE (if lost = 0 then 1 else if lost = 1 then 2 else 3)

/-- PHASE_LOSS (R547, R548): a phase of a stage in service is switched off. -/
def phaseLoss (k : Fin 9) (i : Nat) (s : State) : State :=
  let st := s.fld (.ptcStage k) F.ptcStage_STATE
  if s.pow.off ∨ st = 0 ∨ s.fld (.ptcStage k) F.ptcStage_PHASES ≤ i ∨ bitsOf (s.reg (.ptcStage k)) i i = 1 then s
  else
    let s := settleStage (s.setReg (.ptcStage k) (putBits (s.reg (.ptcStage k)) i i 1)) k
    if s.fld (.ptcStage k) F.ptcStage_STATE = 2 then s.raise (ptcReport .phaseLost k.val i)
    else if st = 3 then s
    else s.raise (ptcReport (if stageOfDie k then .stageLostDie else .stageLostHub) k.val i)

/-- PHASE_LOSS (R548). -/
def execPhaseLoss (k : Fin 9) (i : Nat) (s : State) : Res := .next (phaseLoss k i s)

/-! ### Power and capping (R550, R551) -/

/-- The time since which a condition has held. -/
def since (b : Bool) (old : Option Nat) (now : Nat) : Option Nat := if b then some (old.getD now) else none

/-- Both dies sit at 600 mV and the power is above the limit (R551). -/
def atFloor (s : State) : Bool :=
  decide (effMv s 0 = 600 ∧ effMv s 1 = 600 ∧ s.fld .ptcCap F.ptcCap_LIMIT_W < s.fld .ptcInput F.ptcInput_PIN_W)

/-- POWER_MEASURE (R550, R551): input voltage in 10 mV, current in 10 mA, and the 100 µs average of the power in W as
the sensors give it. -/
def powerMeasure (vin iin pin : Nat) (s : State) : State :=
  if s.pow.off then s
  else
    let p := min (if uncal s 2 then pin * 110 / 100 else pin) 65535
    let lim := s.fld .ptcCap F.ptcCap_LIMIT_W
    let s := (s.setFld .ptcInput F.ptcInput_VIN vin).setFld .ptcInput F.ptcInput_IIN iin
    let s := (s.setFld .ptcInput F.ptcInput_PIN_W p).setFld .ptcInput F.ptcInput_PEAK_W (max p (s.fld .ptcInput F.ptcInput_PEAK_W))
    let out := decide (vin < 5600 ∨ 6600 < vin)
    let s := if out then s else endCondition s 0
    let s := { s with pow := { s.pow with vinSince := since out s.pow.vinSince s.now
                                          underSince := since (decide (p + 20 < lim)) s.pow.underSince s.now } }
    let s :=
      if s.pow.capping = false ∧ lim < p then
        let s := { s with pow := { s.pow with capping := true, capPoint := max (effMv s 0) (effMv s 1), capAt := s.now } }
        raiseOnce (s.addFld .ptcCap F.ptcCap_EVENTS 1) 1 (ptcReport .capping 0 1)
      else s
    let floor := atFloor s
    let s := if floor then s else endCondition (s.setFld .ptcCap F.ptcCap_FLOOR 0) 6
    { s with pow := { s.pow with floorSince := since floor s.pow.floorSince s.now } }

/-- POWER_MEASURE (R550). -/
def execPowerMeasure (vin iin pin : Nat) (s : State) : Res := .next (powerMeasure vin iin pin s)

/-- CAP_STEP_DOWN (R551): 5 mV every 100 µs while the power is above the limit. -/
def capDown (s : State) : State :=
  if s.pow.capping ∧ s.fld .ptcCap F.ptcCap_LIMIT_W < s.fld .ptcInput F.ptcInput_PIN_W ∧ s.pow.capAt + 100000 ≤ s.now
      ∧ 600 < s.pow.capPoint then
    applyPoints { s with pow := { s.pow with capPoint := max 600 (s.pow.capPoint - 5), capAt := s.now } }
  else s

/-- CAP_STEP_DOWN (R551). -/
def execCapStepDown (s : State) : Res := .next (capDown s)

/-- CAP_STEP_UP (R551): 5 mV every 1 ms once the power has stayed 20 W below the limit for 1 ms; capping ends at 850 mV. -/
def capUp (s : State) : State :=
  match s.pow.underSince with
  | none => s
  | some t =>
    if s.pow.capping ∧ t + 1000000 ≤ s.now ∧ s.pow.capAt + 1000000 ≤ s.now then
      let p := min 850 (s.pow.capPoint + 5)
      let s := applyPoints { s with pow := { s.pow with capPoint := p, capAt := s.now, capping := decide (p < 850) } }
      if p = 850 then endCondition s 1 else s
    else s

/-- CAP_STEP_UP (R551). -/
def execCapStepUp (s : State) : Res := .next (capUp s)

/-- CAP_FLOOR (R551): both dies at 600 mV and the power above the limit for 10 ms. -/
def capFloor (s : State) : State :=
  match s.pow.floorSince with
  | some t =>
    if t + 10000000 ≤ s.now ∧ s.fld .ptcCap F.ptcCap_FLOOR = 0 then
      raiseOnce (s.setFld .ptcCap F.ptcCap_FLOOR 1) 6 (ptcReport .capping 0 2)
    else s
  | none => s

/-- CAP_FLOOR (R551). -/
def execCapFloor (s : State) : Res := .next (capFloor s)

/-! ### Temperatures (R555 to R557) -/

/-- TJ_HIGH of one group (R548): raised once each time it rises above the threshold. -/
def judgeHigh (s : State) (g t : Nat) : State :=
  if tjCap s < t then raiseOnce s (3 + g) (ptcReport .tjHigh g t) else endCondition s (3 + g)

/-- THERMAL_SENSOR_READ (R548, R555, R556): the highest reading of each junction group in °C. -/
def thermalRead (t0 t1 th : Int) (s : State) : State :=
  if s.pow.off then s
  else
    let old := tjReadings s
    let crit := 110 - thermEarly s
    let s := (s.setFld .ptcTherm F.ptcTherm_TJ_D0 (degrees t0)).setFld .ptcTherm F.ptcTherm_TJ_D1 (degrees t1)
    let s := s.setFld .ptcTherm F.ptcTherm_TJ_HUB (degrees th)
    let new := tjReadings s
    let s := (new.zipIdx).foldl (fun s t => judgeHigh s t.2 t.1) s
    let s := (new.zip old).zipIdx.foldl (fun s t =>
      if crit ≤ t.1.1 ∧ t.1.2 < crit then
        s.raise (if t.2 = 2 then ptcReport .tjCritHub 0 t.1.1 else ptcReport .tjCritDie t.2 t.1.1)
      else s) s
    let hot := new.any (fun t => decide (tjCap s < t))
    let cool := new.all (fun t => decide (t + 3 < tjCap s))
    let s := { s with pow := { s.pow with coolSince := since cool s.pow.coolSince s.now } }
    if hot ∧ s.pow.thermCapping = false then
      { s with pow := { s.pow with thermCapping := true, thermPoint := max (effMv s 0) (effMv s 1), thermAt := s.now } }
    else s

/-- THERMAL_SENSOR_READ (R555). -/
def execThermalSensorRead (t0 t1 th : Int) (s : State) : Res := .next (thermalRead t0 t1 th s)

/-- THERMAL_STEP_DOWN (R556): 5 mV every 100 ms while a sensor is above TJ_CAP. -/
def thermDown (s : State) : State :=
  if s.pow.thermCapping ∧ (tjReadings s).any (fun t => decide (tjCap s < t)) ∧ s.pow.thermAt + 100000000 ≤ s.now
      ∧ 600 < s.pow.thermPoint then
    applyPoints { s with pow := { s.pow with thermPoint := max 600 (s.pow.thermPoint - 5), thermAt := s.now } }
  else s

/-- THERMAL_STEP_DOWN (R556). -/
def execThermalStepDown (s : State) : Res := .next (thermDown s)

/-- THERMAL_STEP_UP (R556): 5 mV every 1 s once every sensor has read below TJ_CAP - 3 for 1 s. -/
def thermUp (s : State) : State :=
  match s.pow.coolSince with
  | none => s
  | some t =>
    if s.pow.thermCapping ∧ t + 1000000000 ≤ s.now ∧ s.pow.thermAt + 1000000000 ≤ s.now then
      let p := min 850 (s.pow.thermPoint + 5)
      applyPoints { s with pow := { s.pow with thermPoint := p, thermAt := s.now, thermCapping := decide (p < 850) } }
    else s

/-- THERMAL_STEP_UP (R556). -/
def execThermalStepUp (s : State) : Res := .next (thermUp s)

/-- COOLANT_READ (R555): inlet and outlet in °C. -/
def coolantRead (inlet outlet : Int) (s : State) : State :=
  if s.pow.off then s
  else
    let s := (s.setFld .ptcTherm F.ptcTherm_INLET (degrees inlet)).setFld .ptcTherm F.ptcTherm_OUTLET (degrees outlet)
    let out := decide (inlet < 20 + thermEarly s ∨ 45 - thermEarly s < inlet)
    let s := if out then s else endCondition s 2
    { s with pow := { s.pow with inletSince := since out s.pow.inletSince s.now } }

/-- COOLANT_READ (R555). -/
def execCoolantRead (inlet outlet : Int) (s : State) : Res := .next (coolantRead inlet outlet s)

/-- COOLANT_OUT_OF_RANGE (R548): the inlet has stayed out of its range for 10 s. -/
def coolantOut (s : State) : State :=
  match s.pow.inletSince with
  | some t =>
    if s.pow.off = false ∧ t + 10000000000 ≤ s.now then raiseOnce s 2 (ptcReport .coolant 0 (s.fld .ptcTherm F.ptcTherm_INLET)) else s
  | none => s

/-- COOLANT_OUT_OF_RANGE (R548). -/
def execCoolantOutOfRange (s : State) : Res := .next (coolantOut s)

/-! ### Live calibration (R559, R561, R566) -/

/-- What the rail of a die is driven to (R552, R558). -/
def railTarget (s : State) (d : Die) : Nat := effMv s d + (if uncal s 2 then 15 else 0)

/-- RAIL_SETTLED (R553): the measured rail has stayed within 5 mV of EFF_MV for 100 µs. The floor of R304 at the raised set
point holds from then on, and CAL_MHZ is never below it (R305). -/
def railSettled (d : Die) (s : State) : State :=
  match s.pow.railSince.find d with
  | some t =>
    if t + 100000 ≤ s.now ∧ d ∉ s.pow.settled then
      let s := { s with pow := { s.pow with settled := s.pow.settled ++ [d] } }
      if calAim s d < dieFloor s d then setCal s d (dieFloor s d) else s
    else s
  | none => s

/-- RAIL_SETTLED (R553). -/
def execRailSettled (d : Die) (s : State) : Res := .next (railSettled d s)

/-- A value of a function moved by more than one trim step (R566). -/
def noteMove (s : State) (f : Nat) (big : Bool) : State :=
  let s := s.calPassed f 0
  if big then { s with pow := { s.pow with calMoved := s.pow.calMoved.put f s.now } } else s

/-- CAL_TICK (R559): the predicted rate at EFF_MV and 95 °C of the die's slowest cluster in MHz, and whether a trim moved
by more than one step. -/
def calTick (d : Die) (pred : Nat) (big : Bool) (s : State) : State :=
  if s.readyBit (7 + d.val) then
    let s := noteMove s d.val big
    let want := max (dieFloor s d) (pred * 99 / 100)
    let now := calAim s d
    if uncal s d.val then (if dieFloor s d < now ∨ d ∈ s.pow.settled then setCal s d (dieFloor s d) else s)
    else if want < now then setCal s d want
    else if now < want ∧ d ∈ s.pow.settled ∧ (s.pow.raisedAt.find d).all (fun t => decide (t + 100000000 ≤ s.now)) then
      setCal { s with pow := { s.pow with raisedAt := s.pow.raisedAt.put d s.now } } d (min want (now * 101 / 100))
    else s
  else s

/-- CAL_TICK (R559). -/
def execCalTick (d : Die) (pred : Nat) (big : Bool) (s : State) : Res := .next (calTick d pred big s)

/-- VREG_REZERO (R558). -/
def execVregRezero (big : Bool) (s : State) : Res := .next (if s.readyBit 0 then noteMove s 2 big else s)

/-- OPTICS_BIAS_TRACK (R558). -/
def execOpticsBiasTrack (big : Bool) (s : State) : Res := .next (if s.readyBit 0 then noteMove s 5 big else s)

/-- RATE_INTERVAL_END (R305, R561): a 1 ms interval of the die's replica has ended. -/
def rateEnd (d : Die) (s : State) : State :=
  let t := s.pow.rateAt.at_ 0 d
  if s.readyBit (7 + d.val) ∧ t + 1000000 ≤ s.time d then
    let meas := min ((s.beat d - (s.die d).rateBeat) / 1000) 65535
    let s := s.setDie d { s.die d with rateBeat := s.beat d }
    let s := { s with pow := { s.pow with rateAt := s.pow.rateAt.put d (t + 1000000) } }
    let s := s.setFld (.scvRate d) F.scvRate_MEAS_MHZ meas
    let lo := dieFloor s d
    let s := if meas < calAim s d then
        setCal (s.addFld .ptcCalStatus F.ptcCalStatus_RATE_MISS 1) d (min (calAim s d) (max lo (meas * 99 / 100))) else s
    if meas < lo then s.addFld .ptcCalStatus F.ptcCalStatus_FLOOR_MISS 1 else s
  else s

/-- RATE_INTERVAL_END (R305). -/
def execRateIntervalEnd (d : Die) (s : State) : Res := .next (rateEnd d s)

/-! ### Calibration records (R562 to R565) -/

/-- UNCAL of a function, with the bit of SCV.RATE for a die (R563). -/
def setUncal (s : State) (f : Nat) (b : Bool) : State :=
  let s := s.setReg .ptcCalStatus (putBits (s.reg .ptcCalStatus) f f b.toNat)
  if h : f < 2 then s.setFld (.scvRate ⟨f, h⟩) F.scvRate_UNCAL b.toNat else s

/-- STATE of a calibration function (R581). -/
def setCalState (s : State) (f st : Nat) : State :=
  if h : f < 9 then s.setFld (.ptcCalFunc ⟨f, h⟩) F.ptcCalFunc_STATE st else s

/-- The live record of a calibration function: of several, the one at the highest offset (R605). -/
def calRecord (s : State) (f : Nat) : Option ConfRec :=
  (s.sec.recs.filter (fun r => r.cal && r.live && r.key == f)).getLast?

/-- A function reads its record (R563). -/
def loadCal (s : State) (f : Nat) : State :=
  match calRecord s f with
  | some r => setUncal (setCalState s f (if r.user then 2 else 1)) f false
  | none => (setUncal (setCalState s f 0) f true).raise (ptcReport .uncalibrated f 1)

/-- The records of a calibration function killed (R605). -/
def killCal (s : State) (f : Nat) : State :=
  { s with sec := { s.sec with recs := s.sec.recs.map (fun (r : ConfRec) => if r.cal && r.key == f then { r with live := false } else r) } }

/-- A write of PTC.CAL_CMD (R564, R565, R581); none is a rejection. -/
def writeCalCmd (s : State) (cmd f : Nat) : Option State :=
  if s.fld .ptcCalStatus F.ptcCalStatus_BUSY = 1 ∨ 8 < f then none
  else
    let run (save : Bool) : State :=
      let s := killCal ((s.setFld .ptcCalStatus F.ptcCalStatus_BUSY 1).setFld .ptcCalStatus F.ptcCalStatus_FUNC f) f
      { s with sec := { s.sec with calOp := some (f, save) } }
    if cmd = 1 then (if converged s f then some (setCalState (run true) f 3) else none)
    else if cmd = 2 then
      let s := (setUncal (setCalState (run false) f 0) f true).raise (ptcReport .uncalibrated f 2)
      some (if h : f < 2 then setCal s ⟨f, h⟩ (dieFloor s ⟨f, h⟩) else s)
    else none

/-- The record write of a SAVE completes (R564, R605): its payload is the command's. -/
def calSaveDone (payload : List Byte) (s : State) : State :=
  match s.sec.calOp with
  | some (f, true) =>
    if 8 ≤ payload.length ∧ payload.length ≤ 16384 then
      let s := { s with sec := { s.sec with calOp := none, recs := s.sec.recs ++ [({ cal := true, key := f, payload := payload, live := true, user := true } : ConfRec)] } }
      setUncal (setCalState (s.setFld .ptcCalStatus F.ptcCalStatus_BUSY 0) f 2) f false
    else s
  | _ => s

/-- CAL_SAVE_DONE (R564). -/
def execCalSaveDone (payload : List Byte) (s : State) : Res := .next (calSaveDone payload s)

/-- CAL_ERASE_DONE (R565). -/
def calEraseDone (s : State) : State :=
  match s.sec.calOp with
  | some (_, false) => { s.setFld .ptcCalStatus F.ptcCalStatus_BUSY 0 with sec := { s.sec with calOp := none } }
  | _ => s

/-- CAL_ERASE_DONE (R565). -/
def execCalEraseDone (s : State) : Res := .next (calEraseDone s)

/-! ### REFCLK (R645) -/

/-- REFCLK_LOSS (R645). -/
def refclkLoss (s : State) : State :=
  if s.pow.off ∨ s.pow.refclkBad then s
  else { s with pow := { s.pow with refclkBad := true } }.raise
    { Report.plain .hubInternal 2 0 .ptc 0 with detail := 1 }

/-- REFCLK_LOSS (R645). -/
def execRefclkLoss (s : State) : Res := .next (refclkLoss s)

/-- REFCLK_RESTORED (R645): valid for 1 ms. -/
def execRefclkRestored (s : State) : Res := .next { s with pow := { s.pow with refclkBad := false } }

/-! ### Bring-up (R570 to R572) -/

/-- A phase of bring-up is over (R570). -/
def endPhase (s : State) (k : Nat) : State := { s with pow := { s.pow with phases := s.pow.phases ++ [k] } }

/-- Phase k may run: it has not run, and every phase named before it is over. -/
def phaseDue (s : State) (k : Nat) (before : List Nat) : Bool :=
  !s.pow.off && !s.pow.phases.contains k && before.all s.pow.phases.contains

/-- The bank key of a repair record's KEY (R603): die and key; none for another block code. -/
def repairOfKey (k : Nat) : Option (Die × Nat) :=
  let st : Option Store := match k / 2 ^ 13 % 4 with | 1 => some .wst | 2 => some .ast | 3 => some .pst | _ => none
  st.map (fun st => (⟨k / 2 ^ 15 % 2, Nat.mod_lt _ (by decide)⟩, bankKey st (k / 2 ^ 8 % 32) (k % 64)))

/-- The KEY of a repair record (R603). -/
def keyOfRepair (d : Die) (bank : Nat) : Nat :=
  let b := bank % 1000
  let blk := match storeOfKey bank with | .wst => 1 | .ast => 2 | .pst => 3
  d.val * 2 ^ 15 + blk * 2 ^ 13 + b / 40 * 2 ^ 8 + b % 40

/-- A repair loads into its bank's lowest free entry (R237, R605). -/
def loadRepair (s : State) (d : Die) (bank row source : Nat) : State :=
  match freeEntry s d bank with
  | some e => { s with repairs := s.repairs.put (d, bank, e) ⟨true, false, source, row⟩ }
  | none => s

/-- Repair entries load at power-on: the fused ones, then the live records in order (R237, R605). -/
def loadRepairs (s : State) : State :=
  let s := s.fuses.repairs.foldl (fun s r => loadRepair s r.1 r.2.1 r.2.2 0) s
  s.sec.recs.foldl (fun s r =>
    if r.cal || !r.live then s
    else match repairOfKey r.key with
      | some k => loadRepair s k.1 k.2 (ofLe (r.payload.take 8) % 1024) 1
      | none => s) s

/-- POWER_ON (R546, R570): the input has returned to a module that is off; stage 0 and stages 5 to 8 ramp. -/
def powerOn (s : State) : State :=
  if s.pow.off then
    let s := { s with pow := { s.pow with off := false } }
    loadRepairs ([0, 5, 6, 7, 8].foldl settleStage s)
  else s

/-- POWER_ON (R546). -/
def execPowerOn (s : State) : Res := .next (powerOn s)

/-- CTRL_PHASE (R570): `linked` says whether the link reached LINKED within its second. -/
def ctrlPhase (linked : Bool) (s : State) : State :=
  if phaseDue s 2 [0, 1] ∧ s.readyBit 1 then
    endPhase (if linked then ctrlLinked (lightDetect s) else s) 2
  else s

/-- CTRL_PHASE (R570). -/
def execCtrlPhase (linked : Bool) (s : State) : Res := .next (ctrlPhase linked s)

/-- LPD_PHASE (R457, R570): `bad` names the channels whose training fails. -/
def lpdPhase (bad : List Nat) (s : State) : State :=
  if phaseDue s 3 [0, 1] ∧ s.readyBit 1 then
    let s := loadCal s 8
    let s := (List.range 16).foldl (fun s k => s.setFld (chStatus k) F.lpdChStatus_STATE 2) s
    let s := (List.range 16).foldl (fun s k => if bad.contains k then losePackage s (k / 2) else s) s
    endPhase (setReady s 4 true) 3
  else s

/-- LPD_PHASE (R570). -/
def execLpdPhase (bad : List Nat) (s : State) : Res := .next (lpdPhase bad s)

/-- A stack is trained, or retired with CAUSE INIT (R452, R453). -/
def trainStack (s : State) (n : Nat) (ok : Bool) : State :=
  if ok then s.setFld (stackStatus n) F.hbmStackStatus_STATE 2
  else stackRetire (s.setFld (stackStatus n) F.hbmStackStatus_CAUSE 5) n

/-- HBM_PHASE (R570, R572): stages 1 to 4 ramp, and the stacks train but for those that `bad` names and those whose
rails are lost. -/
def hbmPhase (bad : List Nat) (s : State) : State :=
  if phaseDue s 4 [0, 1, 2, 3] ∧ s.readyBit 1 then
    let s := [1, 2, 3, 4].foldl settleStage s
    let s := (List.finRange 2).foldl (fun s (d : Die) =>
      if s.fld (.ptcStage ⟨1 + d.val, by omega⟩) F.ptcStage_STATE = 3 then s
      else s.setFld (.ptcDieV d) F.ptcDieV_ACT_MV (railTarget s d)) s
    let s := loadCal (loadCal s 6) 7
    let s := (List.range 8).foldl (fun s n =>
      trainStack s n (!bad.contains n && s.fld (.ptcStage ⟨3 + n / 4 % 2, by omega⟩) F.ptcStage_STATE != 3)) s
    endPhase (setReady (setReady s 5 true) 6 true) 4
  else s

/-- HBM_PHASE (R570). -/
def execHbmPhase (bad : List Nat) (s : State) : Res := .next (hbmPhase bad s)

/-- A die is initialised (R240, R570): its stores zero, its calibration record loaded, its rate intervals and heartbeat
begun. -/
def initDie (s : State) (d : Die) : State :=
  let s := zeroStores s d
  let s := (s.setFld (.wstJobTag d) F.wstJobTag_ANY 1).setFld (.wstJobTag d) F.wstJobTag_JOB 0
  let s := heartbeat d (setReady s (7 + d.val) true)
  let s := s.setDie d { s.die d with rateBeat := s.beat d }
  { s with pow := { s.pow with rateAt := s.pow.rateAt.put d (s.time d) } }

/-- A stage of a die, that of its core or that of its HBM rails, is lost (R547, R572). -/
def dieStageLost (s : State) (d : Die) : Bool :=
  s.fld (.ptcStage ⟨1 + d.val, by omega⟩) F.ptcStage_STATE == 3 || s.fld (.ptcStage ⟨3 + d.val, by omega⟩) F.ptcStage_STATE == 3

/-- DIE_PHASE (R570, R572): `bad` names the dies whose initialization fails; a die with a stage lost fails too. -/
def diePhase (bad : List Die) (s : State) : State :=
  if phaseDue s 5 [0, 1, 2, 3, 4] ∧ s.readyBit 1 then
    let s := (List.finRange 2).foldl (fun s (d : Die) =>
      let s := loadCal s d.val
      if bad.contains d ∨ dieStageLost s d then s else initDie s d) s
    endPhase (setReady s 12 true) 5
  else s

/-- DIE_PHASE (R570). -/
def execDiePhase (bad : List Die) (s : State) : Res := .next (diePhase bad s)

/-- SERVICE_PHASE (R570). -/
def servicePhase (s : State) : State :=
  if phaseDue s 6 [0, 1, 2, 3, 4, 5] ∧ s.readyBit 1 then
    endPhase (if s.readyBit 7 ∧ s.readyBit 8 then setReady s 11 true else s) 6
  else s

/-- SERVICE_PHASE (R570). -/
def execServicePhase (s : State) : Res := .next (servicePhase s)

/-- RING_PHASE (R409, R570): the ports train with the RING and OPTICS records; each port named trains with the spares
named. -/
def ringPhase (ports : List (Port × List Nat)) (s : State) : State :=
  if phaseDue s 7 [0, 1, 2, 3, 4, 5, 6] ∧ s.readyBit 1 then
    let s := loadCal (loadCal s 4) 5
    let s := ports.foldl (fun s p => portTrained p.1 p.2 (portSignal p.1 s)) s
    endPhase (setReady (setReady s 9 true) 10 true) 7
  else s

/-- RING_PHASE (R570). -/
def execRingPhase (ports : List (Port × List Nat)) (s : State) : Res := .next (ringPhase ports s)

end Sys2Proof.Machine
end

