-- ==== Sys2Proof/Machine/Security.lean ====
section
/-! DEFINITION. Boot, identity, images, fuses, attestation and configuration records (chapter 14). -/

namespace Sys2Proof.Machine

/-- A report of the security block. -/
def secReport (src : Source) (detail : Nat) : Report := { Report.plain src 2 0 .sec 0 with detail := detail }

/-! ### Identity (R584, R586) -/

/-- The identity public key (R584). -/
def identityKey : List Byte := (List.range 1312).map Config.identityByte

/-- PART_ID, STEPPING and GRADE_FUSED as MOD.IDENT lays them out, with the presented grade zero (R586). -/
def fusedIdent (s : State) : Nat := 0x7A080000 + s.fuses.stepping % 256 * 256 + s.fuses.grade % 16 * 16

/-- The identity certificate (R586). -/
def certificate (s : State) : List Byte :=
  leBytes 4 (s.sec.certKey % 256) ++ leBytes 4 s.sec.certIdent ++ (List.range 2420).map Config.certByte

/-- A 256-bit value written into four registers of 64 bits (R613). -/
def setHash (s : State) (r : Fin 4 → Reg) (v : Nat) : State :=
  (List.finRange 4).foldl (fun s w => s.setReg (r w) (BitVec.ofNat 64 (v / 2 ^ (64 * w.val)))) s

/-- The 32 bytes of such a value. -/
def hashBytes (s : State) (r : Fin 4 → Reg) : List Byte := (List.finRange 4).flatMap (fun w => leBytes 8 (s.reg (r w)).toNat)

/-! ### The ROM phase (R570, R583, R584, R640) -/

/-- A half-blown pair completed (R583). -/
def completePair (s : State) : State :=
  match s.fuses.half with
  | some (.advance t) => { s with fuses := { s.fuses with rollback := t, half := none } }
  | some (.revoke k) => { s with fuses := { s.fuses with revoked := s.fuses.revoked ++ [k], half := none } }
  | none => s

/-- ROM_PHASE (R570): `bad` says that a fuse word is found to disagree in a way R583 does not mend, which every later ROM
phase finds again; `straps` are POS5 to POS0. -/
def romPhase (bad : Bool) (straps : Nat) (s : State) : State :=
  if phaseDue s 0 [] ∧ s.pow.refclkBad = false then
    let s := { s with mgmt := { s.mgmt with straps := straps % 64 } }
    let s := setHash s .secIdHash (Config.sha3 identityKey)
    let s := s.setFld .secStatus F.secStatus_CERT_VALID (if s.sec.certIdent = fusedIdent s then 1 else 0)
    let s := setReady (loadCal (loadCal s 3) 2) 0 true
    let s := if s.pow.kept then s else drivePins s 1 0
    let s := completePair (startFcu { s with pow := { s.pow with kept := false } })
    let s := if bad ∨ s.sec.fuseBad then { s with sec := { s.sec with fuseBad := true } }.raise (secReport .fuseBad 0) else s
    endPhase s 0
  else s

/-- ROM_PHASE (R570). -/
def execRomPhase (bad : Bool) (straps : Nat) (s : State) : Res := .next (romPhase bad straps s)

/-! ### Images (R588 to R590) -/

/-- Bytes of the flash image region: the flash holds them complemented. -/
def flashBytes (s : State) (a n : Nat) : List Byte := (Mem.read s.sec.flash a n).map (fun b => ~~~b)

/-- Bytes of hub firmware memory. -/
def firmwareBytes (s : State) (a n : Nat) : List Byte := Mem.read s.sec.firmware a n

/-- The fields of an image header (R588), from a reader of its bytes. -/
structure ImageHead where
  slot : Nat
  svn : Nat
  stepping : Nat
  len : Nat
  entry : Nat
  deriving DecidableEq, Repr

/-- The header that a reader shows. -/
def imageHead (rd : Nat → Nat → List Byte) : ImageHead :=
  { slot := ofLe (rd 5 1), svn := ofLe (rd 6 1), stepping := ofLe (rd 7 1), len := ofLe (rd 8 4), entry := ofLe (rd 12 4) }

/-- The digest of an image (R588). -/
def imageDigest (rd : Nat → Nat → List Byte) : Nat := Config.sha3 (rd 0 (4096 + (imageHead rd).len))

/-- The checks of R589 in their order: 0 where all pass, else REJECT_CAUSE. `total` is the TOTAL of a COMMIT. -/
def checkImage (s : State) (rd : Nat → Nat → List Byte) (total : Option Nat) : Nat :=
  let h := imageHead rd
  if rd 0 5 ≠ [0x49, 0x4D, 0x47, 0x38, 0x01] ∨ 64 < h.svn ∨ (rd 1328 2768).any (fun b => b != 0) then 1
  else if h.len = 0 ∨ 33547916 < h.len ∨ h.len ≤ h.entry ∨ total.any (fun t => t != 6516 + h.len) then 7
  else if 3 < h.slot ∨ Config.sha3 (rd 16 1312) ≠ Config.keyHash h.slot then 2
  else if s.fuses.revoked.contains h.slot then 3
  else if s.fuses.stepping < h.stepping then 6
  else if h.svn < s.fuses.rollback then 5
  else if Config.mldsaVerify (rd 16 1312) (imageDigest rd) (rd (4096 + h.len) 2420) = false then 4
  else 0

/-- The checks of the image phase (R590): a flash image whose update was begun and is not VALID fails (R594, R595), by a check
that no rule names (log entry 61). -/
def checkFlash (s : State) : Nat :=
  let c := checkImage s (flashBytes s) none
  if c = 0 ∧ s.sec.torn then Config.freeNat s.fresh % 7 + 1 else c

/-- An image is rejected (R589). -/
def rejectImage (s : State) (cause : Nat) : State :=
  (s.setFld .secStatus F.secStatus_REJECT_CAUSE cause).raise
    (secReport (if cause = 5 then .rollbackRejected else .imageRejected) cause)

/-- A verified image starts (R590, R591): from flash 01, received 10. -/
def startImage (s : State) (src : Nat) (rd : Nat → Nat → List Byte) : State :=
  let h := imageHead rd
  let s := (s.setFld .secStatus F.secStatus_BOOT_SRC src).setFld .secStatus F.secStatus_KEY_SLOT h.slot
  setReady (setHash (s.setFld .secStatus F.secStatus_IMAGE_SVN h.svn) .secImageDigest (imageDigest rd)) 1 true

/-- IMAGE_PHASE (R590): the flash image is checked, copied and started, or recovery begins. -/
def imagePhase (s : State) : State :=
  if phaseDue s 1 [0] ∧ s.sec.fuseBad = false then
    let cause := checkFlash s
    let s := s.burn 1
    if cause = 0 then
      let n := 6516 + (imageHead (flashBytes s)).len
      let s := startImage s 1 (flashBytes s)
      endPhase { s with sec := { s.sec with firmware := Mem.write [] 0 (flashBytes s 0 n) } } 1
    else
      let s := rejectImage s cause
      endPhase { s with sec := { s.sec with recovery := true, cause := cause, firmware := [], written := [] } } 1
  else s

/-- IMAGE_PHASE (R590). -/
def execImagePhase (s : State) : Res := .next (imagePhase s)

/-! ### IMAGE messages (R591 to R595) -/

/-- The body of IMAGE_REQ (R593). -/
def imageReqBody (s : State) : List Byte :=
  leBytes 1 s.sec.cause ++ leBytes 1 (Config.romRev 0) ++ leBytes 1 s.fuses.rollback ++ leBytes 1 0
    ++ leBytes 4 (s.reg (.secIdHash 0)).toNat ++ leBytes 4 (identity s).toNat ++ leBytes 4 0

/-- IMAGE_REQ (R591): sent in recovery when a session begins, after a rejected COMMIT, and every 1 s until image data
arrives. -/
def imageReq (s : State) : State :=
  if s.sec.recovery ∧ linkState s = 3 ∧ (s.sec.reqDue ∨ (s.sec.reqRepeat ∧ s.sec.reqAt + 1000000000 ≤ s.now)) then
    sendUp { s with sec := { s.sec with reqDue := false, reqRepeat := true, reqAt := s.now } } 0x8A 0 (imageReqBody s)
  else s

/-- IMAGE_REQ (R591). -/
def execImageReq (s : State) : Res := .next (imageReq s)

/-- STATE of the flash update (R611): 0 IDLE, 1 WRITING, 2 VERIFYING, 3 VALID, 4 INVALID. -/
def updState (s : State) : Nat := s.fld .secUpdStatus F.secUpdStatus_STATE

/-- A stretch of the image overlaps one that has been written (R592). -/
def overlapsWritten (s : State) (off n : Nat) : Bool := s.sec.written.any (fun w => decide (off < w.1 + w.2 ∧ w.1 < off + n))

/-- Sectors that n bytes from an offset touch, erased where the update has not erased them (R587, R594). -/
def eraseSectors (s : State) (off n : Nat) : State :=
  (List.range ((off + n + 65535) / 65536 - off / 65536)).foldl (fun s i =>
    let k := off / 65536 + i
    if s.sec.erased.contains k then s
    else { s with sec := { s.sec with erased := s.sec.erased ++ [k], flash := Mem.clear s.sec.flash (k * 65536) ((k + 1) * 65536) } }) s

/-- IMAGE DATA (R591, R592, R594). -/
def imageData (off : Nat) (data : List Byte) (s : State) : State :=
  let n := data.length
  let s := { s with sec := { s.sec with reqRepeat := false, reqDue := false } }
  let fresh := s.sec.recovery = false ∧ (updState s = 0 ∨ updState s = 3 ∨ updState s = 4)
  let written := if fresh then { s with sec := { s.sec with written := [], erased := [], torn := true } } else s
  if s.sec.verifying.isSome ∨ 33554432 < off + n ∨ overlapsWritten written off n then
    (s.setFld .secUpdStatus F.secUpdStatus_CAUSE 8).raise (Report.plain .loadRejected 2 0 .sec 0)
  else
    let s := if fresh then (written.setFld .secUpdStatus F.secUpdStatus_STATE 1).setFld .secUpdStatus F.secUpdStatus_BYTES 0 else s
    let s := s.setFld .secUpdStatus F.secUpdStatus_BYTES (s.fld .secUpdStatus F.secUpdStatus_BYTES + n)
    let s := { s with sec := { s.sec with written := s.sec.written ++ [(off, n)] } }
    if s.sec.recovery then { s with sec := { s.sec with firmware := Mem.write s.sec.firmware off data } }
    else
      let s := eraseSectors s off n
      { s with sec := { s.sec with flash := Mem.write s.sec.flash off (data.map (fun b => ~~~b)) } }

/-- IMAGE_DATA (R592). -/
def execImageData (h : MsgHead) (off : Nat) (data : List Byte) (s : State) : Res := .next (onMessage (.imageData · off data) h [1] (imageData off data) s)

/-- IMAGE COMMIT (R591, R594, R595). -/
def imageCommit (total : Nat) (s : State) : State :=
  if s.sec.verifying.isSome then s.setFld .secUpdStatus F.secUpdStatus_CAUSE 8
  else
    let s := if s.sec.recovery then s else s.setFld .secUpdStatus F.secUpdStatus_STATE 2
    { s with sec := { s.sec with verifying := some total, written := [] } }

/-- IMAGE_COMMIT (R594). -/
def execImageCommit (h : MsgHead) (total : Nat) (s : State) : Res := .next (onMessage (.imageCommit · total) h [1] (imageCommit total) s)

/-- IMAGE_VERIFY_DONE (R591, R594): the recovery image runs, or the flash update is VALID or INVALID. Recovery has done
the work of the CTRL phase. -/
def verifyDone (s : State) : State :=
  match s.sec.verifying with
  | none => s
  | some total =>
    let s := { s with sec := { s.sec with verifying := none } }
    if s.sec.recovery then
      let cause := checkImage s (firmwareBytes s) (some total)
      if cause = 0 then
        endPhase { startImage s 2 (firmwareBytes s) with sec := { s.sec with recovery := false, reqDue := false, reqRepeat := false } } 2
      else
        let s := rejectImage s cause
        { s with sec := { s.sec with reqDue := true } }
    else
      let cause := checkImage s (flashBytes s) (some total)
      if cause = 0 then { s.setFld .secUpdStatus F.secUpdStatus_STATE 3 with sec := { s.sec with torn := false } }
      else rejectImage ((s.setFld .secUpdStatus F.secUpdStatus_STATE 4).setFld .secUpdStatus F.secUpdStatus_CAUSE cause) cause

/-- IMAGE_VERIFY_DONE (R594). -/
def execImageVerifyDone (s : State) : Res := .next (verifyDone s)

/-- IMAGE ABORT (R592, R594). -/
def imageAbort (s : State) : State :=
  { s.setFld .secUpdStatus F.secUpdStatus_STATE 0 with sec := { s.sec with written := [], verifying := none } }

/-- IMAGE_ABORT (R594). -/
def execImageAbort (h : MsgHead) (s : State) : Res := .next (onMessage .imageAbort h [1] imageAbort s)

/-! ### Fuses (R596 to R598) -/

/-- A write of SEC.FUSE_CMD (R596, R597, R598, R610); none is a rejection. -/
def writeFuseCmd (s : State) (op arg : Nat) : Option State :=
  let runs := s.readyBit 1
  let slot := s.fld .secStatus F.secStatus_KEY_SLOT
  let start (o : FuseOp) : Option State := some { s with sec := { s.sec with blow := some o, blowAt := s.now } }
  if s.sec.blow.isSome then none
  else if op = 1 then
    if arg ≤ s.fuses.rollback ∨ 64 < arg ∨ s.fld .secStatus F.secStatus_IMAGE_SVN < arg ∨ runs = false then none
    else start (.advance arg)
  else if op = 2 then
    if 3 < arg ∨ s.fuses.revoked.contains arg ∨ (runs ∧ arg = slot)
        ∨ (List.range 4).all (fun k => k == arg || s.fuses.revoked.contains k) then none
    else start (.revoke arg)
  else none

/-- FUSE_BLOW_DONE (R596, R597): 1 ms per step has passed. -/
def blowDone (s : State) : State :=
  match s.sec.blow with
  | some (.advance t) =>
    if s.sec.blowAt + (t - s.fuses.rollback) * 1000000 ≤ s.now then
      { s with fuses := { s.fuses with rollback := t }, sec := { s.sec with blow := none } }
    else s
  | some (.revoke k) =>
    if s.sec.blowAt + 1000000 ≤ s.now then
      { s with fuses := { s.fuses with revoked := s.fuses.revoked ++ [k] }, sec := { s.sec with blow := none } }
    else s
  | none => s

/-- FUSE_BLOW_DONE (R596). -/
def execFuseBlowDone (s : State) : Res := .next (blowDone s)

/-! ### Attestation (R599, R600) -/

/-- A write of SEC.ATT_CMD.GO (R599); none is a rejection. -/
def writeAttGo (s : State) : Option State :=
  if s.fld .secStatus F.secStatus_ATT_BUSY = 1 ∨ s.readyBit 1 = false then none
  else some (s.setFld .secStatus F.secStatus_ATT_BUSY 1)

/-- The bytes of a configuration record from HDR to CCHK (R603). -/
def recBytes (s : State) (r : ConfRec) : List Byte :=
  let hdr := (if r.cal then 1 else 2) * 2 ^ 56 + r.key % 65536 * 2 ^ 40 + r.payload.length % 2 ^ 24 * 65536 + 0x5243
  let owner := bitsOf (s.reg (.secIdHash 0)) 31 0 * 2 ^ 32 + s.fuses.stepping % 256 * 256
  let pad := (r.payload.length + 7) / 8 * 8 - r.payload.length
  let body := leBytes 8 hdr ++ leBytes 8 (2 ^ 64 - 1 - hdr) ++ leBytes 8 owner ++ leBytes 8 (2 ^ 64 - 1 - owner)
    ++ r.payload ++ List.replicate pad 0
  let c := crc32c body
  body ++ leBytes 4 c ++ leBytes 4 (not32 c)

/-- The signed bytes 0 to 3,903 of an attestation report (R600). -/
def attestBody (s : State) : List Byte :=
  let flags := s.fld .secStatus F.secStatus_CERT_VALID + (if s.fld .secStatus F.secStatus_BOOT_SRC = 2 then 2 else 0)
    + (if s.sec.unlocked then 4 else 0) + (if s.fld .ptcCalStatus F.ptcCalStatus_UNCAL ≠ 0 then 8 else 0)
  [0x41, 0x54, 0x54, 0x31, 0x01] ++ leBytes 1 flags ++ leBytes 2 0 ++ leBytes 4 6324 ++ leBytes 4 (identity s).toNat
    ++ hashBytes s .secNonce ++ hashBytes s .secIdHash ++ hashBytes s .secImageDigest
    ++ leBytes 1 (s.fld .secStatus F.secStatus_IMAGE_SVN) ++ leBytes 1 s.fuses.rollback
    ++ leBytes 1 (s.fld .secStatus F.secStatus_KEY_SLOT) ++ leBytes 1 (bitsOf (secStatus s) 59 56)
    ++ leBytes 4 (bitsOf (s.reg .ptcReady) 31 0) ++ leBytes 8 s.now
    ++ leBytes 32 (Config.sha3 ((s.sec.recs.filter (fun r => r.live)).flatMap (recBytes s)))
    ++ identityKey
    ++ (if s.fld .secStatus F.secStatus_CERT_VALID = 1 then certificate s else List.replicate 2428 0)
    ++ leBytes 4 0

/-- ATTEST (R599, R600): the report is signed and sent. -/
def attest (s : State) : State :=
  if s.fld .secStatus F.secStatus_ATT_BUSY = 1 ∧ linkState s = 3 then
    let body := attestBody s
    let sig := (List.range 2420).map (Config.signByte (Config.sha3 body) (Config.freeNat s.fresh))
    let s := sendUp (s.burn 1) 0x89 0 (body ++ sig)
    (s.setFld .secStatus F.secStatus_ATT_BUSY 0).setFld .secStatus F.secStatus_ATTESTED 1
  else s

/-- ATTEST (R600). -/
def execAttest (s : State) : Res := .next (attest s)

/-! ### Repair records and reclaims (R605 to R607) -/

/-- REPAIR_RECORD_WRITE (R605, R606): the oldest repair not yet recorded. -/
def repairRecord (s : State) : State :=
  match s.sec.repairDue with
  | [] => s
  | (d, bank, row) :: rest =>
    let s := { s with sec := { s.sec with repairDue := rest } }
    let r : ConfRec := { cal := false, key := keyOfRepair d bank, payload := leBytes 8 (row % 1024), live := true, user := false }
    if s.sec.recs.any (fun e => !e.cal && e.live && e.key == r.key && e.payload == r.payload) then s
    else if bankFree s < r.size then
      (s.addFld .secRecStatus F.secRecStatus_DROPPED 1).raise (secReport .writeRejected 0)
    else { s with sec := { s.sec with recs := s.sec.recs ++ [r] } }

/-- REPAIR_RECORD_WRITE (R606). -/
def execRepairRecordWrite (s : State) : Res := .next (repairRecord s)

/-- A reclaim begins (R607). -/
def startReclaim (s : State) : State := { s with sec := { s.sec with reclaiming := true } }

/-- The records that a reclaim copies: every live record, of several calibration records of one function the last
(R605, R607). -/
def reclaimed : List ConfRec → List ConfRec
  | [] => []
  | r :: rs =>
    if r.live && !(r.cal && rs.any (fun e => e.cal && e.live && e.key == r.key)) then r :: reclaimed rs else reclaimed rs

/-- RECLAIM_COMPLETE (R607): the other bank holds the live records and is the active one. -/
def reclaimDone (s : State) : State :=
  if s.sec.reclaiming then
    { s with sec := { s.sec with reclaiming := false, recs := reclaimed s.sec.recs, gen := s.sec.gen + 1 } }
  else s

/-- RECLAIM_COMPLETE (R607). -/
def execReclaimComplete (s : State) : Res := .next (reclaimDone s)

end Sys2Proof.Machine
end

