-- ==== Sys2Proof/Machine/RegWrite.lean ====
section
/-! DEFINITION. Register accesses (chapters 11 and 15): field rules, views and levels (R18, R498, R499), the write rules
of single registers, the address checks of R498, READY (R571), and accesses that wait for a block reset (R518, R617). -/

namespace Sys2Proof.Machine

/-! ### Field rules (R18, R498, R499) -/

/-- The bits of a register's write-only fields. -/
def woMask (r : Reg) : Word := r.fields.foldl (fun m f => if f.access = .wo then m ||| maskOf f.hi f.lo else m) 0

/-- A register's word as a write of v in a view makes it (R18, R498): read-only, hidden and reserved bits keep their
value, writable fields take the written one, and a 1 clears a W1C field. -/
def mergeWord (r : Reg) (old v : Word) (priv : Bool) : Word :=
  r.fields.foldl (fun w f =>
    if priv ∨ f.view = .u then
      match f.access with
      | .ro => w
      | .rw | .wo => putBits w f.hi f.lo (bitsOf v f.hi f.lo)
      | .w1c => w &&& ~~~(v &&& maskOf f.hi f.lo)
    else w) old

/-- Whether a write would change an expert field (R499): one that differs, or a write-only one that is not 0. -/
def expertChange (r : Reg) (old new : Word) : Bool :=
  r.fields.any (fun f => f.level == .expert && bitsOf new f.hi f.lo != (if f.access = .wo then 0 else bitsOf old f.hi f.lo))

/-- Whether a register has a field of view U (R498). -/
def Reg.hasU (r : Reg) : Bool := r.fields.any (fun f => f.view == .u)

/-- The CTRL register with the EXPERT_UNLOCK field that a register's expert fields belong to (R499); MOD has none. -/
def Reg.unlock (r : Reg) : Option Reg :=
  let d : Die := r.die.getD 0
  match r.block with
  | .mod => none
  | .eng => some (.engCtrl d) | .scv => some (.scvCtrl d) | .wst => some (.wstCtrl d) | .ast => some (.astCtrl d)
  | .pst => some (.pstCtrl d) | .fdx => some (.fdxCtrl d) | .dma => some (.dmaCtrl d) | .sync => some (.syncCtrl d)
  | .circ => some .circCtrl | .hbm => some (.hbmCtrl d) | .lpd => some .lpdCtrl | .mld => some .mldCtrl
  | .fcu => some .fcuCtrl | .ptc => some .ptcCtrl | .sec => some .secCtrl

/-- EXPERT_UNLOCK of a register's block (R499). -/
def unlockedFor (s : State) (r : Reg) : Bool :=
  match r.unlock with
  | some u => bitsOf (s.reg u) 0 0 == 1
  | none => false

/-! ### READY (R571) -/

/-- The READY bit that a block of a die needs (R569, R571). No rule names the function of CIRC and MLD (log entry 62). -/
def Block.ready (b : Block) (d : Die) : Nat :=
  match b with
  | .eng | .scv | .wst | .ast | .pst | .fdx | .dma | .sync => 7 + d.val
  | .hbm => 5 + d.val
  | .lpd => 4
  | .circ => 1
  | .mld => 3
  | .mod | .fcu | .ptc | .sec => 0

/-- Whether a register's block may be accessed: its READY bit is set (R571), and in recovery only MOD, FCU, PTC and SEC
may be (R591). -/
def regReady (s : State) (r : Reg) : Bool :=
  s.readyBit (r.block.ready (r.die.getD 0))
    && (!s.sec.recovery || r.block == .mod || r.block == .fcu || r.block == .ptc || r.block == .sec)

/-! ### Write rules of single registers -/

/-- A register stored with its write-only fields left out. -/
def store (s : State) (r : Reg) (v : Word) : State := s.setReg r (v &&& ~~~(woMask r))

/-- Every core of a die has its issue queue empty. -/
def queuesEmpty (s : State) : Bool :=
  (List.finRange 2).all (fun d => (List.finRange 32).all (fun q => (s.core d q).issueQ.isEmpty))

/-- A write of ENG.GRADE_MASK (R140, R147). -/
def writeGrade (s : State) (v : Word) : Option State :=
  let g := bitsOf v 3 0
  if 1 ≤ g ∧ g ≤ 3 ∧ gradeEngines g ≤ gradeEngines s.fuses.grade ∧ s.fld .circRingConf F.circRingConf_ENABLE = 0
      ∧ queuesEmpty s = true then some (store s .engGradeMask v)
  else none

/-- ENG.CTRL (R143, R145): CLR_COUNTS clears every engine counter of the die. -/
def writeEngCtrl (s : State) (d : Die) (v : Word) : State :=
  let s := if bitsOf v 1 1 = 1 then
      (List.finRange 32).foldl (fun s q =>
        (((s.setReg (.engFreezeDry d q) 0).setReg (.engFreezeTile d q) 0).setReg (.engFreezeDrain d q) 0).setReg (.engRetired d q) 0) s
    else s
  store s (.engCtrl d) v

/-- SCV.CORE_CTRL (R148): QLIMIT is 1 to 8 and changes only while QDEPTH is 0 (log entry 30). -/
def writeCoreCtrl (s : State) (d : Die) (q : CoreId) (v : Word) : Option State :=
  let n := bitsOf v 7 4
  if n ≠ s.fld (.scvCoreCtrl d q) F.scvCoreCtrl_QLIMIT ∧ (n = 0 ∨ 8 < n ∨ (s.core d q).issueQ ≠ []) then none
  else some (store s (.scvCoreCtrl d q) v)

/-- SCV.CTRL (R149, R340). -/
def writeScvCtrl (s : State) (d : Die) (v : Word) : State :=
  let s := if bitsOf v 1 1 = 1 then
      let s := (List.finRange 32).foldl (fun s q => s.setReg (.scvIssueStall d q) 0) s
      (s.setFld (.scvStepStatus d) F.scvStepStatus_LATE 0).setFld (.scvStepStatus d) F.scvStepStatus_MISUSE 0
    else s
  store s (.scvCtrl d) v

/-- CTRL of a store block (R240, R244): CLEAR needs a quiet die. -/
def writeStoreBlockCtrl (s : State) (d : Die) (st : Store) (v : Word) : Option State :=
  let clear := st = .wst ∧ bitsOf v 2 2 = 1
  if clear ∧ s.quiet d = false then none
  else
    let r : Reg := match st with | .wst => .wstCtrl d | .ast => .astCtrl d | .pst => .pstCtrl d
    let s := store s r v
    let s := if bitsOf v 1 1 = 1 then clearStoreCounts d st s else s
    some (if clear then startClear d s else s)

/-- WST.STORE_CTRL (R208, R243): INVAR and NPOLICY change only on a quiet die. -/
def writeStoreCtrl (s : State) (d : Die) (v : Word) : Option State :=
  if bitsOf v 1 0 ≠ bitsOf (s.reg (.wstStoreCtrl d)) 1 0 ∧ s.quiet d = false then none
  else some (store s (.wstStoreCtrl d) v)

/-- REPAIR_SEL of a store block (R246). -/
def writeRepairSel (s : State) (r : Reg) (st : Store) (v : Word) : Option State :=
  if (storeBanks st).1 ≤ bitsOf v 23 16 ∨ (storeBanks st).2 ≤ bitsOf v 9 4 then none else some (store s r v)

/-- Rows of a bank of a store unit (R194). -/
def bankRows (st : Store) (bank : Nat) : Nat :=
  match st with
  | .wst => 768
  | .ast => if bank < 24 then 256 else if bank < 32 then 192 else 64
  | .pst => 128

/-- REPAIR_ENTRY of a store block (R238, R246): VALID = 1 to a free entry forces a repair; VALID may not be cleared; ROW of an
entry that stays free is stored. An entry with a forced repair in progress is no longer free (log entry 30). -/
def writeRepairEntry (s : State) (d : Die) (st : Store) (v : Word) : Option State :=
  let k := repairSel s d st
  let e := s.repair d k.1 k.2
  let x := s.die d
  if bitsOf v 15 15 = 0 then
    if e.valid then none else some { s with repairs := s.repairs.put (d, k.1, k.2) { e with row := bitsOf v 9 0 } }
  else if e.valid ∨ e.bad ∨ bankRows st (k.1 % 1000 % 40) ≤ bitsOf v 9 0 ∨ x.bist.forced.any (fun f => f.key = k.1 ∧ f.entry = k.2) then none
  else some (s.setDie d { x with bist := { x.bist with forced := x.bist.forced ++ [⟨k.1, k.2, bitsOf v 9 0, false⟩] } })

/-- FDX.CTRL (R188, R189, R294). -/
def writeFdxCtrl (s : State) (d : Die) (v : Word) : State :=
  let s := if bitsOf v 1 1 = 1 then
      let s := (List.finRange 32).foldl (fun s q =>
        (((s.setReg (.fdxPortHold d q) 0).setReg (.fdxFeedStall d q) 0).setReg (.fdxExpBlocks d q) 0).setReg (.fdxExpBehind d q) 0) s
      (s.setReg (.fdxLowratio d) 0).setReg (.fdxMcastWait d) 0
    else s
  store s (.fdxCtrl d) v

/-- The 256 code lengths of a table: 16 of 4 bits in each word, the lowest symbol in the low bits (R191). -/
def tableLens (s : State) (d : Die) (t : Fin 16) : List Nat :=
  (List.range 256).map (fun i => bitsOf (s.reg (.fdxEpcLen d t ⟨i / 16 % 16, Nat.mod_lt _ (by decide)⟩)) (4 * (i % 16) + 3) (4 * (i % 16)))

/-- Whether a table may become valid (R193): a listed WIDTH, no length at a symbol of 2^WIDTH or above, some length, and
the sum of 2^(-length) at most 1. -/
def tableValid (lens : List Nat) (width : Nat) : Bool :=
  (width == 4 || width == 5 || width == 8)
    && (lens.drop (2 ^ width)).all (fun n => n == 0) && lens.any (fun n => n != 0)
    && decide ((lens.map (fun n => if n = 0 then 0 else 2 ^ (15 - n))).sum ≤ 2 ^ 15)

/-- FDX.EPC_TAG_t (R193). -/
def writeEpcTag (s : State) (d : Die) (t : Fin 16) (v : Word) : Option State :=
  let old := s.reg (.fdxEpcTag d t)
  if bitsOf v 31 31 = 0 then some (store s (.fdxEpcTag d t) v)
  else if bitsOf old 31 31 = 1 then (if bitsOf v 19 0 = bitsOf old 19 0 then some s else none)
  else if tableValid (tableLens s d t) (bitsOf v 19 16) then some (store s (.fdxEpcTag d t) v) else none

/-- DMA.CTRL (R298). -/
def writeDmaCtrl (s : State) (d : Die) (v : Word) : State :=
  let s := if bitsOf v 1 1 = 1 then
      ((List.finRange 8).foldl (fun s c => s.setReg (.dmaDoneCount d c) 0) s).setFld (.dmaTxnStatus d) F.dmaTxnStatus_WAITS 0
    else s
  store s (.dmaCtrl d) v

/-- The reserves of a die's tracker as they stand (R290). -/
def reserved (s : State) (d : Die) : Nat :=
  ((List.finRange 8).map (fun c => s.fld (.dmaTxnRes d c) F.dmaTxnRes_COUNT)).sum + s.fld (.dmaTxnCore d) F.dmaTxnCore_COUNT

/-- A write of TXN_RES or TXN_CORE (R290): the die is quiet, and the reserves do not exceed 8,192. -/
def writeReserve (s : State) (d : Die) (r : Reg) (v : Word) : Option State :=
  let t := store s r v
  if s.quiet d = true ∧ reserved t d ≤ 8192 then some t else none

/-- SYNC.CTR_n (R343, R379): the value only rises, through an update; SAT and UNDER are cleared by a 1. -/
def writeCtr (s : State) (d : Die) (n : Fin 8192) (v : Word) : Option State :=
  let old := s.reg (.syncCtr d n)
  if 8128 ≤ n.val ∨ bitsOf v 47 0 < bitsOf old 47 0 then none
  else some (ctrAdd (s.setReg (.syncCtr d n) (putBits v 47 0 (bitsOf old 47 0))) d n.val (bitsOf v 47 0 - bitsOf old 47 0))

/-- SYNC.CTRL (R379, R383, R384). -/
def writeSyncCtrl (s : State) (d : Die) (v : Word) : Option State :=
  if bitsOf v 2 2 = 1 ∧ s.quiet d = false then none
  else
    let s := store s (.syncCtrl d) v
    let s := if bitsOf v 1 1 = 1 then
        (s.setFld (.syncStatus d) F.syncStatus_MISUSE 0).setFld (.syncStatus d) F.syncStatus_UNDER 0 else s
    some (if bitsOf v 2 2 = 1 then syncClear s d else s)

/-- SYNC.XL_ENTRY (R350): VID 0 has no entry, and the slot is STOPPED or EMPTY. -/
def writeXl (s : State) (d : Die) (v : Word) : Option State :=
  let k := xlSel s d
  let c := s.ctx d k.1 k.2.1
  if k.2.2 = 0 ∨ (c.st ≠ .stopped ∧ c.st ≠ .empty) then none
  else some (s.setCtx d k.1 k.2.1 { c with xl := c.xl.put k.2.2 (bitsOf v 15 0) })

/-- SYNC.BAR_b_A (R368). -/
def writeBarMask (s : State) (r : Reg) (b : Fin 64) (d : Die) (v : Word) : Option State :=
  if barState s d b = 1 ∨ barState s d b = 2 then none else some (store s r v)

/-- SYNC.BAR_b_B (R368, R376, R387): DISARM goes before the other bits of the same write. -/
def writeBarB (s : State) (d : Die) (b : Fin 64) (v : Word) : Option State :=
  let st := barState s d b
  let force := bitsOf v 51 51 = 1
  let arm := bitsOf v 49 49 = 1
  if bitsOf v 50 50 = 1 then some (disarmObject s d b)
  else if force ∧ st ≠ 3 then none
  else if arm ∧ (st = 1 ∨ st = 2 ∨ armOk s d (s.reg (barA d b)) v = false) then none
  else if !force ∧ !arm ∧ (st = 1 ∨ st = 2) then none
  else
    let s := store s (barB d b) v
    let s := if force then ctrAdd s d (8064 + b.val) 1 else s
    some (if arm then armObject s d b (v &&& ~~~(woMask (barB d b))) else s)

/-- CIRC.PORT_CTRL (R409, R436). -/
def writePortCtrl (s : State) (p : Port) (v : Word) : State :=
  let s := store s (.circPortCtrl p) v
  if bitsOf v 0 0 = 0 then portDown s p else s

/-- LANE_n_p_B.FORCE_SUB (R411, R438). -/
def forceSub (s : State) (p : Port) (l : Nat) (v : Word) : Option State :=
  if bitsOf v 0 0 = 0 then some s
  else if laneState s p l = 2 then some (startSubst s p (s.fld (laneA p l) F.circLaneA_LOGICAL) false) else none

/-- HBM.CTRL of a die (R467). -/
def writeHbmCtrl (s : State) (d : Die) (v : Word) : State :=
  let s := if bitsOf v 1 1 = 1 then (List.finRange 4).foldl (fun s i => s.setReg (.hbmStackErr d i) 0) s else s
  store s (.hbmCtrl d) v

/-- LPD.CTRL (R467). -/
def writeLpdCtrl (s : State) (v : Word) : State :=
  let s := if bitsOf v 1 1 = 1 then
      (List.finRange 16).foldl (fun s k => s.setReg (.lpdChStatus k) (putBits (s.reg (.lpdChStatus k)) 47 0 0)) s
    else s
  store s .lpdCtrl v

/-- RETRAIN_CTRL (R468). -/
def writeRetrain (s : State) (r : Reg) (v : Word) : Option State :=
  if bitsOf v 31 16 < 100 ∨ 10000 < bitsOf v 31 16 ∨ bitsOf v 7 0 < 16 then none else some (store s r v)

/-- The staging range (R462). -/
def stageRange (s : State) : Nat × Nat :=
  let b := s.fld .circReinjCtrl F.circReinjCtrl_STAGE_BASE
  (b, b + s.fld .circReinjCtrl F.circReinjCtrl_STAGE_MIB * 1048576)

/-- BACK, OPT, PARK and the staging range lie in the LPDDR5X tier, and no two of them overlap (R462). -/
def regionsFit (s : State) : Bool :=
  let rs := [lpdRegion s .lpdBack, lpdRegion s .lpdOpt, lpdRegion s .lpdPark, stageRange s]
  rs.all (fun r => decide (0x8000000000 ≤ r.1 ∧ r.2 ≤ 0xC000000000))
    && rs.zipIdx.all (fun x => rs.zipIdx.all (fun y =>
        decide (y.2 ≤ x.2) || decide (x.1.1 = x.1.2) || decide (y.1.1 = y.1.2) || decide (x.1.2 ≤ y.1.1) || decide (y.1.2 ≤ x.1.1)))

/-- LPD.BACK, OPT and PARK (R462). -/
def writeRegion (s : State) (r : Reg) (v : Word) : Option State :=
  if r = .lpdBack ∧ s.fld .circRingConf F.circRingConf_ENABLE = 1 then none
  else if regionsFit (store s r v) then some (store s r v) else none

/-- CIRC.REINJ_CTRL (R442, R462); STAGE_MIB is 256 to 4,096 and TIMEOUT_MS at least 1 (log entry 30). -/
def writeStaging (s : State) (v : Word) : Option State :=
  if bitsOf v 63 48 < 256 ∨ 4096 < bitsOf v 63 48 ∨ bitsOf v 47 40 = 0 ∨ regionsFit (store s .circReinjCtrl v) = false then none
  else writeReinjCtrl v s

/-- MLD.CTRL (R502). -/
def writeMldCtrl (s : State) (v : Word) : State :=
  let s := if bitsOf v 1 1 = 1 then
      ((s.setReg .mldSvcCounts 0).setFld .mldLinkStatus F.mldLinkStatus_RETRIES 0).setFld .mldLinkStatus F.mldLinkStatus_STALE 0
    else s
  store s .mldCtrl v

/-- MLD.LINK_CTRL (R476, R503): ENABLE 0 takes the link DOWN. -/
def writeMldLink (s : State) (v : Word) : Option State :=
  if bitsOf v 63 48 < 500 ∨ bitsOf v 47 40 = 0 then none
  else
    let s := store s .mldLinkCtrl v
    some (if bitsOf v 0 0 = 0 then (loseLink s 0).setFld .mldLinkStatus F.mldLinkStatus_STATE 0 else s)

/-- MLD.SVC_CTRL (R504); KV_RESERVE_MIB is at most 4,096 (log entry 30). -/
def writeSvcCtrl (s : State) (v : Word) : Option State :=
  let old := s.reg .mldSvcCtrl
  if (bitsOf v 63 48 ≠ bitsOf old 63 48 ∨ bitsOf v 40 32 ≠ bitsOf old 40 32) ∧ s.mld.seqs.any (fun q => q.st != .queued) then none
  else if bitsOf v 24 18 = 0 ∨ 64 < bitsOf v 24 18 ∨ bitsOf v 40 32 = 0 ∨ 256 < bitsOf v 40 32 ∨ bitsOf v 17 1 = 0
      ∨ 4096 < bitsOf v 63 48 then none
  else some (store s .mldSvcCtrl v)

/-- PTC.CTRL (R574). -/
def writePtcCtrl (s : State) (v : Word) : State :=
  let s := if bitsOf v 1 1 = 1 then
      (((s.setFld .ptcCap F.ptcCap_EVENTS 0).setFld .ptcInput F.ptcInput_PEAK_W 0).setFld .ptcCalStatus F.ptcCalStatus_RATE_MISS 0).setFld
        .ptcCalStatus F.ptcCalStatus_FLOOR_MISS 0
    else s
  store s .ptcCtrl v

/-- A register's own rule and effect for a merged word; none is a rejection with no change. A register with no rule of
its own takes the word. -/
def ownWrite (s : State) (r : Reg) (v : Word) : Option State :=
  match r with
  | .engCtrl d => some (writeEngCtrl s d v)
  | .engGradeMask => writeGrade s v
  | .scvCoreCtrl d q => writeCoreCtrl s d q v
  | .scvCtx d q x => some (s.setCtx d q x { s.ctx d q x with prioNext := some (bitsOf v 5 4) })
  | .scvCtxCmd d q => ctxCommand d q v s
  | .scvCtrl d => some (writeScvCtrl s d v)
  | .scvSchedCtrl d =>
    if bitsOf v 8 0 < 100 ∨ 400 < bitsOf v 8 0 then none else some (judgeRate (store s (.scvSchedCtrl d) v) d)
  | .scvStepAbort d => abortStep d (bitsOf v 15 0) s
  | .wstStoreCtrl d => writeStoreCtrl s d v
  | .wstCtrl d => writeStoreBlockCtrl s d .wst v
  | .astCtrl d => writeStoreBlockCtrl s d .ast v
  | .pstCtrl d => writeStoreBlockCtrl s d .pst v
  | .wstBistCtrl _ => if bitsOf v 39 16 < 4096 then none else some (store s r v)
  | .wstRepairSel _ => writeRepairSel s r .wst v
  | .astRepairSel _ => writeRepairSel s r .ast v
  | .pstRepairSel _ => writeRepairSel s r .pst v
  | .wstRepairEntry d => writeRepairEntry s d .wst v
  | .astRepairEntry d => writeRepairEntry s d .ast v
  | .pstRepairEntry d => writeRepairEntry s d .pst v
  | .fdxCtrl d => some (writeFdxCtrl s d v)
  | .fdxMcastCtrl _ => if bitsOf v 31 0 = 0 then none else some (store s r v)
  | .fdxEpcTag d t => writeEpcTag s d t v
  | .fdxEpcLen d t _ => if s.fld (.fdxEpcTag d t) F.fdxEpcTag_VALID = 1 then none else some (store s r v)
  | .dmaPost d c => postPrivileged d c (bitsOf v 47 0) s
  | .dmaTxnRes d _ => writeReserve s d r v
  | .dmaTxnCore d => writeReserve s d r v
  | .dmaCtrl d => some (writeDmaCtrl s d v)
  | .dmaRwinA w => writeWindowA w v s
  | .dmaRwinB w => writeWindowB w v s
  | .dmaRimpA i => writeImportA i v s
  | .dmaRimpB i => writeImportB i v s
  | .syncCtr d n => writeCtr s d n v
  | .syncCtrl d => writeSyncCtrl s d v
  | .syncCrdMap d _ | .syncCrdFb d _ => if s.quiet d then some (store s r v) else none
  | .syncXlEntry d => writeXl s d v
  | .syncBarA d b => writeBarMask s r b d v
  | .syncBarB d b => writeBarB s d b v
  | .circRingConf => writeRingConf v s
  | .circWindow => writeWindow v s
  | .circArc => writeArc v s
  | .circPartE => writePart r 0 true v s
  | .circPartW => writePart r 1 true v s
  | .circPartSe => writePart r 2 false v s
  | .circPartSw => writePart r 3 false v s
  | .circCohort c => writeCohort c v s
  | .circPortCtrl p => some (writePortCtrl s p v)
  | .circLinkCtrl => if bitsOf v 63 48 < 500 then none else some (store s r v)
  | .circAdmit => writeAdmit v s
  | .circForm => writeForm v s
  | .circBypass => writeBypass v s
  | .circSplice => writeSplice v s
  | .circReinjCtrl => writeStaging s v
  | .circStreamLen => if s.fld .circRingConf F.circRingConf_ENABLE = 1 then none else some (store s r v)
  | .circOwn i => writeOwn i v s
  | .circLaneB p l => forceSub s p l.val v
  | .hbmCtrl d => some (writeHbmCtrl s d v)
  | .hbmRetrainCtrl _ => writeRetrain s r v
  | .hbmRetireCtrl _ => if bitsOf v 7 0 = 0 then none else some (store s r v)
  | .hbmStackCmd d i => writeStackCmd (4 * d.val + i.val) v s
  | .lpdCtrl => some (writeLpdCtrl s v)
  | .lpdRetrainCtrl => writeRetrain s r v
  | .lpdBack | .lpdOpt | .lpdPark => writeRegion s r v
  | .mldCtrl => some (writeMldCtrl s v)
  | .mldLinkCtrl => writeMldLink s v
  | .mldSvcCtrl => writeSvcCtrl s v
  | .fcuCtrl =>
    (writeFcuCtrl s (bitsOf v 47 32) (bitsOf v 2 2 == 1) (bitsOf v 1 1 == 1)).map (fun s =>
      s.setFld .fcuCtrl F.fcuCtrl_EXPERT_UNLOCK (bitsOf v 0 0))
  | .fcuAck => some (writeAck s (bitsOf v 63 55) (bitsOf v 31 0))
  | .fcuPin => writePin s (bitsOf v 0 0 == 1)
  | .fcuInject => writeInject s (bitsOf v 63 52) (bitsOf v 51 50) (bitsOf v 49 42) (bitsOf v 39 32) (bitsOf v 31 0)
  | .fcuReact src => if bitsOf v 2 0 < src.minLevel ∨ 6 ≤ bitsOf v 2 0 then none else some (store s r v)
  | .ptcCtrl => some (writePtcCtrl s v)
  | .ptcCap => if bitsOf v 47 38 < 500 ∨ 760 < bitsOf v 47 38 then none else some (store s r v)
  | .ptcDieV d => writeSetMv s d (bitsOf v 9 0)
  | .ptcThermCtrl => if bitsOf v 15 8 < 80 ∨ 95 < bitsOf v 15 8 then none else some (store s r v)
  | .ptcTbConf => some (writeTbConf v s)
  | .ptcTbSet => writeTbSet v s
  | .ptcCalCmd => writeCalCmd s (bitsOf v 63 62) (bitsOf v 51 48)
  | .secFuseCmd => writeFuseCmd s (bitsOf v 63 62) (bitsOf v 7 0)
  | .secAttCmd => if bitsOf v 0 0 = 1 then writeAttGo s else some s
  | .secRecCtrl => some (if bitsOf v 0 0 = 1 then startReclaim (store s r v) else store s r v)
  | _ => some (store s r v)

/-- The word a write merges into: the stored word, but for the registers whose writable fields other state holds. -/
def writeBase (s : State) (r : Reg) : Word :=
  match r with
  | .engGradeMask | .scvCtx _ _ _ | .wstRepairEntry _ | .astRepairEntry _ | .pstRepairEntry _ | .syncXlEntry _ => regValue s r
  | _ => s.reg r

/-! ### One access (R498 to R500, R614, R615) -/

/-- How an access ended: REG_RSP STATUS 00, 01, 10 and 11 (R498). -/
inductive AccessEnd where
  | done | rule | view | address
  deriving DecidableEq, Repr

/-- STATUS of REG_RSP (R498). -/
def AccessEnd.code : AccessEnd → Nat
  | .done => 0 | .rule => 1 | .view => 2 | .address => 3

/-- Whether a writer has the privileged view (R498). -/
def Writer.priv : Writer → Bool
  | .mgmt | .svc => true
  | .job | .target | .ctx _ _ _ => false

/-- A fault of a register access: a context is its originating context (R516). -/
def accessFault (s : State) (w : Writer) (src : Source) (b : Block) (die : Nat) (a : Nat) : State :=
  match w with
  | .ctx d q x => s.raise { Report.plain src d.val q.val b a with ctx := some ⟨d, q, x⟩ }
  | _ => s.raise (Report.plain src die 0 b a)

/-- The die that a report on a register names: 0 or 1, or 2 for the hub (R508). -/
def Reg.dieCode (r : Reg) : Nat := match r.die with | some d => if r.block.onDies then d.val else 2 | none => if r.block.onDies then 0 else 2

/-- The record of an EXPERT_UNLOCK that goes from 0 to 1 (R500): its TAG is the writer's SESSION, or 0 for the service
sequencer. -/
def unlockRecord (s : State) (w : Writer) (r : Reg) (before : Bool) : State :=
  if r.unlock = some r ∧ before = false ∧ bitsOf (s.reg r) 0 0 = 1 then
    let tag := match w with | .svc => 0 | _ => s.fld .mldLinkStatus F.mldLinkStatus_SESSION
    { s with sec := { s.sec with unlocked := true } }.raise
      { Report.plain .expertUnlock r.dieCode 0 r.block r.addr with tag := tag }
  else s

/-- A write of a register, its address found good (R18, R498 to R500). -/
def writeReg (s : State) (w : Writer) (r : Reg) (v : Word) : State × AccessEnd :=
  if regReady s r = false then (accessFault s w .windowViolation r.block r.dieCode r.addr, .address)
  else if w.priv = false ∧ r.hasU = false then (accessFault s w .view r.block r.dieCode r.addr, .view)
  else
    let old := writeBase s r &&& ~~~(woMask r)
    let new := mergeWord r old v w.priv
    if expertChange r old new ∧ unlockedFor s r = false then
      (accessFault s w .writeRejected r.block r.dieCode r.addr, .rule)
    else
      match ownWrite s r new with
      | none => (accessFault s w .writeRejected r.block r.dieCode r.addr, .rule)
      | some t => (unlockRecord t w r (unlockedFor s r), .done)

/-- The halves of PTC.READY disagree, so that the register itself has failed (R575). -/
def readyFailed (s : State) : Bool := bitsOf (s.reg .ptcReady) 63 32 + bitsOf (s.reg .ptcReady) 31 0 != 2 ^ 32 - 1

/-- A read of a register, its address found good. A read of a PTC.READY that has failed raises RECORD_BAD (R575). -/
def readRegBy (s : State) (w : Writer) (r : Reg) : State × AccessEnd × Word :=
  if regReady s r = false then (accessFault s w .windowViolation r.block r.dieCode r.addr, .address, 0)
  else if w.priv = false ∧ r.hasU = false then (accessFault s w .view r.block r.dieCode r.addr, .view, 0)
  else
    let t := if r = .ptcReady ∧ readyFailed s then s.raise (Report.plain .recordBad 2 0 .ptc r.addr) else s
    (t, .done, readReg s r w.priv)

/-- The register of an address, or the source that rejects the address with the block and die it names (R9, R498, R614,
R615). Where address bits 63:48 are set, or the address lies in no register block, the record names MOD on the hub (log entry
36). -/
def findReg (a : Word) : Except (Source × Block × Nat) Reg :=
  let n := a.toNat
  let inReg := 0xFE00000000 ≤ n ∧ n < 0xFF00000000
  let b := if inReg then (Block.ofNum ((n - 0xFE00000000) / 0x1000000)).getD .mod else .mod
  let die := if b.onDies then (n - 0xFE00000000) / 0x800000 % 2 else 2
  if bitsOf a 63 48 ≠ 0 then .error (.addressHigh, .mod, 2)
  else if n % 8 ≠ 0 then .error (.accessShape, b, die)
  else
    match Reg.ofAddr n with
    | none => .error (.windowViolation, b, die)
    | some r => .ok r

/-! ### Who asked, and accesses that wait (R498, R518, R617) -/

/-- The answer of a finished access: REG_RSP to its message while the session lasts, the scalar register of a load, a
rejected read returning 0, marked poisoned where its address was rejected (R10), or the transfer of the management target (R498, R614, R642). -/
def answerAccess (s : State) (h : HeldAccess) (e : AccessEnd) (v : Word) : State :=
  let s := match h.reply with
    | some (rtag, session) =>
      if s.fld .mldLinkStatus F.mldLinkStatus_SESSION = session then
        sendUp s 0x85 rtag (leBytes 8 (e.code * 2 ^ 62) ++ leBytes 8 v.toNat)
      else s
    | none => s
  match h.writer, h.rd with
  | .ctx d q x, some rd => s.setCtx d q x ((s.ctx d q x).wrMark rd v (e == .address))
  | .target, _ => { s with mgmt := { s.mgmt with acked := true, reply := BitVec.ofNat 8 e.code :: leBytes 8 v.toNat } }
  | _, _ => s

/-- The accesses that wait for a reset are kept in order. -/
def holdAccess (s : State) (h : HeldAccess) : State := { s with fcu := { s.fcu with waiting := s.fcu.waiting ++ [h] } }

/-- An access made at its register, with its answer. -/
def makeAccess (s : State) (h : HeldAccess) (r : Reg) : State :=
  match h.value with
  | some v => let x := writeReg s h.writer r v; answerAccess x.1 h x.2 0
  | none => let x := readRegBy s h.writer r; answerAccess x.1 h x.2.1 x.2.2

/-- Whether a register's block is in block reset (R518). -/
def inBlockReset (s : State) (r : Reg) : Bool := s.fcu.resets.any (fun e => e.1 == r.block && some e.2 == r.die)

/-- A register access from its address on (R498, R617); a module that is off takes none. -/
def regAccess (s : State) (h : HeldAccess) (a : Word) : State :=
  if s.pow.off then s
  else match findReg a with
  | .error (src, b, die) => answerAccess (accessFault s h.writer src b die (a.toNat % 2 ^ 48)) h .address 0
  | .ok r => if inBlockReset s r then holdAccess s h else makeAccess s h r

/-- A privileged write that answers nothing: the rows of the table that are writes of one register. -/
def privWrite (s : State) (r : Reg) (v : Word) : State :=
  let h : HeldAccess := { writer := .mgmt, addr := r.addr, value := some v, rd := none, reply := none }
  if s.pow.off then s else if inBlockReset s r then holdAccess s h else makeAccess s h r

/-- BLOCK_RESET_COMPLETE (R518): the block takes its reset, and the accesses that waited are made in order. -/
def resetComplete (b : Block) (d : Die) (s : State) : State :=
  if s.fcu.resets.contains (b, d) ∧ resetMayEnd s b d then
    let s := blockReset s b d
    let mine (h : HeldAccess) : Bool := match Reg.ofAddr h.addr with | some r => r.block == b && r.die == some d | none => false
    let due := s.fcu.waiting.filter mine
    let s := { s with fcu := { s.fcu with resets := s.fcu.resets.filter (fun e => e ≠ (b, d))
                                          waiting := s.fcu.waiting.filter (fun h => !mine h) } }
    due.foldl (fun s h => match Reg.ofAddr h.addr with | some r => makeAccess s h r | none => s) s
  else s

/-- BLOCK_RESET_COMPLETE (R518). -/
def execBlockResetComplete (b : Block) (d : Die) (s : State) : Res := .next (resetComplete b d s)

/-- REG_RD and REG_WR: role JOB makes view U, role MGMT the privileged view (R478, R498). -/
def regMessage (h : MsgHead) (a : Word) (v : Option Word) (s : State) : State :=
  onMessage (fun h => match v with | some w => .regWr h a w | none => .regRd h a) h [0, 1] (fun s =>
    regAccess s { writer := if h.role = 1 then .mgmt else .job, addr := a.toNat % 2 ^ 48, value := v, rd := none
                  reply := some (h.rtag, h.session) } a) s

/-- REG_RD (R498). -/
def execRegRd (h : MsgHead) (a : Word) (s : State) : Res := .next (regMessage h a none s)

/-- REG_WR (R498). -/
def execRegWr (h : MsgHead) (a v : Word) (s : State) : Res := .next (regMessage h a (some v) s)

end Sys2Proof.Machine
end

