-- ==== Sys2Proof/Machine/Commands.lean ====
section
/-! DEFINITION. The commands that are a write of one register: each builds the register's value from its operands and
makes a privileged write under the register's rules (R18, R498 to R500). -/

namespace Sys2Proof.Machine

/-- The bits of a register's read-write fields. -/
def rwMask (r : Reg) : Word := r.fields.foldl (fun m f => if f.access = .rw then m ||| maskOf f.hi f.lo else m) 0

/-- A write that sets fields and leaves every other writable field as it is. -/
def setFields (s : State) (r : Reg) (fs : List (Fld × Nat)) : State :=
  privWrite s r (fs.foldl (fun w f => putBits w f.1.hi f.1.lo f.2) (writeBase s r &&& rwMask r))

/-! ### Power, timing, calibration -/

/-- SET_MV_WRITE (R554). -/
def execSetMvWrite (d : Die) (mv : Nat) (s : State) : Res := .next (setFields s (.ptcDieV d) [(F.ptcDieV_SET_MV, mv)])

/-- CAL_SAVE (R564). -/
def execCalSave (f : Fin 9) (s : State) : Res :=
  .next (setFields s .ptcCalCmd [(F.ptcCalCmd_CMD, 1), (F.ptcCalCmd_FUNC, f.val)])

/-- CAL_ERASE (R565). -/
def execCalErase (f : Fin 9) (s : State) : Res :=
  .next (setFields s .ptcCalCmd [(F.ptcCalCmd_CMD, 2), (F.ptcCalCmd_FUNC, f.val)])

/-- TB_CONF_WRITE (R314, R342). -/
def execTbConfWrite (v : Word) (s : State) : Res := .next (privWrite s .ptcTbConf v)

/-- TB_SET (R318). -/
def execTbSet (ns : Word) (s : State) : Res := .next (privWrite s .ptcTbSet ns)

/-! ### Any register, and the unlocks -/

/-- REGISTER_WRITE (R18, R498, R499): a write of the word at an address in a writer's view. -/
def execRegisterWrite (w : Writer) (a v : Word) (s : State) : Res :=
  .next (regAccess s { writer := w, addr := a.toNat % 2 ^ 48, value := some v, rd := none, reply := none } a)

/-- The register that holds a block's EXPERT_UNLOCK. -/
def unlockReg (b : Block) (d : Die) : Reg :=
  match b with
  | .mod => .modIdent
  | .eng => .engCtrl d | .scv => .scvCtrl d | .wst => .wstCtrl d | .ast => .astCtrl d | .pst => .pstCtrl d
  | .fdx => .fdxCtrl d | .dma => .dmaCtrl d | .sync => .syncCtrl d | .circ => .circCtrl | .hbm => .hbmCtrl d
  | .lpd => .lpdCtrl | .mld => .mldCtrl | .fcu => .fcuCtrl | .ptc => .ptcCtrl | .sec => .secCtrl

/-- EXPERT_UNLOCK (R499, R500): MOD has no such field, and a write of its identity changes nothing. -/
def execExpertUnlock (b : Block) (d : Die) (s : State) : Res :=
  .next (setFields s (unlockReg b d) [(⟨0, 0, .p, .basic, .rw⟩, 1)])

/-- The write of 1 to CLR_COUNTS of a CTRL register. -/
def clearCounts (s : State) (r : Reg) : State := setFields s r [(⟨1, 1, .p, .basic, .wo⟩, 1)]

/-- ENG_CLR_COUNTS (R145). -/
def execEngClrCounts (d : Die) (s : State) : Res := .next (clearCounts s (.engCtrl d))
/-- SCV_CLR_COUNTS (R149). -/
def execScvClrCounts (d : Die) (s : State) : Res := .next (clearCounts s (.scvCtrl d))
/-- FDX_CLR_COUNTS (R189). -/
def execFdxClrCounts (d : Die) (s : State) : Res := .next (clearCounts s (.fdxCtrl d))
/-- DMA_CLR_COUNTS (R298). -/
def execDmaClrCounts (d : Die) (s : State) : Res := .next (clearCounts s (.dmaCtrl d))
/-- STORE_CLR_COUNTS (R244). -/
def execStoreClrCounts (d : Die) (st : Store) (s : State) : Res :=
  .next (clearCounts s (match st with | .wst => .wstCtrl d | .ast => .astCtrl d | .pst => .pstCtrl d))
/-- SYNC_CLR_COUNTS (R384). -/
def execSyncClrCounts (d : Die) (s : State) : Res := .next (clearCounts s (.syncCtrl d))
/-- HBM_CLR_COUNTS (R467). -/
def execHbmClrCounts (d : Die) (s : State) : Res := .next (clearCounts s (.hbmCtrl d))
/-- LPD_CLR_COUNTS (R467). -/
def execLpdClrCounts (s : State) : Res := .next (clearCounts s .lpdCtrl)
/-- MLD_CLR_COUNTS (R502). -/
def execMldClrCounts (s : State) : Res := .next (clearCounts s .mldCtrl)
/-- FCU_CLR_COUNTS (R540). -/
def execFcuClrCounts (s : State) : Res := .next (clearCounts s .fcuCtrl)
/-- PTC_CLR_COUNTS (R574). -/
def execPtcClrCounts (s : State) : Res := .next (clearCounts s .ptcCtrl)

/-! ### Engines, cores, contexts, steps -/

/-- GRADE_MASK_WRITE (R140). -/
def execGradeMaskWrite (g : Nat) (s : State) : Res := .next (setFields s .engGradeMask [(F.engGradeMask_GRADE, g)])
/-- CORE_RUN (R148). -/
def execCoreRun (d : Die) (q : CoreId) (s : State) : Res := .next (setFields s (.scvCoreCtrl d q) [(F.scvCoreCtrl_RUN, 1)])
/-- CORE_HALT (R148). -/
def execCoreHalt (d : Die) (q : CoreId) (s : State) : Res := .next (setFields s (.scvCoreCtrl d q) [(F.scvCoreCtrl_RUN, 0)])
/-- QLIMIT_WRITE (R148). -/
def execQlimitWrite (d : Die) (q : CoreId) (n : Nat) (s : State) : Res :=
  .next (setFields s (.scvCoreCtrl d q) [(F.scvCoreCtrl_QLIMIT, n)])
/-- STEP_ABORT (R327). -/
def execStepAbort (d : Die) (id : Nat) (s : State) : Res := .next (setFields s (.scvStepAbort d) [(F.scvStepAbort_ID, id)])

/-- A command written to SCV.CTX_CMD (R336, R338). -/
def slotCommand (s : State) (d : Die) (q : CoreId) (x : SlotId) (cmd addr : Nat) : State :=
  setFields s (.scvCtxCmd d q) [(F.scvCtxCmd_CMD, cmd), (F.scvCtxCmd_CTX, x.val), (F.scvCtxCmd_ADDR, addr)]
/-- START (R336). -/
def execStart (d : Die) (q : CoreId) (x : SlotId) (s : State) : Res := .next (slotCommand s d q x 1 0)
/-- STOP (R336). -/
def execStop (d : Die) (q : CoreId) (x : SlotId) (s : State) : Res := .next (slotCommand s d q x 2 0)
/-- SAVE (R336). -/
def execSave (d : Die) (q : CoreId) (x : SlotId) (addr : Nat) (s : State) : Res := .next (slotCommand s d q x 3 addr)
/-- RESTORE (R336). -/
def execRestore (d : Die) (q : CoreId) (x : SlotId) (addr : Nat) (s : State) : Res := .next (slotCommand s d q x 4 addr)
/-- DISCARD (R336). -/
def execDiscard (d : Die) (q : CoreId) (x : SlotId) (s : State) : Res := .next (slotCommand s d q x 5 0)

/-! ### Stores and code tables -/

/-- STORE_CLEAR (R240). -/
def execStoreClear (d : Die) (s : State) : Res := .next (setFields s (.wstCtrl d) [(F.wstCtrl_CLEAR, 1)])
/-- STORE_CTRL_WRITE (R243). -/
def execStoreCtrlWrite (d : Die) (invar combining : Bool) (s : State) : Res :=
  .next (setFields s (.wstStoreCtrl d) [(F.wstStoreCtrl_INVAR, invar.toNat), (F.wstStoreCtrl_NPOLICY, combining.toNat)])
/-- REPAIR_FORCE (R238): of the entry that REPAIR_SEL selects. -/
def execRepairForce (d : Die) (st : Store) (row : Nat) (s : State) : Res :=
  .next (setFields s (match st with | .wst => .wstRepairEntry d | .ast => .astRepairEntry d | .pst => .pstRepairEntry d)
    [(F.wstRepairEntry_VALID, 1), (F.wstRepairEntry_ROW, row)])
/-- EPC_TABLE_VALIDATE (R193). -/
def execEpcTableValidate (d : Die) (t : Fin 16) (width tag : Nat) (s : State) : Res :=
  .next (setFields s (.fdxEpcTag d t) [(F.fdxEpcTag_VALID, 1), (F.fdxEpcTag_WIDTH, width), (F.fdxEpcTag_TAG, tag)])
/-- EPC_TABLE_INVALIDATE (R193). -/
def execEpcTableInvalidate (d : Die) (t : Fin 16) (s : State) : Res := .next (setFields s (.fdxEpcTag d t) [(F.fdxEpcTag_VALID, 0)])

/-! ### DMA and windows -/

/-- DMA_POST (R297). -/
def execDmaPost (d : Die) (c : Cluster) (addr : Nat) (s : State) : Res := .next (setFields s (.dmaPost d c) [(F.dmaPost_ADDR, addr)])
/-- WINDOW_OPEN (R286): the fields of RWIN_w_A in v, with OPEN = 1. -/
def execWindowOpen (w : Fin 64) (v : Word) (s : State) : Res := .next (privWrite s (.dmaRwinA w) (v ||| 1))
/-- WINDOW_CLOSE (R286). -/
def execWindowClose (w : Fin 64) (s : State) : Res := .next (setFields s (.dmaRwinA w) [(F.dmaRwinA_OPEN, 0)])
/-- RIMP_WRITE (R300): RIMP_i_A or RIMP_i_B. -/
def execRimpWrite (i : Fin 16) (second : Bool) (v : Word) (s : State) : Res :=
  .next (privWrite s (if second then .dmaRimpB i else .dmaRimpA i) v)

/-! ### Synchronisation -/

/-- BARRIER_ARM (R368): the other fields of BAR_b_B in v. -/
def execBarrierArm (d : Die) (b : Fin 64) (v : Word) (s : State) : Res :=
  .next (privWrite s (.syncBarB d b) (putBits (putBits v 51 50 0) 49 49 1))
/-- BARRIER_DISARM (R387). -/
def execBarrierDisarm (d : Die) (b : Fin 64) (s : State) : Res := .next (setFields s (.syncBarB d b) [(F.syncBarB_DISARM, 1)])
/-- BARRIER_FORCE (R376). -/
def execBarrierForce (d : Die) (b : Fin 64) (s : State) : Res := .next (setFields s (.syncBarB d b) [(F.syncBarB_FORCE, 1)])
/-- COUNTER_WRITE (R379). -/
def execCounterWrite (d : Die) (n : Fin 8192) (v : Word) (s : State) : Res := .next (privWrite s (.syncCtr d n) v)
/-- SYNC_CLEAR (R379). -/
def execSyncClear (d : Die) (s : State) : Res := .next (setFields s (.syncCtrl d) [(F.syncCtrl_CLEAR, 1)])
/-- XL_ENTRY_WRITE (R350): of the entry that XL_SEL selects. -/
def execXlEntryWrite (d : Die) (v : Word) (s : State) : Res := .next (privWrite s (.syncXlEntry d) v)

/-! ### Circulation, ports, ring -/

/-- COHORT_WRITE (R47, R53). -/
def execCohortWrite (c : Fin 8) (hold : Bool) (rowsMax : Nat) (s : State) : Res :=
  .next (setFields s (.circCohort c) [(F.circCohort_HOLD, hold.toNat), (F.circCohort_ROWS_MAX, rowsMax)])
/-- COHORT_RELEASE (R45). -/
def execCohortRelease (c : Fin 8) (s : State) : Res := .next (setFields s (.circCohort c) [(F.circCohort_RELEASE, 1)])
/-- CIRC_ENABLE (R78): SEGMENTS and MODE as they are, ENABLE = 1. -/
def execCircEnable (s : State) : Res := .next (setFields s .circRingConf [(F.circRingConf_ENABLE, 1)])
/-- CIRC_DISABLE (R661). -/
def execCircDisable (s : State) : Res := .next (setFields s .circRingConf [(F.circRingConf_ENABLE, 0)])
/-- PORT_ENABLE (R436). -/
def execPortEnable (p : Port) (s : State) : Res := .next (setFields s (.circPortCtrl p) [(F.circPortCtrl_ENABLE, 1)])
/-- PORT_DISABLE (R409). -/
def execPortDisable (p : Port) (s : State) : Res := .next (setFields s (.circPortCtrl p) [(F.circPortCtrl_ENABLE, 0)])
/-- FORCE_SUB (R438): of a physical lane; a lane that the port does not have is no register (R626). -/
def execForceSub (p : Port) (l : Fin 34) (s : State) : Res :=
  .next (if l.val < lanesOf p then setFields s (.circLaneB p l) [(F.circLaneB_FORCE_SUB, 1)]
    else regAccess s { writer := .mgmt, addr := (Reg.circLaneB p l).addr, value := some 1, rd := none, reply := none }
      (BitVec.ofNat 64 (Reg.circLaneB p l).addr))
/-- ADMIT (R414). -/
def execAdmit (ring epoch : Nat) (s : State) : Res :=
  .next (setFields s .circAdmit [(F.circAdmit_STATE, 1), (F.circAdmit_RING_ID, ring), (F.circAdmit_EPOCH, epoch)])
/-- REVOKE (R414). -/
def execRevoke (s : State) : Res := .next (setFields s .circAdmit [(F.circAdmit_STATE, 2)])
/-- FORM_START (R416). -/
def execFormStart (segments : Nat) (s : State) : Res :=
  .next (setFields s .circForm [(F.circForm_START, 1), (F.circForm_SEGMENTS, segments)])
/-- SKIP_E (R418). -/
def execSkipE (s : State) : Res := .next (setFields s .circBypass [(F.circBypass_CMD, 1)])
/-- SKIP_W (R418). -/
def execSkipW (s : State) : Res := .next (setFields s .circBypass [(F.circBypass_CMD, 2)])
/-- PASS (R519). -/
def execPass (s : State) : Res := .next (setFields s .circBypass [(F.circBypass_CMD, 3)])
/-- RESTORE_E (R422). -/
def execRestoreE (s : State) : Res := .next (setFields s .circBypass [(F.circBypass_CMD, 4)])
/-- RESTORE_W (R422). -/
def execRestoreW (s : State) : Res := .next (setFields s .circBypass [(F.circBypass_CMD, 5)])
/-- SPLICE_ARM (R428). -/
def execSpliceArm (s : State) : Res := .next (setFields s .circSplice [(F.circSplice_ARM, 1)])
/-- SPLICE_ABORT (R426). -/
def execSpliceAbort (s : State) : Res := .next (setFields s .circSplice [(F.circSplice_ABORT, 1)])
/-- HBM_RETIRE (R470). -/
def execHbmRetire (n : Fin 8) (s : State) : Res :=
  .next (setFields s (.hbmStackCmd ⟨n.val / 4, by omega⟩ ⟨n.val % 4, Nat.mod_lt _ (by decide)⟩) [(F.hbmStackCmd_RETIRE, 1)])

/-! ### The fault unit and the security block -/

/-- FAULT_ACK (R523): CLASSES and SEQ. -/
def execFaultAck (classes seq : Nat) (s : State) : Res :=
  .next (setFields s .fcuAck [(F.fcuAck_CLASSES, classes), (F.fcuAck_SEQ, seq)])
/-- PIN_RELEASE (R528). -/
def execPinRelease (s : State) : Res := .next (setFields s .fcuPin [(F.fcuPin_RELEASE, 1)])
/-- FAULT_INJECT (R543). -/
def execFaultInject (id die unit block detail : Nat) (s : State) : Res :=
  .next (setFields s .fcuInject [(F.fcuInject_ID, id), (F.fcuInject_DIE, die), (F.fcuInject_UNIT, unit), (F.fcuInject_BLOCK, block),
    (F.fcuInject_DETAIL, detail)])
/-- RESUME (R537). -/
def execResume (s : State) : Res := .next (setFields s .fcuCtrl [(F.fcuCtrl_RESUME, 1)])
/-- FUSE_ADVANCE (R596). -/
def execFuseAdvance (target : Nat) (s : State) : Res := .next (setFields s .secFuseCmd [(F.secFuseCmd_OP, 1), (F.secFuseCmd_ARG, target)])
/-- FUSE_REVOKE_SLOT (R597). -/
def execFuseRevokeSlot (k : Nat) (s : State) : Res := .next (setFields s .secFuseCmd [(F.secFuseCmd_OP, 2), (F.secFuseCmd_ARG, k)])
/-- ATTEST_GO (R599). -/
def execAttestGo (s : State) : Res := .next (setFields s .secAttCmd [(F.secAttCmd_GO, 1)])
/-- RECLAIM (R607): by the expert command, or of itself when the active bank has less than 512 KiB free. -/
def execReclaim (byCommand : Bool) (s : State) : Res :=
  .next (if byCommand then setFields s .secRecCtrl [(F.secRecCtrl_RECLAIM, 1)]
    else if bankFree s < 524288 then startReclaim s else s)

end Sys2Proof.Machine
end

