-- ==== Sys2Proof/Machine/Mgmt.lean ====
section
/-! DEFINITION. The management target and the test access port (R639 to R647). -/

namespace Sys2Proof.Machine

/-- The target answers from the end of the ROM phase on (R642). -/
def answers (s : State) : Bool := !s.pow.off && s.readyBit 0

/-- What the latest transfer of the management target gave. -/
def targetReply (s : State) (acked : Bool) (bs : List Byte) : State :=
  { s with mgmt := { s.mgmt with acked := acked, reply := bs } }

/-- SELECT (R642): bits 47:0 of the module address to read. -/
def execSelect (addr : Nat) (s : State) : Res :=
  .next (if answers s then targetReply { s with mgmt := { s.mgmt with sel := addr % 2 ^ 48 } } true [] else targetReply s false [])

/-- READ (R642, R643): a view-U access to the selected register; a block reset is waited for (R617). -/
def execRead (s : State) : Res :=
  .next (if answers s then
      regAccess (targetReply s true []) { writer := .target, addr := s.mgmt.sel, value := none, rd := none, reply := none }
        (BitVec.ofNat 64 s.mgmt.sel)
    else targetReply s false [])

/-- STRAPS (R642): POS5 to POS0 as read, READY.IMAGE and DRIVEN_A. -/
def execStraps (s : State) : Res :=
  .next (if answers s then
      targetReply s true [BitVec.ofNat 8 (s.mgmt.straps % 64 + (s.readyBit 1).toNat * 64 + s.fld .fcuPin F.fcuPin_DRIVEN_A * 128)]
    else targetReply s false [])

/-- The static address of the target (R642). -/
def targetAddr (s : State) : Nat := 0x40 + s.mgmt.straps % 32

/-- SMB_ALERT_N is low (R643): LEVEL_MAX is 1 or above. -/
def alertLow (s : State) : Bool := decide (1 ≤ bitsOf (fcuStatus s) 2 0)

/-- SMBUS_ALERT_RESPONSE (R643): the target answers the Alert Response Address with its own, in bits 7:1. -/
def execSmbusAlertResponse (s : State) : Res :=
  .next (if answers s ∧ alertLow s then targetReply s true [BitVec.ofNat 8 (targetAddr s * 2)] else targetReply s false [])

/-- I3C_DYNAMIC_ADDRESS (R642). -/
def execI3cDynamicAddress (addr : Nat) (s : State) : Res :=
  .next (if answers s then targetReply { s with mgmt := { s.mgmt with dynamic := some (addr % 128) } } true [] else targetReply s false [])

/-! ### The test access port (R646, R647) -/

/-- IDCODE (R646). -/
def idcode (s : State) : Nat := s.fuses.stepping % 16 * 2 ^ 28 + 0x7A08 * 2 ^ 12 + 0x35B * 2 + 1

/-- An instruction as the TAP executes it: while the module is ADMITTED, those that drive pins act as BYPASS (R647). -/
def tapActs (s : State) (i : TapInstr) : TapInstr :=
  match i with
  | .bypass | .idcode | .samplePreload => i
  | _ => if s.fld .circAdmit F.circAdmit_STATE = 1 then .bypass else i

/-- The TAP takes an instruction; with IDCODE its data register shows the code, else 0 (R646). -/
def tapLoad (s : State) (i : TapInstr) : State :=
  let j := tapActs s i
  { s with mgmt := { s.mgmt with tap := j, tapData := if j = .idcode then idcode s else 0 } }

/-- TAP_BYPASS (R646). -/
def execTapBypass (s : State) : Res := .next (tapLoad s .bypass)
/-- TAP_IDCODE (R646). -/
def execTapIdcode (s : State) : Res := .next (tapLoad s .idcode)
/-- TAP_SAMPLE_PRELOAD (R646). -/
def execTapSamplePreload (s : State) : Res := .next (tapLoad s .samplePreload)
/-- TAP_EXTEST (R647). -/
def execTapExtest (s : State) : Res := .next (tapLoad s .extest)
/-- TAP_EXTEST_PULSE (R647). -/
def execTapExtestPulse (s : State) : Res := .next (tapLoad s .extestPulse)
/-- TAP_EXTEST_TRAIN (R647). -/
def execTapExtestTrain (s : State) : Res := .next (tapLoad s .extestTrain)
/-- TAP_CLAMP (R647). -/
def execTapClamp (s : State) : Res := .next (tapLoad s .clamp)
/-- TAP_HIGHZ (R647). -/
def execTapHighz (s : State) : Res := .next (tapLoad s .highz)

end Sys2Proof.Machine
end

