-- ==== Sys2Proof/Machine/Remote.lean ====
section
/-! DEFINITION. Frames of the remote path as they arrive (R283, R287, R288, R358, R360, R396, R405, R407, R424, R431,
R533). -/

namespace Sys2Proof.Machine

/-- The route of an answer: back the way a frame came (R288). -/
def replyRoute (p : Port) : Nat :=
  if 4 ≤ p.val then p.val - 2 else if movesEast p then 1 else 0

/-- An answer put on its way to the source of a packet (R287, R405); SRC_DIE stays the asking die's (log entry 19). -/
def replyTo (s : State) (port : Port) (p : RemotePkt) (status : Nat) (op : Nat) (data : List Byte) : State :=
  { s with remoteOut := s.remoteOut ++ [{ p with kind := .rrsp, route := replyRoute port, srcRing := s.ringId, srcPos := s.position
                                                 tgtRing := p.srcRing, tgtPos := p.srcPos, op := op, status := status
                                                 len := data.length, data := data }] }

/-- An accepted window of a packet's source holds n bytes from an address, and its import entry still admits them with
a permission (R287, R300). -/
def admitted (s : State) (p : RemotePkt) (a n perm : Nat) : Bool :=
  s.accepted.any (fun e =>
    e.2.srcRing == p.srcRing && e.2.srcPos == p.srcPos && decide (e.2.addr ≤ a ∧ a + n ≤ e.2.addr + 2 ^ e.2.size)
      && importCovers s e.1 p.srcRing p.srcPos a n perm)

/-- A packet counted for its transfer on both dies (R358): the one that receives its signal reads the count. -/
def countRemote (s : State) (port : Port) (p : RemotePkt) : State :=
  let id : XferId := ⟨if 4 ≤ port.val then 2 else 1, p.srcRing * 1024 + p.srcPos * 2 + p.srcDie, p.xfer⟩
  countPacket (countPacket s 0 id 1) 1 id 1

/-- An RWR frame of OP stage (R424): taken only while re-injection gathers or reloads, from a live member of the own
arc, into the staging range. -/
def stageFrame (s : State) (h : RxHead) (p : RemotePkt) : State :=
  let n := p.data.length
  let r := stageRange s
  if 2 ≤ s.fld .circReinjA F.circReinjA_STATE ∧ isMember s h.arc ∧ p.srcRing = s.ringId ∧ (liveMembers s).contains p.srcPos
      ∧ r.1 ≤ p.addr ∧ p.addr + n ≤ r.2 ∧ tierServes s p.addr n then
    stagePart (s.pokeClean p.addr p.data) p.addr n
  else s

/-- The kind of a write that a remote packet makes, none where it is rejected (R218, R219): an accumulate goes to an accumulate
window and names its element type; a write that names none may go there only with the size of a narrow one. -/
def landKind (p : RemotePkt) (n : Nat) : Option AccKind :=
  if p.op = 1 then (if windowOf p.addr = 3 ∧ (p.etype = 1 ∨ p.etype = 2) ∧ n % elemSize p.etype = 0 then some (.acc (p.etype == 2)) else none)
  else if windowOf p.addr = 3 then
    (if n = 2 then some (.acc false) else if n = 4 ∨ n = 8 then some (.acc true) else none)
  else some (writeKind p.addr 0)

/-- Why a remote packet's access is rejected, if it is: its import (R287), its place (R10, R464) or its shape (R219). -/
def landReject (s : State) (p : RemotePkt) (n perm : Nat) (k : Option AccKind) : Option (Option Source) :=
  if admitted s p p.addr n perm = false then some none
  else if inRange s p.addr n = false ∨ (perm = 4 ∧ inBack s p.addr n) then some (some .windowViolation)
  else if k.isNone then some (some .accessShape)
  else none

/-- A rejected packet answered as refused, with the fault of its place or shape (R10, R283). -/
def refusePacket (s : State) (port : Port) (p : RemotePkt) (src : Option Source) (op : Nat) (eot : Bool) : State :=
  let s := match src with | some f => s.raise (Report.plain f 2 0 .dma p.addr) | none => s
  if eot then replyTo s port p 1 op [] else s

/-- An access of a remote frame put before a die's stores, where it uses class 5 as an outer one (R93, R196, R198). -/
def landStore (s : State) (d : Die) (port : Port) (p : RemotePkt) (eot : Bool) (k : AccKind) (n : Nat) (data : List (Byte × Bool)) : State :=
  let t := s.nextStamp d
  pushAccess { s with inbound := s.inbound ++ [{ die := d, stamp := t, port := port, pkt := p, eot := eot }] } d k p.addr n data .remote

/-- A write that has taken effect is counted for its transfer, and the last frame of its transaction is answered (R358,
R405). -/
def wrote (s : State) (port : Port) (p : RemotePkt) (eot : Bool) : State :=
  let s := countRemote s port p
  if eot then replyTo s port p 0 3 [] else s

/-- The data of a read returns in one or two RRSP frames, poisoned words as ones (R405, R533). -/
def replyRead (s : State) (port : Port) (p : RemotePkt) (data : List (Byte × Bool)) : State :=
  let bs := hideMarks data
  if bs.length ≤ 224 then replyTo s port p 0 2 bs
  else replyTo (replyTo s port p 0 2 (bs.take 224)) port { p with pkt := p.pkt + 1, addr := p.addr + 224 } 0 2 (bs.drop 224)

/-- A write or accumulate reaches its target (R205, R219, R283, R287, R405, R464); one answer for each transaction, on its
last frame. -/
def landWrite (s : State) (h : RxHead) (p : RemotePkt) (eot : Bool) : State :=
  let n := p.data.length
  let data := p.data.map (fun b => (b, false))
  match landReject s p n 4 (landKind p n), landKind p n, placeOf p.addr with
  | some src, _, _ => refusePacket s h.port p src 3 eot
  | none, some k, .store d _ _ _ _ => landStore s d h.port p eot k n data
  | none, some k, _ => wrote (writeAt s p.addr k data) h.port p eot
  | none, none, _ => s

/-- A read reaches its target (R287, R405, R533). -/
def landRrd (s : State) (h : RxHead) (p : RemotePkt) : State :=
  let n := min p.len 256
  match landReject s p n 2 (some .read), placeOf p.addr with
  | some src, _ => refusePacket s h.port p src 2 true
  | none, .store d _ _ _ _ => landStore s d h.port p true .read n []
  | none, _ =>
    let s := readAt s p.addr n
    replyRead s h.port p (fetchAt s p.addr n)

/-- The access of a remote frame returns from a die's stores: its effect is counted and answered, or its data sent back. -/
def remoteBack (s : State) (d : Die) (a : Access) : State :=
  match s.inbound.find? (fun e => e.die = d ∧ e.stamp = a.stamp) with
  | none => s
  | some e =>
    let s := { s with inbound := s.inbound.filter (fun o => !(o.die == d && o.stamp == a.stamp)) }
    match a.kind with
    | .read => replyRead s e.port e.pkt a.data
    | _ => wrote s e.port e.pkt e.eot

/-- STORE_READ_RETURN (R207): the access returns to its core, DMA or die, or to the frame that made it. -/
def execStoreReadReturn (d : Die) (i : Nat) (s : State) : Res :=
  .next (match (s.die d).accs[i]? with
    | none => s
    | some a =>
      if a.dest = .remote then
        if !a.served || decide (s.beat d < a.ret) then s
        else
          let x := s.die d
          remoteBack (s.setDie d { x with accs := x.accs.eraseIdx i }) d a
      else returnAccess d i s)

/-- The transaction of a die that an answer belongs to: through a window to the answering position, with its transfer
number and packet index, at the address it names (R405). -/
def answered (s : State) (d : Die) (p : RemotePkt) : Option (Nat × Txn × Fin 64) :=
  (((s.die d).txns.zipIdx.filterMap (fun e =>
    match slotOfAddr e.1.addr with
    | some w =>
      let a := s.reg (.dmaRwinA w)
      let target := windowTarget s w e.1.addr
      if e.1.issued ∧ e.1.returned = false ∧ e.1.number = p.xfer ∧ (p.pkt = e.1.pkt ∨ p.pkt = e.1.pkt + 1) ∧ bitsOf a 40 38 = p.srcRing ∧ bitsOf a 49 41 = p.srcPos
          ∧ (p.addr = target ∨ p.addr = target + 224) then some (e.2, e.1, w) else none
    | none => none)).head?)

/-- An answer reaches its source (R283, R289, R405): data or a completion for its transaction, or a refusal; the refusal
of a scalar signal raises a CONFIG fault (R360). -/
def landRrsp (s : State) (p : RemotePkt) : State :=
  let d : Die := ⟨p.srcDie % 2, Nat.mod_lt _ (by decide)⟩
  if p.op = 4 then
    if p.status ≠ 1 then s
    else if p.xfer < 8 then s.raise (Report.plain .windowRefused d.val 0 .sync 0)
    else packetRefusal d ⟨p.win % 64, Nat.mod_lt _ (by decide)⟩ p.xfer p.pkt s
  else match answered s d p with
  | none => s
  | some (i, t, w) =>
    if p.status = 1 then packetRefusal d w t.number t.pkt s
    else match t.kind with
      | .read =>
        let data := t.data ++ p.data.map (fun b => (b, false))
        setTxn s d i { t with data := data, returned := decide (t.size ≤ data.length) }
      | _ => setTxn s d i { t with returned := true }

/-- The die that receives a signal: that of the head's address, or die 0 (R358). -/
def sigDie (a : Nat) : Die := (dieOfAddr a).getD 0

/-- A signal reaches its target (R288, R358, R360, R373): a barrier packet of the arc goes to die 0's unit, any other
needs an accepted window with the signal permission. -/
def landSig (s : State) (h : RxHead) (p : RemotePkt) : State :=
  match p.packet with
  | none => s
  | some g =>
    let kind := if 4 ≤ h.port.val then 2 else 1
    let id : XferId := ⟨kind, p.srcRing * 1024 + p.srcPos * 2 + p.srcDie, p.xfer⟩
    if (g.kind = 1 ∨ g.kind = 2) ∧ p.srcRing = s.ringId ∧ inArc s p.srcPos then toBridge s 0 g id
    else if admitted s p p.addr 1 1 then toBridge s (sigDie p.addr) g id
    else replyTo s h.port p 1 4 []

/-- A packet for this module reaches its target (R407). -/
def landPacket (s : State) (h : RxHead) (p : RemotePkt) (eot : Bool) : State :=
  match p.kind with
  | .rwr => if p.op = 5 then stageFrame s h p else landWrite s h p eot
  | .rrd => landRrd s h p
  | .rrsp => landRrsp s p
  | .sig => landSig s h p
  | _ => s

/-- The remote frames that waited reach their targets, in order, once the position no longer holds its streams (R661). -/
def flushHeld (s : State) : State :=
  if holdsStreams s then s
  else
    s.circ.heldRemote.foldl (fun s e => oweCredit (landPacket s e.head e.pkt e.eot) e.head.port e.entry)
      { s with circ := { s.circ with heldRemote := [] } }

/-- Whether a frame of the arc for this module waits with the blocks (R661): it came on a forward entry. -/
def remoteWaits (s : State) (h : RxHead) : Bool :=
  holdsStreams s && decide (h.port.val < 4) && h.arc == s.fld .circArc F.circArc_INDEX && decide (h.role < 2)

/-- A frame of the remote path arrives (R397, R405, R407, R431, R661): a bad head is discarded with a LINK fault; a frame
for this module goes to its target, any other is passed on; on a span port it can only be for this module. -/
def remoteFrame (h : RxHead) (headOk eot : Bool) (p : RemotePkt) (s : State) : State :=
  match receive s h false with
  | .no s => s
  | .yes s lane =>
    match partMatch s h lane with
    | none => portFault s .partMismatch h.port 0
    | some e =>
      if headOk = false then oweCredit (portFault s .frameBad h.port 0) h.port e
      else if p.tgtRing = s.ringId ∧ p.tgtPos = s.position then
        if remoteWaits s h then
          { s with circ := { s.circ with heldRemote := s.circ.heldRemote ++ [{ head := h, entry := e, eot := eot, pkt := p }] } }
        else oweCredit (landPacket (flushHeld s) h p eot) h.port e
      else if 4 ≤ h.port.val then oweCredit (portFault s .partMismatch h.port 0) h.port e
      else passFrame s h e (.remote p)

/-- RWR (R405, R424): OP write, accumulate or stage; any other is reserved, and a reserved head is a bad one. -/
def execRwr (h : RxHead) (headOk eot : Bool) (p : RemotePkt) (s : State) : Res :=
  .next (remoteFrame h (headOk && (p.op == 0 || p.op == 1 || p.op == 5)) eot { p with kind := .rwr, data := p.data.take 224 } s)

/-- RRD (R405). -/
def execRrd (h : RxHead) (headOk : Bool) (p : RemotePkt) (s : State) : Res :=
  .next (remoteFrame h (headOk && p.op == 2) true { p with kind := .rrd } s)

/-- RRSP (R405). -/
def execRrsp (h : RxHead) (headOk : Bool) (p : RemotePkt) (s : State) : Res :=
  .next (remoteFrame h (headOk && (p.op == 2 || p.op == 3 || p.op == 4)) true { p with kind := .rrsp } s)

/-- SIG (R357, R358, R405). -/
def execSig (h : RxHead) (headOk : Bool) (p : RemotePkt) (s : State) : Res :=
  .next (remoteFrame h (headOk && p.op == 4) true { p with kind := .sig } s)

end Sys2Proof.Machine
end

