-- ==== Sys2Proof/Machine/Scalar.lean ====
section
/-! DEFINITION. The accesses of scalar cores and their vector units (R202, R210 to R219, R308, R334). -/

namespace Sys2Proof.Machine

/-! ### Rejections (R10, R14, R202, R219, R285, R464, R614) -/

/-- The block that the fault record of a rejected access names: the one that holds the address, or SCV for a reserved range
(log entry 52). -/
def accessBlock (a : Nat) : Block :=
  match placeOf a with
  | .store _ .wst _ _ _ => .wst | .store _ .ast _ _ _ => .ast | .store _ .pst _ _ _ => .pst
  | .hbm _ => .hbm | .lpd => .lpd | .remote _ _ => .dma
  | .register => (Block.ofNum ((a - 0xFE00000000) / 0x1000000)).getD .mod
  | .reserved => .scv

/-- A narrow access that is rejected (R10, R202, R614): a CONFIG fault; a load brings 0 marked poisoned, and the context goes
on. The record names the requesting core's die and number (log entry 52). -/
def rejectNarrow (s : State) (d : Die) (q : CoreId) (x : SlotId) (rd : Option (Fin 32)) (src : Source) (a : Nat) : State :=
  let s := s.raise { Report.plain src d.val q.val (accessBlock a) (a % 2 ^ 48) with ctx := ctxRef d q x }
  match rd with
  | some r => s.setCtx d q x ((s.ctx d q x).wrMark r 0 true)
  | none => s

/-- The address that an access reaches: through a remote window, that at its target (R299). -/
def reached (s : State) (m : Nat) : Nat := match slotOfAddr m with | some w => windowTarget s w m | none => m

/-- Why an access of n bytes at a module address is rejected whatever its shape, if it is; bit 4 asks a write, 2 a read
(R9, R10, R14, R285, R464). -/
def accessReject (s : State) (m n bit : Nat) : Option Source :=
  if 2 ^ 48 ≤ m then some .addressHigh
  else if inRange s m n = false then some .windowViolation
  else if bit = 4 ∧ inBack s m n then some .windowViolation
  else if addrAllows s m bit = false then some .windowRefused
  else none

/-- Why a narrow access is rejected, if it is (R202, R219): its alignment, its address, or an accumulate of 1 byte. -/
def narrowReject (s : State) (m n bit : Nat) : Option Source :=
  if m < 2 ^ 48 ∧ m % n ≠ 0 then some .accessShape
  else match accessReject s m n bit with
    | some src => some src
    | none => if bit = 4 ∧ windowOf (reached s m) = 3 ∧ n = 1 then some .accessShape else none

/-- Why a wide access is rejected, if it is (R202, R219): not whole 32-byte words of one line, its address, or an accumulate
that names no element type. -/
def wideReject (s : State) (m n bit : Nat) (elem : ElemType) : Option Source :=
  if m < 2 ^ 48 ∧ (m % 32 ≠ 0 ∨ n % 32 ≠ 0 ∨ n = 0 ∨ 1024 < m % 1024 + n ∨ placeOf m = .register) then some .accessShape
  else match accessReject s m n bit with
    | some src => some src
    | none => if bit = 4 ∧ windowOf (reached s m) = 3 ∧ elem = .none_ then some .accessShape else none

/-! ### Issue -/

/-- An access that goes out as a transaction of the core (R289, R290); its transfer number is below those of descriptors
(log entry 19). -/
def coreTxn (s : State) (d : Die) (k : AccKind) (m n : Nat) (data : List (Byte × Bool)) (dest : AccDest) : State :=
  addTxn s d (Txn.waiting .cores 0 (2 * s.nextStamp d % 2 ^ 24) k m n data (some dest) none)

/-- An access to the die's own stores (R201, R207, R215). -/
def storeAcc (s : State) (d : Die) (k : AccKind) (m n : Nat) (data : List (Byte × Bool)) (dest : AccDest) (portB : Bool) : State :=
  let x := s.die d
  s.setDie d { x with accs := x.accs ++ [{ stamp := s.nextStamp d, kind := k, addr := directAddr m, size := n, data := data
                                           dest := dest, portB := portB, issue := s.beat d, ret := 0, served := false }] }

/-- Combining policy applies to a narrow access of a core: NPOLICY is 1, and the unit is one of its own cluster, not the
Electrum region (R210, R214). -/
def combines (s : State) (d : Die) (q : CoreId) (m : Nat) : Bool :=
  s.fld (.wstStoreCtrl d) F.wstStoreCtrl_NPOLICY == 1 && decide (distance d q m < 2) && !isElectrum m

/-- The entry of a core's combining buffer for a line. -/
def combEntry (c : Core) (a : Nat) : Option CombEntry := c.combine.find? (fun e => e.line = a / 1024 * 1024)

/-- Pending bytes cover a read entirely (R210). -/
def covered (c : Core) (a n : Nat) : Bool :=
  match combEntry c a with
  | some e => (List.range n).all (fun i => (e.bytes.find (a % 1024 + i)).isSome)
  | none => false

/-- A narrow load issued to memory (R210, R214, R216, R289). -/
def issueLoad (s : State) (d : Die) (q : CoreId) (x : SlotId) (rd : Fin 32) (m n : Nat) (sx : Bool) : State :=
  let dest : AccDest := .scalar d q x rd sx
  if ownStore d m then
    let a := directAddr m
    if combines s d q m ∧ covered (s.core d q) a n then
      let y := s.die d
      s.setDie d { y with accs := y.accs ++ [{ stamp := s.nextStamp d, kind := .read, addr := a, size := n
                                               data := overlay (s.core d q) a (s.peek a n), dest := dest, portB := false
                                               issue := s.beat d, ret := s.beat d + (if s.invar d then 12 else 5), served := true }] }
    else storeAcc s d .read m n [] dest (isElectrum m && decide (distance d q m < 2))
  else coreTxn s d .read m n [] dest

/-- A narrow write of bytes into a core's combining buffer, by a slot with the stamp of its issue (R211, R325). -/
def combineWrite (s : State) (d : Die) (q : CoreId) (x : SlotId) (a : Nat) (data : List (Byte × Bool)) : State :=
  let k := s.core d q
  let add (e : CombEntry) : CombEntry :=
    { e with bytes := data.zipIdx.foldl (fun (t : Assoc Nat (Byte × Bool)) b => t.put (a % 1024 + b.2) b.1) e.bytes
             who := e.who ++ [(x, s.nextStamp d)] }
  match combEntry k a with
  | some _ => s.setCore d q { k with combine := k.combine.map (fun e => if e.line = a / 1024 * 1024 then add e else e) }
  | none => s.setCore d q { k with combine := k.combine ++ [add { line := a / 1024 * 1024, bytes := [], who := [] }] }

/-- The kind of a narrow write: the window names it, and an accumulate of 2 bytes is BF16, one of 4 or 8 FP32
(R12, R219). -/
def narrowKind (m n : Nat) : AccKind :=
  match windowOf m with | 1 => .bitSet | 2 => .bitClear | 3 => .acc (decide (4 ≤ n)) | _ => .write

/-- The kind of a wide write: an accumulate has the element type that the access names (R219). -/
def wideKind (m : Nat) (elem : ElemType) : AccKind :=
  match windowOf m with | 1 => .bitSet | 2 => .bitClear | 3 => .acc (decide (elem = .fp32)) | _ => .write

/-- A narrow write issued to memory (R210 to R214, R289). A bit operation or an accumulate waits for a pending entry of its
line to be written (R212). -/
def issueStore (s : State) (d : Die) (q : CoreId) (x : SlotId) (m : Nat) (data : List (Byte × Bool)) : State :=
  let k := narrowKind (reached s m) data.length
  let a := directAddr m
  if ownStore d m then
    if combines s d q m ∧ k = .write then
      if (combEntry (s.core d q) a).isSome ∨ (s.core d q).combine.length < 16 then advance (combineWrite s d q x a data) d q x
      else parkFull s d q x 6 3
    else advance (storeAcc s d k m data.length data (.store d q x) (isElectrum m && decide (distance d q m < 2))) d q x
  else advance (coreTxn s d k m data.length data (.store d q x)) d q x

/-- A register access of a context, in view U (R498, R614): one aligned access of 8 bytes. -/
def ctxRegAccess (s : State) (d : Die) (q : CoreId) (x : SlotId) (m n : Nat) (value : Option Word) (rd : Option (Fin 32)) : State :=
  if n = 8 then
    regAccess s { writer := .ctx d q x, addr := m, value := value, rd := rd, reply := none } (BitVec.ofNat 64 m)
  else rejectNarrow s d q x rd .accessShape m

/-- NARROW_LOAD: a load of 1, 2, 4 or 8 bytes at a context address, computed from registers that `srcs` names (R202,
R210, R308, R334; log entry 11). -/
def execNarrowLoad (d : Die) (q : CoreId) (rd : Fin 32) (addr : Nat) (lg : Fin 4) (sx : Bool) (srcs : List (Fin 32)) (s : State) : Res :=
  .next (withIssue s d q srcs fun x c s =>
    let n := 2 ^ lg.val
    match c.translate addr n .r with
    | none => stopXlate s d q x addr
    | some m =>
      if placeOf m = .register then advance (ctxRegAccess s d q x m n none (some rd)) d q x
      else match narrowReject s m n 2 with
        | some src => advance (rejectNarrow s d q x (some rd) src m) d q x
        | none => advance (issueLoad s d q x rd m n sx) d q x)

/-- The permission that a write through a region needs (R334): A for the windows that share storage. -/
def storePerm (c : Ctx) (addr n : Nat) : Perm :=
  match c.regionOf addr n with
  | some g => if windowOf (g.mbase + (addr - g.cbase)) = 0 then .w else .a
  | none => .w

/-- Whether a register that an instruction names carries a poison mark (log entry 44). -/
def Ctx.anyBad (c : Ctx) (srcs : List (Fin 32)) : Bool := srcs.any (fun r => c.bad.contains r)

/-- NARROW_STORE: a store, bit-set, bit-clear or accumulate of 1, 2, 4 or 8 bytes (R202, R210 to R214, R219, R308,
R334; log entry 11). A value computed from a poisoned register is written poisoned (log entry 44). -/
def execNarrowStore (d : Die) (q : CoreId) (addr : Nat) (lg : Fin 4) (v : Word) (srcs : List (Fin 32)) (s : State) : Res :=
  .next (withIssue s d q srcs fun x c s =>
    let n := 2 ^ lg.val
    match c.translate addr n (storePerm c addr n) with
    | none => stopXlate s d q x addr
    | some m =>
      if placeOf m = .register then advance (ctxRegAccess s d q x m n (some v) none) d q x
      else match narrowReject s m n 4 with
        | some src => advance (rejectNarrow s d q x none src m) d q x
        | none => issueStore s d q x m ((leBytes n v.toNat).map (fun b => (b, c.anyBad srcs))))

/-! ### The vector unit (R152, R202, R219) -/

/-- A vector register's bytes and mark. -/
def vectorReg (s : State) (d : Die) (q : CoreId) (v : Fin 32) : ActRow := (s.core d q).vregs.at_ ⟨[], false⟩ v

/-- A vector register replaced. -/
def setVector (s : State) (d : Die) (q : CoreId) (v : Fin 32) (r : ActRow) : State :=
  let k := s.core d q
  s.setCore d q { k with vregs := k.vregs.put v r }

/-- An operation on vector registers waits for one that is still being read (R308). -/
def withVectors (s : State) (d : Die) (q : CoreId) (x : SlotId) (vs : List (Fin 32)) (k : State → State) : State :=
  match vs.find? (fun v => vectorPending s d q v.val) with
  | some v => park s d q x (.operand (32 + v.val)) 0
  | none => k s

/-- A vector-unit read (R202): through the core's port in the die's own stores, as transactions elsewhere. -/
def vectorRead (s : State) (d : Die) (q : CoreId) (x : SlotId) (c : Ctx) (vd : Fin 32) (addr n : Nat) : State :=
  match c.translate addr n .r with
  | none => stopXlate s d q x addr
  | some m =>
    match wideReject s m n 2 .none_ with
    | some src => advance (setVector (rejectNarrow s d q x none src m) d q vd ⟨List.replicate n 0, true⟩) d q x
    | none =>
      let s := setVector s d q vd ⟨[], false⟩
      advance ((pieces d m n).foldl (fun s g =>
        if ownStore d m then storeAcc s d .read g.1 g.2 [] (.vector d q x vd (g.1 - m)) (isElectrum m && decide (distance d q m < 2))
        else coreTxn s d .read g.1 g.2 [] (.vector d q x vd (g.1 - m))) s) d q x

/-- A vector-unit write, bit operation or accumulate (R202, R218, R219). -/
def vectorWrite (s : State) (d : Die) (q : CoreId) (x : SlotId) (c : Ctx) (vs : Fin 32) (addr n : Nat) (elem : ElemType) : State :=
  match c.translate addr n (storePerm c addr n) with
  | none => stopXlate s d q x addr
  | some m =>
    match wideReject s m n 4 elem with
    | some src => advance (rejectNarrow s d q x none src m) d q x
    | none =>
      let r := vectorReg s d q vs
      let data := ((r.bytes ++ List.replicate n 0).take n).map (fun b => (b, r.poison))
      let k := wideKind (reached s m) elem
      advance ((pieces d m n).foldl (fun s g =>
        let part := (data.drop (g.1 - m)).take g.2
        if ownStore d m then storeAcc s d k g.1 g.2 part (.store d q x) (isElectrum m && decide (distance d q m < 2))
        else coreTxn s d k g.1 g.2 part (.store d q x)) s) d q x

/-- Bytes of an element of a vector format. -/
def VecFmt.size : VecFmt → Nat
  | .fp32 => 4 | .bf16 => 2 | _ => 1

/-- The value of an element (R150, R151). -/
def VecFmt.value (f : VecFmt) (w : Nat) : Val :=
  match f with
  | .fp32 => Val.ofFp32 w | .bf16 => Val.ofBf16 w | .e5m2 => Val.ofE5M2 w | .e4m3 => Val.ofE4M3 w
  | .int8 => Val.ofInt (toSigned 8 w) | .uint8 => Val.ofInt w

/-- A value in a format (R152, R153). -/
def VecFmt.round (f : VecFmt) (v : Val) : Nat :=
  match f with
  | .fp32 => toFp32 v | .bf16 => toBf16 v | .e5m2 => toE5M2 v | .e4m3 => toE4M3 v
  | .int8 => (toInt8 v % 256).toNat | .uint8 => (toUint8 v).toNat

/-- The elements of a vector converted from one format to another (R152, R153). -/
def convertBytes (src dst : VecFmt) (bs : List Byte) : List Byte :=
  (List.range (bs.length / src.size)).flatMap (fun i =>
    leBytes dst.size (dst.round (src.value (ofLe ((bs.drop (i * src.size)).take src.size)))))

end Sys2Proof.Machine
end

