-- ==== Sys2Proof/Machine/Words.lean ====
section
/-! DEFINITION. The scalar instruction words whose encodings the spec gives (R133, R213, R291, R309, R351), and the other
register operations (R308, R310). -/

namespace Sys2Proof.Machine

/-- The register in bits 23:19 of a scalar word. -/
def regA (w : Half) : Fin 32 := ⟨bitsOf32 w 23 19 % 32, Nat.mod_lt _ (by decide)⟩
/-- The register in bits 18:14. -/
def regB (w : Half) : Fin 32 := ⟨bitsOf32 w 18 14 % 32, Nat.mod_lt _ (by decide)⟩
/-- The predicate in bits 13:11. -/
def predD (w : Half) : Fin 8 := ⟨bitsOf32 w 13 11 % 8, Nat.mod_lt _ (by decide)⟩

/-- The effect of a scalar word of the listed encodings, by its bits 31:24 and its register fields; of another opcode, none
is given here. -/
def wordEffect (d : Die) (q : CoreId) (w : Half) (s : State) : Option Res :=
  match bitsOf32 w 31 24 with
  | 0xE0 => some (execEissue d q (regA w) s)
  | 0xE1 => some (execEfence d q s)
  | 0xE2 => some (execEstat d q (regA w) s)
  | 0xE4 => some (execAfeed d q (regA w) (regB w) s)
  | 0xE5 => some (execWtord d q (regA w) s)
  | 0xE6 => some (execMcast d q (regA w) (regB w) s)
  | 0xE7 => some (execGacc d q (regA w) (regB w) s)
  | 0xE8 => some (execPflush d q s)
  | 0xE9 => some (execXpand d q (regA w) (regB w) s)
  | 0xEA => some (execTfeed d q (regA w) s)
  | 0xEC => some (execBeats d q (regA w) s)
  | 0xED => some (execTime d q (regA w) s)
  | 0xEE => some (execBwait d q (regA w) s)
  | 0xEF => some (execTwait d q (regA w) s)
  | 0xF0 => some (execDpost d q (regA w) s)
  | 0xF1 => some (execDstat d q (regA w) s)
  | 0xF4 => some (execStep d q (regA w) (regB w) s)
  | 0xF5 => some (execStepend d q (regA w) s)
  | 0xF8 => some (execSignal d q (regA w) s)
  | 0xF9 => some (execWait d q (regA w) (regB w) (predD w) s)
  | 0xFA => some (execConsume d q (regA w) s)
  | 0xFB => some (execCread d q (regA w) (regB w) s)
  | 0xFC => some (execBarrive d q (regA w) s)
  | _ => none

/-- What a register operation does once it issues (R308, R310; log entry 11): a result computed from a poisoned register is
marked (log entry 44). -/
def scalarEffect (d : Die) (q : CoreId) (op : ScalarOp) (srcs : List (Fin 32)) (x : SlotId) (c : Ctx) (s : State) : State :=
  match op with
  | .reg rd v => advance (s.setCtx d q x (c.wrMark rd v (c.anyBad srcs))) d q x
  | .pred p b => advance (s.setCtx d q x (c.wrP p.val b)) d q x
  | .vec vd bs vs => withVectors s d q x (vd :: vs) fun s =>
      advance (setVector s d q vd ⟨bs, c.anyBad srcs || vs.any (fun v => (vectorReg s d q v).poison)⟩) d q x
  | .vread vd a n => withVectors s d q x [vd] fun s => vectorRead s d q x c vd a n
  | .vwrite vs a n e => withVectors s d q x [vs] fun s => vectorWrite s d q x c vs a n e
  | .vcvt vd vs f g => withVectors s d q x [vd, vs] fun s =>
      let r := vectorReg s d q vs
      advance (setVector s d q vd ⟨convertBytes f g r.bytes, r.poison⟩) d q x
  | .word w => if illegalWord w then stopIllegal s d q x else advance s d q x
  | .illegal => stopIllegal s d q x

/-- SCALAR_OP (R308, R310): a register, predicate, compare or move operation, whose encodings no rule gives (log entry 11);
or a scalar word by its bits, which is the instruction that R133, R213, R291, R309 or R351 lists for them, or is illegal. -/
def execScalarOp (d : Die) (q : CoreId) (op : ScalarOp) (srcs : List (Fin 32)) (s : State) : Res :=
  let other : Res := .next (withIssue s d q srcs fun x c s => scalarEffect d q op srcs x c s)
  match op with
  | .word w => if illegalWord w then other else (wordEffect d q w s).getD other
  | _ => other

end Sys2Proof.Machine
end

