-- ==== Sys2Proof/Machine/Dispatch.lean ====
section
/-! DEFINITION. One arm per command: the meaning it calls. -/

namespace Sys2Proof.Machine

/-- A command's effect on everything but the queue. -/
def exec (i : Instr) (s : State) : Host.Outcome State Fault Refusal :=
  match i with
  | .powerOn => Sys2Proof.Machine.execPowerOn s
  | .romPhase bad straps => Sys2Proof.Machine.execRomPhase bad straps s
  | .imagePhase => Sys2Proof.Machine.execImagePhase s
  | .ctrlPhase linked => Sys2Proof.Machine.execCtrlPhase linked s
  | .lpdPhase bad => Sys2Proof.Machine.execLpdPhase bad s
  | .hbmPhase bad => Sys2Proof.Machine.execHbmPhase bad s
  | .diePhase bad => Sys2Proof.Machine.execDiePhase bad s
  | .servicePhase => Sys2Proof.Machine.execServicePhase s
  | .ringPhase ports => Sys2Proof.Machine.execRingPhase ports s
  | .inputLoss => Sys2Proof.Machine.execInputLoss s
  | .inputRange => Sys2Proof.Machine.execInputRange s
  | .phaseLoss k idx => Sys2Proof.Machine.execPhaseLoss k idx s
  | .powerMeasure vin iin pin => Sys2Proof.Machine.execPowerMeasure vin iin pin s
  | .capStepDown => Sys2Proof.Machine.execCapStepDown s
  | .capStepUp => Sys2Proof.Machine.execCapStepUp s
  | .capFloor => Sys2Proof.Machine.execCapFloor s
  | .thermalSensorRead t0 t1 th => Sys2Proof.Machine.execThermalSensorRead t0 t1 th s
  | .thermalStepDown => Sys2Proof.Machine.execThermalStepDown s
  | .thermalStepUp => Sys2Proof.Machine.execThermalStepUp s
  | .thermalTrip => Sys2Proof.Machine.execThermalTrip s
  | .coolantRead inlet outlet => Sys2Proof.Machine.execCoolantRead inlet outlet s
  | .coolantOutOfRange => Sys2Proof.Machine.execCoolantOutOfRange s
  | .railSettled d => Sys2Proof.Machine.execRailSettled d s
  | .calTick d pred big => Sys2Proof.Machine.execCalTick d pred big s
  | .vregRezero big => Sys2Proof.Machine.execVregRezero big s
  | .opticsBiasTrack big => Sys2Proof.Machine.execOpticsBiasTrack big s
  | .rateIntervalEnd d => Sys2Proof.Machine.execRateIntervalEnd d s
  | .setMvWrite d mv => Sys2Proof.Machine.execSetMvWrite d mv s
  | .calSave f => Sys2Proof.Machine.execCalSave f s
  | .calSaveDone payload => Sys2Proof.Machine.execCalSaveDone payload s
  | .calErase f => Sys2Proof.Machine.execCalErase f s
  | .resetN => Sys2Proof.Machine.execResetN s
  | .refclkLoss => Sys2Proof.Machine.execRefclkLoss s
  | .select addr => Sys2Proof.Machine.execSelect addr s
  | .read => Sys2Proof.Machine.execRead s
  | .straps => Sys2Proof.Machine.execStraps s
  | .tapBypass => Sys2Proof.Machine.execTapBypass s
  | .tapIdcode => Sys2Proof.Machine.execTapIdcode s
  | .tapSamplePreload => Sys2Proof.Machine.execTapSamplePreload s
  | .tapExtest => Sys2Proof.Machine.execTapExtest s
  | .tapExtestPulse => Sys2Proof.Machine.execTapExtestPulse s
  | .tapExtestTrain => Sys2Proof.Machine.execTapExtestTrain s
  | .tapClamp => Sys2Proof.Machine.execTapClamp s
  | .tapHighz => Sys2Proof.Machine.execTapHighz s
  | .registerWrite w a v => Sys2Proof.Machine.execRegisterWrite w a v s
  | .expertUnlock b d => Sys2Proof.Machine.execExpertUnlock b d s
  | .engClrCounts d => Sys2Proof.Machine.execEngClrCounts d s
  | .scvClrCounts d => Sys2Proof.Machine.execScvClrCounts d s
  | .fdxClrCounts d => Sys2Proof.Machine.execFdxClrCounts d s
  | .dmaClrCounts d => Sys2Proof.Machine.execDmaClrCounts d s
  | .storeClrCounts d st => Sys2Proof.Machine.execStoreClrCounts d st s
  | .syncClrCounts d => Sys2Proof.Machine.execSyncClrCounts d s
  | .hbmClrCounts d => Sys2Proof.Machine.execHbmClrCounts d s
  | .lpdClrCounts => Sys2Proof.Machine.execLpdClrCounts s
  | .mldClrCounts => Sys2Proof.Machine.execMldClrCounts s
  | .fcuClrCounts => Sys2Proof.Machine.execFcuClrCounts s
  | .ptcClrCounts => Sys2Proof.Machine.execPtcClrCounts s
  | .gradeMaskWrite g => Sys2Proof.Machine.execGradeMaskWrite g s
  | .coreRun d q => Sys2Proof.Machine.execCoreRun d q s
  | .coreHalt d q => Sys2Proof.Machine.execCoreHalt d q s
  | .qlimitWrite d q n => Sys2Proof.Machine.execQlimitWrite d q n s
  | .scalarOp d q op srcs => Sys2Proof.Machine.execScalarOp d q op srcs s
  | .branch d q taken target => Sys2Proof.Machine.execBranch d q taken target s
  | .narrowLoad d q rd addr lg sx srcs => Sys2Proof.Machine.execNarrowLoad d q rd addr lg sx srcs s
  | .narrowStore d q addr lg v srcs => Sys2Proof.Machine.execNarrowStore d q addr lg v srcs s
  | .pflush d q => Sys2Proof.Machine.execPflush d q s
  | .combineEntryWrite d q => Sys2Proof.Machine.execCombineEntryWrite d q s
  | .storeAccessServe d idx u => Sys2Proof.Machine.execStoreAccessServe d idx u s
  | .storeReadReturn d idx => Sys2Proof.Machine.execStoreReadReturn d idx s
  | .rmwWriteback d idx => Sys2Proof.Machine.execRmwWriteback d idx s
  | .scrubWriteback d => Sys2Proof.Machine.execScrubWriteback d s
  | .drainEntryWrite d q idx => Sys2Proof.Machine.execDrainEntryWrite d q idx s
  | .storeClear d => Sys2Proof.Machine.execStoreClear d s
  | .storeClearDone d => Sys2Proof.Machine.execStoreClearDone d s
  | .storeCtrlWrite d invar combining => Sys2Proof.Machine.execStoreCtrlWrite d invar combining s
  | .bistRegionStart d => Sys2Proof.Machine.execBistRegionStart d s
  | .bistSave d idx u => Sys2Proof.Machine.execBistSave d idx u s
  | .bistMarchOp d idx differs => Sys2Proof.Machine.execBistMarchOp d idx differs s
  | .bistRestore d idx => Sys2Proof.Machine.execBistRestore d idx s
  | .repairForce d st row => Sys2Proof.Machine.execRepairForce d st row s
  | .eissue d q sA => Sys2Proof.Machine.execEissue d q sA s
  | .efence d q => Sys2Proof.Machine.execEfence d q s
  | .estat d q sD => Sys2Proof.Machine.execEstat d q sD s
  | .nop d q => Sys2Proof.Machine.execNop d q s
  | .mmaF8 d q => Sys2Proof.Machine.execMmaF8 d q s
  | .mmaI8 d q => Sys2Proof.Machine.execMmaI8 d q s
  | .mmaB4 d q => Sys2Proof.Machine.execMmaB4 d q s
  | .mmaBf16 d q => Sys2Proof.Machine.execMmaBf16 d q s
  | .distL1 d q => Sys2Proof.Machine.execDistL1 d q s
  | .distL2 d q => Sys2Proof.Machine.execDistL2 d q s
  | .cmpMin d q => Sys2Proof.Machine.execCmpMin d q s
  | .cmpMax d q => Sys2Proof.Machine.execCmpMax d q s
  | .cmpEqc d q => Sys2Proof.Machine.execCmpEqc d q s
  | .topkSel d q => Sys2Proof.Machine.execTopkSel d q s
  | .slide d q => Sys2Proof.Machine.execSlide d q s
  | .afeed d q sA sB => Sys2Proof.Machine.execAfeed d q sA sB s
  | .afeedAccessIssue d q => Sys2Proof.Machine.execAfeedAccessIssue d q s
  | .wtord d q sA => Sys2Proof.Machine.execWtord d q sA s
  | .mcast d q sA sB => Sys2Proof.Machine.execMcast d q sA sB s
  | .busRequestLookup d idx => Sys2Proof.Machine.execBusRequestLookup d idx s
  | .busLineServe d idx => Sys2Proof.Machine.execBusLineServe d idx s
  | .mcastTimeout d idx => Sys2Proof.Machine.execMcastTimeout d idx s
  | .gacc d q sA sB => Sys2Proof.Machine.execGacc d q sA sB s
  | .gaccLineAccumulate d idx => Sys2Proof.Machine.execGaccLineAccumulate d idx s
  | .xpand d q sA sB => Sys2Proof.Machine.execXpand d q sA sB s
  | .tfeed d q sA => Sys2Proof.Machine.execTfeed d q sA s
  | .expanderRequestStart d q => Sys2Proof.Machine.execExpanderRequestStart d q s
  | .tileTransfer d q => Sys2Proof.Machine.execTileTransfer d q s
  | .dpost d q sA => Sys2Proof.Machine.execDpost d q sA s
  | .dmaPost d c addr => Sys2Proof.Machine.execDmaPost d c addr s
  | .dstat d q sD => Sys2Proof.Machine.execDstat d q sD s
  | .dmaCopy d c => Sys2Proof.Machine.execDmaCopy d c s
  | .dmaFill d c => Sys2Proof.Machine.execDmaFill d c s
  | .dmaPack d c => Sys2Proof.Machine.execDmaPack d c s
  | .dmaBlocks d c => Sys2Proof.Machine.execDmaBlocks d c s
  | .dmaDescriptorComplete d c idx => Sys2Proof.Machine.execDmaDescriptorComplete d c idx s
  | .transactionIssue d idx => Sys2Proof.Machine.execTransactionIssue d idx s
  | .transactionComplete d idx u => Sys2Proof.Machine.execTransactionComplete d idx u s
  | .windowOpen w v => Sys2Proof.Machine.execWindowOpen w v s
  | .windowOpenRequest ring pos path base size perm job => Sys2Proof.Machine.execWindowOpenRequest ring pos path base size perm job s
  | .windowOpenReply w accepted => Sys2Proof.Machine.execWindowOpenReply w accepted s
  | .windowOpenTimeout w => Sys2Proof.Machine.execWindowOpenTimeout w s
  | .windowClose w => Sys2Proof.Machine.execWindowClose w s
  | .rimpWrite idx second v => Sys2Proof.Machine.execRimpWrite idx second v s
  | .beats d q sD => Sys2Proof.Machine.execBeats d q sD s
  | .time d q sD => Sys2Proof.Machine.execTime d q sD s
  | .bwait d q sA => Sys2Proof.Machine.execBwait d q sA s
  | .twait d q sA => Sys2Proof.Machine.execTwait d q sA s
  | .contextReady d q x => Sys2Proof.Machine.execContextReady d q x s
  | .step d q sA sB => Sys2Proof.Machine.execStep d q sA sB s
  | .stepend d q sA => Sys2Proof.Machine.execStepend d q sA s
  | .stepArrival d idx => Sys2Proof.Machine.execStepArrival d idx s
  | .stepDeadline d id => Sys2Proof.Machine.execStepDeadline d id s
  | .stepAbort d id => Sys2Proof.Machine.execStepAbort d id s
  | .start d q x => Sys2Proof.Machine.execStart d q x s
  | .stop d q x => Sys2Proof.Machine.execStop d q x s
  | .stopTakesEffect d q x => Sys2Proof.Machine.execStopTakesEffect d q x s
  | .save d q x addr => Sys2Proof.Machine.execSave d q x addr s
  | .saveDone d q x => Sys2Proof.Machine.execSaveDone d q x s
  | .restore d q x addr => Sys2Proof.Machine.execRestore d q x addr s
  | .restoreDone d q x => Sys2Proof.Machine.execRestoreDone d q x s
  | .discard d q x => Sys2Proof.Machine.execDiscard d q x s
  | .tsSend => Sys2Proof.Machine.execTsSend s
  | .ts h w0 w1 w2 => Sys2Proof.Machine.execTs h w0 w1 w2 s
  | .tbLock => Sys2Proof.Machine.execTbLock s
  | .tbUpstreamTimeout => Sys2Proof.Machine.execTbUpstreamTimeout s
  | .tbConfWrite v => Sys2Proof.Machine.execTbConfWrite v s
  | .tbSet ns => Sys2Proof.Machine.execTbSet ns s
  | .signal d q sA => Sys2Proof.Machine.execSignal d q sA s
  | .signalDepart d q => Sys2Proof.Machine.execSignalDepart d q s
  | .signalPacket d => Sys2Proof.Machine.execSignalPacket d s
  | .fencedSignalApply d idx => Sys2Proof.Machine.execFencedSignalApply d idx s
  | .wait d q sA sB pD => Sys2Proof.Machine.execWait d q sA sB pD s
  | .waitTimeout d q x => Sys2Proof.Machine.execWaitTimeout d q x s
  | .consume d q sA => Sys2Proof.Machine.execConsume d q sA s
  | .cread d q sD sA => Sys2Proof.Machine.execCread d q sD sA s
  | .barrive d q sA => Sys2Proof.Machine.execBarrive d q sA s
  | .barrierArrival d idx => Sys2Proof.Machine.execBarrierArrival d idx s
  | .barrierArrivalPacket => Sys2Proof.Machine.execBarrierArrivalPacket s
  | .barrierReleasePacket d => Sys2Proof.Machine.execBarrierReleasePacket d s
  | .barrierArm d b v => Sys2Proof.Machine.execBarrierArm d b v s
  | .barrierDisarm d b => Sys2Proof.Machine.execBarrierDisarm d b s
  | .barrierForce d b => Sys2Proof.Machine.execBarrierForce d b s
  | .counterWrite d n v => Sys2Proof.Machine.execCounterWrite d n v s
  | .syncClear d => Sys2Proof.Machine.execSyncClear d s
  | .xlEntryWrite d v => Sys2Proof.Machine.execXlEntryWrite d v s
  | .cohortWrite c hold rowsMax => Sys2Proof.Machine.execCohortWrite c hold rowsMax s
  | .cohortRelease c => Sys2Proof.Machine.execCohortRelease c s
  | .circEnable => Sys2Proof.Machine.execCircEnable s
  | .circDisable => Sys2Proof.Machine.execCircDisable s
  | .blockFrame h sot eot q sub bytes => Sys2Proof.Machine.execBlockFrame h sot eot q sub bytes s
  | .frameTransmit p e => Sys2Proof.Machine.execFrameTransmit p e s
  | .idle h => Sys2Proof.Machine.execIdle h s
  | .blockLandingStart x => Sys2Proof.Machine.execBlockLandingStart x s
  | .blockResident d idx => Sys2Proof.Machine.execBlockResident d idx s
  | .layerRetire x => Sys2Proof.Machine.execLayerRetire x s
  | .blockForwarded x => Sys2Proof.Machine.execBlockForwarded x s
  | .gradientApply d idx block opt => Sys2Proof.Machine.execGradientApply d idx block opt s
  | .periodRefresh => Sys2Proof.Machine.execPeriodRefresh s
  | .sampleComplete c rows => Sys2Proof.Machine.execSampleComplete c rows s
  | .admissionTick => Sys2Proof.Machine.execAdmissionTick s
  | .portSignalDetect p => Sys2Proof.Machine.execPortSignalDetect p s
  | .portTrained p spares => Sys2Proof.Machine.execPortTrained p spares s
  | .portTrainTimeout p => Sys2Proof.Machine.execPortTrainTimeout p s
  | .portEnable p => Sys2Proof.Machine.execPortEnable p s
  | .portDisable p => Sys2Proof.Machine.execPortDisable p s
  | .id h w0 w2 => Sys2Proof.Machine.execId h w0 w2 s
  | .laneSilence p lanes => Sys2Proof.Machine.execLaneSilence p lanes s
  | .laneUncorrLimit p l n => Sys2Proof.Machine.execLaneUncorrLimit p l n s
  | .laneMarginLow p l margin => Sys2Proof.Machine.execLaneMarginLow p l margin s
  | .forceSub p l => Sys2Proof.Machine.execForceSub p l s
  | .subst h w0 => Sys2Proof.Machine.execSubst h w0 s
  | .substDone h w0 => Sys2Proof.Machine.execSubstDone h w0 s
  | .adapt h w0 => Sys2Proof.Machine.execAdapt h w0 s
  | .adaptRequest p l idx up => Sys2Proof.Machine.execAdaptRequest p l idx up s
  | .nak h w0 => Sys2Proof.Machine.execNak h w0 s
  | .partAnn h w0 w1 => Sys2Proof.Machine.execPartAnn h w0 w1 s
  | .linkRetryTimeout p lane => Sys2Proof.Machine.execLinkRetryTimeout p lane s
  | .rwr h headOk eot p => Sys2Proof.Machine.execRwr h headOk eot p s
  | .rrd h headOk p => Sys2Proof.Machine.execRrd h headOk p s
  | .rrsp h headOk p => Sys2Proof.Machine.execRrsp h headOk p s
  | .sig h headOk p => Sys2Proof.Machine.execSig h headOk p s
  | .admitModule ring epoch => Sys2Proof.Machine.execAdmit ring epoch s
  | .revoke => Sys2Proof.Machine.execRevoke s
  | .formStart segments => Sys2Proof.Machine.execFormStart segments s
  | .form h w0 => Sys2Proof.Machine.execForm h w0 s
  | .formTimeout => Sys2Proof.Machine.execFormTimeout s
  | .skipE => Sys2Proof.Machine.execSkipE s
  | .skipW => Sys2Proof.Machine.execSkipW s
  | .pass => Sys2Proof.Machine.execPass s
  | .restoreE => Sys2Proof.Machine.execRestoreE s
  | .restoreW => Sys2Proof.Machine.execRestoreW s
  | .restoreSwitchover east => Sys2Proof.Machine.execRestoreSwitchover east s
  | .bypass h w0 => Sys2Proof.Machine.execBypass h w0 s
  | .restoreNote h w0 => Sys2Proof.Machine.execRestoreNote h w0 s
  | .gapBound h w0 => Sys2Proof.Machine.execGapBound h w0 s
  | .gapReq h w0 w1 w2 => Sys2Proof.Machine.execGapReq h w0 w1 w2 s
  | .gapDone h w0 w1 => Sys2Proof.Machine.execGapDone h w0 w1 s
  | .reinjTimeout => Sys2Proof.Machine.execReinjTimeout s
  | .spliceArm => Sys2Proof.Machine.execSpliceArm s
  | .spliceAbort => Sys2Proof.Machine.execSpliceAbort s
  | .splice h w0 => Sys2Proof.Machine.execSplice h w0 s
  | .spliced h w0 => Sys2Proof.Machine.execSpliced h w0 s
  | .retrainStepStart t => Sys2Proof.Machine.execRetrainStepStart t s
  | .retrainStepForced t => Sys2Proof.Machine.execRetrainStepForced t s
  | .retrainStepEnd t lock => Sys2Proof.Machine.execRetrainStepEnd t lock s
  | .hbmTempRead n temp crit => Sys2Proof.Machine.execHbmTempRead n temp crit s
  | .hbmRetire n => Sys2Proof.Machine.execHbmRetire n s
  | .stackRetired n => Sys2Proof.Machine.execStackRetired n s
  | .ctrlLightDetect => Sys2Proof.Machine.execCtrlLightDetect s
  | .ctrlLinked => Sys2Proof.Machine.execCtrlLinked s
  | .ctrlLost => Sys2Proof.Machine.execCtrlLost s
  | .hello h => Sys2Proof.Machine.execHello h s
  | .job h job vocab => Sys2Proof.Machine.execJob h job vocab s
  | .load h addr data => Sys2Proof.Machine.execLoad h addr data s
  | .prompt h b => Sys2Proof.Machine.execPrompt h b s
  | .ack h entries => Sys2Proof.Machine.execAck h entries s
  | .evictCancel h id => Sys2Proof.Machine.execEvictCancel h id s
  | .evictPark h id => Sys2Proof.Machine.execEvictPark h id s
  | .regRd h a => Sys2Proof.Machine.execRegRd h a s
  | .regWr h a v => Sys2Proof.Machine.execRegWr h a v s
  | .dumpReq h mask => Sys2Proof.Machine.execDumpReq h mask s
  | .faultReport given bad => Sys2Proof.Machine.execFaultReport given bad s
  | .blockResetComplete b d => Sys2Proof.Machine.execBlockResetComplete b d s
  | .resetHoldExpiry => Sys2Proof.Machine.execResetHoldExpiry s
  | .dieHeartbeat d => Sys2Proof.Machine.execDieHeartbeat d s
  | .heartbeatTimeout d => Sys2Proof.Machine.execHeartbeatTimeout d s
  | .faultAck classes seq => Sys2Proof.Machine.execFaultAck classes seq s
  | .serviceHandlerDone => Sys2Proof.Machine.execServiceHandlerDone s
  | .pinRelease => Sys2Proof.Machine.execPinRelease s
  | .pinSense a b => Sys2Proof.Machine.execPinSense a b s
  | .faultInject id die unit block detail => Sys2Proof.Machine.execFaultInject id die unit block detail s
  | .resume => Sys2Proof.Machine.execResume s
  | .fuseAdvance target => Sys2Proof.Machine.execFuseAdvance target s
  | .fuseRevokeSlot k => Sys2Proof.Machine.execFuseRevokeSlot k s
  | .fuseBlowDone => Sys2Proof.Machine.execFuseBlowDone s
  | .attestGo => Sys2Proof.Machine.execAttestGo s
  | .attest => Sys2Proof.Machine.execAttest s
  | .imageReq => Sys2Proof.Machine.execImageReq s
  | .imageData h off data => Sys2Proof.Machine.execImageData h off data s
  | .imageCommit h total => Sys2Proof.Machine.execImageCommit h total s
  | .imageVerifyDone => Sys2Proof.Machine.execImageVerifyDone s
  | .imageAbort h => Sys2Proof.Machine.execImageAbort h s
  | .repairRecordWrite => Sys2Proof.Machine.execRepairRecordWrite s
  | .reclaim byCommand => Sys2Proof.Machine.execReclaim byCommand s
  | .reclaimComplete => Sys2Proof.Machine.execReclaimComplete s
  | .epcTableValidate d t width tag => Sys2Proof.Machine.execEpcTableValidate d t width tag s
  | .epcTableInvalidate d t => Sys2Proof.Machine.execEpcTableInvalidate d t s
  | .calEraseDone => Sys2Proof.Machine.execCalEraseDone s
  | .refclkRestored => Sys2Proof.Machine.execRefclkRestored s
  | .revokeNotify ring pos w base => Sys2Proof.Machine.execRevokeNotify ring pos w base s
  | .packetRefusal d w xfer pkt => Sys2Proof.Machine.execPacketRefusal d w xfer pkt s
  | .smbusAlertResponse => Sys2Proof.Machine.execSmbusAlertResponse s
  | .i3cDynamicAddress addr => Sys2Proof.Machine.execI3cDynamicAddress addr s

end Sys2Proof.Machine
end

