-- ==== Sys2Proof/Machine/Beat.lean ====
section
/-! DEFINITION. What a completed beat of a compute die does by itself (R197, R206, R301, R303): what ended with the beat takes
effect, its waits and frozen beats are counted, and the next beat begins. -/

namespace Sys2Proof.Machine

/-- Every core of a die that has left its reset state, changed. -/
def overCores (s : State) (d : Die) (f : CoreId → State → State) : State :=
  (s.cores.filter (fun e => e.1.1 = d)).foldl (fun s e => f e.1.2 s) s

/-- A context that has waited the whole beat for a full queue is charged for it (R134, R211, R261, R270, R294). -/
def chargeWaits (s : State) (d : Die) : State :=
  (s.ctxs.filter (fun e => e.1.1 = d)).foldl (fun s e =>
    match e.2.st, e.2.waiting with
    | .wait, some (.queueFull w) => if queueHasRoom s d e.1.2.1 w then s else chargeStall s d e.1.2.1 e.1.2.2
    | _, _ => s) s

/-- Port holds (R273, R294): a core's access whose slot this beat was, and whose port another access took, is held. -/
def chargePorts (s : State) (d : Die) : State :=
  let held := (s.die d).accs.filter (fun a => (freeSlot s d a).isSome
    && (match a.port with | some p => (s.die d).used.contains p | none => false))
  held.foldl (fun s a => match a.dest.core with
    | some (_, q) => s.addFld (.fdxPortHold d q) F.fdxPortHold_COUNT 1
    | none => s) s

/-- A core's beat counted as frozen, by its cause (R131, R132, R185, R303). -/
def countFrozen (s : State) (d : Die) (q : CoreId) (k : FreezeCause) : State :=
  let s := match k with
    | .dry => s.addFld (.engFreezeDry d q) F.engFreezeDry_COUNT 1
    | .drain => s.addFld (.engFreezeDrain d q) F.engFreezeDrain_COUNT 1
    | .tile =>
      let s := s.addFld (.engFreezeTile d q) F.engFreezeTile_COUNT 1
      if waitsExpander (s.core d q) then s.addFld (.fdxExpBehind d q) F.fdxExpBehind_COUNT 1 else s
  let c := s.core d q
  s.setCore d q { c with engFrozen := c.engFrozen + 1 }

/-- The frozen beat of a core in the counts of the open steps that still wait for it (R328). -/
def countSteps (s : State) (d : Die) (q : CoreId) : State :=
  let x := s.die d
  s.setDie d { x with steps := x.steps.map (fun t =>
    if t.mask / 2 ^ q.val % 2 = 1 ∧ t.arrived / 2 ^ q.val % 2 = 0 then
      { t with frozen := t.frozen.put q.val (t.frozen.at_ 0 q.val + 1) } else t) }

/-- The frozen beats of a die's cores (R131, R142, R303, R328). -/
def countFreezes (s : State) (d : Die) : State :=
  overCores s d (fun q s =>
    let s' := s.setFld (.engCoreStatus d q) F.engCoreStatus_FROZEN (headBlock s d q).isSome.toNat
    match headBlock s d q with
    | some k => countSteps (countFrozen s' d q k) d q
    | none => s')

/-- Bus requests that wait for their block, and transactions that wait for an entry, each for this beat (R260, R290,
R294). -/
def chargeQueues (s : State) (d : Die) : State :=
  let n := (s.die d).busQ.countP (fun r => !r.active && decide (r.since < s.beat d) && !lookupReady s d r)
  let m := (s.die d).txns.countP (fun t => !t.issued && windowCarries s t && (freeEntryFor s d t).isNone)
  (s.addFld (.fdxMcastWait d) F.fdxMcastWait_COUNT n).addFld (.dmaTxnStatus d) F.dmaTxnStatus_WAITS m

/-- The input of every expander of a die for one beat (R179). -/
def feedExpanders (s : State) (d : Die) : State :=
  overCores s d (fun q s => s.setCore d q (expInput (s.core d q) (s.beat d)))

/-- The PRIO values written on a beat take effect on the next one (R338). -/
def takePrios (s : State) (d : Die) : State :=
  { s with ctxs := s.ctxs.map (fun e => if e.1.1 = d then
      (e.1, { e.2 with prio := e.2.prioShown, prioNext := none }) else e) }

/-- The next beat begins: no slot of it is used, and new PRIO values, a new CAL_MHZ and the barriers' events of the beat take
effect (R301, R305, R338, R373). -/
def nextBeat (s : State) (d : Die) : State :=
  let x := s.die d
  let s := s.setDie d { x with used := [], closedNow := [], calNew := none }
  let s := barsDue ((takePrios s d).setReg (.scvBeat d) (s.reg (.scvBeat d) + 1)) d
  match x.calNew with
  | some v => takeCal s d v
  | none => s

/-- One beat of a die (R301). -/
def dieBeat (d : Die) (s : State) : State :=
  let s := chargeQueues (countFreezes (chargePorts (chargeWaits (closeBeat (syncBeat s d) d) d) d) d) d
  feedExpanders (nextBeat (applyEffects s d) d) d

/-- n beats of a die. -/
def dieBeats (d : Die) : Nat → State → State
  | 0, s => s
  | n + 1, s => dieBeats d n (dieBeat d s)

end Sys2Proof.Machine
end

