-- ==== Sys2Proof/Machine/Tick.lean ====
section
/-! DEFINITION. What one nanosecond of the module timebase does by itself (log entry 1). -/

namespace Sys2Proof.Machine

/-- The beat rate of a die in Mbeat/s: at or above its floor and CAL_MHZ, by an amount no rule gives (R304, R305; log entry
1). -/
def beatRate (s : State) (d : Die) : Nat := max (floorMhz (effMv s d)) (calMhz s d) + Config.beatSurplus s.fresh

/-- One nanosecond of a powered die out of reset: it counts its beats, which never stop (R301), and its replica follows the
timebase, 0 to 16 ns behind it and never backward (R312). -/
def tickDie (s : State) (d : Die) : State :=
  if s.readyBit (7 + d.val) then
    let p := (s.die d).phase + beatRate s d
    let lag := Config.replicaLag s.fresh % 17
    let x := s.die d
    let s := dieBeats d (p / 1000) ((s.setDie d { x with phase := p % 1000 }).burn 1)
    s.setReg (.scvTime d) (BitVec.ofNat 64 (max (s.time d) (s.now - lag)))
  else s

/-- The rate correction of the timebase in parts per million (R315): toward the upstream neighbour, by an amount no rule
gives, at most 500 in ACQUIRE and 50 in LOCKED; kept in HOLDOVER. -/
def trimRate (s : State) : State :=
  let o := toSigned 32 (s.fld .ptcTbStatus F.ptcTbStatus_OFFSET_NS)
  let toward (most : Nat) : Int :=
    let n : Int := (Config.freeNat s.fresh % (most + 1) : Nat)
    if 0 < o then n else if o < 0 then -n else max (-most) (min most s.pow.tbRate)
  let set (s : State) (r : Int) : State := { s with pow := { s.pow with tbRate := r } }
  match tbState s with
  | 1 => (set s (toward 500)).burn 1
  | 2 => (set s (toward 50)).burn 1
  | 3 => s
  | _ => set s 0

/-- The timebase advanced by one nanosecond of the module's own clock at its corrected rate (R311, R315). -/
def tickTime (s : State) : State :=
  let s := trimRate s
  let p := (s.pow.tbPhase + 1000000 + s.pow.tbRate).toNat
  ({ s with pow := { s.pow with tbPhase := p % 1000000 } }).setReg .ptcTbTime (s.reg .ptcTbTime + BitVec.ofNat 64 (p / 1000000))

/-- The stage that feeds a die's rail is up or degraded (R547). -/
def railUp (s : State) (d : Die) : Bool :=
  let st := s.fld (.ptcStage ⟨1 + d.val, by omega⟩) F.ptcStage_STATE
  st == 1 || st == 2

/-- One microsecond of a rail: 1 mV toward what it is driven to (R552); when it came within 5 mV of EFF_MV is kept
for R553. -/
def tickRail (s : State) (d : Die) : State :=
  if railUp s d then
    let act := s.fld (.ptcDieV d) F.ptcDieV_ACT_MV
    let goal := railTarget s d
    let act' := if act < goal then act + 1 else if goal < act then act - 1 else act
    let s := if act' = act then s else s.setFld (.ptcDieV d) F.ptcDieV_ACT_MV act'
    let near := decide (act' ≤ effMv s d + 5 ∧ effMv s d ≤ act' + 5)
    { s with pow := { s.pow with railSince :=
        if near then s.pow.railSince.put d (s.pow.railSince.at_ s.now d) else s.pow.railSince.drop_ d } }
  else s

/-- One nanosecond (R311): nothing happens in a module that is off (R546). Remote frames that waited with the streams land
(R661). -/
def tick (s : State) : State :=
  if s.pow.off then s
  else
    let was := s.now / 1000
    let s := tickTime s
    let s := if s.now / 1000 ≠ was then tickRail (tickRail s 0) 1 else s
    flushHeld (tickDie (tickDie s 0) 1)

end Sys2Proof.Machine
end

