-- ==== Sys2Proof/Machine/Step.lean ====
section
/-! DEFINITION. One step: the command at the front of the queue, or one nanosecond. -/

namespace Sys2Proof.Machine

/-- The command at the front of the queue takes effect; with an empty queue the message of the control link whose turn has
come is handed on, and without one a nanosecond passes (log entries 1 and 54). -/
def step (s : State) : Host.Outcome State Fault Refusal :=
  match s.pending with
  | c :: rest => exec c { s with pending := rest }
  | [] => match dueMessage s with
    | some (c, s) => exec c s
    | none => .next (tick s)

/-- The command that a word spells put at the front of the queue; the command table gives no bits (log entry 20). -/
def State.withFetchWord (s : State) (nbits w : Nat) : State :=
  match Sys2Proof.decodeTableWord nbits w with
  | some c => { s with pending := c :: s.pending }
  | none => s

end Sys2Proof.Machine
end

