-- ==== Sys2Proof/WellFormed.lean ====
section
/-! DEFINITION. When a command's operands fit the fields the spec gives them. -/

namespace Sys2Proof

open Machine

/-- A value fits a register field (R18). -/
def Machine.Fld.fits (f : Fld) (v : Nat) : Bool := decide (v < 2 ^ (f.hi + 1 - f.lo))

/-- The header fields of an arriving frame fit their bits (R395), and its lane is one of the port's (R389). -/
def rxOk (h : RxHead) : Bool :=
  decide (h.phys < lanesOf h.port) && decide (h.arc < 32) && decide (h.role < 4) && decide (h.lseq < 1024)
    && decide (h.lack < 1024) && decide (h.cpart < 4) && decide (h.ccnt < 256)

/-- The fields of a remote head fit their bits, and its data the frame (R396, R405). -/
def remoteOk (p : RemotePkt) : Bool :=
  decide (p.srcRing < 8) && decide (p.srcPos < 512) && decide (p.srcDie < 2) && decide (p.tgtRing < 8)
    && decide (p.tgtPos < 512) && decide (p.xfer < 2 ^ 15) && decide (p.pkt < 2 ^ 24) && decide (p.op < 16)
    && decide (p.etype < 4) && decide (p.len ≤ 256) && decide (p.addr < 2 ^ 48) && decide (p.data.length ≤ 224)

/-- The header fields of a control frame fit their bits (R474). -/
def ctrlOk (h : CtrlHead) : Bool :=
  decide (h.typ < 16) && decide (h.tag < 2 ^ 24) && decide (h.sub < 256) && decide (h.lseq < 1024) && decide (h.lack < 1024)
    && decide (h.ccnt < 256)

/-- The header fields of a frame of either kind of link fit their bits. -/
def linkOk (h : LinkHead) : Bool := match h with | .port h => rxOk h | .ctrl h => ctrlOk h

/-- The header fields of a message fit their bits (R477), and so do those of the frame of it that has come. -/
def msgOk (h : MsgHead) : Bool :=
  decide (h.role < 4) && decide (h.session < 65536) && decide (h.rtag < 65536)
    && (match h.frame with | some f => ctrlOk f | none => true)

/-- A vector register takes at most the bytes of one wide access (R202). -/
def opOk (op : ScalarOp) : Bool :=
  match op with
  | .vec _ bytes _ => decide (bytes.length ≤ 1024)
  | _ => true

/-- Every operand of a command fits the field the spec gives it. -/
def wellFormed (c : Instr) : Bool :=
  match c with
  | .powerOn => true
  | .romPhase _ straps => decide (straps < 64)
  | .imagePhase => true
  | .ctrlPhase _ => true
  | .lpdPhase bad => bad.all (· < 16)
  | .hbmPhase bad => bad.all (· < 8)
  | .diePhase _ => true
  | .servicePhase => true
  | .ringPhase ports => ports.all (fun e => e.2.all (· < lanesOf e.1))
  | .inputLoss => true
  | .inputRange => true
  | .phaseLoss _ i => decide (i < 64)
  | .powerMeasure vin iin pin => F.ptcInput_VIN.fits vin && F.ptcInput_IIN.fits iin && F.ptcInput_PIN_W.fits pin
  | .capStepDown => true
  | .capStepUp => true
  | .capFloor => true
  | .thermalSensorRead _ _ _ => true
  | .thermalStepDown => true
  | .thermalStepUp => true
  | .thermalTrip => true
  | .coolantRead _ _ => true
  | .coolantOutOfRange => true
  | .railSettled _ => true
  | .calTick _ pred _ => decide (pred < 65536)
  | .vregRezero _ => true
  | .opticsBiasTrack _ => true
  | .rateIntervalEnd _ => true
  | .setMvWrite _ mv => F.ptcDieV_SET_MV.fits mv
  | .calSave _ => true
  | .calSaveDone payload => decide (payload.length < 65536)
  | .calErase _ => true
  | .resetN => true
  | .refclkLoss => true
  | .select addr => decide (addr < 2 ^ 48)
  | .read => true
  | .straps => true
  | .tapBypass => true
  | .tapIdcode => true
  | .tapSamplePreload => true
  | .tapExtest => true
  | .tapExtestPulse => true
  | .tapExtestTrain => true
  | .tapClamp => true
  | .tapHighz => true
  | .registerWrite _ _ _ => true
  | .expertUnlock _ _ => true
  | .engClrCounts _ => true
  | .scvClrCounts _ => true
  | .fdxClrCounts _ => true
  | .dmaClrCounts _ => true
  | .storeClrCounts _ _ => true
  | .syncClrCounts _ => true
  | .hbmClrCounts _ => true
  | .lpdClrCounts => true
  | .mldClrCounts => true
  | .fcuClrCounts => true
  | .ptcClrCounts => true
  | .gradeMaskWrite g => F.engGradeMask_GRADE.fits g
  | .coreRun _ _ => true
  | .coreHalt _ _ => true
  | .qlimitWrite _ _ n => F.scvCoreCtrl_QLIMIT.fits n
  | .scalarOp _ _ op _ => opOk op
  | .branch _ _ _ target => decide (target < 2 ^ 48)
  | .narrowLoad _ _ _ addr _ _ _ => decide (addr < 2 ^ 64)
  | .narrowStore _ _ addr _ _ _ => decide (addr < 2 ^ 64)
  | .pflush _ _ => true
  | .combineEntryWrite _ _ => true
  | .storeAccessServe _ _ _ => true
  | .storeReadReturn _ _ => true
  | .rmwWriteback _ _ => true
  | .scrubWriteback _ => true
  | .drainEntryWrite _ _ _ => true
  | .storeClear _ => true
  | .storeClearDone _ => true
  | .storeCtrlWrite _ _ _ => true
  | .bistRegionStart _ => true
  | .bistSave _ _ _ => true
  | .bistMarchOp _ _ _ => true
  | .bistRestore _ _ => true
  | .repairForce _ _ row => F.wstRepairEntry_ROW.fits row
  | .eissue _ _ _ => true
  | .efence _ _ => true
  | .estat _ _ _ => true
  | .nop _ _ => true
  | .mmaF8 _ _ => true
  | .mmaI8 _ _ => true
  | .mmaB4 _ _ => true
  | .mmaBf16 _ _ => true
  | .distL1 _ _ => true
  | .distL2 _ _ => true
  | .cmpMin _ _ => true
  | .cmpMax _ _ => true
  | .cmpEqc _ _ => true
  | .topkSel _ _ => true
  | .slide _ _ => true
  | .afeed _ _ _ _ => true
  | .afeedAccessIssue _ _ => true
  | .wtord _ _ _ => true
  | .mcast _ _ _ _ => true
  | .busRequestLookup _ _ => true
  | .busLineServe _ _ => true
  | .mcastTimeout _ _ => true
  | .gacc _ _ _ _ => true
  | .gaccLineAccumulate _ _ => true
  | .xpand _ _ _ _ => true
  | .tfeed _ _ _ => true
  | .expanderRequestStart _ _ => true
  | .tileTransfer _ _ => true
  | .dpost _ _ _ => true
  | .dmaPost _ _ addr => F.dmaPost_ADDR.fits addr
  | .dstat _ _ _ => true
  | .dmaCopy _ _ => true
  | .dmaFill _ _ => true
  | .dmaPack _ _ => true
  | .dmaBlocks _ _ => true
  | .dmaDescriptorComplete _ _ _ => true
  | .transactionIssue _ _ => true
  | .transactionComplete _ _ _ => true
  | .windowOpen _ _ => true
  | .windowOpenRequest ring pos _ base size perm job => decide (ring < 8) && decide (pos < 512) && decide (base < 2 ^ 48) && decide (size < 32) && decide (perm < 8) && decide (job < 65536)
  | .windowOpenReply _ _ => true
  | .windowOpenTimeout _ => true
  | .windowClose _ => true
  | .rimpWrite _ _ _ => true
  | .beats _ _ _ => true
  | .time _ _ _ => true
  | .bwait _ _ _ => true
  | .twait _ _ _ => true
  | .contextReady _ _ _ => true
  | .step _ _ _ _ => true
  | .stepend _ _ _ => true
  | .stepArrival _ _ => true
  | .stepDeadline _ id => decide (id < 65536)
  | .stepAbort _ id => F.scvStepAbort_ID.fits id
  | .start _ _ _ => true
  | .stop _ _ _ => true
  | .stopTakesEffect _ _ _ => true
  | .save _ _ _ addr => F.scvCtxCmd_ADDR.fits addr
  | .saveDone _ _ _ => true
  | .restore _ _ _ addr => F.scvCtxCmd_ADDR.fits addr
  | .restoreDone _ _ _ => true
  | .discard _ _ _ => true
  | .tsSend => true
  | .ts h _ _ _ => rxOk h
  | .tbLock => true
  | .tbUpstreamTimeout => true
  | .tbConfWrite _ => true
  | .tbSet _ => true
  | .signal _ _ _ => true
  | .signalDepart _ _ => true
  | .signalPacket _ => true
  | .fencedSignalApply _ _ => true
  | .wait _ _ _ _ _ => true
  | .waitTimeout _ _ _ => true
  | .consume _ _ _ => true
  | .cread _ _ _ _ => true
  | .barrive _ _ _ => true
  | .barrierArrival _ _ => true
  | .barrierArrivalPacket => true
  | .barrierReleasePacket _ => true
  | .barrierArm _ _ _ => true
  | .barrierDisarm _ _ => true
  | .barrierForce _ _ => true
  | .counterWrite _ _ _ => true
  | .syncClear _ => true
  | .xlEntryWrite _ _ => true
  | .cohortWrite _ _ rowsMax => F.circCohort_ROWS_MAX.fits rowsMax
  | .cohortRelease _ => true
  | .circEnable => true
  | .circDisable => true
  | .blockFrame h _ _ q sub bytes => rxOk h && decide (q < 2 ^ 24) && decide (sub < 65) && decide (bytes.length ≤ 256)
  | .frameTransmit _ _ => true
  | .idle h => linkOk h
  | .blockLandingStart _ => true
  | .blockResident _ _ => true
  | .layerRetire _ => true
  | .blockForwarded _ => true
  | .gradientApply _ _ _ _ => true
  | .periodRefresh => true
  | .sampleComplete _ _ => true
  | .admissionTick => true
  | .portSignalDetect _ => true
  | .portTrained p spares => spares.all (· < lanesOf p)
  | .portTrainTimeout _ => true
  | .portEnable _ => true
  | .portDisable _ => true
  | .id h _ _ => rxOk h
  | .laneSilence p lanes => lanes.all (· < lanesOf p)
  | .laneUncorrLimit p l _ => decide (l < lanesOf p)
  | .laneMarginLow p l margin => decide (l < lanesOf p) && decide (margin < 256)
  | .forceSub p l => decide (l.val < lanesOf p)
  | .subst h _ => rxOk h
  | .substDone h _ => rxOk h
  | .adapt h _ => rxOk h
  | .adaptRequest p l idx _ => decide (l < lanesOf p) && decide (idx < 16)
  | .nak h _ => linkOk h
  | .partAnn h _ _ => rxOk h
  | .linkRetryTimeout p lane => (match p with | .port p => decide (lane < lanesOf p) | .ctrl => decide (lane < 4))
  | .rwr h _ _ p => rxOk h && remoteOk p
  | .rrd h _ p => rxOk h && remoteOk p
  | .rrsp h _ p => rxOk h && remoteOk p
  | .sig h _ p => rxOk h && remoteOk p
  | .admitModule ring epoch => F.circAdmit_RING_ID.fits ring && F.circAdmit_EPOCH.fits epoch
  | .revoke => true
  | .formStart segments => F.circForm_SEGMENTS.fits segments
  | .form h _ => rxOk h
  | .formTimeout => true
  | .skipE => true
  | .skipW => true
  | .pass => true
  | .restoreE => true
  | .restoreW => true
  | .restoreSwitchover _ => true
  | .bypass h _ => rxOk h
  | .restoreNote h _ => rxOk h
  | .gapBound h _ => rxOk h
  | .gapReq h _ _ _ => rxOk h
  | .gapDone h _ _ => rxOk h
  | .reinjTimeout => true
  | .spliceArm => true
  | .spliceAbort => true
  | .splice h _ => rxOk h
  | .spliced h _ => rxOk h
  | .retrainStepStart _ => true
  | .retrainStepForced _ => true
  | .retrainStepEnd _ _ => true
  | .hbmTempRead _ temp _ => decide (temp < 256)
  | .hbmRetire _ => true
  | .stackRetired _ => true
  | .ctrlLightDetect => true
  | .ctrlLinked => true
  | .ctrlLost => true
  | .hello h => msgOk h
  | .job h job vocab => msgOk h && decide (job < 65536) && decide (vocab < 2 ^ 32)
  | .load h _ data => msgOk h && decide (data.length ≤ 65496)
  | .prompt h b => msgOk h && decide (b.length ≤ 65496)
  | .ack h entries => msgOk h && entries.all (fun e => e.1 < 2 ^ 32 && e.2 < 2 ^ 32)
  | .evictCancel h id => msgOk h && decide (id < 2 ^ 32)
  | .evictPark h id => msgOk h && decide (id < 2 ^ 32)
  | .regRd h _ => msgOk h
  | .regWr h _ _ => msgOk h
  | .dumpReq h mask => msgOk h && decide (mask < 4)
  | .faultReport _ _ => true
  | .blockResetComplete _ _ => true
  | .resetHoldExpiry => true
  | .dieHeartbeat _ => true
  | .heartbeatTimeout _ => true
  | .faultAck classes seq => F.fcuAck_CLASSES.fits classes && F.fcuAck_SEQ.fits seq
  | .serviceHandlerDone => true
  | .pinRelease => true
  | .pinSense _ _ => true
  | .faultInject id die unit block detail => F.fcuInject_ID.fits id && F.fcuInject_DIE.fits die && F.fcuInject_UNIT.fits unit && F.fcuInject_BLOCK.fits block && F.fcuInject_DETAIL.fits detail
  | .resume => true
  | .fuseAdvance target => F.secFuseCmd_ARG.fits target
  | .fuseRevokeSlot k => F.secFuseCmd_ARG.fits k
  | .fuseBlowDone => true
  | .attestGo => true
  | .attest => true
  | .imageReq => true
  | .imageData h off data => msgOk h && decide (off < 2 ^ 32) && decide (data.length ≤ 65488)
  | .imageCommit h total => msgOk h && decide (total < 2 ^ 32)
  | .imageVerifyDone => true
  | .imageAbort h => msgOk h
  | .repairRecordWrite => true
  | .reclaim _ => true
  | .reclaimComplete => true
  | .epcTableValidate _ _ width tag => F.fdxEpcTag_WIDTH.fits width && F.fdxEpcTag_TAG.fits tag
  | .epcTableInvalidate _ _ => true
  | .calEraseDone => true
  | .refclkRestored => true
  | .revokeNotify ring pos _ base => decide (ring < 8) && decide (pos < 512) && decide (base < 2 ^ 48)
  | .packetRefusal _ _ xfer pkt => decide (xfer < 2 ^ 15) && decide (pkt < 2 ^ 24)
  | .smbusAlertResponse => true
  | .i3cDynamicAddress addr => decide (addr < 128)

end Sys2Proof
end

