-- ==== Sys2Proof/Safety.lean ====
section
/-! DEFINITION. The words that claims about the machine are made of: a command that runs, what it leaves unchanged, and
the states in canonical form. -/

namespace Sys2Proof

open Machine

/-- The command answers a next state, and P holds of that state. -/
def Runs (c : Instr) (s : State) (P : State → Prop) : Prop := ∃ t, exec c s = .next t ∧ P t

/-- Every register outside the list holds the same word. -/
def RegsKept (L : List Reg) (s t : State) : Prop := ∀ r, r ∉ L → t.reg r = s.reg r

/-- Every byte of memory reads the same. -/
def MemKept (s t : State) : Prop := ∀ a, Mem.get t.mem a = Mem.get s.mem a

/-- Every byte of memory outside n bytes from lo reads the same. -/
def MemKeptBut (lo n : Nat) (s t : State) : Prop := ∀ a, ¬(lo ≤ a ∧ a < lo + n) → Mem.get t.mem a = Mem.get s.mem a

/-- Memory, poison marks, error patterns and repairs are the same. -/
def StoresKept (s t : State) : Prop :=
  t.mem = s.mem ∧ t.poison = s.poison ∧ t.latent = s.latent ∧ t.repairs = s.repairs

/-- Contexts, cores, dies and DMAs are the same. -/
def DiesKept (s t : State) : Prop := t.ctxs = s.ctxs ∧ t.cores = s.cores ∧ t.dies = s.dies ∧ t.dmas = s.dmas

/-- Contexts, cores and DMAs are the same, and of the dies at most the CAL_MHZ that waits for the next beat is new (R305). -/
def OnlyRates (s t : State) : Prop :=
  t.ctxs = s.ctxs ∧ t.cores = s.cores ∧ t.dmas = s.dmas ∧ ∀ d, t.die d = { s.die d with calNew := (t.die d).calNew }

/-- A report as it stands on the fault path, with the time of its detection (R506, R660). -/
def stamped (s : State) (r : Report) : Report := { r with found := s.now }

/-- Exactly these reports have been put on the fault path (R506). -/
def Raises (s t : State) (rs : List Report) : Prop := t.reports = s.reports ++ rs.map (stamped s)

/-- This report, among others, has been put on the fault path (R506). -/
def Raised (s t : State) (r : Report) : Prop := ∃ as bs, t.reports = s.reports ++ as ++ stamped s r :: bs

/-- A privileged write reaches a register's own rule: the module is on, the block's READY bit is set (R571) and no block
reset holds the access (R617). -/
def WriteReady (s : State) (r : Reg) : Prop := s.pow.off = false ∧ inBlockReset s r = false ∧ regReady s r = true

/-- As `WriteReady`, with the expert fields of the register's block unlocked (R499). -/
def WriteOpen (s : State) (r : Reg) : Prop := WriteReady s r ∧ unlockedFor s r = true

/-- The CONFIG fault of a rejected privileged write of a register (R18). -/
def rejected (r : Reg) : Report := Report.plain .writeRejected r.dieCode 0 r.block r.addr

/-- The command is a rejected write: it raises that CONFIG fault and changes nothing (R18). -/
def Rejects (c : Instr) (s : State) (r : Reg) : Prop := exec c s = .next (s.raise (rejected r))

/-- Context slot x of a core issues an instruction that reads the registers `srcs`: the core selects it, the word at
its PC lies in a region with X, is clean and holds no error, and no source register waits for a load (R225, R308, R310, R332,
R334). -/
def Issues (s : State) (d : Die) (q : CoreId) (x : SlotId) (srcs : List (Fin 32)) : Prop :=
  issuing s d q = some x
    ∧ (∃ a, (s.ctx d q x).translate (s.ctx d q x).pc 4 .x = some a ∧ readStore s a 4 = s ∧ s.poisonedIn a 4 = false)
    ∧ ∀ r ∈ srcs, loadPending s d q x r = false

/-- The PC of the instruction after the one that a slot issues (R308). -/
def nextPc (s : State) (d : Die) (q : CoreId) (x : SlotId) : Nat := ((s.ctx d q x).pc + 4) % 2 ^ 48

/-- Every context slot but one is the same. -/
def OtherCtxs (d : Die) (q : CoreId) (x : SlotId) (s t : State) : Prop :=
  ∀ e p y, (e, p, y) ≠ (d, q, x) → t.ctx e p y = s.ctx e p y

/-- The core has issued its one instruction of this beat, of a slot whose next one may issue on the next beat (R308), and the
die's issue stamp has moved on (R332). -/
def Issued (d : Die) (q : CoreId) (x : SlotId) (s t : State) : Prop :=
  (t.core d q).issuedAt = some (s.beat d) ∧ (t.ctx d q x).nextAt = s.beat d + 1 ∧ (t.ctx d q x).lastIssue = some (s.die d).stamp

/-- Nothing but the context slot, the die's issue stamp and the core's beat of issue has changed. -/
def OnlyIssued (d : Die) (q : CoreId) (x : SlotId) (s t : State) : Prop :=
  t = { s with ctxs := t.ctxs, cores := t.cores, dies := t.dies } ∧ OtherCtxs d q x s t ∧ Issued d q x s t
    ∧ t.die d = { s.die d with stamp := (s.die d).stamp + 1 } ∧ (∀ e, e ≠ d → t.die e = s.die e)
    ∧ t.core d q = { s.core d q with issuedAt := some (s.beat d) } ∧ ∀ e p, (e, p) ≠ (d, q) → t.core e p = s.core e p

/-- Nothing but the context slot has changed. -/
def OnlyCtx (d : Die) (q : CoreId) (x : SlotId) (s t : State) : Prop :=
  t = { s with ctxs := t.ctxs } ∧ OtherCtxs d q x s t

/-- Every scalar register of a slot but one holds the same word, and its predicates and regions are the same. -/
def OtherScalars (rd : Fin 32) (c c' : Ctx) : Prop :=
  (∀ r, r ≠ rd → c'.rd r = c.rd r) ∧ c'.p = c.p ∧ c'.regions = c.regions ∧ c'.xl = c.xl ∧ c'.st = c.st

/-- A message with this head, come whole and in its turn, is accepted from one of these roles (R475, R477, R478). -/
def Accepts (s : State) (h : MsgHead) (roles : List Nat) : Prop :=
  h.frame = none ∧ linkState s = 3 ∧ h.ok = true ∧ h.role < 2 ∧ h.session = s.fld .mldLinkStatus F.mldLinkStatus_SESSION ∧ h.role ∈ roles

/-- One message has been sent to the control node: type, RTAG and body (R477). -/
def Sends (s t : State) (typ rtag : Nat) (body : List Byte) : Prop :=
  t.mld.sent = s.mld.sent ++ [⟨typ, rtag, s.fld .mldLinkStatus F.mldLinkStatus_SESSION, s.mld.nextUp, body⟩]

/-- Memory, the flash and the firmware memory are in canonical form: addresses rising, no blank byte listed. -/
def Canonical (s : State) : Prop := Mem.wf s.mem = true ∧ Mem.wf s.sec.flash = true ∧ Mem.wf s.sec.firmware = true

end Sys2Proof
end

