-- ==== Sys2Proof/Certificates/Slice0/Obligations.lean ====
section
/-! DEFINITION. The statements. -/

open Sys2Proof Sys2Proof.Machine

/-! ### Steps, the queue and the clock -/

/-- Every command answers a next state: no command faults or is refused (log entry 1). -/
def EveryCommandAnswers : Prop :=
  ∀ (c : Instr) (s : State), ∃ t, exec c s = .next t

/-- A die that has nothing to do on its beats: no context or core of it has left its reset state, and it holds nothing but the
fraction of a beat that has passed. -/
def DieAtRest (s : State) (d : Die) : Prop :=
  (∀ e ∈ s.ctxs, e.1.1 ≠ d) ∧ (∀ e ∈ s.cores, e.1.1 ≠ d) ∧ s.die d = { DieSt.reset with phase := (s.die d).phase, stamp := (s.die d).stamp }

/-- A step with a command at the front of the queue is that command's effect on the machine with the queue's rest; with an
empty queue a message of the control link whose turn has come is handed on, a module that is off stays as it is, and a
powered module whose dies are not out of reset goes on by one nanosecond, or by up to two while its timebase is corrected,
and nothing but its timebase and rails changes; a die at rest counts the beats that its rate gives it in that nanosecond
(R301, R311, R315; the queue and the tick are the model's choice, log entry 1). -/
def Obligations.StepRunsTheFrontCommand : Prop := EveryCommandAnswers ∧
  (∀ (c : Instr) (s : State), step { s with pending := c :: s.pending } = exec c s) ∧
  (∀ (s u : State) (c : Instr), s.pending = [] → dueMessage s = some (c, u) → step s = exec c u) ∧
  (∀ (s : State), s.pending = [] → dueMessage s = none → s.pow.off = true → step s = .next s) ∧
  (∀ (s : State), s.pending = [] → dueMessage s = none → s.pow.off = false → s.circ.heldRemote = [] → s.pow.tbPhase < 1000000 →
    -500 ≤ s.pow.tbRate → s.pow.tbRate ≤ 500 → s.readyBit 8 = false →
    (s.readyBit 7 = false → ∃ t k, step s = .next t ∧ k ≤ 2 ∧ t.now = (s.now + k) % 2 ^ 64 ∧ (tbState s = 0 → k = 1)
      ∧ t.pow.tbPhase < 1000000 ∧ -500 ≤ t.pow.tbRate ∧ t.pow.tbRate ≤ 500
      ∧ RegsKept [.ptcTbTime, .ptcDieV 0, .ptcDieV 1] s t ∧ StoresKept s t ∧ DiesKept s t ∧ Raises s t []) ∧
    (s.readyBit 7 = true → DieAtRest s 0 → ∃ t n, step s = .next t ∧ t.beat 0 = (s.beat 0 + n) % 2 ^ 64
      ∧ (s.die 0).phase + max (floorMhz (effMv s 0)) (calMhz s 0) ≤ 1000 * n + (t.die 0).phase
      ∧ (t.die 0).phase < 1000 ∧ DieAtRest t 0 ∧ s.time 0 ≤ t.time 0
      ∧ RegsKept [.ptcTbTime, .ptcDieV 0, .ptcDieV 1, .scvBeat 0, .scvTime 0] s t ∧ StoresKept s t ∧ t.ctxs = s.ctxs
      ∧ t.cores = s.cores ∧ t.dmas = s.dmas))

/-! ### Power, voltage and temperature (chapter 13) -/

/-- POWER_ON brings a module that is off back with its ramped stages up; INPUT_LOSS and THERMAL_TRIP switch it off and no
state survives; an off module leaves every other power event without effect (R546, R557). -/
def PowerOnAndOffRule : Prop :=
  ∀ (s : State),
    (s.pow.off = true → Runs .powerOn s fun t => t.pow.off = false ∧ t.mem = s.mem
      ∧ ∀ k ∈ ([0, 5, 6, 7, 8] : List (Fin 9)), s.reg (.ptcStage k) = (Reg.ptcStage k).resetWord →
          t.fld (.ptcStage k) F.ptcStage_STATE = 1) ∧
    (s.pow.off = false → ∀ c ∈ ([.inputLoss, .thermalTrip] : List Instr), Runs c s fun t =>
      t.pow.off = true ∧ t.regs = [] ∧ t.mem = [] ∧ t.poison = [] ∧ t.ctxs = [] ∧ t.cores = [] ∧ t.dies = []
        ∧ t.dmas = [] ∧ t.reports = [] ∧ t.fcu = Fcu.reset ∧ faultPins t = (0, 0) ∧ t.sec.flash = s.sec.flash) ∧
    (s.pow.off = true → ∀ c ∈ ([.inputLoss, .thermalTrip, .inputRange, .phaseLoss 0 0, .powerMeasure 6400 1000 700,
      .thermalSensorRead 50 50 50, .coolantRead 30 30, .resetN, .refclkLoss, .faultReport none false] : List Instr),
      exec c s = .next s)

/-- The power and thermal events that raise a report raise the one that R548 names, when their condition begins. -/
def PowerEventsRaiseTheirReportsRule : Prop :=
  ∀ (s : State), s.pow.off = false →
    (∀ t0, s.pow.vinSince = some t0 → t0 + 1000000 ≤ s.now → s.pow.begun.find 0 = none →
      Runs .inputRange s fun t => Raises s t [ptcReport .inputRange 0 (s.fld .ptcInput F.ptcInput_VIN)]
        ∧ t.pow.begun.find 0 = some none ∧ t.regs = s.regs ∧ t.mem = s.mem) ∧
    (∀ t0, s.pow.inletSince = some t0 → t0 + 10000000000 ≤ s.now → s.pow.begun.find 2 = none →
      Runs .coolantOutOfRange s fun t => Raises s t [ptcReport .coolant 0 (s.fld .ptcTherm F.ptcTherm_INLET)]
        ∧ t.pow.begun.find 2 = some none ∧ t.regs = s.regs ∧ t.mem = s.mem) ∧
    (∀ (k : Fin 9) (i : Nat), s.fld (.ptcStage k) F.ptcStage_STATE = 1 → s.fld (.ptcStage k) F.ptcStage_LOST_MASK = 0 →
      i < s.fld (.ptcStage k) F.ptcStage_PHASES → s.fld (.ptcStage k) F.ptcStage_PHASES ≤ 32 →
      Runs (.phaseLoss k i) s fun t => Raises s t [ptcReport .phaseLost k.val i]
        ∧ t.fld (.ptcStage k) F.ptcStage_STATE = 2 ∧ t.fld (.ptcStage k) F.ptcStage_LOST_MASK = 2 ^ i
        ∧ t.fld (.ptcStage k) F.ptcStage_WORKING = s.fld (.ptcStage k) F.ptcStage_PHASES - 1
        ∧ RegsKept [.ptcStage k] s t ∧ t.mem = s.mem) ∧
    (∀ (k : Fin 9) (i j : Nat), s.fld (.ptcStage k) F.ptcStage_STATE = 2 → s.fld (.ptcStage k) F.ptcStage_LOST_MASK = 2 ^ j →
      i ≠ j → i < s.fld (.ptcStage k) F.ptcStage_PHASES → j < s.fld (.ptcStage k) F.ptcStage_PHASES →
      s.fld (.ptcStage k) F.ptcStage_PHASES ≤ 32 →
      Runs (.phaseLoss k i) s fun t => t.fld (.ptcStage k) F.ptcStage_STATE = 3
        ∧ Raises s t [ptcReport (if 1 ≤ k.val ∧ k.val ≤ 4 then .stageLostDie else .stageLostHub) k.val i]) ∧
    (s.pow.refclkBad = false → Runs .refclkLoss s fun t =>
      Raises s t [{ Report.plain .hubInternal 2 0 .ptc 0 with detail := 1 }] ∧ t.pow.refclkBad = true
        ∧ RegsKept [] s t ∧ t.mem = s.mem) ∧
    (Runs .refclkRestored s fun t => t.pow.refclkBad = false ∧ t = { s with pow := t.pow })

/-- The effective set point of a die is the lowest of SET_MV, the cap point and the thermal point (R552). -/
def EffIsLowest (s t : State) : Prop :=
  ∀ d, effMv t d = min (s.fld (.ptcDieV d) F.ptcDieV_SET_MV) (min t.pow.capPoint t.pow.thermPoint)

/-- Input power is measured, capping engages above LIMIT_W at the higher effective set point, the cap point moves by 5 mV
between 600 and 850 mV, and the floor of capping is reported (R550, R551, R552). -/
def CappingFollowsThePowerRule : Prop :=
  ∀ (s : State),
    (∀ vin iin pin, s.pow.off = false → vin < 65536 → iin < 65536 → pin < 32768 → uncal s 2 = false →
      Runs (.powerMeasure vin iin pin) s fun t =>
        t.fld .ptcInput F.ptcInput_VIN = vin ∧ t.fld .ptcInput F.ptcInput_IIN = iin ∧ t.fld .ptcInput F.ptcInput_PIN_W = pin
        ∧ t.fld .ptcInput F.ptcInput_PEAK_W = max pin (s.fld .ptcInput F.ptcInput_PEAK_W)
        ∧ (s.pow.capping = false → s.fld .ptcCap F.ptcCap_LIMIT_W < pin → s.pow.begun.find 1 = none →
            t.pow.capping = true ∧ t.pow.capPoint = max (effMv s 0) (effMv s 1) ∧ t.pow.capAt = s.now
              ∧ Raises s t [ptcReport .capping 0 1]
              ∧ t.fld .ptcCap F.ptcCap_EVENTS = min (s.fld .ptcCap F.ptcCap_EVENTS + 1) 65535)
        ∧ RegsKept [.ptcInput, .ptcCap] s t ∧ StoresKept s t ∧ DiesKept s t) ∧
    (s.pow.capping = true → s.fld .ptcCap F.ptcCap_LIMIT_W < s.fld .ptcInput F.ptcInput_PIN_W →
      s.pow.capAt + 100000 ≤ s.now → 600 < s.pow.capPoint →
      Runs .capStepDown s fun t => t.pow.capPoint = max 600 (s.pow.capPoint - 5) ∧ t.pow.thermPoint = s.pow.thermPoint
        ∧ EffIsLowest s t ∧ StoresKept s t ∧ OnlyRates s t) ∧
    (∀ t0, s.pow.capping = true → s.pow.underSince = some t0 → t0 + 1000000 ≤ s.now → s.pow.capAt + 1000000 ≤ s.now →
      Runs .capStepUp s fun t => t.pow.capPoint = min 850 (s.pow.capPoint + 5)
        ∧ (t.pow.capping = true ↔ s.pow.capPoint + 5 < 850) ∧ EffIsLowest s t ∧ StoresKept s t ∧ OnlyRates s t) ∧
    (∀ t0, s.pow.floorSince = some t0 → t0 + 10000000 ≤ s.now → s.fld .ptcCap F.ptcCap_FLOOR = 0 → s.pow.begun.find 6 = none →
      Runs .capFloor s fun t => t.fld .ptcCap F.ptcCap_FLOOR = 1 ∧ Raises s t [ptcReport .capping 0 2]
        ∧ RegsKept [.ptcCap] s t ∧ StoresKept s t ∧ DiesKept s t)

/-- Junction readings are reported, TJ_HIGH and the critical sources are raised at their thresholds, thermal capping
starts at the higher effective set point and moves by 5 mV, and the coolant readings are reported (R548, R555, R556). -/
def ThermalLimitsRule : Prop :=
  ∀ (s : State),
    (∀ t0 t1 th : Nat, s.pow.off = false → t0 < 256 → t1 < 256 → th < 256 →
      Runs (.thermalSensorRead t0 t1 th) s fun t => tjReadings t = [t0, t1, th]
        ∧ (t0 ≤ tjCap s → t1 ≤ tjCap s → th ≤ tjCap s → tjCap s < 110 - thermEarly s → Raises s t [] ∧ t.pow.thermPoint = s.pow.thermPoint)
        ∧ (tjCap s < t0 → s.pow.begun.find 3 = none → Raised s t (ptcReport .tjHigh 0 t0))
        ∧ (s.fld .ptcTherm F.ptcTherm_TJ_D1 < 110 - thermEarly s → 110 - thermEarly s ≤ t1 → Raised s t (ptcReport .tjCritDie 1 t1))
        ∧ (s.fld .ptcTherm F.ptcTherm_TJ_HUB < 110 - thermEarly s → 110 - thermEarly s ≤ th → Raised s t (ptcReport .tjCritHub 0 th))
        ∧ (tjCap s < th → s.pow.thermCapping = false → t.pow.thermCapping = true
            ∧ t.pow.thermPoint = max (effMv s 0) (effMv s 1) ∧ t.pow.thermAt = s.now)
        ∧ RegsKept [.ptcTherm] s t ∧ StoresKept s t ∧ DiesKept s t) ∧
    (s.pow.thermCapping = true → (∃ x ∈ tjReadings s, tjCap s < x) → s.pow.thermAt + 100000000 ≤ s.now → 600 < s.pow.thermPoint →
      Runs .thermalStepDown s fun t => t.pow.thermPoint = max 600 (s.pow.thermPoint - 5) ∧ t.pow.capPoint = s.pow.capPoint
        ∧ EffIsLowest s t ∧ StoresKept s t ∧ OnlyRates s t) ∧
    (∀ t0, s.pow.thermCapping = true → s.pow.coolSince = some t0 → t0 + 1000000000 ≤ s.now → s.pow.thermAt + 1000000000 ≤ s.now →
      Runs .thermalStepUp s fun t => t.pow.thermPoint = min 850 (s.pow.thermPoint + 5)
        ∧ (t.pow.thermCapping = true ↔ s.pow.thermPoint + 5 < 850) ∧ EffIsLowest s t ∧ StoresKept s t ∧ OnlyRates s t) ∧
    (∀ i o : Nat, s.pow.off = false → i < 256 → o < 256 →
      Runs (.coolantRead i o) s fun t => t.fld .ptcTherm F.ptcTherm_INLET = i ∧ t.fld .ptcTherm F.ptcTherm_OUTLET = o
        ∧ RegsKept [.ptcTherm] s t ∧ Raises s t [] ∧ StoresKept s t ∧ DiesKept s t)

/-- SET_MV takes 600 to 850 mV in steps of 5 mV and moves EFF_MV; a write out of that range or off the step is a CONFIG
fault with no change (R552, R554). -/
def Obligations.SetPointWrites : Prop :=
  ∀ (s : State) (d : Die) (mv : Nat), WriteOpen s (.ptcDieV d) → mv < 1024 →
    (600 ≤ mv → mv ≤ 850 → mv % 5 = 0 → Runs (.setMvWrite d mv) s fun t =>
      t.fld (.ptcDieV d) F.ptcDieV_SET_MV = mv ∧ effMv t d = min mv (min s.pow.capPoint s.pow.thermPoint)
        ∧ RegsKept [.ptcDieV d, .scvRate d, .scvStepStatus d] s t ∧ StoresKept s t ∧ OnlyRates s t) ∧
    (¬(600 ≤ mv ∧ mv ≤ 850 ∧ mv % 5 = 0) → Rejects (.setMvWrite d mv) s (.ptcDieV d))

/-- Live calibration of a die that counts its beats, whose CAL_MHZ changes on the next one: a settled rail lets it rise and
brings it to the floor at least, a tick lowers it to 99 % of the prediction or raises it by at most 1 % each 100 ms, an
uncalibrated die stays at its floor, and a rate interval reports MEAS_MHZ and counts a miss (R305, R553, R558, R559, R561,
R566). -/
def LiveCalibrationRule : Prop :=
  ∀ (s : State) (d : Die),
    (∀ t0, s.pow.railSince.find d = some t0 → t0 + 100000 ≤ s.now → Runs (.railSettled d) s fun t =>
      d ∈ t.pow.settled ∧ (dieFloor s d ≤ calAim s d → t = { s with pow := t.pow })
        ∧ (s.readyBit (7 + d.val) = true → d ∉ s.pow.settled → calAim s d < dieFloor s d → calAim t d = dieFloor s d
            ∧ OnlyRates s t ∧ t.regs = s.regs)) ∧
    (∀ pred big, s.readyBit (7 + d.val) = true → pred < 65536 → uncal s d.val = false →
      max (dieFloor s d) (pred * 99 / 100) < calAim s d → Runs (.calTick d pred big) s fun t =>
        calAim t d = max (dieFloor s d) (pred * 99 / 100) ∧ t.regs = s.regs ∧ StoresKept s t ∧ OnlyRates s t) ∧
    (∀ pred big, s.readyBit (7 + d.val) = true → pred < 65536 → uncal s d.val = false →
      calAim s d < max (dieFloor s d) (pred * 99 / 100) → d ∈ s.pow.settled →
      (∀ t0, s.pow.raisedAt.find d = some t0 → t0 + 100000000 ≤ s.now) →
      Runs (.calTick d pred big) s fun t =>
        calAim t d = min (max (dieFloor s d) (pred * 99 / 100)) (calAim s d * 101 / 100)
          ∧ t.pow.raisedAt.find d = some s.now ∧ t.regs = s.regs ∧ StoresKept s t ∧ OnlyRates s t) ∧
    (∀ pred big, s.readyBit (7 + d.val) = true → uncal s d.val = true → (dieFloor s d < calAim s d ∨ d ∈ s.pow.settled) →
      Runs (.calTick d pred big) s fun t => calAim t d = dieFloor s d) ∧
    (∀ big, s.readyBit 0 = true →
      (Runs (.vregRezero big) s fun t => (2, 0) ∈ t.pow.calUnits ∧ (big = true → t.pow.calMoved.at_ 0 2 = s.now)
        ∧ t = { s with pow := t.pow }) ∧
      (Runs (.opticsBiasTrack big) s fun t => (5, 0) ∈ t.pow.calUnits ∧ (big = true → t.pow.calMoved.at_ 0 5 = s.now)
        ∧ t = { s with pow := t.pow })) ∧
    (s.readyBit (7 + d.val) = true → s.pow.rateAt.at_ 0 d + 1000000 ≤ s.time d → Runs (.rateIntervalEnd d) s fun t =>
      t.fld (.scvRate d) F.scvRate_MEAS_MHZ = min ((s.beat d - (s.die d).rateBeat) / 1000) 65535
        ∧ t.pow.rateAt.at_ 0 d = s.pow.rateAt.at_ 0 d + 1000000 ∧ (t.die d).rateBeat = s.beat d
        ∧ (min ((s.beat d - (s.die d).rateBeat) / 1000) 65535 < calAim s d →
            t.fld .ptcCalStatus F.ptcCalStatus_RATE_MISS = min (s.fld .ptcCalStatus F.ptcCalStatus_RATE_MISS + 1) 65535)
        ∧ StoresKept s t)

/-- SAVE of a converged function and ERASE run until their flash operation ends; SAVE makes the function USER, ERASE puts
it into UNCAL and reports it; while one runs a second is a CONFIG fault (R563, R564, R565, R581). -/
def CalibrationRecordsRule : Prop :=
  ∀ (s : State) (f : Fin 9),
    (WriteOpen s .ptcCalCmd → s.fld .ptcCalStatus F.ptcCalStatus_BUSY = 0 → converged s f.val = true →
      Runs (.calSave f) s fun t => t.fld .ptcCalStatus F.ptcCalStatus_BUSY = 1 ∧ t.fld .ptcCalStatus F.ptcCalStatus_FUNC = f.val
        ∧ t.fld (.ptcCalFunc f) F.ptcCalFunc_STATE = 3 ∧ t.sec.calOp = some (f.val, true) ∧ calRecord t f.val = none) ∧
    (WriteOpen s .ptcCalCmd → s.fld .ptcCalStatus F.ptcCalStatus_BUSY = 0 →
      Runs (.calErase f) s fun t => t.fld .ptcCalStatus F.ptcCalStatus_BUSY = 1 ∧ uncal t f.val = true
        ∧ t.fld (.ptcCalFunc f) F.ptcCalFunc_STATE = 0 ∧ t.sec.calOp = some (f.val, false) ∧ calRecord t f.val = none
        ∧ Raised s t (ptcReport .uncalibrated f.val 2)) ∧
    (WriteOpen s .ptcCalCmd → s.fld .ptcCalStatus F.ptcCalStatus_BUSY = 1 → ∀ c ∈ ([.calSave f, .calErase f] : List Instr),
      Rejects c s .ptcCalCmd) ∧
    (∀ payload : List Byte, 8 ≤ payload.length → payload.length ≤ 16384 → s.sec.calOp = some (f.val, true) →
      Runs (.calSaveDone payload) s fun t => t.fld .ptcCalStatus F.ptcCalStatus_BUSY = 0 ∧ uncal t f.val = false
        ∧ t.fld (.ptcCalFunc f) F.ptcCalFunc_STATE = 2 ∧ t.sec.calOp = none
        ∧ calRecord t f.val = some { cal := true, key := f.val, payload := payload, live := true, user := true }) ∧
    (s.sec.calOp = some (f.val, false) → Runs .calEraseDone s fun t =>
      t.fld .ptcCalStatus F.ptcCalStatus_BUSY = 0 ∧ t.sec.calOp = none ∧ RegsKept [.ptcCalStatus] s t)

/-- Power on and off, and the reports of the power events (R546, R548, R557). -/
def Obligations.PowerAndItsEvents : Prop := PowerOnAndOffRule ∧ PowerEventsRaiseTheirReportsRule

/-- Power capping and the thermal limits (R551, R552, R556). -/
def Obligations.CappingAndThermalLimits : Prop := CappingFollowsThePowerRule ∧ ThermalLimitsRule

/-- Live calibration and its records (R562 to R566). -/
def Obligations.Calibration : Prop := LiveCalibrationRule ∧ CalibrationRecordsRule

/-! ### Bring-up, resets, the fault unit (chapters 12 and 13) -/

/-- Each phase of bring-up, when it is due, does its work, sets its READY bits and is over (R569, R570, R583, R590, R640):
the ROM phase starts the FCU and drives 1/0, the Image phase starts a verified image or recovery, and with no failed
stage, stack, channel or die the later phases bring up what they name. -/
def Obligations.BringUpPhases : Prop :=
  ∀ (s : State),
    (∀ straps, phaseDue s 0 [] = true → s.pow.refclkBad = false → s.sec.fuseBad = false → s.pow.kept = false → s.fcu.held = [] → s.fcu.heldOver = [] →
      Runs (.romPhase false straps) s fun t => 0 ∈ t.pow.phases ∧ t.readyBit 0 = true ∧ t.readyBit 2 = true
        ∧ t.mgmt.straps = straps % 64 ∧ faultPins t = (1, 0)) ∧
    (phaseDue s 1 [0] = true → s.sec.fuseBad = false → Runs .imagePhase s fun t => 1 ∈ t.pow.phases
      ∧ (checkFlash s = 0 → t.readyBit 1 = true ∧ t.fld .secStatus F.secStatus_BOOT_SRC = 1
          ∧ t.fld .secStatus F.secStatus_KEY_SLOT = (imageHead (flashBytes s)).slot ∧ Raises s t [])
      ∧ (checkFlash s ≠ 0 → t.sec.recovery = true ∧ t.readyBit 1 = s.readyBit 1
          ∧ t.sec.cause = checkFlash s
          ∧ t.fld .secStatus F.secStatus_REJECT_CAUSE = checkFlash s)) ∧
    (phaseDue s 2 [0, 1] = true → s.readyBit 1 = true →
      (linkState s = 0 → s.fld .mldLinkCtrl F.mldLinkCtrl_ENABLE = 1 →
        Runs (.ctrlPhase true) s fun t => 2 ∈ t.pow.phases ∧ linkState t = 2 ∧ t.readyBit 3 = true) ∧
      Runs (.ctrlPhase false) s fun t => 2 ∈ t.pow.phases ∧ t = { s with pow := t.pow }) ∧
    (phaseDue s 3 [0, 1] = true → s.readyBit 1 = true → Runs (.lpdPhase []) s fun t => 3 ∈ t.pow.phases ∧ t.readyBit 4 = true
      ∧ ∀ k : Fin 16, t.fld (.lpdChStatus k) F.lpdChStatus_STATE = 2) ∧
    (phaseDue s 4 [0, 1, 2, 3] = true → s.readyBit 1 = true →
      (∀ k ∈ ([1, 2, 3, 4] : List (Fin 9)), s.reg (.ptcStage k) = (Reg.ptcStage k).resetWord) →
      Runs (.hbmPhase []) s fun t => 4 ∈ t.pow.phases ∧ t.readyBit 5 = true ∧ t.readyBit 6 = true
        ∧ ∀ n : Fin 8, stackState t n.val = 2) ∧
    (phaseDue s 5 [0, 1, 2, 3, 4] = true → s.readyBit 1 = true →
      (∀ k ∈ ([1, 2, 3, 4] : List (Fin 9)), s.fld (.ptcStage k) F.ptcStage_STATE ≠ 3) →
      Runs (.diePhase []) s fun t => 5 ∈ t.pow.phases ∧ t.readyBit 7 = true ∧ t.readyBit 8 = true ∧ t.readyBit 12 = true
        ∧ (∀ d, t.fld (.wstJobTag d) F.wstJobTag_ANY = 1)
        ∧ ∀ a, 0xF000000000 ≤ a → a < 0xF800000000 → Mem.get t.mem a = 0) ∧
    (phaseDue s 6 [0, 1, 2, 3, 4, 5] = true → s.readyBit 1 = true → s.readyBit 7 = true → s.readyBit 8 = true →
      Runs .servicePhase s fun t => 6 ∈ t.pow.phases ∧ t.readyBit 11 = true) ∧
    (phaseDue s 7 [0, 1, 2, 3, 4, 5, 6] = true → s.readyBit 1 = true →
      Runs (.ringPhase []) s fun t => 7 ∈ t.pow.phases ∧ t.readyBit 9 = true ∧ t.readyBit 10 = true)

/-- RESET_N and the end of the hold of a level-5 decision reset the module: memory, contexts and every register but those
kept go back to reset, the timebase, fuses, flash and repairs stay, bring-up starts again; RESET_N clears the FCU, the
level-5 reset keeps its log and pins (R520, R535, R641). -/
def Obligations.ModuleResets : Prop :=
  ∀ (s : State), s.pow.off = false → s.sec.blow = none →
    (Runs .resetN s fun t => t.mem = [] ∧ t.ctxs = [] ∧ t.cores = [] ∧ t.dies = [] ∧ t.pow.phases = [] ∧ t.now = s.now
      ∧ t.fuses = s.fuses ∧ t.sec.flash = s.sec.flash ∧ t.repairs = s.repairs ∧ t.fcu = Fcu.reset ∧ faultPins t = (0, 0)
      ∧ t.reg .ptcReady = Reg.ptcReady.resetWord ∧ t.reg .circRingConf = Reg.circRingConf.resetWord) ∧
    (s.fcu.holdClass ≠ none → s.fcu.holdAt + s.fld .fcuCtrl F.fcuCtrl_RESET_HOLD_US * 1000 ≤ s.now → s.readyBit 2 = true →
      Runs .resetHoldExpiry s fun t => t.mem = [] ∧ t.pow.phases = [] ∧ t.now = s.now ∧ t.fcu.log = s.fcu.log
        ∧ t.fcu.nextSeq = s.fcu.nextSeq ∧ t.fcu.holdClass = none ∧ faultPins t = faultPins s
        ∧ t.reg .ptcReady = Reg.ptcReady.resetWord
        ∧ ∀ src, t.fld (.fcuCount src) F.fcuCount_COUNT = s.fld (.fcuCount src) F.fcuCount_COUNT)

/-- A report that reaches the FCU is numbered, counted and, where its log place is free, recorded with the time of its record;
a level of 0 or 1 does no more (R507, R508, R509, R515, R522). Of two reports of one class that were detected at one time the
lower source, then the lower die, goes first (R525). -/
def Obligations.ReportsAreRecorded : Prop :=
  (∀ (r o : Report), r.found = o.found → r.src.cls = o.src.cls → (o.src.id < r.src.id ∨ (o.src.id = r.src.id ∧ o.die < r.die)) →
    nextReport [r, o] = some o ∧ nextReport [o, r] = some o) ∧
  ∀ (s : State) (r : Report) (rest : List Report), s.pow.off = false → s.readyBit 2 = true → s.reports = r :: rest →
    (∀ o ∈ rest, o.found = r.found → o.src.cls ≠ r.src.cls) → (applied s r).level ≤ 1 →
    Runs (.faultReport none false) s fun t => t.reports = rest ∧ t.fcu.nextSeq = (s.fcu.nextSeq + 1) % 2 ^ 32
      ∧ t.fld (.fcuCount r.src) F.fcuCount_COUNT = min (s.fld (.fcuCount r.src) F.fcuCount_COUNT + 1) (2 ^ 48 - 1)
      ∧ (⟨s.fcu.nextSeq, r.src.cls, (applied s r).level, (applied s r).pin, false⟩ : Unacked) ∈ t.fcu.unacked
      ∧ (s.fcu.log.find (s.fld .fcuLogSel F.fcuLogSel_NEXT) = none →
          t.fcu.log.find (s.fld .fcuLogSel F.fcuLogSel_NEXT)
              = some ⟨recordWords s.fcu.nextSeq s.now r (applied s r), linkState s = 3, false⟩
            ∧ t.fld .fcuLogSel F.fcuLogSel_NEXT = (s.fld .fcuLogSel F.fcuLogSel_NEXT + 1) % 1024
            ∧ (linkState s = 3 → Sends s t 0x87 0
                ((recordWords s.fcu.nextSeq s.now r (applied s r)).flatMap (fun w => leBytes 8 w.toNat))))
      ∧ StoresKept s t ∧ DiesKept s t

/-- What an applied level adds to the record: level 2 stops the originating context, level 3 begins a reset of the block,
level 4 drives FAULT_A/FAULT_B to 0/1 and takes the module out of the ring, level 5 begins the reset hold (R515, R518,
R519, R525, R528). -/
def LevelsActRule : Prop :=
  ∀ (s : State) (r : Report) (rest : List Report), s.pow.off = false → s.readyBit 2 = true → s.reports = r :: rest →
    (∀ o ∈ rest, o.found = r.found → o.src.cls ≠ r.src.cls) →
    Runs (.faultReport none false) s fun t =>
      ((applied s r).pin = true → faultPins t = (0, 1)) ∧
      (∀ c, r.ctx = some c → (applied s r).level = 2 → s.fld .circRingConf F.circRingConf_ENABLE = 0 →
        (s.ctx c.die c.core c.slot).st = .ready ∨ (s.ctx c.die c.core c.slot).st = .wait →
          (t.ctx c.die c.core c.slot).st = .stopped) ∧
      (∀ d, r.resetDie = some d → (applied s r).level = 3 → (r.block, d) ∈ t.fcu.resets) ∧
      (4 ≤ (applied s r).level → t.fld .fcuStatus F.fcuStatus_OFF_RING = 1) ∧
      ((applied s r).level = 5 → t.fcu.holdClass ≠ none ∧ (s.fcu.holdClass = none → t.fcu.holdAt = s.now))

/-- The level applied to a report (R515, R518, R522, R525): a source configured at 0 stays at 0; otherwise it is the larger
of the configured level and the class's unacknowledged level plus 1, or the configured level where escalation is off; 6
is applied at 5 with the pin, as is every report of a class that is in a level-5 hold; level 3 on what cannot be
block-reset is 4; and the pin is driven at level 4. -/
def LevelsEscalateRule : Prop :=
  ∀ (s : State) (r : Report) (c n : Nat), c = s.fld (.fcuReact r.src) F.fcuReact_LEVEL →
    n = (if s.fld (.fcuClass r.src.cls) F.fcuClass_ESC_EN = 1 then max c (unackLevel s r.src.cls + 1) else c) →
    (c = 0 → (applied s r).level = 0 ∧ (applied s r).pin = false ∧ (applied s r).esc = false) ∧
    (1 ≤ c → n ≤ 5 → s.fcu.holdClass ≠ some r.src.cls →
      (applied s r).level = (if n = 3 ∧ r.resetDie = none then 4 else n) ∧ ((applied s r).pin = true ↔ (applied s r).level = 4)
        ∧ ((applied s r).esc = true ↔ c < n)) ∧
    (1 ≤ c → 6 ≤ n ∨ s.fcu.holdClass = some r.src.cls → (applied s r).level = 5 ∧ (applied s r).pin = true)

/-- Acknowledgement by FCU.ACK, by a service handler, and the pins, heartbeats, injection, reports held before the unit runs,
RESUME and block resets of the fault unit (R506, R518, R523, R524, R527, R537, R543, R660). -/
def Obligations.FaultUnitCommands : Prop :=
  ∀ (s : State),
    (∀ (k : FaultClass) (seq : Nat), WriteReady s .fcuAck → seq < 2 ^ 32 →
      seqUpTo seq ((s.fcu.nextSeq + 2 ^ 32 - 1) % 2 ^ 32) = true → seqUpTo seq (s.fld (.fcuClass k) F.fcuClass_ACKED_SEQ) = false →
      Runs (.faultAck (2 ^ (k.code - 1)) seq) s fun t =>
        (∀ u ∈ t.fcu.unacked, u.cls = k → seqUpTo u.seq seq = true → u.acked = true)
        ∧ (∀ k', k' ≠ k → t.fld (.fcuClass k') F.fcuClass_ACKED_SEQ = s.fld (.fcuClass k') F.fcuClass_ACKED_SEQ)
        ∧ StoresKept s t ∧ DiesKept s t) ∧
    (∀ u, nextHandler s.fcu.handlers = some u → u.level = 1 → s.fld (.fcuClass u.cls) F.fcuClass_SVC_ACK = 1 →
      Runs .serviceHandlerDone s fun t => t.fcu.handlers = s.fcu.handlers.erase u
        ∧ ∀ v ∈ t.fcu.unacked, v.cls = u.cls → v.seq = u.seq → v.acked = true) ∧
    (∀ a b, s.readyBit 2 = true → Runs (.pinSense a b) s fun t =>
      t.fld .fcuPin F.fcuPin_SENSED_A = a.toNat ∧ t.fld .fcuPin F.fcuPin_SENSED_B = b.toNat
        ∧ (a.toNat ≠ s.fld .fcuPin F.fcuPin_DRIVEN_A → s.fcu.mismatch = false →
            Raises s t [Report.plain .pinReadback 2 0 .fcu 0])
        ∧ (s.fcu.mismatch = true → Raises s t []) ∧ RegsKept [.fcuPin] s t) ∧
    (∀ d : Die, s.readyBit (7 + d.val) = true → Runs (.dieHeartbeat d) s fun t =>
      t.fcu.beats.at_ 0 d = s.now ∧ d ∉ t.fcu.silent ∧ t = { s with fcu := t.fcu }) ∧
    (∀ d : Die, s.readyBit 2 = true → s.readyBit (7 + d.val) = true → d ∉ s.fcu.silent → s.fcu.beats.at_ 0 d + 10000 ≤ s.now →
      Runs (.heartbeatTimeout d) s fun t => Raises s t [Report.plain .dieSilent d.val 0 .fcu 0] ∧ d ∈ t.fcu.silent
        ∧ t.regs = s.regs ∧ t.mem = s.mem) ∧
    (∀ (src : Source) (b : Block) (die unit detail : Nat), WriteOpen s .fcuInject → die < 3 → unit < 256 → detail < 2 ^ 32 →
      Runs (.faultInject src.id die unit b.num detail) s fun t =>
        Raises s t [{ Report.plain src die unit b 0 with detail := detail, injected := true }]
          ∧ t = { s with reports := t.reports }) ∧
    (∀ (r : Report), s.pow.off = false → s.readyBit 2 = false → s.fcu.held.length < 16 → Runs (.faultReport (some r) false) s fun t =>
      t.fcu.held = s.fcu.held ++ [stamped s r] ∧ t = { s with fcu := t.fcu }) ∧
    (WriteReady s .fcuCtrl → 100 ≤ s.fld .fcuCtrl F.fcuCtrl_RESET_HOLD_US → resumeBusy s = false →
      Runs .resume s fun t => t.fld .fcuStatus F.fcuStatus_SCHED_BROKEN = 0 ∧ RegsKept [.fcuStatus, .fcuCtrl] s t
        ∧ StoresKept s t ∧ DiesKept s t) ∧
    (WriteReady s .fcuCtrl → resumeBusy s = true → Rejects .resume s .fcuCtrl) ∧
    (∀ b d, (b, d) ∈ s.fcu.resets → resetMayEnd s b d = true → s.fcu.waiting = [] →
      Runs (.blockResetComplete b d) s fun t => (b, d) ∉ t.fcu.resets ∧ t.mem = s.mem
        ∧ ∀ r : Reg, r.block = b → r.die = some d → r.keptByReset = false → t.reg r = r.resetWord)

/-- "A write of FCU.PIN.RELEASE returns the output to 1/0. It is rejected as a CONFIG fault, with no change, while any
record with PIN = 1 or LEVEL 4 is unacknowledged. Release does not clear OFF_RING, so a released module stays out of the
ring until it is reset" (R528). -/
def Obligations.PinRelease : Prop :=
  ∀ (s : State), WriteReady s .fcuPin → s.readyBit 2 = true →
    ((∀ u ∈ s.fcu.unacked, u.acked = true ∨ (u.pin = false ∧ u.level ≠ 4)) →
      Runs .pinRelease s fun t => faultPins t = (1, 0)
        ∧ t.fld .fcuStatus F.fcuStatus_OFF_RING = s.fld .fcuStatus F.fcuStatus_OFF_RING
        ∧ RegsKept [.fcuPin] s t ∧ StoresKept s t ∧ DiesKept s t) ∧
    ((∃ u ∈ s.fcu.unacked, u.acked = false ∧ (u.pin = true ∨ u.level = 4)) → Rejects .pinRelease s .fcuPin)

/-! ### Security, records and the management connector (chapters 14 and 16) -/

/-- "A write of SEC.FUSE_CMD with OP ADVANCE and ARG t blows steps counter to t − 1 in ascending order, at 1 ms per step",
and is rejected with no fuse blown when t is at or below the counter, above 64, above the running image's SVN, or no
verified image runs (R596). -/
def Obligations.FuseAdvance : Prop :=
  ∀ (s : State) (t : Nat), t < 256 →
    (WriteOpen s .secFuseCmd → s.sec.blow = none → s.fuses.rollback < t → t ≤ 64 → t ≤ s.fld .secStatus F.secStatus_IMAGE_SVN →
      s.readyBit 1 = true → Runs (.fuseAdvance t) s fun u => u.sec.blow = some (.advance t) ∧ u.sec.blowAt = s.now ∧ u.fuses = s.fuses
        ∧ Raises s u []) ∧
    (WriteOpen s .secFuseCmd → (t ≤ s.fuses.rollback ∨ 64 < t ∨ s.fld .secStatus F.secStatus_IMAGE_SVN < t ∨ s.readyBit 1 = false) →
      Rejects (.fuseAdvance t) s .secFuseCmd) ∧
    (s.sec.blow = some (.advance t) → s.sec.blowAt + (t - s.fuses.rollback) * 1000000 ≤ s.now →
      Runs .fuseBlowDone s fun u => u.fuses.rollback = t ∧ u.fuses.revoked = s.fuses.revoked ∧ u.sec.blow = none) ∧
    (s.sec.blow = some (.advance t) → s.now < s.sec.blowAt + (t - s.fuses.rollback) * 1000000 → exec .fuseBlowDone s = .next s)

/-- "OP REVOKE_SLOT with ARG k blows slot k's revocation pair", and is rejected with no change when k is above 3, already
revoked, the slot of the running image, or the only unrevoked slot (R597); a second command while a blow runs is rejected
(R598). -/
def Obligations.FuseRevoke : Prop :=
  ∀ (s : State) (k : Nat), k < 256 → WriteOpen s .secFuseCmd →
    (s.sec.blow = none → k ≤ 3 → k ∉ s.fuses.revoked → (s.readyBit 1 = true → k ≠ s.fld .secStatus F.secStatus_KEY_SLOT) →
      (∃ j, j < 4 ∧ j ≠ k ∧ j ∉ s.fuses.revoked) →
      Runs (.fuseRevokeSlot k) s fun u => u.sec.blow = some (.revoke k) ∧ u.sec.blowAt = s.now ∧ u.fuses = s.fuses ∧ Raises s u []) ∧
    ((3 < k ∨ k ∈ s.fuses.revoked ∨ (s.readyBit 1 = true ∧ k = s.fld .secStatus F.secStatus_KEY_SLOT)
        ∨ (∀ j, j < 4 → j = k ∨ j ∈ s.fuses.revoked)) → Rejects (.fuseRevokeSlot k) s .secFuseCmd) ∧
    (s.sec.blow ≠ none → Rejects (.fuseRevokeSlot k) s .secFuseCmd ∧ Rejects (.fuseAdvance k) s .secFuseCmd) ∧
    (s.sec.blow = some (.revoke k) → s.sec.blowAt + 1000000 ≤ s.now → Runs .fuseBlowDone s fun u =>
      k ∈ u.fuses.revoked ∧ (∀ j, j ≠ k → (j ∈ u.fuses.revoked ↔ j ∈ s.fuses.revoked)) ∧ u.fuses.rollback = s.fuses.rollback
        ∧ u.sec.blow = none ∧ Raises s u [])

/-- "The IMAGE_REQ body is 16 bytes: byte 0: the REJECT_CAUSE that started recovery; byte 1: the ROM revision; byte 2: the
rollback counter; byte 3: 0; bytes 4–7: FP; bytes 8–11: MOD.IDENT; bytes 12–15: 0" (R593); it is sent in recovery when it
is due (R591). -/
def Obligations.ImageRequest : Prop :=
  ∀ (s : State), s.sec.recovery = true → linkState s = 3 → s.sec.reqDue = true ∨ (s.sec.reqRepeat = true ∧ s.sec.reqAt + 1000000000 ≤ s.now) →
    Runs .imageReq s fun t => Sends s t 0x8A 0
        ([BitVec.ofNat 8 s.sec.cause, BitVec.ofNat 8 (Config.romRev 0), BitVec.ofNat 8 s.fuses.rollback, 0]
          ++ leBytes 4 (s.reg (.secIdHash 0)).toNat ++ leBytes 4 (identity s).toNat ++ [0, 0, 0, 0])
      ∧ t.sec.reqDue = false ∧ t.sec.reqAt = s.now ∧ t.regs = s.regs ∧ StoresKept s t ∧ DiesKept s t

/-- Image data lands in the flash image region, or in firmware memory in recovery, and nowhere else; the first data after
IDLE, VALID or INVALID begins an update, and a sector is erased when data first touches it; COMMIT starts the check and its
end decides VALID or INVALID, or runs the image in recovery; ABORT returns to IDLE (R591, R592, R594). -/
def Obligations.ImageMessages : Prop :=
  ∀ (s : State) (h : MsgHead), Accepts s h [1] → Canonical s →
    (∀ (off : Nat) (data : List Byte), s.sec.verifying = none → off + data.length ≤ 33554432 →
      s.sec.recovery = false → updState s = 1 → overlapsWritten s off data.length = false →
      Runs (.imageData h off data) s fun t => flashBytes t off data.length = data ∧ updState t = 1
        ∧ (∀ a, a / 65536 < off / 65536 → Mem.get t.sec.flash a = Mem.get s.sec.flash a)
        ∧ t.sec.firmware = s.sec.firmware ∧ (off, data.length) ∈ t.sec.written
        ∧ RegsKept [.secUpdStatus] s t ∧ StoresKept s t ∧ DiesKept s t) ∧
    (∀ (off : Nat) (data : List Byte), s.sec.verifying = none → off + data.length ≤ 33554432 →
      s.sec.recovery = false → updState s = 0 ∨ updState s = 3 ∨ updState s = 4 →
      Runs (.imageData h off data) s fun t => flashBytes t off data.length = data ∧ updState t = 1
        ∧ t.fld .secUpdStatus F.secUpdStatus_BYTES = data.length ∧ t.sec.written = [(off, data.length)]
        ∧ (∀ a, a / 65536 < off / 65536 → Mem.get t.sec.flash a = Mem.get s.sec.flash a)
        ∧ (∀ a, off / 65536 * 65536 ≤ a → a < off → data ≠ [] → flashBytes t a 1 = [0xFF])
        ∧ t.sec.firmware = s.sec.firmware ∧ RegsKept [.secUpdStatus] s t ∧ StoresKept s t ∧ DiesKept s t) ∧
    (∀ (off : Nat) (data : List Byte), s.sec.verifying = none → 33554432 < off + data.length →
      Runs (.imageData h off data) s fun t => t.fld .secUpdStatus F.secUpdStatus_CAUSE = 8
        ∧ Raises s t [Report.plain .loadRejected 2 0 .sec 0] ∧ t.sec.flash = s.sec.flash ∧ t.sec.firmware = s.sec.firmware) ∧
    (∀ (off : Nat) (data : List Byte), s.sec.verifying = none → off + data.length ≤ 33554432 →
      s.sec.recovery = true → overlapsWritten s off data.length = false →
      Runs (.imageData h off data) s fun t => firmwareBytes t off data.length = data ∧ t.sec.flash = s.sec.flash
        ∧ t.sec.reqRepeat = false ∧ RegsKept [.secUpdStatus] s t ∧ StoresKept s t ∧ DiesKept s t) ∧
    (∀ total, s.sec.verifying = none → Runs (.imageCommit h total) s fun t => t.sec.verifying = some total
        ∧ (s.sec.recovery = false → updState t = 2) ∧ RegsKept [.secUpdStatus] s t) ∧
    (∀ total, s.sec.verifying = some total → s.sec.recovery = false → Runs .imageVerifyDone s fun t => t.sec.verifying = none
        ∧ updState t = (if checkImage s (flashBytes s) (some total) = 0 then 3 else 4)) ∧
    (∀ total, s.sec.verifying = some total → s.sec.recovery = true → Runs .imageVerifyDone s fun t => t.sec.verifying = none
        ∧ (checkImage s (firmwareBytes s) (some total) = 0 → t.readyBit 1 = true ∧ t.sec.recovery = false
            ∧ t.fld .secStatus F.secStatus_BOOT_SRC = 2)
        ∧ (checkImage s (firmwareBytes s) (some total) ≠ 0 → t.sec.recovery = true ∧ t.sec.reqDue = true)) ∧
    (Runs (.imageAbort h) s fun t => updState t = 0 ∧ t.sec.verifying = none ∧ t.sec.written = [] ∧ RegsKept [.secUpdStatus] s t)

/-- Attestation: GO is taken while no report is due and an image runs, and the report is sent as 3,904 signed bytes and
a signature of 2,420; repair records and reclaims of the record banks (R599, R600, R606, R607). -/
def Obligations.AttestationAndRecords : Prop :=
  ∀ (s : State),
    (WriteReady s .secAttCmd → s.fld .secStatus F.secStatus_ATT_BUSY = 0 → s.readyBit 1 = true →
      Runs .attestGo s fun t => t.fld .secStatus F.secStatus_ATT_BUSY = 1 ∧ RegsKept [.secStatus] s t) ∧
    (WriteReady s .secAttCmd → (s.fld .secStatus F.secStatus_ATT_BUSY = 1 ∨ s.readyBit 1 = false) → Rejects .attestGo s .secAttCmd) ∧
    (s.fld .secStatus F.secStatus_ATT_BUSY = 1 → linkState s = 3 → Runs .attest s fun t =>
      (∃ sig : List Byte, sig.length = 2420 ∧ Sends s t 0x89 0 (attestBody s ++ sig)) ∧ (attestBody s).length = 3904
        ∧ t.fld .secStatus F.secStatus_ATT_BUSY = 0 ∧ t.fld .secStatus F.secStatus_ATTESTED = 1 ∧ RegsKept [.secStatus] s t) ∧
    (∀ d bank row rest, s.sec.repairDue = (d, bank, row) :: rest → s.sec.recs = [] → Runs .repairRecordWrite s fun t =>
      t.sec.repairDue = rest ∧ t.sec.recs = [{ cal := false, key := keyOfRepair d bank, payload := leBytes 8 (row % 1024)
                                               live := true, user := false }]) ∧
    (WriteOpen s .secRecCtrl → Runs (.reclaim true) s fun t => t.sec.reclaiming = true ∧ t.sec.recs = s.sec.recs) ∧
    (bankFree s < 524288 → Runs (.reclaim false) s fun t => t.sec.reclaiming = true ∧ t.sec.recs = s.sec.recs) ∧
    (s.sec.reclaiming = true → Runs .reclaimComplete s fun t => t.sec.reclaiming = false ∧ t.sec.gen = s.sec.gen + 1
      ∧ (∀ r ∈ t.sec.recs, r.live = true ∧ r ∈ s.sec.recs) ∧ (∀ r ∈ s.sec.recs, r.cal = false → r.live = true → r ∈ t.sec.recs)
      ∧ ∀ f, calRecord t f = calRecord s f)

/-- The management target keeps the selected address, reads a register in view U (a PTC.READY that has failed raises
RECORD_BAD, R575), reads the straps with READY.IMAGE and
FAULT_A, answers the Alert Response Address with its own address while LEVEL_MAX is 1 or more, takes a dynamic address,
and the TAP takes each instruction, those that drive pins as BYPASS while the module is admitted (R642, R643, R646, R647). -/
def Obligations.ManagementConnector : Prop :=
  ∀ (s : State), answers s = true →
    (∀ addr, addr < 2 ^ 48 → Runs (.select addr) s fun t => t.mgmt.sel = addr ∧ t.mgmt.acked = true ∧ t = { s with mgmt := t.mgmt }) ∧
    (∀ r : Reg, s.mgmt.sel = r.addr → Reg.ofAddr r.addr = some r → inBlockReset s r = false → regReady s r = true → r.hasU = true →
      (r = .ptcReady → readyFailed s = false) → Runs .read s fun t => t.mgmt.acked = true ∧ t.mgmt.reply = 0 :: leBytes 8 (readReg s r false).toNat ∧ t = { s with mgmt := t.mgmt }) ∧
    (∀ r : Reg, s.mgmt.sel = r.addr → Reg.ofAddr r.addr = some r → inBlockReset s r = false → regReady s r = true → r.hasU = false →
      Runs .read s fun t => t.mgmt.reply = 2 :: leBytes 8 0 ∧ Raises s t [Report.plain .view r.dieCode 0 r.block r.addr]) ∧
    (s.mgmt.sel = Reg.ptcReady.addr → readyFailed s = true → Runs .read s fun t => t.mgmt.acked = true
      ∧ Raises s t [Report.plain .recordBad 2 0 .ptc Reg.ptcReady.addr]) ∧
    (Runs .straps s fun t => t.mgmt.reply = [BitVec.ofNat 8 (s.mgmt.straps % 64 + (s.readyBit 1).toNat * 64
        + s.fld .fcuPin F.fcuPin_DRIVEN_A * 128)] ∧ t = { s with mgmt := t.mgmt }) ∧
    (alertLow s = true → Runs .smbusAlertResponse s fun t =>
      t.mgmt.reply = [BitVec.ofNat 8 ((0x40 + s.mgmt.straps % 32) * 2)] ∧ t = { s with mgmt := t.mgmt }) ∧
    (∀ addr, addr < 128 → Runs (.i3cDynamicAddress addr) s fun t => t.mgmt.dynamic = some addr ∧ t = { s with mgmt := t.mgmt }) ∧
    (Runs .tapBypass s fun t => t.mgmt.tap = .bypass ∧ t = { s with mgmt := t.mgmt }) ∧
    (Runs .tapIdcode s fun t => t.mgmt.tap = .idcode ∧ t.mgmt.tapData = idcode s ∧ t = { s with mgmt := t.mgmt }) ∧
    (Runs .tapSamplePreload s fun t => t.mgmt.tap = .samplePreload ∧ t = { s with mgmt := t.mgmt }) ∧
    (∀ p ∈ ([(.tapExtest, .extest), (.tapExtestPulse, .extestPulse), (.tapExtestTrain, .extestTrain), (.tapClamp, .clamp),
        (.tapHighz, .highz)] : List (Instr × TapInstr)), Runs p.1 s fun t => t = { s with mgmt := t.mgmt }
      ∧ t.mgmt.tap = (if s.fld .circAdmit F.circAdmit_STATE = 1 then .bypass else p.2))

/-- What the reaction levels do, and how they escalate (R515 to R525). -/
def Obligations.LevelsActAndEscalate : Prop := LevelsActRule ∧ LevelsEscalateRule

/-! ### Contexts and scalar instructions (chapters 03, 05 and 07) -/

/-- The instruction has written one vector register of its core and nothing else. -/
def VectorOnly (d : Die) (q : CoreId) (x : SlotId) (vd : Fin 32) (s t : State) : Prop :=
  (∀ v, v ≠ vd → vectorReg t d q v = vectorReg s d q v)
    ∧ t.core d q = { s.core d q with vregs := (t.core d q).vregs, issuedAt := some (s.beat d) }
    ∧ (t.ctx d q x).pc = nextPc s d q x ∧ t.regs = s.regs ∧ StoresKept s t ∧ OtherCtxs d q x s t ∧ Raises s t []

/-- A register, predicate or vector result is written, marked where a register it is computed from is, the PC moves on by one
word, and nothing else of the machine changes; a vector conversion rounds each element once; a vector read or write of the
die's own stores is put before them line by line; a reserved opcode or a nonzero reserved field stops the context with CAUSE
ILLEGAL and a fault; and a word acts as the instruction that its bits 31:24 name (R133, R152, R202, R213, R291, R308, R309,
R310, R351; the marks are the model's reading, log entry 44). -/
def Obligations.ScalarOperations : Prop :=
  ∀ (s : State) (d : Die) (q : CoreId) (x : SlotId) (srcs : List (Fin 32)), Issues s d q x srcs →
    (∀ rd v, Runs (.scalarOp d q (.reg rd v) srcs) s fun t => (t.ctx d q x).rd rd = v
      ∧ (rd ∈ (t.ctx d q x).bad ↔ ∃ r ∈ srcs, r ∈ (s.ctx d q x).bad) ∧ (t.ctx d q x).pc = nextPc s d q x
      ∧ OtherScalars rd (s.ctx d q x) (t.ctx d q x) ∧ OnlyIssued d q x s t) ∧
    (∀ (p : Fin 8) (b : Bool), (s.ctx d q x).p < 256 → Runs (.scalarOp d q (.pred p b) srcs) s fun t =>
      (t.ctx d q x).p.testBit p.val = b ∧ (∀ j, j ≠ p.val → (t.ctx d q x).p.testBit j = (s.ctx d q x).p.testBit j)
        ∧ (t.ctx d q x).s = (s.ctx d q x).s ∧ (t.ctx d q x).pc = nextPc s d q x ∧ OnlyIssued d q x s t) ∧
    (∀ vd bytes vs, (∀ v ∈ vd :: vs, vectorPending s d q v.val = false) → Runs (.scalarOp d q (.vec vd bytes vs) srcs) s fun t =>
      (vectorReg t d q vd).bytes = bytes
        ∧ ((vectorReg t d q vd).poison = true ↔ (∃ r ∈ srcs, r ∈ (s.ctx d q x).bad) ∨ ∃ v ∈ vs, (vectorReg s d q v).poison = true)
        ∧ VectorOnly d q x vd s t) ∧
    (∀ vd vs f g, (∀ v ∈ [vd, vs], vectorPending s d q v.val = false) → Runs (.scalarOp d q (.vcvt vd vs f g) srcs) s fun t =>
      vectorReg t d q vd = ⟨convertBytes f g (vectorReg s d q vs).bytes, (vectorReg s d q vs).poison⟩
        ∧ VectorOnly d q x vd s t) ∧
    (∀ vd a n m, vectorPending s d q vd.val = false → (s.ctx d q x).translate a n .r = some m → wideReject s m n 2 .none_ = none →
      ownStore d m = true → Runs (.scalarOp d q (.vread vd a n) srcs) s fun t =>
        (t.die d).accs = (s.die d).accs ++ (pieces d m n).map (fun g => ({
          stamp := (s.die d).stamp, kind := .read, addr := directAddr g.1, size := g.2, data := [],
          dest := .vector d q x vd (g.1 - m), portB := isElectrum m && decide (distance d q m < 2),
          issue := s.beat d, ret := 0, served := false } : Access))
        ∧ (t.ctx d q x).pc = nextPc s d q x ∧ t.mem = s.mem ∧ t.regs = s.regs ∧ Raises s t []) ∧
    (∀ vs a n e m, vectorPending s d q vs.val = false → (s.ctx d q x).translate a n (storePerm (s.ctx d q x) a n) = some m →
      wideReject s m n 4 e = none → ownStore d m = true → Runs (.scalarOp d q (.vwrite vs a n e) srcs) s fun t =>
        (t.die d).accs.length = (s.die d).accs.length + (pieces d m n).length
        ∧ (∀ b ∈ (t.die d).accs, b ∈ (s.die d).accs ∨ (b.dest = .store d q x ∧ b.kind = wideKind (reached s m) e ∧ b.issue = s.beat d))
        ∧ (t.ctx d q x).pc = nextPc s d q x ∧ t.mem = s.mem ∧ t.regs = s.regs ∧ Raises s t []) ∧
    (∀ vd a n m src, vectorPending s d q vd.val = false → (s.ctx d q x).translate a n .r = some m →
      wideReject s m n 2 .none_ = some src → Runs (.scalarOp d q (.vread vd a n) srcs) s fun t =>
        vectorReg t d q vd = ⟨List.replicate n 0, true⟩ ∧ (t.ctx d q x).pc = nextPc s d q x ∧ (t.die d).accs = (s.die d).accs
        ∧ Raises s t [{ Report.plain src d.val q.val (accessBlock m) (m % 2 ^ 48) with ctx := some ⟨d, q, x⟩ }] ∧ t.mem = s.mem) ∧
    (∀ (w : Half), illegalWord w = false → ∀ p ∈ ([(0xE0, .eissue d q (regA w)), (0xE1, .efence d q), (0xE2, .estat d q (regA w)),
        (0xE4, .afeed d q (regA w) (regB w)), (0xE5, .wtord d q (regA w)), (0xE6, .mcast d q (regA w) (regB w)),
        (0xE7, .gacc d q (regA w) (regB w)), (0xE8, .pflush d q), (0xE9, .xpand d q (regA w) (regB w)), (0xEA, .tfeed d q (regA w)),
        (0xEC, .beats d q (regA w)), (0xED, .time d q (regA w)), (0xEE, .bwait d q (regA w)), (0xEF, .twait d q (regA w)),
        (0xF0, .dpost d q (regA w)), (0xF1, .dstat d q (regA w)), (0xF4, .step d q (regA w) (regB w)), (0xF5, .stepend d q (regA w)),
        (0xF8, .signal d q (regA w)), (0xF9, .wait d q (regA w) (regB w) (predD w)), (0xFA, .consume d q (regA w)),
        (0xFB, .cread d q (regA w) (regB w)), (0xFC, .barrive d q (regA w))] : List (Nat × Instr)),
      bitsOf32 w 31 24 = p.1 → exec (.scalarOp d q (.word w) srcs) s = exec p.2 s) ∧
    (∀ c ∈ ([.scalarOp d q .illegal srcs, .scalarOp d q (.word 0xE0000001) srcs] : List Instr), Runs c s fun t =>
      (t.ctx d q x).st = .stopped ∧ (t.ctx d q x).cause = 2 ∧ (t.ctx d q x).pc = (s.ctx d q x).pc
        ∧ Raises s t [{ Report.plain .illegalWord d.val q.val .scv 0 with ctx := some ⟨d, q, x⟩ }]
        ∧ OtherCtxs d q x s t ∧ t = { s with ctxs := t.ctxs, reports := t.reports })

/-- BEATS, TIME, ESTAT and DSTAT copy the die beat count, the die's timebase replica, ENG.CORE_STATUS and DMA.QSTATUS into sD
and change nothing else; a wait instruction completes where its condition holds, and otherwise the context waits for it at
the same PC: BWAIT for a beat, TWAIT for a time, EFENCE for the context's engine words, PFLUSH for an empty combining
buffer (R133, R136, R213, R291, R308, R309, R330). -/
def Obligations.ReadsAndWaits : Prop :=
  ∀ (s : State) (d : Die) (q : CoreId) (x : SlotId) (sA sD : Fin 32),
    (Issues s d q x [] → ∀ p ∈ ([(.beats d q sD, s.reg (.scvBeat d)), (.time d q sD, s.reg (.scvTime d)), (.estat d q sD, coreStatus s d q),
        (.dstat d q sD, dmaStatus s d (clusterOf q))] : List (Instr × Word)),
      Runs p.1 s fun t => (t.ctx d q x).rd sD = p.2 ∧ (t.ctx d q x).pc = nextPc s d q x
        ∧ OtherScalars sD (s.ctx d q x) (t.ctx d q x) ∧ OnlyIssued d q x s t) ∧
    (Issues s d q x [sA] → ∀ p ∈ ([(.bwait d q sA, .beat ((s.ctx d q x).rd sA).toNat, decide (((s.ctx d q x).rd sA).toNat ≤ s.beat d)),
        (.twait d q sA, .time ((s.ctx d q x).rd sA).toNat, decide (((s.ctx d q x).rd sA).toNat ≤ s.time d)),
        (.efence d q, .efence, !(s.core d q).issueQ.any (fun e => e.slot == x)),
        (.pflush d q, .pflush, (s.core d q).combine.isEmpty)] : List (Instr × WaitCond × Bool)),
      (p.2.2 = true → Runs p.1 s fun t => (t.ctx d q x).pc = nextPc s d q x ∧ (t.ctx d q x).st = (s.ctx d q x).st
        ∧ (t.ctx d q x).s = (s.ctx d q x).s ∧ OnlyIssued d q x s t) ∧
      (p.2.2 = false → Runs p.1 s fun t => (t.ctx d q x).pc = (s.ctx d q x).pc ∧ (t.ctx d q x).st = .wait
        ∧ (t.ctx d q x).waiting = some p.2.1 ∧ (t.ctx d q x).s = (s.ctx d q x).s ∧ OnlyCtx d q x s t))

/-- EISSUE pushes its word onto the issue queue and moves on, or, the queue being full, waits at the same PC while
ISSUE_STALL counts; a taken branch holds its context for 8 beats at the target, one not taken moves on (R134, R308). -/
def Obligations.IssueAndBranch : Prop :=
  ∀ (s : State) (d : Die) (q : CoreId) (x : SlotId) (sA : Fin 32),
    (Issues s d q x [sA] → queueHasRoom s d q 0 = true → Runs (.eissue d q sA) s fun t =>
      t.core d q = { s.core d q with issueQ := (s.core d q).issueQ ++ [⟨(s.ctx d q x).rd sA, x, (s.die d).stamp, s.beat d⟩],
                                         issuedAt := some (s.beat d) }
        ∧ (t.ctx d q x).pc = nextPc s d q x ∧ (∀ e p, (e, p) ≠ (d, q) → t.core e p = s.core e p) ∧ t.regs = s.regs
        ∧ t.mem = s.mem) ∧
    (Issues s d q x [sA] → queueHasRoom s d q 0 = false → (s.ctx d q x).stalledAt ≠ some (s.beat d) → Runs (.eissue d q sA) s fun t =>
      t.core d q = s.core d q ∧ (t.ctx d q x).st = .wait ∧ (t.ctx d q x).waiting = some (.queueFull 0)
        ∧ (t.ctx d q x).pc = (s.ctx d q x).pc
        ∧ t.fld (.scvIssueStall d q) F.scvIssueStall_COUNT
            = min (s.fld (.scvIssueStall d q) F.scvIssueStall_COUNT + 1)
                (2 ^ (F.scvIssueStall_COUNT.hi + 1 - F.scvIssueStall_COUNT.lo) - 1)) ∧
    (∀ target, Issues s d q x [] → target < 2 ^ 48 → Runs (.branch d q true target) s fun t =>
      (t.ctx d q x).pc = target ∧ (t.ctx d q x).st = .wait ∧ (t.ctx d q x).waiting = some (.branch (s.beat d + 8))
        ∧ OnlyIssued d q x s t) ∧
    (∀ target, Issues s d q x [] → Runs (.branch d q false target) s fun t =>
      (t.ctx d q x).pc = nextPc s d q x ∧ (t.ctx d q x).st = (s.ctx d q x).st ∧ OnlyIssued d q x s t)

/-- A waiting context whose condition holds becomes READY, one whose condition does not hold stays as it is; a wait
instruction then completes, a stalled instruction issues again (R308, R331). -/
def WaitingContextsBecomeReadyRule : Prop :=
  ∀ (s : State) (d : Die) (q : CoreId) (x : SlotId) (w : WaitCond), (s.ctx d q x).st = .wait → (s.ctx d q x).waiting = some w → (s.ctx d q x).stopReq = false →
    (condHolds s d q x w = true → Runs (.contextReady d q x) s fun t => (t.ctx d q x).st = .ready ∧ (t.ctx d q x).waiting = none
      ∧ (t.ctx d q x).pc = (if w.completes then nextPc s d q x else (s.ctx d q x).pc) ∧ OtherCtxs d q x s t ∧ t.mem = s.mem) ∧
    (condHolds s d q x w = false → exec (.contextReady d q x) s = .next s)

/-- START, STOP, SAVE, RESTORE and DISCARD act in the states that R336 lists, and are rejected in every other, or with a save
area that breaks the placement of R335 (R336). -/
def Obligations.SlotCommands : Prop :=
  ∀ (s : State) (d : Die) (q : CoreId) (x : SlotId) (a : Nat), WriteReady s (.scvCtxCmd d q) → a < 2 ^ 48 →
    ((s.ctx d q x).st = .stopped → Runs (.start d q x) s fun t => (t.ctx d q x).st = .ready ∧ (t.ctx d q x).pc = (s.ctx d q x).pc
      ∧ (t.ctx d q x).s = (s.ctx d q x).s ∧ OnlyCtx d q x s t) ∧
    ((s.ctx d q x).st ≠ .stopped → Rejects (.start d q x) s (.scvCtxCmd d q)) ∧
    ((s.ctx d q x).st = .ready ∨ (s.ctx d q x).st = .wait → Runs (.stop d q x) s fun t => (t.ctx d q x).stopReq = true
      ∧ (t.ctx d q x).st = (s.ctx d q x).st ∧ OnlyCtx d q x s t) ∧
    ((s.ctx d q x).st ≠ .ready → (s.ctx d q x).st ≠ .wait → Rejects (.stop d q x) s (.scvCtxCmd d q)) ∧
    ((s.ctx d q x).st = .stopped → saveAreaOk d q a = true → Runs (.save d q x a) s fun t => (t.ctx d q x).st = .saving
      ∧ (t.ctx d q x).area = a ∧ OnlyCtx d q x s t) ∧
    ((s.ctx d q x).st ≠ .stopped ∨ saveAreaOk d q a = false → Rejects (.save d q x a) s (.scvCtxCmd d q)) ∧
    ((s.ctx d q x).st = .empty → saveAreaOk d q a = true → Runs (.restore d q x a) s fun t => (t.ctx d q x).st = .restoring
      ∧ (t.ctx d q x).area = a ∧ OnlyCtx d q x s t) ∧
    ((s.ctx d q x).st ≠ .empty ∨ saveAreaOk d q a = false → Rejects (.restore d q x a) s (.scvCtxCmd d q)) ∧
    ((s.ctx d q x).st = .stopped → Runs (.discard d q x) s fun t => (t.ctx d q x).st = .empty ∧ OnlyCtx d q x s t) ∧
    ((s.ctx d q x).st ≠ .stopped → Rejects (.discard d q x) s (.scvCtxCmd d q))

/-- A STOP takes effect once the narrow accesses of the context have returned; a finished SAVE leaves the image of the
context in its area and the slot EMPTY; a finished RESTORE leaves the slot STOPPED with CAUSE RESTORED, or EMPTY with a fault
where the area fails its check (R331, R335, R336). -/
def SlotsSettleRule : Prop :=
  ∀ (s : State) (d : Die) (q : CoreId) (x : SlotId),
    ((s.ctx d q x).stopReq = true → narrowOutstanding s d q x = false → Runs (.stopTakesEffect d q x) s fun t =>
      (t.ctx d q x).st = .stopped ∧ (t.ctx d q x).cause = 1 ∧ (t.ctx d q x).stopReq = false
        ∧ (t.ctx d q x).pc = (s.ctx d q x).pc ∧ OnlyCtx d q x s t) ∧
    (narrowOutstanding s d q x = true → exec (.stopTakesEffect d q x) s = .next s) ∧
    ((s.ctx d q x).st = .saving → saveAreaOk d q (s.ctx d q x).area = true → Mem.wf s.mem = true →
      Runs (.saveDone d q x) s fun t => (t.ctx d q x).st = .empty
        ∧ t.bytes (s.ctx d q x).area 17408 = saveImage (s.ctx d q x) ∧ MemKeptBut (s.ctx d q x).area 17408 s t
        ∧ OtherCtxs d q x s t ∧ t.regs = s.regs) ∧
    ((s.ctx d q x).st = .restoring → Runs (.restoreDone d q x) s fun t => OtherCtxs d q x s t
      ∧ (∀ n, parseArea (readStore s (s.ctx d q x).area 17408) d q (s.ctx d q x).area = some n →
          t.ctx d q x = n ∧ n.st = .stopped ∧ n.cause = 6)
      ∧ (parseArea (readStore s (s.ctx d q x).area 17408) d q (s.ctx d q x).area = none → (t.ctx d q x).st = .empty
          ∧ Raised s t (Report.plain .restoreFailed d.val q.val .scv (s.ctx d q x).area)))

/-- A context whose fields fit their words, of which no register carries a poison mark, and whose eight regions a RESTORE accepts (R335, R377). -/
def Saveable (d : Die) (q : CoreId) (c : Ctx) : Prop :=
  c.pc < 2 ^ 48 ∧ c.p < 256 ∧ c.prioShown < 4 ∧ c.bad = [] ∧ c.last < 4 ∧ c.lastVid < 4096 ∧ (∀ v, c.xl.at_ 0 v < 65536)
    ∧ (∀ r : Fin 8, ∃ g, c.regions.find r = some g ∧ g.cbase < 2 ^ 48 ∧ g.mbase < 2 ^ 48
        ∧ parseRegion (q.val / 4) d g.cbase g.mbase g.word (comp 64 g.word) = some g)
    ∧ (∀ r t : Fin 8, ∀ g h, r ≠ t → c.regions.find r = some g → c.regions.find t = some h → g.overlaps h = false)

/-- A context saved into its area and restored from it into any slot of its core is the context again: its PC, predicates,
priority, scalar registers, regions, counter translations and latest wait (R335, R377, R378). -/
def Obligations.SaveThenRestore : Prop :=
  ∀ (s : State) (d : Die) (q : CoreId) (x y : SlotId), (s.ctx d q x).st = .saving → saveAreaOk d q (s.ctx d q x).area = true →
    Mem.wf s.mem = true → Saveable d q (s.ctx d q x) →
    ∃ t, exec (.saveDone d q x) s = .next t ∧
      ∀ u : Ctx, u.st = .restoring → u.area = (s.ctx d q x).area →
        Runs (.restoreDone d q y) (t.setCtx d q y u) fun v =>
          (v.ctx d q y).st = .stopped ∧ (v.ctx d q y).cause = 6 ∧ (v.ctx d q y).pc = (s.ctx d q x).pc
            ∧ (v.ctx d q y).p = (s.ctx d q x).p ∧ (v.ctx d q y).prio = (s.ctx d q x).prioShown
            ∧ (v.ctx d q y).ran = (s.ctx d q x).ran ∧ (∀ r, (v.ctx d q y).rd r = (s.ctx d q x).rd r)
            ∧ (∀ r, (v.ctx d q y).regions.find r = (s.ctx d q x).regions.find r)
            ∧ (∀ n, 1 ≤ n → n < 4096 → (v.ctx d q y).xl.at_ 0 n = (s.ctx d q x).xl.at_ 0 n)
            ∧ (v.ctx d q y).last = (s.ctx d q x).last ∧ (v.ctx d q y).lastVid = (s.ctx d q x).lastVid

/-- Slots settle, and contexts that wait become READY (R336 to R338, R354). -/
def Obligations.ContextsSettleAndWake : Prop := SlotsSettleRule ∧ WaitingContextsBecomeReadyRule

/-! ### The stores (chapter 05) -/

/-- The bytes a write of a kind leaves at its address (R202, R218 to R220): the data of a write, the data joined to or taken
out of the old bytes of a bit-set or bit-clear, the sums of an accumulate. -/
def storedBytes (s : State) (k : AccKind) (a : Nat) (data : List Byte) : List Byte :=
  match k with
  | .read => []
  | .write => data
  | .bitSet => List.zipWith (fun b old => b ||| old) data (s.bytes a data.length)
  | .bitClear => List.zipWith (fun b old => old &&& ~~~b) data (s.bytes a data.length)
  | .acc fp32 => (accAt s a fp32 fp32 (data.map (fun b => (b, false)))).map Prod.fst

/-- An access is served in a slot of its own, and otherwise goes on waiting; a read takes its data there, before the writes of
the beat, and a write takes effect at the beat's end, those of a lower class first; served, the access returns at its latency
into the register or the feeder queue that it was for, with the mark of a poisoned byte (R197, R201, R205, R206, R207, R217,
R218, R227, R531). -/
def Obligations.StoreAccesses : Prop :=
  (∀ (s : State) (d : Die) (i : Nat) (a : Access), (s.die d).accs[i]? = some a →
    (∀ c, servable s d i a = some c → Runs (.storeAccessServe d i ⟨[], 0⟩) s fun t =>
      (a.kind = .read → (t.die d).accs = (s.die d).accs.set i { a with
            served := true, ret := s.beat d + (if a.staged then 0 else (a.times s).2), data := readData (readStore s a.addr a.size) a }
          ∧ (t.die d).effects = (s.die d).effects ∧ t.mem = (readStore s a.addr a.size).mem)
      ∧ (a.kind ≠ .read → (t.die d).accs = (s.die d).accs.set i { a with
            served := true, ret := s.beat d + (if a.staged then 0 else (a.times s).2) }
          ∧ (t.die d).effects = (s.die d).effects ++ [⟨c, a.kind, a.addr, a.data⟩] ∧ StoresKept s t ∧ t.regs = s.regs)
      ∧ (∀ r, r ∈ (t.die d).rmws ↔ r ∈ (s.die d).rmws
          ∨ (needsRmw a = true ∧ r = ⟨(rowOf a.addr).1, c, s.beat d + (if a.portB then 4 else 8)⟩))
      ∧ .bank (rowOf a.addr).1 c ∈ (t.die d).used ∧ (∀ p, a.port = some p → p ∈ (t.die d).used)
      ∧ (∀ j b, servable t d j b = some c → (rowOf b.addr).1 ≠ (rowOf a.addr).1)
      ∧ t.ctxs = s.ctxs ∧ t.cores = s.cores) ∧
    (∀ u, servable s d i a = none → exec (.storeAccessServe d i u) s = .next s) ∧
    (a.served = true → a.ret ≤ s.beat d → ((s.die d).accs.take i).any (fun b => sameOrder b a) = false →
      (∀ dc q x rd sx, a.dest = .scalar dc q x rd sx → Runs (.storeReadReturn d i) s fun t =>
        (t.die d).accs = (s.die d).accs.eraseIdx i ∧ StoresKept s t ∧ t.regs = s.regs
          ∧ (t.ctx dc q x).rd rd = loadValue a.data sx ∧ (rd ∈ (t.ctx dc q x).bad ↔ a.data.any Prod.snd = true)
          ∧ OtherScalars rd (s.ctx dc q x) (t.ctx dc q x) ∧ OtherCtxs dc q x s t ∧ t.cores = s.cores) ∧
      (∀ dc q x, a.dest = .store dc q x → Runs (.storeReadReturn d i) s fun t =>
        (t.die d).accs = (s.die d).accs.eraseIdx i ∧ StoresKept s t ∧ t.regs = s.regs ∧ t.ctxs = s.ctxs ∧ t.cores = s.cores) ∧
      (∀ dc q x vd off, a.dest = .vector dc q x vd off → Runs (.storeReadReturn d i) s fun t =>
        (t.die d).accs = (s.die d).accs.eraseIdx i ∧ StoresKept s t ∧ t.regs = s.regs ∧ t.ctxs = s.ctxs
          ∧ ((vectorReg t dc q vd).bytes.drop off).take a.data.length = a.data.map Prod.fst
          ∧ (vectorReg t dc q vd).poison = ((vectorReg s dc q vd).poison || a.data.any Prod.snd)
          ∧ ∀ v, v ≠ vd → vectorReg t dc q v = vectorReg s dc q v) ∧
      (∀ dc q rows rb, a.dest = .feeder dc q rows rb → Runs (.storeReadReturn d i) s fun t =>
        (t.die d).accs = (s.die d).accs.eraseIdx i ∧ StoresKept s t ∧ t.regs = s.regs ∧ t.ctxs = s.ctxs
          ∧ t.core dc q = { s.core dc q with actQ := (s.core dc q).actQ ++ feederRows rows rb a.data
                                             actReserved := (s.core dc q).actReserved - rows })) ∧
    (a.served = false ∨ s.beat d < a.ret → exec (.storeReadReturn d i) s = .next s)) ∧
  (∀ (s : State) (d : Die) (e : Effect) (st : Store) (u w off : Nat), (s.die d).effects = [e] → e.cls < 9 → e.kind ≠ .read →
    placeOf e.addr = .store d st u w off → Mem.wf s.mem = true →
    ∀ r, r = readHalf (s.setDie d { s.die d with effects := [] }) e.kind e.addr e.data.length →
      (applyEffects s d).bytes e.addr (storedBytes r e.kind e.addr (e.data.map Prod.fst)).length
          = storedBytes r e.kind e.addr (e.data.map Prod.fst)
        ∧ MemKeptBut e.addr (storedBytes r e.kind e.addr (e.data.map Prod.fst)).length r (applyEffects s d)
        ∧ ((applyEffects s d).die d).effects = []) ∧
  (∀ (s : State) (d : Die) (e f : Effect), (s.die d).effects = [e, f] → f.cls < e.cls → e.cls < 9 →
    applyEffects s d = writeEffect (writeEffect (s.setDie d { s.die d with effects := [] }) f.kind f.addr f.data) e.kind e.addr e.data)

/-- What waits behind an access leaves in its slot: a read-modify-write's write-back on its beat, the oldest scrub that no
write has cancelled, which repairs its word and is counted, an entry of a drain buffer, which takes two slots where it
accumulates, and the oldest entry of a combining buffer, whose masked bytes alone are to change at the beat's end (R205,
R206, R211, R222, R226). -/
def Obligations.BuffersAreWritten : Prop :=
  ∀ (s : State) (d : Die) (q : CoreId) (i : Nat),
    (∀ r, (s.die d).rmws[i]? = some r →
      (r.beat ≤ s.beat d → Runs (.rmwWriteback d i) s fun t =>
        (t.die d).rmws = (s.die d).rmws.eraseIdx i ∧ StoresKept s t ∧ t.regs = s.regs) ∧
      (s.beat d < r.beat → exec (.rmwWriteback d i) s = .next s)) ∧
    (∀ c cs, (s.die d).scrubs.filter (fun c => c.live s) = c :: cs →
      slotOpen s d (bankIndex c.word) (rowOf c.word).1 7 = true → Runs (.scrubWriteback d) s fun t =>
        (t.die d).scrubs = cs ∧ t.latent.find c.word = none ∧ (∀ w, w ≠ c.word → t.latent.find w = s.latent.find w)
        ∧ t.fld (errCountReg d c.store) F.wstErrCount_SCRUB = min (s.fld (errCountReg d c.store) F.wstErrCount_SCRUB + 1) (2 ^ 24 - 1)
        ∧ .bank (rowOf c.word).1 7 ∈ (t.die d).used ∧ t.mem = s.mem ∧ RegsKept [errCountReg d c.store] s t) ∧
    ((s.die d).scrubs.filter (fun c => c.live s) = [] → exec (.scrubWriteback d) s = .next s) ∧
    (∀ e, (s.core d q).drains[i]? = some e → ((s.core d q).drains.take i).any (fun o => o.line % 8 = e.line % 8) = false →
      slotOpen s d (e.line % 8) (bankKey .pst q.val (e.line % 8)) 0 = true → Runs (.drainEntryWrite d q i) s fun t =>
        (e.acc = false → e.back = none → t.core d q = { s.core d q with drains := (s.core d q).drains.eraseIdx i })
        ∧ (e.acc = true → e.back = none →
            t.core d q = { s.core d q with drains := (s.core d q).drains.set i { e with back := some (s.beat d + 8) } })
        ∧ (∀ v, e.back = some v → v ≤ s.beat d → t.core d q = { s.core d q with drains := (s.core d q).drains.eraseIdx i })
        ∧ StoresKept s t ∧ t.regs = s.regs) ∧
    (∀ e es c, (s.core d q).combine = e :: es → freeSlot s d (e.access d q) = some c →
      (∀ p, (e.access d q).port = some p → p ∉ (s.die d).used) →
      (s.die d).accs.any (fun b => !b.narrow && b.port == (e.access d q).port && (freeSlot s d b).isSome) = false →
      (e.bytes.map Prod.fst).Nodup → Runs (.combineEntryWrite d q) s fun t =>
        t.core d q = { s.core d q with combine := es }
        ∧ (∃ new, (t.die d).effects = (s.die d).effects ++ new ∧ (∀ f ∈ new, f.kind = .write ∧ f.cls = c)
            ∧ ∀ k b, e.bytes.find k = some b ↔ ∃ f ∈ new, ∃ j, f.addr + j = e.line + k ∧ f.data[j]? = some b)
        ∧ .bank (rowOf e.line).1 c ∈ (t.die d).used ∧ StoresKept s t ∧ t.regs = s.regs ∧ t.ctxs = s.ctxs) ∧
    ((s.core d q).combine = [] → exec (.combineEntryWrite d q) s = .next s)

/-- A narrow load or store whose context address does not translate stops the context; one that is rejected raises a CONFIG
fault, brings 0 marked poisoned and goes on; one into the die's own stores is issued to its bank, one elsewhere goes out as a
transaction, and under the combining policy a write goes into the buffer and memory does not change yet; a value computed
from a poisoned register is written poisoned (R10, R202, R210, R211, R212, R289, R334; the block and unit of a rejection's
record and the marks of computed values are the model's reading, log entries 44 and 52). -/
def Obligations.NarrowAccesses : Prop :=
  ∀ (s : State) (d : Die) (q : CoreId) (x : SlotId) (rd : Fin 32) (addr : Nat) (lg : Fin 4) (sx : Bool) (v : Word)
    (srcs : List (Fin 32)), Issues s d q x srcs →
    ((s.ctx d q x).translate addr (2 ^ lg.val) .r = none → Runs (.narrowLoad d q rd addr lg sx srcs) s fun t =>
      (t.ctx d q x).st = .stopped ∧ (t.ctx d q x).cause = 3 ∧ (t.ctx d q x).pc = (s.ctx d q x).pc
        ∧ Raises s t [{ Report.plain .xlate d.val q.val .scv addr with ctx := some ⟨d, q, x⟩ }]
        ∧ t = { s with ctxs := t.ctxs, reports := t.reports }) ∧
    ((s.ctx d q x).translate addr (2 ^ lg.val) (storePerm (s.ctx d q x) addr (2 ^ lg.val)) = none →
      Runs (.narrowStore d q addr lg v srcs) s fun t => (t.ctx d q x).st = .stopped ∧ (t.ctx d q x).cause = 3
        ∧ t = { s with ctxs := t.ctxs, reports := t.reports }) ∧
    (∀ m src, (s.ctx d q x).translate addr (2 ^ lg.val) .r = some m → placeOf m ≠ .register → narrowReject s m (2 ^ lg.val) 2 = some src →
      Runs (.narrowLoad d q rd addr lg sx srcs) s fun t => (t.ctx d q x).rd rd = 0 ∧ rd ∈ (t.ctx d q x).bad
        ∧ (t.ctx d q x).pc = nextPc s d q x ∧ OtherScalars rd (s.ctx d q x) (t.ctx d q x) ∧ OtherCtxs d q x s t
        ∧ Raises s t [{ Report.plain src d.val q.val (accessBlock m) (m % 2 ^ 48) with ctx := some ⟨d, q, x⟩ }]
        ∧ StoresKept s t ∧ t.regs = s.regs ∧ (t.die d).accs = (s.die d).accs ∧ (t.die d).txns = (s.die d).txns) ∧
    (∀ m src, (s.ctx d q x).translate addr (2 ^ lg.val) (storePerm (s.ctx d q x) addr (2 ^ lg.val)) = some m → placeOf m ≠ .register →
      narrowReject s m (2 ^ lg.val) 4 = some src → Runs (.narrowStore d q addr lg v srcs) s fun t =>
        (t.ctx d q x).s = (s.ctx d q x).s ∧ (t.ctx d q x).pc = nextPc s d q x ∧ OtherCtxs d q x s t
        ∧ Raises s t [{ Report.plain src d.val q.val (accessBlock m) (m % 2 ^ 48) with ctx := some ⟨d, q, x⟩ }]
        ∧ StoresKept s t ∧ t.regs = s.regs ∧ (t.die d).accs = (s.die d).accs ∧ (t.die d).txns = (s.die d).txns) ∧
    (∀ m st u w off, (s.ctx d q x).translate addr (2 ^ lg.val) .r = some m → narrowReject s m (2 ^ lg.val) 2 = none →
      placeOf m = .store d st u w off → combines s d q m = false → Runs (.narrowLoad d q rd addr lg sx srcs) s fun t =>
        (t.die d).accs = (s.die d).accs ++ [{ stamp := (s.die d).stamp, kind := .read, addr := directAddr m, size := 2 ^ lg.val, data := [],
                                              dest := .scalar d q x rd sx, portB := isElectrum m && decide (distance d q m < 2),
                                              issue := s.beat d, ret := 0, served := false }]
        ∧ loadPending t d q x rd = true ∧ (t.ctx d q x).pc = nextPc s d q x ∧ OtherCtxs d q x s t ∧ t.mem = s.mem ∧ t.regs = s.regs) ∧
    (∀ m st u w off, (s.ctx d q x).translate addr (2 ^ lg.val) .r = some m → narrowReject s m (2 ^ lg.val) 2 = none →
      placeOf m = .store d st u w off → combines s d q m = true → covered (s.core d q) (directAddr m) (2 ^ lg.val) = true →
      Runs (.narrowLoad d q rd addr lg sx srcs) s fun t => (∃ a, (t.die d).accs = (s.die d).accs ++ [a] ∧ a.dest = .scalar d q x rd sx
          ∧ a.served = true ∧ a.ret = s.beat d + (if s.invar d then 12 else 5)
          ∧ ∀ k b, k < 2 ^ lg.val → (∃ e, combEntry (s.core d q) (directAddr m) = some e
              ∧ e.bytes.find (directAddr m % 1024 + k) = some b) → a.data[k]? = some b)
        ∧ (t.ctx d q x).pc = nextPc s d q x ∧ OtherCtxs d q x s t ∧ t.mem = s.mem ∧ t.regs = s.regs) ∧
    (∀ m st u w off, (s.ctx d q x).translate addr (2 ^ lg.val) (storePerm (s.ctx d q x) addr (2 ^ lg.val)) = some m →
      narrowReject s m (2 ^ lg.val) 4 = none → placeOf m = .store d st u w off →
      (combines s d q m = false ∨ narrowKind m (2 ^ lg.val) ≠ .write → Runs (.narrowStore d q addr lg v srcs) s fun t =>
        (t.die d).accs = (s.die d).accs ++ [{ stamp := (s.die d).stamp, kind := narrowKind m (2 ^ lg.val), addr := directAddr m,
                                              size := 2 ^ lg.val,
                                              data := (leBytes (2 ^ lg.val) v.toNat).map (fun b => (b, (s.ctx d q x).anyBad srcs)),
                                              dest := .store d q x, portB := isElectrum m && decide (distance d q m < 2),
                                              issue := s.beat d, ret := 0, served := false }]
        ∧ (t.ctx d q x).pc = nextPc s d q x ∧ OtherCtxs d q x s t ∧ t.mem = s.mem ∧ t.regs = s.regs) ∧
      (combines s d q m = true → narrowKind m (2 ^ lg.val) = .write →
        ((combEntry (s.core d q) (directAddr m)).isSome = true ∨ (s.core d q).combine.length < 16 →
          Runs (.narrowStore d q addr lg v srcs) s fun t =>
            (∃ e, combEntry (t.core d q) (directAddr m) = some e ∧ (x, (s.die d).stamp) ∈ e.who ∧ ∀ k, k < 2 ^ lg.val →
              e.bytes.find (directAddr m % 1024 + k)
                = (leBytes (2 ^ lg.val) v.toNat)[k]?.map (fun b => (b, (s.ctx d q x).anyBad srcs)))
            ∧ (t.ctx d q x).pc = nextPc s d q x ∧ OtherCtxs d q x s t ∧ t.mem = s.mem ∧ t.regs = s.regs) ∧
        (combEntry (s.core d q) (directAddr m) = none → 16 ≤ (s.core d q).combine.length →
          (s.ctx d q x).stalledAt ≠ some (s.beat d) → Runs (.narrowStore d q addr lg v srcs) s fun t =>
            (t.ctx d q x).st = .wait ∧ (t.ctx d q x).waiting = some (.queueFull 6) ∧ (t.ctx d q x).pc = (s.ctx d q x).pc
            ∧ t.fld (.wstNarrowStall d) F.wstNarrowStall_COUNT
                = min (s.fld (.wstNarrowStall d) F.wstNarrowStall_COUNT + 1)
                    (2 ^ (F.wstNarrowStall_COUNT.hi + 1 - F.wstNarrowStall_COUNT.lo) - 1)
            ∧ t.core d q = s.core d q ∧ t.mem = s.mem))) ∧
    (∀ m k, (s.ctx d q x).translate addr (2 ^ lg.val) .r = some m → narrowReject s m (2 ^ lg.val) 2 = none → placeOf m = .hbm k →
      Runs (.narrowLoad d q rd addr lg sx srcs) s fun t => loadPending t d q x rd = true ∧ (t.die d).txns.length = (s.die d).txns.length + 1
        ∧ (t.ctx d q x).pc = nextPc s d q x ∧ OtherCtxs d q x s t ∧ t.mem = s.mem ∧ t.regs = s.regs)

/-- A quiet die's stores are cleared by CLEAR: every store byte of the die reads 0, CLEAR_BUSY rises, the test is abandoned
and no access is served, until the clear ends, when JOB_TAG.ANY is 1; a die that is not quiet rejects CLEAR and a change of
STORE_CTRL (R240, R243). -/
def Obligations.StoresAreCleared : Prop :=
  ∀ (s : State) (d : Die),
    (WriteReady s (.wstCtrl d) → s.quiet d = true → Runs (.storeClear d) s fun t =>
      t.fld (.wstCtrl d) F.wstCtrl_CLEAR_BUSY = 1 ∧ (t.die d).bist.running = false
      ∧ (∀ a, (storeRange d).1 ≤ a → a < (storeRange d).2 → Mem.get t.mem a = 0 ∧ NatSet.has t.poison a = false
          ∧ t.latent.find a = none)
      ∧ (∀ a, a < (storeRange d).1 ∨ (storeRange d).2 ≤ a → Mem.get t.mem a = Mem.get s.mem a
          ∧ NatSet.has t.poison a = NatSet.has s.poison a ∧ t.latent.find a = s.latent.find a)
      ∧ RegsKept [.wstCtrl d] s t ∧ t.ctxs = s.ctxs ∧ t.cores = s.cores) ∧
    (WriteReady s (.wstCtrl d) → s.quiet d = false → Rejects (.storeClear d) s (.wstCtrl d)) ∧
    (s.fld (.wstCtrl d) F.wstCtrl_CLEAR_BUSY = 1 → (∀ i a, servable s d i a = none) ∧ Runs (.storeClearDone d) s fun t =>
      t.fld (.wstCtrl d) F.wstCtrl_CLEAR_BUSY = 0 ∧ t.fld (.wstJobTag d) F.wstJobTag_ANY = 1
      ∧ StoresKept s t ∧ DiesKept s t ∧ RegsKept [.wstCtrl d, .wstJobTag d] s t) ∧
    (s.fld (.wstCtrl d) F.wstCtrl_CLEAR_BUSY = 0 → exec (.storeClearDone d) s = .next s) ∧
    (∀ invar combining, WriteReady s (.wstStoreCtrl d) → s.quiet d = true → Runs (.storeCtrlWrite d invar combining) s fun t =>
      t.invar d = invar ∧ t.fld (.wstStoreCtrl d) F.wstStoreCtrl_NPOLICY = combining.toNat ∧ StoresKept s t ∧ DiesKept s t
        ∧ RegsKept [.wstStoreCtrl d] s t) ∧
    (∀ invar combining, WriteReady s (.wstStoreCtrl d) → s.quiet d = false → s.invar d ≠ invar →
      Rejects (.storeCtrlWrite d invar combining) s (.wstStoreCtrl d))

/-- The background test walks the regions: a region starts when its interval has passed; each line is saved, marched 256
times and restored, one operation in each class 7 slot of its bank, and no byte that an access sees changes; a line that
failed is restored into the lowest free spare row, or SRAM_UNREPAIRED is raised; a forced repair is saved and restored before
a line of the region, into the entry that was selected (R228 to R233, R235, R238). -/
def Obligations.BackgroundTest : Prop :=
  ∀ (s : State) (d : Die) (i : Nat),
    (s.fld (.wstBistCtrl d) F.wstBistCtrl_ENABLE = 1 → s.fld (.wstCtrl d) F.wstCtrl_CLEAR_BUSY = 0 → s.dieUp d = true →
      (s.die d).bist.running = false → (s.die d).bist.outOfTurn = none → (s.die d).bist.next < 73728 →
      (s.die d).bist.started = false
        ∨ (s.die d).bist.startBeat + s.fld (.wstBistCtrl d) F.wstBistCtrl_INTERVAL ≤ s.beat d →
      Runs (.bistRegionStart d) s fun t => t.fld (.wstBistStatus d) F.wstBistStatus_REGION = (s.die d).bist.next
        ∧ (t.die d).bist.running = true ∧ (t.die d).bist.next = (s.die d).bist.next + 1 ∧ (t.die d).bist.startBeat = s.beat d
        ∧ (t.die d).bist.lines = List.replicate 4 ⟨false, 0, false, false⟩
        ∧ StoresKept s t ∧ RegsKept [.wstBistStatus d] s t) ∧
    (s.fld (.wstBistCtrl d) F.wstBistCtrl_ENABLE = 1 → s.fld (.wstCtrl d) F.wstCtrl_CLEAR_BUSY = 0 → s.dieUp d = true →
      (s.die d).bist.running = false → (s.die d).bist.outOfTurn = none → 73728 ≤ (s.die d).bist.next →
      (s.die d).bist.next < regionCount → (s.die d).bist.started = false
        ∨ (s.die d).bist.startBeat + s.fld (.wstBistCtrl d) F.wstBistCtrl_INTERVAL ≤ s.beat d →
      Runs (.bistRegionStart d) s fun t => t.fld (.wstBistStatus d) F.wstBistStatus_REGION = (s.die d).bist.next
        ∧ (t.die d).bist.lines = (List.range 4).map (fun k =>
            ⟨true, 0, false, (s.repair d (spareRow (s.die d).bist.next k).1 (spareRow (s.die d).bist.next k).2).valid⟩)
        ∧ StoresKept s t ∧ RegsKept [.wstBistStatus d] s t) ∧
    (s.fld (.wstBistCtrl d) F.wstBistCtrl_ENABLE = 0 ∨ (s.die d).bist.running = true → exec (.bistRegionStart d) s = .next s) ∧
    (∀ l, (s.die d).bist.lines[i]? = some l → (s.die d).bist.running = true → (s.die d).bist.forced = [] →
      (testSlot s d (bistBank s d i).1 (bistBank s d i).2 = false →
        exec (.bistSave d i ⟨[], 0⟩) s = .next s ∧ (∀ differs, exec (.bistMarchOp d i differs) s = .next s)
        ∧ exec (.bistRestore d i) s = .next s) ∧
      (testSlot s d (bistBank s d i).1 (bistBank s d i).2 = true →
        (l.saved = false → s.latent = [] → Runs (.bistSave d i ⟨[], 0⟩) s fun t =>
          (t.die d).bist.lines = (s.die d).bist.lines.set i { l with saved := true } ∧ StoresKept s t ∧ t.regs = s.regs
          ∧ testSlot t d (bistBank s d i).1 (bistBank s d i).2 = false) ∧
        (l.saved = true → l.march < 256 → l.restored = false → ∀ differs,
          s.fld (.wstBistStatus d) F.wstBistStatus_REGION < 73728 → Runs (.bistMarchOp d i differs) s fun t =>
            (t.die d).bist.lines = (s.die d).bist.lines.set i { l with march := l.march + 1, failed := l.failed || differs }
            ∧ StoresKept s t ∧ t.regs = s.regs ∧ testSlot t d (bistBank s d i).1 (bistBank s d i).2 = false) ∧
        (l.saved = true → l.march = 256 → l.restored = false → Runs (.bistRestore d i) s fun t =>
          (t.die d).bist.lines = (s.die d).bist.lines.set i { l with restored := true } ∧ t.mem = s.mem
          ∧ (l.failed = false → t.repairs = s.repairs ∧ Raises s t [])
          ∧ ∀ a, regionLine d (s.fld (.wstBistStatus d) F.wstBistStatus_REGION) i = some a →
              (∀ w, a ≤ w → w < a + 1024 → t.latent.find w = none)
              ∧ (l.failed = true →
                (∀ e, freeEntry s d (rowOf a).1 = some e → t.repair d (rowOf a).1 e = ⟨true, false, 2, (rowOf a).2⟩ ∧ Raises s t [])
                ∧ (freeEntry s d (rowOf a).1 = none → t.repairs = s.repairs
                    ∧ Raises s t [Report.plain .sramUnrepaired d.val 0 (storeOfKey (rowOf a).1).block 0]))))) ∧
    (∀ st row, WriteOpen s (.wstRepairEntry d) → WriteOpen s (.astRepairEntry d) → WriteOpen s (.pstRepairEntry d) → row < 1024 →
      (s.repair d (repairSel s d st).1 (repairSel s d st).2).valid = false →
      (s.repair d (repairSel s d st).1 (repairSel s d st).2).bad = false →
      (s.die d).bist.forced.any (fun f => f.key = (repairSel s d st).1 ∧ f.entry = (repairSel s d st).2) = false →
      row < bankRows st ((repairSel s d st).1 % 1000 % 40) → Runs (.repairForce d st row) s fun t =>
        (t.die d).bist.forced = (s.die d).bist.forced ++ [⟨(repairSel s d st).1, (repairSel s d st).2, row, false⟩]
          ∧ StoresKept s t ∧ t.regs = s.regs) ∧
    (∀ f fs, (s.die d).bist.forced = f :: fs → testSlot s d (f.key % 1000 % 40 % 8) f.key = true →
      (f.saved = false → s.latent = [] → Runs (.bistSave d i ⟨[], 0⟩) s fun t =>
        (t.die d).bist.forced = { f with saved := true } :: fs ∧ StoresKept s t ∧ t.regs = s.regs) ∧
      (f.saved = true → Runs (.bistRestore d i) s fun t =>
        t.repair d f.key f.entry = ⟨true, false, 3, f.row⟩ ∧ (t.die d).bist.forced = fs ∧ t.mem = s.mem))
/-! ### The lane engines (chapter 03) -/

/-- The engine instructions that compute into accumulator slots, with their commands. -/
def arithOps (d : Die) (q : CoreId) : List (Instr × EngOp) :=
  [(.mmaF8 d q, .mmaF8), (.mmaI8 d q, .mmaI8), (.mmaB4 d q, .mmaB4), (.mmaBf16 d q, .mmaBf16), (.distL1 d q, .distL1),
   (.distL2 d q, .distL2), (.cmpMin d q, .cmpMin), (.cmpMax d q, .cmpMax), (.cmpEqc d q, .cmpEqc)]

/-- The word at the head of a core's issue queue is due and issues, for this operation; every row finds its entry in the
activation queue, and its drains room in the drain buffer (R106, R107, R116, R131, R222). -/
def Heads (s : State) (d : Die) (q : CoreId) (w : EngWord) (ws : List EngWord) (op : EngOp) : Prop :=
  s.dieUp d = true ∧ (s.core d q).issueQ = w :: ws ∧ (s.core d q).prog = none ∧ headDue s d q w = true
    ∧ judgeHead s d q w.word = .run op
    ∧ (takesEntry op (engFields w.word) = true → rowsOfOp op (engFields w.word) ≤ (s.core d q).actQ.length)
    ∧ (drainInto (engFields w.word).accDrain ((List.range (rowsOfOp op (engFields w.word))).flatMap (rowLines op (engFields w.word)))
        (s.core d q).drains).isSome = true
    ∧ ((engFields w.word).accDrain = true → s.latent = [])

/-- What the run of a queue head leaves as it is: contexts, other cores, dies, DMAs, the report path and, outside the core's
own partial-sum unit, memory; the word has left the queue, RETIRED has counted it, the next one may issue a span of engine
beats later, and its drains wait in the drain buffer (R107, R128, R145, R222). -/
def Retires (s t : State) (d : Die) (q : CoreId) (w : EngWord) (ws : List EngWord) (op : EngOp) : Prop :=
  (t.core d q).issueQ = ws ∧ (t.core d q).prog = none
    ∧ (t.core d q).nextIssue = s.engBeat d q + spanOf op (engFields w.word)
    ∧ drainInto (engFields w.word).accDrain ((List.range (rowsOfOp op (engFields w.word))).flatMap (rowLines op (engFields w.word)))
        (s.core d q).drains = some (t.core d q).drains
    ∧ t.fld (.engRetired d q) F.engRetired_COUNT = min (s.fld (.engRetired d q) F.engRetired_COUNT + 1) (2 ^ 48 - 1)
    ∧ MemKeptBut (unitBase d .pst q.val) 1048576 s t
    ∧ (∀ e p, (e, p) ≠ (d, q) → t.core e p = s.core e p) ∧ t.ctxs = s.ctxs ∧ t.dies = s.dies ∧ Raises s t []
    ∧ RegsKept [.engRetired d q, .engCoreStatus d q] s t

/-- An arithmetic instruction takes its rows from the activation queue; row r of every gang engine's slots becomes that
engine's result for the row, the engines outside the gang keep theirs, without DRAIN memory does not change, and DRAIN RAW
leaves the 32-bit slots in lane order at PSBASE (R101, R102, R105, R114, R115, R118, R119). -/
def Obligations.EngineArithmetic : Prop :=
  ∀ (s : State) (d : Die) (q : CoreId) (w : EngWord) (ws : List EngWord), ∀ p ∈ arithOps d q, Heads s d q w ws p.2 →
    Mem.wf s.mem = true → Runs p.1 s fun t => Retires s t d q w ws p.2
      ∧ (t.core d q).actQ = (s.core d q).actQ.drop ((engFields w.word).nrow + 1)
      ∧ (∀ e ∈ gangOf (engFields w.word).emask, ∀ r tile row, r ≤ (engFields w.word).nrow →
          ((loadTiles (s.core d q) p.2 (engFields w.word)).engine e).active = some tile → (s.core d q).actQ[r]? = some row →
          ((t.core d q).engine e).slots.find r
            = some (engineRow p.2 (engFields w.word) ((loadTiles (s.core d q) p.2 (engFields w.word)).engine e) tile row r).1)
      ∧ (∀ e, e ∉ gangOf (engFields w.word).emask → (t.core d q).engine e = (s.core d q).engine e)
      ∧ ((engFields w.word).drain = 0 → t.mem = s.mem)
      ∧ ((engFields w.word).drain = 1 → ∀ e ∈ gangOf (engFields w.word).emask, ∀ r l sl, r ≤ (engFields w.word).nrow → l < 64 →
          ((t.core d q).engine e).slots.find r = some sl →
          t.bytes (unitBase d .pst q.val + (engFields w.word).psbase * 1024 + r * 1024 + e.val * 256 + 4 * l) 4
            = leBytes 4 (sl.lanes.getD l 0).toNat)

/-- NOP retires and does no more; TOPK.SEL writes NROW + 1 records of each gang engine's tile at PSBASE and keeps the slots;
SLIDE moves the tiles of the gang, one lane a beat (R108, R125, R126, R127). -/
def Obligations.EngineSelectAndSlide : Prop :=
  ∀ (s : State) (d : Die) (q : CoreId) (w : EngWord) (ws : List EngWord), Mem.wf s.mem = true →
    (Heads s d q w ws .nop → Runs (.nop d q) s fun t => Retires s t d q w ws .nop ∧ (t.core d q).engines = (s.core d q).engines
      ∧ (t.core d q).actQ = (s.core d q).actQ ∧ t.mem = s.mem) ∧
    (Heads s d q w ws .topkSel → Runs (.topkSel d q) s fun t => Retires s t d q w ws .topkSel
      ∧ (t.core d q).actQ = (s.core d q).actQ.drop 1
      ∧ (∀ e, ((t.core d q).engine e).slots = ((s.core d q).engine e).slots)
      ∧ ∀ e ∈ gangOf (engFields w.word).emask, ∀ tile row rows,
          ((loadTiles (s.core d q) .topkSel (engFields w.word)).engine e).active = some tile → (s.core d q).actQ = row :: rows →
          t.bytes (unitBase d .pst q.val + (engFields w.word).psbase * 1024 + e.val * 256) (8 * ((engFields w.word).nrow + 1))
            = topkRecords tile.bytes row.bytes ((engFields w.word).nrow + 1)) ∧
    (Heads s d q w ws .slide → Runs (.slide d q) s fun t => Retires s t d q w ws .slide ∧ t.mem = s.mem
      ∧ (t.core d q).actQ = (s.core d q).actQ.drop (if (engFields w.word).fillz then 0 else (engFields w.word).nrow + 1)
      ∧ (∀ e, e ∉ gangOf (engFields w.word).emask → (t.core d q).engine e = (s.core d q).engine e)
      ∧ ∀ e ∈ gangOf (engFields w.word).emask, ∀ tile, ((s.core d q).engine e).active = some tile →
          (t.core d q).engine e = { (s.core d q).engine e with active := some (
            if (engFields w.word).fillz then
              (List.range ((engFields w.word).nrow + 1)).foldl (fun x _ => slideTile x (engFields w.word).dir [] false) tile
            else ((s.core d q).actQ.take ((engFields w.word).nrow + 1)).foldl
              (fun x row => slideTile x (engFields w.word).dir row.bytes row.poison) tile) })

/-- Every engine instruction's command with its operation. -/
def engineOps (d : Die) (q : CoreId) : List (Instr × EngOp) :=
  arithOps d q ++ [(.nop d q, .nop), (.topkSel d q, .topkSel), (.slide d q, .slide)]

/-- A word that fails a check is taken off the queue with its cause and a CONFIG fault that names the context which issued
it; a head that must wait, and an issued instruction whose row finds no queue entry or no room for its drain, stay where they
are, and the last row of one retires it; every beat of a frozen core counts in one freeze counter, by its cause (R116, R131,
R132, R142, R222, R303; which cause is kept where several checks fail at once is the model's choice, log entry 43). -/
def Obligations.EngineRejectsAndFreezes : Prop :=
  (∀ (s : State) (d : Die) (q : CoreId) (w : EngWord) (ws : List EngWord) (op : EngOp), ∀ c ∈ engineOps d q, c.2 = op →
    s.dieUp d = true →
    (∀ cause, (s.core d q).issueQ = [w] → (s.core d q).prog = none → headDue s d q w = true →
      judgeHead s d q w.word = .reject cause → Runs c.1 s fun t =>
        t.core d q = { s.core d q with issueQ := [] } ∧ t.reg (.engRejectWord d q) = w.word
        ∧ t.fld (.engCoreStatus d q) F.engCoreStatus_REJ_CAUSE = cause % 16 ∧ t.fld (.engCoreStatus d q) F.engCoreStatus_REJECTED = 1
        ∧ Raises s t [{ Report.plain .engineReject d.val q.val .eng 0 with ctx := some ⟨d, q, w.slot⟩, detail := cause }]
        ∧ StoresKept s t ∧ t.ctxs = s.ctxs ∧ RegsKept [.engRejectWord d q, .engCoreStatus d q] s t) ∧
    (∀ k, (s.core d q).issueQ = w :: ws → (s.core d q).prog = none → headDue s d q w = true →
      judgeHead s d q w.word = .freeze k → headBlock s d q = some k ∧ Runs c.1 s fun t => t.core d q = s.core d q
        ∧ StoresKept s t ∧ t.ctxs = s.ctxs ∧ t.dies = s.dies ∧ Raises s t [] ∧ t.regs = s.regs) ∧
    (∀ r k, (s.core d q).issueQ = w :: ws → (s.core d q).prog = some r → EngOp.ofCode (engFields w.word).op = some op →
      r < rowsOfOp op (engFields w.word) → rowBlock (s.core d q) op (engFields w.word) r = some k →
      headBlock s d q = some k ∧ Runs c.1 s fun t => t.core d q = s.core d q ∧ StoresKept s t ∧ t.ctxs = s.ctxs
        ∧ t.dies = s.dies ∧ Raises s t [] ∧ t.regs = s.regs) ∧
    (∀ r, (s.core d q).issueQ = w :: ws → (s.core d q).prog = some r → EngOp.ofCode (engFields w.word).op = some op →
      r + 1 = rowsOfOp op (engFields w.word) → rowBlock (s.core d q) op (engFields w.word) r = none →
      Runs c.1 s fun t => (t.core d q).issueQ = ws ∧ (t.core d q).prog = none ∧ t.ctxs = s.ctxs
        ∧ t.fld (.engRetired d q) F.engRetired_COUNT = min (s.fld (.engRetired d q) F.engRetired_COUNT + 1) (2 ^ 48 - 1))) ∧
  (∀ (s : State) (d : Die) (q : CoreId), (s.cores.map Prod.fst).Nodup → (s.cores.find (d, q)).isSome = true →
    (countFreezes s d).fld (.engCoreStatus d q) F.engCoreStatus_FROZEN = (headBlock s d q).isSome.toNat
    ∧ ((countFreezes s d).core d q).engFrozen = (s.core d q).engFrozen + (headBlock s d q).isSome.toNat
    ∧ ∀ k ∈ ([(.dry, .engFreezeDry d q, F.engFreezeDry_COUNT), (.tile, .engFreezeTile d q, F.engFreezeTile_COUNT),
        (.drain, .engFreezeDrain d q, F.engFreezeDrain_COUNT)] : List (FreezeCause × Reg × Fld)),
      (countFreezes s d).fld k.2.1 k.2.2
        = min (s.fld k.2.1 k.2.2 + (if headBlock s d q = some k.1 then 1 else 0)) (2 ^ (k.2.2.hi + 1 - k.2.2.lo) - 1))

/-- The exact dot product of lane l of a byte tile and a row: signed weights, signed (FMT 0) or unsigned (FMT 1) activations. -/
def int8Dot (fmt : Nat) (tile row : List Byte) (l : Nat) : Int :=
  ((List.range 16).map (fun i => toSigned 8 (nthByte tile (16 * l + i))
    * (if fmt = 0 then toSigned 8 (nthByte row i) else (nthByte row i : Int)))).sum

/-- MMA.I8 leaves in each lane the exact integer dot product, added to the slot where ACC = 1, and held at the bounds of
INT32 (R113, R118, R120). -/
def Obligations.Int8DotProducts : Prop :=
  ∀ (fmt : Nat) (acc : Bool) (old : Half) (tile row : List Byte) (l : Nat), fmt < 2 → l < 64 →
    (laneResult .mmaI8 fmt acc old (groupResults .mmaI8 fmt tile row l)).1.toInt
      = max (-2147483648) (min 2147483647 ((if acc then old.toInt else 0) + int8Dot fmt tile row l))
    ∧ ((laneResult .mmaI8 fmt acc old (groupResults .mmaI8 fmt tile row l)).2 = true ↔
        (if acc then old.toInt else 0) + int8Dot fmt tile row l < -2147483648
          ∨ 2147483647 < (if acc then old.toInt else 0) + int8Dot fmt tile row l)

/-! ### Feeders, the weight bus, the expander and the tile path (chapters 04 and 06) -/

/-- The context goes on past its instruction, and only its core or its die's bus queue has changed beside it. -/
def WentOn (d : Die) (q : CoreId) (x : SlotId) (s t : State) : Prop :=
  (t.ctx d q x).pc = nextPc s d q x ∧ (t.ctx d q x).st = (s.ctx d q x).st ∧ OtherCtxs d q x s t ∧ t.regs = s.regs ∧ StoresKept s t

/-- The core has issued its instruction of this beat and is otherwise as c; every other core is the same. -/
def CoreBecomes (d : Die) (q : CoreId) (c : Core) (s t : State) : Prop :=
  t.core d q = { c with issuedAt := some (s.beat d) } ∧ ∀ e p, (e, p) ≠ (d, q) → t.core e p = s.core e p

/-- A feeder instruction that breaks a rule of chapter 06 raises a CONFIG fault that names the context, queues nothing, and the
context goes on (R264, R513). -/
def FeedRejected (d : Die) (q : CoreId) (x : SlotId) (addr : Nat) (s t : State) : Prop :=
  WentOn d q x s t ∧ CoreBecomes d q (s.core d q) s t ∧ (t.die d).busQ = (s.die d).busQ
    ∧ Raises s t [{ Report.plain .feedReject d.val q.val .fdx addr with ctx := some ⟨d, q, x⟩ }]

/-- AFEED, WTORD, TFEED, XPAND, MCAST and GACC join their queues with the operands that their words hold, or break a rule and
are rejected; a context that finds its queue full waits; a code table becomes valid only with lengths that R193 allows
(R193, R262 to R272). -/
def Obligations.FeedInstructions : Prop :=
  ∀ (s : State) (d : Die) (q : CoreId) (x : SlotId) (sA sB : Fin 32) (a b : Word), a = (s.ctx d q x).rd sA → b = (s.ctx d q x).rd sB →
    (Issues s d q x [sA, sB] →
      (∀ m rows rb n count stride, rows = bitsOf a 63 59 + 1 → rb = (if bitsOf a 58 58 = 1 then 32 else 16) → n = feedBytes rows rb →
        count = bitsOf b 63 48 + 1 → stride = bitsOf b 47 24 →
        (s.ctx d q x).translate (bitsOf a 47 0) ((count - 1) * stride + n) .r = some m →
        (bitsOf a 57 48 = 0 → bitsOf b 15 0 = 0 → m % 32 = 0 → stride % 32 = 0 →
          (List.range count).all (fun i => clusterLine d q (m + i * stride) n) = true →
          (queueHasRoom s d q 1 = true → Runs (.afeed d q sA sB) s fun t => WentOn d q x s t
            ∧ CoreBecomes d q { s.core d q with feeds := (s.core d q).feeds ++ [⟨rows, rb, m, count, stride, bitsOf b 23 16 + 1, 0, 0⟩] } s t) ∧
          (queueHasRoom s d q 1 = false → Runs (.afeed d q sA sB) s fun t => t.cores = s.cores ∧ (t.ctx d q x).st = .wait
            ∧ (t.ctx d q x).waiting = some (.queueFull 1) ∧ (t.ctx d q x).pc = (s.ctx d q x).pc)) ∧
        (bitsOf a 57 48 ≠ 0 ∨ bitsOf b 15 0 ≠ 0 ∨ m % 32 ≠ 0 ∨ stride % 32 ≠ 0
            ∨ (List.range count).all (fun i => clusterLine d q (m + i * stride) n) = false →
          Runs (.afeed d q sA sB) s (FeedRejected d q x m s))) ∧
      (∀ m st u w off, (s.ctx d q x).translate (bitsOf a 47 0) 32 .r = some m → placeOf m = .store d st u w off →
        (st = .ast ∧ u = q.val / 4) ∨ (st = .pst ∧ u = q.val) → m % 32 = 0 →
        bitsOf b 63 63 = 0 → bitsOf b 51 47 = 0 → bitsOf b 29 0 = 0 →
        formOk (ekindOfCode (bitsOf b 31 30)) (bitsOf b 62 62 == 1) (bitsOf b 61 52) (bitsOf b 46 32) = true →
        queueHasRoom s d q 2 = true → Runs (.xpand d q sA sB) s fun t => WentOn d q x s t
          ∧ CoreBecomes d q { s.core d q with treqs := (s.core d q).treqs ++
              [.xpand (directAddr m) (bitsOf b 62 62 == 1) (bitsOf b 61 52) (bitsOf b 46 32) ((ekindOfCode (bitsOf b 31 30)).getD .k8)
                none [] []] } s t) ∧
      (bitsOf a 31 0 = 0 → Runs (.mcast d q sA sB) s (FeedRejected d q x 0 s)) ∧
      (∀ k lines lf lc, ekindOfCode (bitsOf b 31 30) = some k → lines = (bitsOf b 29 29 == 1) → lf = bitsOf b 25 21 → lc = bitsOf b 20 17 →
        bitsOf a 31 0 ≠ 0 → bitsOf b 63 63 = 0 → bitsOf b 51 51 = 0 → bitsOf b 28 26 = 0 → bitsOf b 16 0 = 0 → bitsOf b 50 47 ≤ 8 →
        (lines = false → lf = 0 ∧ lc = 0) → (lines = true → k ≠ .b4) → lf + lc ≤ 15 →
        (bitsOf b 62 62 = 1 → lines = true → bitsOf b 61 52 + lc + 1 ≤ 1024) →
        formOk (some k) ((bitsOf b 62 62 == 1) && !lines) (bitsOf b 61 52) (bitsOf b 46 32) = true → queueHasRoom s d q 3 = true →
        Runs (.mcast d q sA sB) s fun t => WentOn d q x s t ∧ CoreBecomes d q (s.core d q) s t ∧
          (t.die d).busQ = (s.die d).busQ ++ [{ BusReq.fresh (s.die d).nextReq q (s.beat d) with
            block := bitsOf a 63 32, cmask := bitsOf a 31 0, stage := bitsOf b 62 62 == 1, psoff := bitsOf b 61 52,
            ndone := bitsOf b 50 47, e := bitsOf b 46 32, ekind := k, lines := lines, lfirst := lf, lcount := lc }]) ∧
      (bitsOf a 21 0 = 0 → bitsOf b 59 12 = 0 → bitsOf b 63 60 ≤ 8 → bitsOf b 11 6 + bitsOf b 5 0 ≤ 63 →
        bitsOf a 31 22 + bitsOf b 5 0 + 1 ≤ 1024 →
        ((∀ i w, findBlock (s.die d) true (bitsOf a 63 32) = some i → (s.die d).window[i]? = some w →
            pastPlain w (bitsOf b 11 6) (bitsOf b 5 0) = false) → queueHasRoom s d q 3 = true →
          Runs (.gacc d q sA sB) s fun t => WentOn d q x s t ∧ CoreBecomes d q (s.core d q) s t ∧
            (t.die d).busQ = (s.die d).busQ ++ [{ BusReq.fresh (s.die d).nextReq q (s.beat d) with
              gacc := true, block := bitsOf a 63 32, psoff := bitsOf a 31 22, ndone := bitsOf b 63 60, lfirst := bitsOf b 11 6,
              lcount := bitsOf b 5 0 }]) ∧
        ((∃ i w, findBlock (s.die d) true (bitsOf a 63 32) = some i ∧ (s.die d).window[i]? = some w
            ∧ pastPlain w (bitsOf b 11 6) (bitsOf b 5 0) = true) → Runs (.gacc d q sA sB) s (FeedRejected d q x 0 s)))) ∧
    (Issues s d q x [sA] →
      ((List.range (bitsOf a 35 32 + 1)).any (fun i => s.present q / 2 ^ bitsOf a (2 * i + 1) (2 * i) % 2 = 0) = true →
        Runs (.wtord d q sA) s (FeedRejected d q x 0 s)) ∧
      ((List.range (bitsOf a 35 32 + 1)).any (fun i => s.present q / 2 ^ bitsOf a (2 * i + 1) (2 * i) % 2 = 0) = false →
        (noPartialTile (s.core d q) = true → Runs (.wtord d q sA) s fun t => WentOn d q x s t
          ∧ CoreBecomes d q (loadTileOrder (s.core d q) a) s t) ∧
        (noPartialTile (s.core d q) = false → Runs (.wtord d q sA) s fun t => t.cores = s.cores ∧ (t.ctx d q x).st = .wait
          ∧ (t.ctx d q x).waiting = some (.tileOrder a) ∧ (t.ctx d q x).pc = (s.ctx d q x).pc)) ∧
      (∀ k, ekindOfCode (bitsOf a 29 28) = some k → bitsOf a 15 10 = 0 → bitsOf a 27 26 = 0 → bitsOf a 63 30 = 0 →
        bitsOf a 9 0 + stagedLines k (bitsOf a 25 16 + 1) ≤ 1024 →
        (queueHasRoom s d q 2 = true → Runs (.tfeed d q sA) s fun t => WentOn d q x s t
          ∧ CoreBecomes d q { s.core d q with treqs := (s.core d q).treqs ++
              [.tfeed (bitsOf a 9 0) (bitsOf a 25 16 + 1) k 0 0 (s.beat d)] } s t) ∧
        (queueHasRoom s d q 2 = false → Runs (.tfeed d q sA) s fun t => t.cores = s.cores ∧ (t.ctx d q x).st = .wait
          ∧ (t.ctx d q x).waiting = some (.queueFull 2) ∧ (t.ctx d q x).pc = (s.ctx d q x).pc))) ∧
    (∀ (n : Fin 16) (width tag : Nat), WriteReady s (.fdxEpcTag d n) → width < 16 → tag < 65536 →
      (s.fld (.fdxEpcTag d n) F.fdxEpcTag_VALID = 0 → tableValid (tableLens s d n) width = true →
        Runs (.epcTableValidate d n width tag) s fun t => t.fld (.fdxEpcTag d n) F.fdxEpcTag_VALID = 1
          ∧ t.fld (.fdxEpcTag d n) F.fdxEpcTag_WIDTH = width ∧ t.fld (.fdxEpcTag d n) F.fdxEpcTag_TAG = tag
          ∧ RegsKept [.fdxEpcTag d n] s t ∧ StoresKept s t ∧ DiesKept s t) ∧
      (s.fld (.fdxEpcTag d n) F.fdxEpcTag_VALID = 0 → tableValid (tableLens s d n) width = false →
        Rejects (.epcTableValidate d n width tag) s (.fdxEpcTag d n)) ∧
      Runs (.epcTableInvalidate d n) s fun t => t.fld (.fdxEpcTag d n) F.fdxEpcTag_VALID = 0
        ∧ RegsKept [.fdxEpcTag d n] s t ∧ StoresKept s t ∧ DiesKept s t)

/-- What a served line brings to a core: a receive line, which the core's buffer holds from four beats on (R258, R259). -/
def GetsLine (d : Die) (p : CoreId) (r : BusReq) (bytes : List (Byte × Bool)) (s t : State) : Prop :=
  t.core d p = { s.core d p with rx := (s.core d p).rx ++ (if r.names p then [⟨r.id, bytes, s.beat d + 4⟩] else []) }

/-- A feeder issues its next access on a beat whose service falls in its slot, and reserves the entries it fills; a bus request
is taken up once its block is resident and its subscribers have room; a request whose block stays away times out with a SCHED
fault; the bus reads the header and decides, a line served by its lane reaches every subscriber, and a line of GACC is read
and then accumulated into the block's plain form at the beat's end (R255 to R260, R263, R265, R270, R273). -/
def Obligations.FeedersAndBus : Prop :=
  ∀ (s : State) (d : Die) (q : CoreId) (i : Nat), s.dieUp d = true →
    (∀ f fs a, (s.core d q).feeds = f :: fs → a = ({ stamp := (s.die d).stamp, kind := .read, addr := directAddr (f.addr + f.next * f.stride),
                                                          size := feedBytes f.rows f.rb, data := [],
                                                          dest := .feeder d q f.rows f.rb, portB := false,
                                                          issue := s.beat d, ret := 0, served := false } : Access) →
      ((s.core d q).actQ.length + (s.core d q).actReserved + f.rows ≤ 64 → (slotClass a (a.due s)).isSome = true →
        (s.die d).accs.any (fun b => b.dest.core == some (d, q) && portRank b == 0 && b.issue == s.beat d) = false →
        Runs (.afeedAccessIssue d q) s fun t => (t.die d).accs = (s.die d).accs ++ [a]
          ∧ t.core d q = { s.core d q with actReserved := (s.core d q).actReserved + f.rows, feeds := f.step.toList ++ fs }
          ∧ t.regs = s.regs ∧ StoresKept s t ∧ t.ctxs = s.ctxs) ∧
      (64 < (s.core d q).actQ.length + (s.core d q).actReserved + f.rows ∨ slotClass a (a.due s) = none →
        exec (.afeedAccessIssue d q) s = .next s)) ∧
    (∀ r, (s.die d).busQ[i]? = some r → r.active = false →
      (∀ w, r.timedOut = false → s.beat d > r.since → residentFor (s.die d) r = some w → subsFree s d r = true →
        ((r.gacc && pastPlain w r.lfirst r.lcount) = false → Runs (.busRequestLookup d i) s fun t =>
          (t.die d).busQ = (s.die d).busQ.set i { r with active := true, found := some w, checked := false, zero := false,
                                                         total := r.lcount + 1 }
          ∧ (∀ p, t.core d p = { s.core d p with treqs := (s.core d p).treqs ++ (if r.names p then [r.entry] else []) })
          ∧ StoresKept s t ∧ t.regs = s.regs ∧ Raises s t []) ∧
        ((r.gacc && pastPlain w r.lfirst r.lcount) = true → Runs (.busRequestLookup d i) s fun t =>
          (t.die d).busQ = (s.die d).busQ.eraseIdx i ∧ t.cores = s.cores
          ∧ Raises s t [Report.plain .feedReject d.val r.core.val .fdx 0])) ∧
      (s.beat d ≤ r.since ∨ lookupReady s d r = false → exec (.busRequestLookup d i) s = .next s) ∧
      (r.timedOut = false → residentFor (s.die d) r = none →
        r.since + 1 + s.fld (.fdxMcastCtrl d) F.fdxMcastCtrl_WAIT_LIMIT ≤ s.beat d → Runs (.mcastTimeout d i) s fun t =>
          Raised s t (Report.plain .mcastTimeout d.val r.core.val .fdx 0)
          ∧ (r.ndone = 0 → Raises s t [Report.plain .mcastTimeout d.val r.core.val .fdx 0])
          ∧ (∀ j w, r.ndone ≠ 0 → findBlock (s.die d) r.gacc r.block = some j → (s.die d).window[j]? = some w → w.state = .forwarding →
              Raises s t [Report.plain .mcastTimeout d.val r.core.val .fdx 0, Report.plain .doneErr d.val r.core.val .fdx w.addr])
          ∧ t.fld (.fdxMcastStatus d) F.fdxMcastStatus_TIMEOUTS
              = min (s.fld (.fdxMcastStatus d) F.fdxMcastStatus_TIMEOUTS + 1)
                  (2 ^ (F.fdxMcastStatus_TIMEOUTS.hi + 1 - F.fdxMcastStatus_TIMEOUTS.lo) - 1)
          ∧ StoresKept s t
          ∧ (r.gacc = true → (t.die d).busQ = (s.die d).busQ.eraseIdx i ∧ t.cores = s.cores)
          ∧ (r.gacc = false → subsFree s d r = false → (t.die d).busQ = (s.die d).busQ.set i { r with timedOut := true } ∧ t.cores = s.cores)
          ∧ (r.gacc = false → r.lines = false → subsFree s d r = true → (t.die d).busQ = (s.die d).busQ.eraseIdx i
              ∧ ∀ p, (t.core d p).treqs = (s.core d p).treqs
                  ++ (if r.names p then [.zeros r.id r.stage r.psoff r.e r.ekind] else [])))) ∧
    (∀ r w, (s.die d).busQ[i]? = some r → r.active = true → r.timedOut = false → r.found = some w → s.latent = [] →
      (r.gacc = false → r.checked = true → (busWinners s d).contains i = true →
        ∀ line, line = (if r.zero then zeroLine else spread (s.peek (lineOf r w r.served).1 (lineOf r w r.served).2)) →
        Runs (.busLineServe d i) s fun t => (∀ p, GetsLine d p r line s t)
          ∧ (r.stage = false ∨ r.expand = true → (t.die d).accs = (s.die d).accs)
          ∧ (r.stage = true → r.expand = false → ∀ p, r.names p = true → ∃ a ∈ (t.die d).accs, a.dest = .stage d p (some r.id)
              ∧ a.kind = .write ∧ a.addr = unitBase d .pst p.val + (r.psoff + r.served) * 1024 ∧ a.data = line ∧ a.issue = s.beat d + 4)
          ∧ StoresKept s t
          ∧ (r.served + 1 ≠ r.total → (t.die d).busQ = (s.die d).busQ.set i { r with served := r.served + 1 } ∧ t.regs = s.regs)
          ∧ (r.served + 1 = r.total → (t.die d).busQ = (s.die d).busQ.eraseIdx i)
          ∧ .lane (nextSlot r w (s.beat d)).1 ∈ (t.die d).used) ∧
      (r.gacc = false → r.checked = false → (busWinners s d).contains i = true → ∀ pl, pl = busPlan r w (windowBytes s w) →
        pl.expand = false → pl.total ≠ 0 → Runs (.busLineServe d i) s fun t =>
          (t.die d).busQ = (s.die d).busQ.set i { r with checked := true, total := pl.total, zero := pl.zero, expand := false }
          ∧ (∀ p, (t.core d p).treqs = if r.names p then (s.core d p).treqs.filterMap (planEntry r pl) else (s.core d p).treqs)
          ∧ (pl.cause = 0 → Raises s t [] ∧ t.regs = s.regs)
          ∧ (pl.cause ≠ 0 → Raises s t [{ Report.plain .expander d.val r.core.val .fdx 0 with detail := pl.cause }]
              ∧ ∀ p, r.names p = true → t.fld (.fdxExpStatus d p) F.fdxExpStatus_ERROR = 1)
          ∧ StoresKept s t) ∧
      (r.gacc = false → (busWinners s d).contains i = false → exec (.busLineServe d i) s = .next s) ∧
      (r.gacc = true → r.buf = none → r.since + 2 ≤ s.beat d → tileReadDue s d r.core ((r.psoff + r.served) % 8) = false →
        slotOpen s d ((r.psoff + r.served) % 8) (bankKey .pst r.core.val ((r.psoff + r.served) % 8)) 1 = true →
        Runs (.gaccLineAccumulate d i) s fun t =>
          (t.die d).busQ = (s.die d).busQ.set i { r with
            buf := some (spread (s.peek (unitBase d .pst r.core.val + (r.psoff + r.served) * 1024) 1024)) }
          ∧ StoresKept s t ∧ t.regs = s.regs ∧ t.cores = s.cores) ∧
      (∀ data, r.gacc = true → r.buf = some data → (busWinners s d).contains i = true → Runs (.gaccLineAccumulate d i) s fun t =>
        (t.die d).effects = (s.die d).effects ++ [⟨4, .acc (decide ((parseHeader w.header).kind = 6)),
          w.addr + 1024 * (r.lfirst + r.served), data⟩]
        ∧ ⟨(nextSlot r w (s.beat d)).2.1, 4, s.beat d + 8⟩ ∈ (t.die d).rmws ∧ StoresKept s t ∧ t.cores = s.cores
        ∧ (r.served + 1 ≠ r.total → (t.die d).busQ = (s.die d).busQ.set i { r with served := r.served + 1, buf := none })
        ∧ (r.served + 1 = r.total → (t.die d).busQ = (s.die d).busQ.eraseIdx i)))

/-- What the expander has made of a block, for the tile path: its transfers wait in queue order, the block is counted, and an
error is recorded with its cause and raised once (R181, R182, R187, R270). -/
def Expands (d : Die) (q : CoreId) (k : TileKind) (o : Expanded) (s t : State) : Prop :=
  (t.core d q).expOut = o.forTiles k ∧ (t.core d q).expBusy = true ∧ (t.core d q).treqs = (s.core d q).treqs ∧ StoresKept s t
    ∧ t.fld (.fdxExpBlocks d q) F.fdxExpBlocks_COUNT = min (s.fld (.fdxExpBlocks d q) F.fdxExpBlocks_COUNT + 1) (2 ^ 48 - 1)
    ∧ (o.cause = 0 → Raises s t [] ∧ t.fld (.fdxExpStatus d q) F.fdxExpStatus_ERROR = s.fld (.fdxExpStatus d q) F.fdxExpStatus_ERROR)
    ∧ (o.cause ≠ 0 → Raises s t [{ Report.plain .expander d.val q.val .fdx 0 with detail := o.cause }]
        ∧ t.fld (.fdxExpStatus d q) F.fdxExpStatus_ERROR = 1)

/-- The shadow tile that the tile path fills next, as it stands or empty for a transfer. -/
def nextShadow (c : Core) (tr : Transfer) : Shadow := ((c.engine (c.tord.getD c.tordPos 0)).shadow).getD ⟨tr.kind, [], false⟩

/-- The expander takes its next request, reads a local block through the core's port, and delivers its output: zeros of a
request that timed out, or the block decoded, inline for the tile path or as STAGE writes; an error is recorded with its cause
and raised once. The tile path reads a staged transfer in a class 1 slot, and writes one transfer a beat into the shadow tile
of the next engine of the tile order (R104, R181, R182, R187, R198, R209, R266 to R270). -/
def Obligations.ExpanderAndTilePath : Prop :=
  ∀ (s : State) (d : Die) (q : CoreId), s.dieUp d = true →
    ((s.core d q).expBusy = false →
      (∀ i a st ps e k, expHead (s.core d q) = some (i, .xpand a st ps e k none [] []) →
        (s.die d).accs.any (fun x => decide (x.dest = .expander d q)) = false → Runs (.expanderRequestStart d q) s fun t =>
          (t.die d).accs = (s.die d).accs ++ [{ stamp := (s.die d).stamp, kind := .read, addr := a,
                                                size := min (a + min 32 (roomAt a)) ((a / 1024 + 1) * 1024) - a,
                                                data := [], dest := .expander d q, portB := false,
                                                issue := s.beat d, ret := 0, served := false }]
          ∧ (t.core d q).treqs = (s.core d q).treqs.set i (.xpand a st ps e k (some (min 32 (roomAt a))) [] [])
          ∧ StoresKept s t ∧ t.regs = s.regs) ∧
      (∀ i a ps e k w data, expHead (s.core d q) = some (i, .xpand a false ps e k (some w) [] data) → w ≤ data.length →
        localSize a data ≤ w → (s.die d).accs.any (fun x => decide (x.dest = .expander d q)) = false →
        ∀ o, o = expand s d data e k (Config.bytesLeft s.fresh) → o.transfers ≠ [] →
        Runs (.expanderRequestStart d q) s (Expands d q k o s)) ∧
      (∀ i id ps e k data, expHead (s.core d q) = some (i, .expand id false ps e k data 0) →
        ∀ o, o = expand s d data e k (Config.bytesLeft s.fresh) → o.transfers ≠ [] →
        Runs (.expanderRequestStart d q) s (Expands d q k o s)) ∧
      (∀ i id ps e k data, expHead (s.core d q) = some (i, .expand id true ps e k data 0) →
        ∀ o, o = expand s d data e k (Config.bytesLeft s.fresh) → o.transfers ≠ [] →
        Runs (.expanderRequestStart d q) s fun t => (t.core d q).expBusy = true ∧ StoresKept s t
          ∧ (t.die d).accs.length = (s.die d).accs.length + o.transfers.length
          ∧ ∀ w ∈ stagedWrites (unitBase d .pst q.val + ps * 1024) k o, ∃ a ∈ (t.die d).accs,
              a.dest = .stage d q none ∧ a.kind = .write ∧ a.addr = w.1 ∧ a.data = w.2) ∧
      (∀ i id ps e k, expHead (s.core d q) = some (i, .zeros id false ps e k) → (zeroOutput e k 0).transfers ≠ [] →
        Runs (.expanderRequestStart d q) s fun t => (t.core d q).expOut = (zeroOutput e k 0).forTiles k
          ∧ (t.core d q).expBusy = true ∧ StoresKept s t ∧ t.regs = s.regs ∧ Raises s t [])) ∧
    ((s.core d q).expBusy = true → exec (.expanderRequestStart d q) s = .next s) ∧
    (∀ tr c, nextTransfer s d q = some (tr, c) → s.latent = [] → (s.die d).used.contains (.tile q) = false →
      (nextShadow (s.core d q) tr).complete = false →
      tr.bytes.length = transferSize (nextShadow (s.core d q) tr).kind (nextShadow (s.core d q) tr).transfers.length →
      Runs (.tileTransfer d q) s fun t =>
        ((t.core d q).engine ((s.core d q).tord.getD (s.core d q).tordPos 0)).shadow
            = some ⟨(nextShadow (s.core d q) tr).kind, (nextShadow (s.core d q) tr).transfers ++ [tr.bytes],
                (nextShadow (s.core d q) tr).poison || tr.poison⟩
        ∧ ((t.core d q).engine ((s.core d q).tord.getD (s.core d q).tordPos 0)).active
            = ((s.core d q).engine ((s.core d q).tord.getD (s.core d q).tordPos 0)).active
        ∧ (∀ e, e ≠ (s.core d q).tord.getD (s.core d q).tordPos 0 → (t.core d q).engine e = (s.core d q).engine e)
        ∧ .tile q ∈ (t.die d).used ∧ StoresKept s t ∧ t.regs = s.regs) ∧
    (∀ i ps n k x y b a, (s.core d q).tileIn = none → tileHead (s.core d q) = some (i, .tfeed ps n k x y b) → s.latent = [] →
      a = unitBase d .pst q.val + ps * 1024 + (stagedAt k n x y).1 → b + (latency (s.invar d) 0).1 ≤ s.beat d →
      slotOpen s d (bankIndex a) (rowOf a).1 1 = true → Runs (.tileTransfer d q) s fun t =>
        (t.core d q).tileIn = some (⟨k, (s.peek a (stagedAt k n x y).2).map Prod.fst, (s.peek a (stagedAt k n x y).2).any Prod.snd⟩,
            s.beat d + 1)
        ∧ .bank (rowOf a).1 1 ∈ (t.die d).used ∧ (t.core d q).engines = (s.core d q).engines ∧ StoresKept s t ∧ t.regs = s.regs)

/-- What the expander undoes of a compressor's work: a ZRUN payload decodes to the plain form it was made from, byte for byte,
and a block as the compressor assembles it passes its check bits and gives its header back (R161, R162, R165, R174, R177). -/
def Obligations.StoredBlocksRoundTrip : Prop :=
  (∀ bs : List Byte, zrunDecode bs.length (zrunEncode (bs.length + 1) [] bs) = ⟨bs, 0, bs.length⟩) ∧
  (∀ (h : Header) (payload : List Byte), blockPasses (assemble h payload) = true
    ∧ (assemble h payload).length = storedSize payload.length ∧ ((assemble h payload).drop 32).take payload.length = payload) ∧
  (∀ (h : Header) (payload : List Byte), h.id < 2 ^ 32 → h.layer < 512 → h.die < 2 → h.ndie < 2 → h.colgrp < 65536 →
    h.codec < 4 → h.kind < 16 → h.table < 16 → h.ttag < 65536 → h.plainLen < 65536 → payload.length < 65536 → h.stepTag < 65536 →
    h.bscale < 256 → h.zeros = true → h.checked = true → parseHeader (assemble h payload) = { h with compLen := payload.length })

/-! ### The cluster DMAs and transactions (chapter 06) -/

/-- One piece of a descriptor's reads or writes is on its way: an access of the die's own stores, or a transaction that waits for
an entry (R277, R289). -/
def Moves (d : Die) (c : Cluster) (n : Nat) (k : AccKind) (a size : Nat) (data : List (Byte × Bool)) (into : Option (Nat × AccKind))
    (t : State) : Prop :=
  if ownStore d a then
    ∃ b ∈ (t.die d).accs, b.kind = k ∧ b.addr = directAddr a ∧ b.size = size ∧ b.data = data ∧ b.dest = .dma d c n into ∧ b.served = false
  else
    ∃ x ∈ (t.die d).txns, x.owner = .dma c ∧ x.number = n ∧ x.kind = k ∧ x.addr = a ∧ x.size = size ∧ x.data = data ∧ x.into = into
      ∧ x.issued = false

/-- Data on its way to a destination, cut into pieces (R277). -/
def MovesAll (d : Die) (c : Cluster) (n : Nat) (k : AccKind) (a : Nat) (data : List (Byte × Bool)) (t : State) : Prop :=
  ∀ g ∈ pieces d a data.length, Moves d c n k g.1 g.2 ((data.drop (g.1 - a)).take g.2) none t

/-- A stretch is being read, its data to be gathered. -/
def Gathers (d : Die) (c : Cluster) (n : Nat) (a size : Nat) (t : State) : Prop :=
  ∀ g ∈ pieces d a size, Moves d c n .read g.1 g.2 [] none t

/-- A descriptor that has been read stands at the head of a cluster's queue and may start (R275, R278, R284). -/
def AtHead (s : State) (d : Die) (c : Cluster) (p : Post) (rest : List Post) : Prop :=
  (s.dma d c).queue = p :: rest ∧ p.ready = true ∧ (s.dma d c).active.length < 4 ∧ (p.fence = true → (s.dma d c).active = [])
    ∧ s.dieUp d = true

/-- The transfer number that a cluster's next descriptor gets. -/
def nextXfer (s : State) (d : Die) (c : Cluster) : Nat := 8 * ((s.dma d c).nextNumber % 4095 + 1) + c.val

/-- The descriptor has left the queue and runs; no register, context, core or byte of memory has changed. -/
def Started (d : Die) (c : Cluster) (p : Post) (rest : List Post) (s t : State) : Prop :=
  (t.dma d c).queue = rest ∧ (t.dma d c).active.map (fun r => r.post) = (s.dma d c).active.map (fun r => r.post) ++ [p]
    ∧ t.regs = s.regs ∧ t.ctxs = s.ctxs ∧ t.cores = s.cores ∧ StoresKept s t ∧ Raises s t []

/-- A BLOCKS descriptor reads its index table before its checks end (R178, R278). -/
def readsTable (s : State) (p : Post) : Bool := p.op == 3 && p.len != 0 && !badFields p && p.ok && tableReadable s p 4

/-- A post joins its cluster's queue, and its descriptor is read; a COPY reads each of its rows on its way to the destination, a
FILL writes its pattern, a PACK reads its rows and writes their stored blocks, a BLOCKS reads its index table and then its
blocks, which it verifies; a descriptor that fails a check is rejected with its cause and moves nothing; one whose accesses
have all returned completes, counts, and gives its signal; a transaction takes an entry from its reserve or the pool, or
waits, and its completion brings its data (R166, R212, R275 to R290, R297; what a poisoned descriptor does and the element form
of a PACK row are the model's choices, log entry 49). -/
def Obligations.DmaDescriptors : Prop :=
  ∀ (s : State) (d : Die) (c : Cluster),
    (∀ (q : CoreId) (x : SlotId) (sA : Fin 32) (m : Nat), Issues s d q x [sA] → c = clusterOf q →
      (s.ctx d q x).translate (bitsOf ((s.ctx d q x).rd sA) 47 0) 64 .r = some m →
      (postAddrOk d c m = true → queueHasRoom s d q 4 = true → Runs (.dpost d q sA) s fun t =>
        (t.dma d c).queue = (s.dma d c).queue ++ [Post.unread (directAddr m) (some (s.ctx d q x)) (s.die d).stamp]
          ∧ (t.dma d c).active = (s.dma d c).active
          ∧ (∃ a, (t.die d).accs = (s.die d).accs ++ [a] ∧ a.kind = .read ∧ a.addr = directAddr (directAddr m) ∧ a.size = 64
              ∧ a.dest = .post d c (some q) ∧ a.stamp = (s.die d).stamp)
          ∧ (t.ctx d q x).pc = nextPc s d q x ∧ OtherCtxs d q x s t ∧ t.regs = s.regs ∧ StoresKept s t) ∧
      (postAddrOk d c m = true → queueHasRoom s d q 4 = false → Runs (.dpost d q sA) s fun t => t.dmas = s.dmas
        ∧ (t.ctx d q x).st = .wait ∧ (t.ctx d q x).waiting = some (.queueFull 4) ∧ (t.ctx d q x).pc = (s.ctx d q x).pc) ∧
      (postAddrOk d c m = false → Runs (.dpost d q sA) s (FeedRejected d q x m s))) ∧
    (∀ a, WriteReady s (.dmaPost d c) → a < 2 ^ 48 →
      (postAddrOk d c a = true → (s.dma d c).queue.length < 32 → Runs (.dmaPost d c a) s fun t =>
        (t.dma d c).queue = (s.dma d c).queue ++ [Post.unread (directAddr a) none (s.die d).stamp] ∧ t.regs = s.regs ∧ StoresKept s t
          ∧ ∃ b, (t.die d).accs = (s.die d).accs ++ [b] ∧ b.kind = .read ∧ b.size = 64 ∧ b.dest = .post d c none) ∧
      (postAddrOk d c a = false ∨ 32 ≤ (s.dma d c).queue.length → Rejects (.dmaPost d c a) s (.dmaPost d c))) ∧
    (∀ i a, (s.die d).accs[i]? = some a → a.served = true → a.ret ≤ s.beat d →
      ((s.die d).accs.take i).any (fun b => sameOrder b a) = false →
      (∀ dp q, a.dest = .post dp c q → Runs (.storeReadReturn d i) s fun t => StoresKept s t ∧ t.regs = s.regs
        ∧ (t.dma d c).queue = (s.dma d c).queue.map (fun p => if p.stamp = a.stamp ∧ p.ready = false then p.fill a.data else p)) ∧
      (∀ dp n dst k, a.dest = .dma dp c n (some (dst, k)) → a.kind = .read → Runs (.storeReadReturn d i) s fun t =>
        MovesAll d c n k dst a.data t ∧ StoresKept s t
        ∧ (a.data.any Prod.snd = true → t.fld (.dmaQstatus d c) F.dmaQstatus_POISON = 1)
        ∧ (a.data.any Prod.snd = false → t.regs = s.regs)) ∧
      (∀ dp n r got, a.dest = .dma dp c n none → a.kind = .read → runningOf s d c n = some r → got = r.got ++ a.data →
        r.checking = false → got.length = r.need →
        (∀ blk, r.post.op = 2 → blk = (packRow s d r.post r.done (got.map Prod.fst)).map (fun b => (b, got.any Prod.snd)) →
          Runs (.storeReadReturn d i) s fun t => MovesAll d c n (writeKind r.post.dst 0) r.dst blk t ∧ StoresKept s t ∧ Raises s t []) ∧
        (∀ blk, r.post.op = 3 → blk = got.map (fun b => (b.1, b.2 || !blockPasses (got.map Prod.fst))) →
          Runs (.storeReadReturn d i) s fun t => MovesAll d c n (writeKind r.post.dst 0) r.dst blk t ∧ StoresKept s t
            ∧ (blockPasses (got.map Prod.fst) = true → Raises s t [])
            ∧ (blockPasses (got.map Prod.fst) = false → Raises s t [Report.plain .blockCheck d.val c.val .dma r.dst])))) ∧
    (∀ p rest, AtHead s d c p rest → readsTable s p = false →
      (postCause s p none = none → 0 < p.len →
        (p.op = 0 → Runs (.dmaCopy d c) s fun t => Started d c p rest s t ∧ ∀ r, r < p.rows →
          ∀ g ∈ pieces d (p.src + r * p.srcStride) p.len, Moves d c (nextXfer s d c) .read g.1 g.2 []
            (some (p.dst + r * p.dstStride + (g.1 - (p.src + r * p.srcStride)), writeKind p.dst p.etype)) t) ∧
        (p.op = 1 → Runs (.dmaFill d c) s fun t => Started d c p rest s t ∧ ∀ r, r < p.rows →
          MovesAll d c (nextXfer s d c) (writeKind p.dst 0) (p.dst + r * p.dstStride) (fillRow (p.w 4) p.len) t) ∧
        (p.op = 2 → Runs (.dmaPack d c) s fun t => Started d c p rest s t ∧ Gathers d c (nextXfer s d c) p.src p.len t)) ∧
      (postCause s p none = none → p.len = 0 →
        ∀ k ∈ ([(.dmaCopy d c, 0), (.dmaFill d c, 1), (.dmaPack d c, 2), (.dmaBlocks d c, 3)] : List (Instr × Nat)), p.op = k.2 →
          Runs k.1 s fun t => Started d c p rest s t ∧ t.dies = s.dies) ∧
      (∀ cause, postCause s p none = some cause →
        ∀ k ∈ ([(.dmaCopy d c, [0, 4, 5, 6, 7, 8, 9, 10, 11, 12, 13, 14, 15]), (.dmaFill d c, [1]), (.dmaPack d c, [2]),
            (.dmaBlocks d c, [3])] : List (Instr × List Nat)), p.op ∈ k.2 →
          Runs k.1 s fun t => t.dma d c = { s.dma d c with queue := rest } ∧ t.fld (.dmaQstatus d c) F.dmaQstatus_ERROR = 1
            ∧ t.fld (.dmaQstatus d c) F.dmaQstatus_CAUSE = cause % 16 ∧ t.fld (.dmaErrDesc d c) F.dmaErrDesc_ADDR = p.addr % 2 ^ 48
            ∧ Raises s t [{ Report.plain (causeSource cause) d.val c.val .dma p.addr with detail := cause }] ∧ StoresKept s t
            ∧ t.dies = s.dies)) ∧
    (∀ p rest, AtHead s d c p rest → readsTable s p = true → Runs (.dmaBlocks d c) s fun t => Started d c p rest s t
      ∧ Gathers d c (nextXfer s d c) p.arg 4 t) ∧
    (∀ i r, (s.dma d c).active[i]? = some r →
      (r.start < s.beat d → r.checking = false → r.need = 0 → (s.die d).txns.any (fun t => t.ofDesc c r.number) = false →
        (s.die d).accs.any (fun a => a.ofDesc d c r.number) = false →
        (∀ w, r.post.uses w = true → s.fld (.dmaRwinA w) F.dmaRwinA_STATE ≠ 4) → Runs (.dmaDescriptorComplete d c i) s fun t =>
          (t.dma d c).active = (s.dma d c).active.eraseIdx i
          ∧ t.fld (.dmaDoneCount d c) F.dmaDoneCount_COUNT = min (s.fld (.dmaDoneCount d c) F.dmaDoneCount_COUNT + 1) (2 ^ 48 - 1)
          ∧ StoresKept s t
          ∧ (r.post.sig = false → RegsKept [.dmaDoneCount d c] s t)
          ∧ (r.post.sig = true → r.post.scope = 0 → signalable s d r.post.sigPhys = true →
              counterValue s d r.post.sigPhys + r.post.inc < 2 ^ 48 →
              counterValue t d r.post.sigPhys = counterValue s d r.post.sigPhys + r.post.inc)) ∧
      (s.beat d ≤ r.start ∨ (s.die d).txns.any (fun t => t.ofDesc c r.number) = true
          ∨ (s.die d).accs.any (fun a => a.ofDesc d c r.number) = true → exec (.dmaDescriptorComplete d c i) s = .next s)) ∧
    (∀ i x, (s.die d).txns[i]? = some x → x.issued = false →
      (∀ pool, freeEntryFor s d x = some pool →
        (slotOfAddr x.addr = none → x.answers = false → Runs (.transactionIssue d i) s fun t =>
          (t.die d).txns = (s.die d).txns.set i { x with issued := true, fromPool := pool } ∧ t.regs = s.regs ∧ t.mem = s.mem
            ∧ t.remoteOut = s.remoteOut) ∧
        (∀ e st u w off, placeOf x.addr = .store e st u w off → e ≠ d → Runs (.transactionIssue d i) s fun t =>
          (t.die d).txns = (s.die d).txns.set i { x with issued := true, fromPool := pool } ∧ t.regs = s.regs ∧ t.mem = s.mem
            ∧ ∃ a, (t.die e).accs = (s.die e).accs ++ [a] ∧ a.kind = x.kind ∧ a.addr = directAddr x.addr ∧ a.size = x.size
                ∧ a.data = x.data ∧ a.stamp = x.stamp) ∧
        (∀ w, slotOfAddr x.addr = some w → windowCarries s x = true → x.owner = .cores → Runs (.transactionIssue d i) s fun t =>
          (t.die d).txns = (s.die d).txns.set i { x with issued := true, fromPool := pool } ∧ t.regs = s.regs ∧ t.mem = s.mem
            ∧ t.remoteOut = s.remoteOut ++ remoteFrames s d w x x.pkt)) ∧
      ((s.die d).txns.countP (fun u => u.issued && !u.fromPool && decide (u.owner = x.owner)) < reserveOf s d x.owner →
        freeEntryFor s d x = some false) ∧
      (reserveOf s d x.owner ≤ (s.die d).txns.countP (fun u => u.issued && !u.fromPool && decide (u.owner = x.owner)) →
        (poolUsed s d < 8192 - reserves s d → freeEntryFor s d x = some true) ∧
        (8192 - reserves s d ≤ poolUsed s d → exec (.transactionIssue d i) s = .next s)) ∧
      (windowCarries s x = false → exec (.transactionIssue d i) s = .next s)) ∧
    (∀ i x, (s.die d).txns[i]? = some x → x.issued = true → x.owner = .cores → stepBusy s x.addr = false →
      (∀ e q y rd sx, x.kind = .read → x.dest = some (.scalar e q y rd sx) → x.returned = true →
        Runs (.transactionComplete d i ⟨[], 0⟩) s fun t => (t.die d).txns = (s.die d).txns.eraseIdx i
          ∧ (t.ctx e q y).rd rd = loadValue x.data sx ∧ (rd ∈ (t.ctx e q y).bad ↔ x.data.any Prod.snd = true)
          ∧ OtherScalars rd (s.ctx e q y) (t.ctx e q y) ∧ OtherCtxs e q y s t ∧ t.mem = s.mem) ∧
      (x.answers = false → x.returned = false → s.latent = [] → Mem.wf s.mem = true →
        (∀ e q y rd sx, x.kind = .read → x.dest = some (.scalar e q y rd sx) → Runs (.transactionComplete d i ⟨[], 0⟩) s fun t =>
          (t.die d).txns = (s.die d).txns.eraseIdx i ∧ (t.ctx e q y).rd rd = loadValue (fetchAt s x.addr x.size) sx
            ∧ OtherScalars rd (s.ctx e q y) (t.ctx e q y) ∧ OtherCtxs e q y s t ∧ t.mem = s.mem ∧ t.regs = s.regs) ∧
        (x.kind = .write → (∀ b ∈ x.data, b.2 = false) → tierHolds s x.addr x.size = true → x.size = x.data.length →
          Runs (.transactionComplete d i ⟨[], 0⟩) s fun t => (t.die d).txns = (s.die d).txns.eraseIdx i
            ∧ t.bytes x.addr x.data.length = x.data.map Prod.fst ∧ MemKeptBut x.addr x.data.length s t
            ∧ t.ctxs = s.ctxs ∧ t.regs = s.regs)) ∧
      (x.answers = true → x.returned = false → exec (.transactionComplete d i ⟨[], 0⟩) s = .next s))

/-! ### Remote windows and the remote path (chapters 06 and 09) -/

/-- The module's own end of a remote window, and its imports: an opening sends its request, or is refused at the source; the
target answers by its import entries; a reply, its absence, a close, a revocation and a refusal move the window or its
transfer as R283, R286, R287 and R300 say. -/
def Obligations.RemoteWindows : Prop :=
  ∀ (s : State) (w : Fin 64),
    (∀ v, WriteReady s (.dmaRwinA w) → s.fld (.dmaRwinA w) F.dmaRwinA_STATE = 0 →
      openFieldsOk s w (mergeWord (.dmaRwinA w) (s.reg (.dmaRwinA w)) (v ||| 1) true) = true →
      bitsOf v 59 58 < 2 →
      (inArc s (bitsOf v 49 41) = true → Runs (.windowOpen w v) s fun t => t.fld (.dmaRwinA w) F.dmaRwinA_STATE = 1
        ∧ t.fld (.dmaRwinA w) F.dmaRwinA_OPEN = 1 ∧ t.windowSince.at_ 0 w = s.now ∧ Raises s t [] ∧ RegsKept [.dmaRwinA w] s t
        ∧ ∃ r, t.remoteOut = s.remoteOut ++ [r] ∧ r.kind = .openReq ∧ r.tgtPos = bitsOf v 49 41
            ∧ r.addr = bitsOf (s.reg (.dmaRwinB w)) 47 0 ∧ r.size = bitsOf v 54 50 ∧ r.perm = bitsOf v 57 55) ∧
      (inArc s (bitsOf v 49 41) = false → Runs (.windowOpen w v) s fun t => t.fld (.dmaRwinA w) F.dmaRwinA_STATE = 3
        ∧ Raises s t [Report.plain .windowRefused 2 0 .dma 0] ∧ t.remoteOut = s.remoteOut)) ∧
    (∀ ring pos (win : Fin 64) (route : Fin 4) base size perm job p, p = { RemotePkt.blank .openReq with
        srcRing := ring, srcPos := pos, win := win.val, route := route.val, tgtRing := s.ringId, tgtPos := s.position, addr := base,
        size := size, perm := perm, job := job } →
      (∀ i, (List.finRange 16).find? (fun i => pathAllowed s p && importAccepts s i p) = some i →
        Runs (.windowOpenRequest ring pos (win, route) base size perm job) s fun t =>
          t.accepted = s.accepted.filter (fun e => !(e.2.srcRing == ring && e.2.srcPos == pos && e.2.win == win.val)) ++ [(i, p)]
          ∧ t.remoteOut = s.remoteOut ++ [{ p.back with kind := .openRsp, status := 0 }] ∧ t.regs = s.regs ∧ t.mem = s.mem) ∧
      ((∀ i, importAccepts s i p = false) ∨ (route.val < 2 ∧ (ring ≠ s.ringId ∨ inArc s pos = false)) →
        Runs (.windowOpenRequest ring pos (win, route) base size perm job) s fun t => t.accepted = s.accepted
          ∧ t.remoteOut = s.remoteOut ++ [{ p.back with kind := .openRsp, status := 1 }] ∧ t.regs = s.regs ∧ t.mem = s.mem)) ∧
    (s.fld (.dmaRwinA w) F.dmaRwinA_STATE = 1 →
      (Runs (.windowOpenReply w true) s fun t => t.fld (.dmaRwinA w) F.dmaRwinA_STATE = 2 ∧ RegsKept [.dmaRwinA w] s t ∧ Raises s t []) ∧
      (Runs (.windowOpenReply w false) s fun t => t.fld (.dmaRwinA w) F.dmaRwinA_STATE = 3
        ∧ Raises s t [Report.plain .windowRefused 2 0 .dma 0]) ∧
      (s.windowSince.at_ 0 w + 100000 ≤ s.now → Runs (.windowOpenTimeout w) s fun t => t.fld (.dmaRwinA w) F.dmaRwinA_STATE = 3
        ∧ Raises s t [Report.plain .windowRefused 2 0 .dma 0]) ∧
      (s.now < s.windowSince.at_ 0 w + 100000 → exec (.windowOpenTimeout w) s = .next s)) ∧
    (WriteReady s (.dmaRwinA w) →
      (s.fld (.dmaRwinA w) F.dmaRwinA_STATE = 2 → Runs (.windowClose w) s fun t =>
        t.fld (.dmaRwinA w) F.dmaRwinA_STATE = (if windowBusy s w then 4 else 0) ∧ RegsKept [.dmaRwinA w] s t) ∧
      (s.fld (.dmaRwinA w) F.dmaRwinA_STATE = 3 ∨ s.fld (.dmaRwinA w) F.dmaRwinA_STATE = 5 → Runs (.windowClose w) s fun t =>
        t.fld (.dmaRwinA w) F.dmaRwinA_STATE = 0 ∧ RegsKept [.dmaRwinA w] s t) ∧
      (s.fld (.dmaRwinA w) F.dmaRwinA_STATE = 1 → Rejects (.windowClose w) s (.dmaRwinA w))) ∧
    (∀ (i : Fin 16) v, WriteReady s (.dmaRimpA i) →
      (bitsOf v 63 63 = 1 → 12 ≤ bitsOf v 59 55 → bitsOf v 59 55 ≤ 26 → bitsOf v 47 0 % 2 ^ bitsOf v 59 55 = 0 →
        Runs (.rimpWrite i false v) s fun t => t.reg (.dmaRimpA i) = mergeWord (.dmaRimpA i) (s.reg (.dmaRimpA i)) v true
          ∧ t.accepted = s.accepted.filter (fun e => !(e.1 == i || importAccepts s i e.2))
          ∧ t.remoteOut = s.remoteOut ++ (s.accepted.filter (fun e => e.1 == i || importAccepts s i e.2)).map (fun e =>
              { e.2.back with kind := .revoke })
          ∧ RegsKept [.dmaRimpA i] s t) ∧
      (bitsOf v 63 63 = 1 → bitsOf v 59 55 < 12 → Rejects (.rimpWrite i false v) s (.dmaRimpA i))) ∧
    (∀ ring pos base, bitsOf (s.reg (.dmaRwinA w)) 40 38 = ring → bitsOf (s.reg (.dmaRwinA w)) 49 41 = pos →
      bitsOf (s.reg (.dmaRwinB w)) 47 0 = base →
      (s.fld (.dmaRwinA w) F.dmaRwinA_STATE = 1 ∨ s.fld (.dmaRwinA w) F.dmaRwinA_STATE = 2
          ∨ s.fld (.dmaRwinA w) F.dmaRwinA_STATE = 4 → Runs (.revokeNotify ring pos w base) s fun t =>
        t.fld (.dmaRwinA w) F.dmaRwinA_STATE = 5 ∧ Raised s t (Report.plain .windowLost 2 0 .dma 0) ∧ t.mem = s.mem
        ∧ ∀ d c r, r ∈ (t.dma d c).active → r.post.uses w = false) ∧
      (∀ r q a, (r, q, a) ≠ (ring, pos, base) → exec (.revokeNotify r q w a) s = .next s)) ∧
    (∀ (d : Die) xfer pkt,
      (xfer < 8 → (s.die d).txns = [] → Runs (.packetRefusal d w xfer pkt) s fun t =>
        t = { s with reports := t.reports } ∧ Raises s t [Report.plain .windowRefused d.val 0 .sync 0]) ∧
      (∀ i x e q y rd sx, xfer < 8 → (s.die d).txns.zipIdx.find? (fun e =>
          slotOfAddr e.1.addr == some w && decide (e.1.owner = .cores) && e.1.issued && e.1.pkt == pkt) = some (x, i) →
        x.kind = .read → x.dest = some (.scalar e q y rd sx) → 0 < x.size → Runs (.packetRefusal d w xfer pkt) s fun t =>
          (t.ctx e q y).rd rd = 0 ∧ rd ∈ (t.ctx e q y).bad ∧ (t.die d).txns = (s.die d).txns.eraseIdx i
          ∧ Raises s t [Report.plain .windowRefused d.val 0 .dma x.addr] ∧ t.mem = s.mem) ∧
      (∀ c r, 8 ≤ xfer → c.val = xfer % 8 → runningOf s d c xfer = some r → Runs (.packetRefusal d w xfer pkt) s fun t =>
          t.fld (.dmaQstatus d c) F.dmaQstatus_CAUSE = 11 ∧ t.fld (.dmaQstatus d c) F.dmaQstatus_ERROR = 1
          ∧ Raises s t [{ Report.plain .dmaDesc d.val c.val .dma r.post.addr with detail := 11 }]
          ∧ (t.dma d c).active = (s.dma d c).active.filter (fun r => r.number ≠ xfer)
          ∧ (∀ y ∈ (t.die d).txns, ¬(y.owner = .dma c ∧ y.number = xfer)) ∧ t.mem = s.mem) ∧
      (∀ c addr, 8 ≤ xfer → c.val = xfer % 8 → runningOf s d c xfer = none → (s.dma d c).signalled.find xfer = some addr →
        Runs (.packetRefusal d w xfer pkt) s fun t => t.fld (.dmaQstatus d c) F.dmaQstatus_CAUSE = 11
          ∧ t.fld (.dmaErrDesc d c) F.dmaErrDesc_ADDR = addr % 2 ^ 48 ∧ (t.dma d c).signalled.find xfer = none
          ∧ Raises s t [{ Report.plain .dmaDesc d.val c.val .dma addr with detail := 11 }] ∧ t.mem = s.mem))

/-- One more answer waits to leave, to the source of a packet, with this status and data (R405). -/
def Answers (s t : State) (p : RemotePkt) (status : Nat) (data : List Byte) : Prop :=
  ∃ r, t.remoteOut = s.remoteOut ++ [r] ∧ r.kind = .rrsp ∧ r.status = status ∧ r.data = data ∧ r.tgtRing = p.srcRing ∧ r.tgtPos = p.srcPos
    ∧ r.xfer = p.xfer

/-- A frame of the remote path that the link layer takes and that is for this module has its effect and returns its
credit: a write through an accepted window goes to memory, or to the die's stores as an access whose return is answered, one
that no window admits stores nothing and is refused, a read is answered with the bytes, an answer reaches its transaction, a
signal packet its die; where the position holds its streams a frame of its arc waits; a bad head is discarded with FRAME_BAD
(R93, R283, R287, R357, R358, R397, R402, R405, R661). -/
def Obligations.RemoteFrames : Prop :=
  (∀ (s u : State) (h : RxHead) (lane : Option Nat) (e : Nat) (p : RemotePkt), receive s h false = .yes u lane →
    partMatch u h lane = some e →
    (∀ c ∈ ([.rwr h false true p, .rrd h false p, .rrsp h false p, .sig h false p] : List Instr), Runs c s fun t =>
      Raises u t [Report.plain .frameBad 2 h.port.val .circ 0] ∧ t.mem = u.mem ∧ t.remoteOut = u.remoteOut
        ∧ (t.port h.port).owed.at_ 0 e = (u.port h.port).owed.at_ 0 e + 1) ∧
    (p.tgtRing = u.ringId → p.tgtPos = u.position → p.data.length ≤ 224 →
      (p.op = 0 → remoteWaits u h = true → Runs (.rwr h true true p) s fun t =>
        t = { u with circ := { u.circ with heldRemote := u.circ.heldRemote ++
          [{ head := h, entry := e, eot := true, pkt := { p with kind := .rwr } }] } }) ∧
      (remoteWaits u h = false → u.circ.heldRemote = [] →
        (∀ eot k, p.op < 2 → landReject u p p.data.length 4 (landKind p p.data.length) = none → landKind p p.data.length = some k →
          (k = .write → (∀ d st a w off, placeOf p.addr ≠ .store d st a w off) → tierHolds u p.addr p.data.length = true →
            u.latent = [] → Mem.wf u.mem = true → Runs (.rwr h true eot p) s fun t =>
              t.bytes p.addr p.data.length = p.data ∧ MemKeptBut p.addr p.data.length u t
              ∧ (t.port h.port).owed.at_ 0 e = (u.port h.port).owed.at_ 0 e + 1
              ∧ (eot = true → Answers u t p 0 []) ∧ (eot = false → t.remoteOut = u.remoteOut) ∧ Raises u t []) ∧
          (∀ d st a w off, placeOf p.addr = .store d st a w off → Runs (.rwr h true eot p) s fun t =>
              (∃ b, (t.die d).accs = (u.die d).accs ++ [b] ∧ b.dest = .remote ∧ b.kind = k ∧ b.addr = directAddr p.addr
                ∧ b.data = p.data.map (fun x => (x, false))
                ∧ t.inbound = u.inbound ++ [{ die := d, stamp := b.stamp, port := h.port, pkt := { p with kind := .rwr }, eot := eot }])
              ∧ t.remoteOut = u.remoteOut ∧ t.mem = u.mem ∧ Raises u t [])) ∧
        (∀ src, p.op < 2 → landReject u p p.data.length 4 (landKind p p.data.length) = some src → Runs (.rwr h true true p) s fun t =>
          StoresKept u t ∧ Answers u t p 1 [] ∧ Raises u t (src.toList.map (fun f => Report.plain f 2 0 .dma p.addr))) ∧
        (p.op = 2 → p.len ≤ 224 → landReject u p p.len 2 (some .read) = none → u.latent = [] →
          (∀ d st a w off, placeOf p.addr ≠ .store d st a w off) → Runs (.rrd h true p) s fun t =>
            t.mem = u.mem ∧ Answers u t p 0 (hideMarks (fetchAt u p.addr p.len))) ∧
        (∀ i x w, p.op = 2 ∨ p.op = 3 → p.status = 0 → answered u ⟨p.srcDie % 2, Nat.mod_lt _ (by decide)⟩ p = some (i, x, w) →
          Runs (.rrsp h true p) s fun t => t.mem = u.mem
            ∧ ((t.die ⟨p.srcDie % 2, Nat.mod_lt _ (by decide)⟩).txns
                = (u.die ⟨p.srcDie % 2, Nat.mod_lt _ (by decide)⟩).txns.set i (if x.kind = .read then
                    { x with data := x.data ++ p.data.map (fun b => (b, false)),
                             returned := decide (x.size ≤ (x.data ++ p.data.map (fun b => (b, false))).length) }
                  else { x with returned := true }))) ∧
        (∀ g, p.op = 4 → p.packet = some g → g.kind = 0 → admitted u p p.addr 1 1 = true → Runs (.sig h true p) s fun t =>
          (t.die (sigDie p.addr)).bridge.map (fun b => b.packet) = (u.die (sigDie p.addr)).bridge.map (fun b => b.packet) ++ [g]
            ∧ t.mem = u.mem ∧ Raises u t []) ∧
        (∀ g, p.op = 4 → p.packet = some g → g.kind = 0 → admitted u p p.addr 1 1 = false → Runs (.sig h true p) s fun t =>
          StoresKept u t ∧ Answers u t p 1 [] ∧ Raises u t [])))) ∧
  (∀ (s : State) (d : Die) (i : Nat) (a : Access) (b : Inbound), (s.die d).accs[i]? = some a → a.dest = .remote → a.served = true →
    a.ret ≤ s.beat d → s.inbound.find? (fun e => e.die = d ∧ e.stamp = a.stamp) = some b → Runs (.storeReadReturn d i) s fun t =>
      (a.kind = .read → (hideMarks a.data).length ≤ 224 → Answers s t b.pkt 0 (hideMarks a.data))
      ∧ (a.kind ≠ .read → b.eot = true → Answers s t b.pkt 0 []) ∧ (a.kind ≠ .read → b.eot = false → t.remoteOut = s.remoteOut)
      ∧ (t.die d).accs = (s.die d).accs.eraseIdx i ∧ StoresKept s t ∧ t.regs = s.regs ∧ t.ctxs = s.ctxs)

/-! ### Steps and the timebase (chapter 07) -/

/-- The two words of the record of a step that closes with a status (R329, R341). -/
def HasRecord (s t : State) (d : Die) (u : Step) (status : Nat) (i : Fin 16) : Prop :=
  bitsOf (t.reg (.scvStepLogA d i)) 63 48 = u.id % 65536 ∧ bitsOf (t.reg (.scvStepLogA d i)) 47 46 = status
    ∧ bitsOf (t.reg (.scvStepLogA d i)) 31 0 = min (s.time d - u.opened) 0xFFFFFFFF
    ∧ bitsOf (t.reg (.scvStepLogB d i)) 63 32
        = (match u.late, u.deadline with | true, some dl => min (s.time d - dl) 0xFFFFFFFF | _, _ => 0)
    ∧ bitsOf (t.reg (.scvStepLogB d i)) 31 0 = min u.freezeMax 0xFFFFFFFF

/-- A step is closed with a status and its record written to the die's log: at LOG_NEXT, or, where a step of a higher ID has
closed on the same beat, before that one's (R329, R341). -/
def Recorded (s t : State) (d : Die) (u : Step) (status : Nat) : Prop :=
  ((s.die d).closedNow = [] → ∀ i : Fin 16, i.val = s.fld (.scvStepStatus d) F.scvStepStatus_LOG_NEXT → HasRecord s t d u status i)
    ∧ (∀ e, (s.die d).closedNow = [e] → u.id < e.1 →
        (∀ i : Fin 16, i.val = (s.fld (.scvStepStatus d) F.scvStepStatus_LOG_NEXT + 15) % 16 → HasRecord s t d u status i)
        ∧ ∀ i : Fin 16, i.val = s.fld (.scvStepStatus d) F.scvStepStatus_LOG_NEXT → t.reg (.scvStepLogA d i) = e.2.1)
    ∧ t.fld (.scvStepStatus d) F.scvStepStatus_LOG_NEXT = (s.fld (.scvStepStatus d) F.scvStepStatus_LOG_NEXT + 1) % 16
    ∧ (t.die d).steps = (s.die d).steps.filter (fun v => v.id ≠ u.id)

/-- The step with an ID, if it is open. -/
def openStep (s : State) (d : Die) (id : Nat) : Option Step := (s.die d).steps.find? (fun u => u.id = id)

/-- STEP opens a step or stops its context with the fault that R323 names; STEPEND leaves a pending arrival or is a misuse; an
arrival counts on a later beat, once the context's words and writes are done, the last one closes the step on time or late,
and one at a step that is not open or was aborted is a misuse; a deadline makes its step late once, unless it closes on that
beat; STEP_ABORT closes an open step and is rejected for any other (R321 to R329). -/
def Obligations.Steps : Prop :=
  ∀ (s : State) (d : Die),
    (∀ (q : CoreId) (x : SlotId) (sA sB : Fin 32), Issues s d q x [sA, sB] →
      (stepFailure s d ((s.ctx d q x).rd sA) ((s.ctx d q x).rd sB) = none → Runs (.step d q sA sB) s fun t =>
        (t.die d).steps = (s.die d).steps ++ [newStep s d ((s.ctx d q x).rd sA) ((s.ctx d q x).rd sB)]
          ∧ (t.ctx d q x).pc = nextPc s d q x ∧ OtherCtxs d q x s t ∧ t.regs = s.regs ∧ StoresKept s t ∧ Raises s t []) ∧
      (∀ src, stepFailure s d ((s.ctx d q x).rd sA) ((s.ctx d q x).rd sB) = some src → Runs (.step d q sA sB) s fun t =>
        (t.ctx d q x).st = .stopped ∧ (t.ctx d q x).cause = 4 ∧ (t.ctx d q x).pc = (s.ctx d q x).pc ∧ t.dies = s.dies
          ∧ Raises s t [{ Report.plain src d.val q.val .scv 0 with ctx := some ⟨d, q, x⟩, tag := bitsOf ((s.ctx d q x).rd sA) 63 48 }])) ∧
    (∀ (q : CoreId) (x : SlotId) (sA : Fin 32), Issues s d q x [sA] →
      (bitsOf ((s.ctx d q x).rd sA) 47 0 = 0 → mayArrive s d q (bitsOf ((s.ctx d q x).rd sA) 63 48) = true → Runs (.stepend d q sA) s fun t =>
        (t.die d).stepArr = (s.die d).stepArr ++ [⟨q, x, bitsOf ((s.ctx d q x).rd sA) 63 48, (s.die d).stamp, s.beat d, false⟩]
          ∧ (t.die d).steps = (s.die d).steps ∧ (t.ctx d q x).pc = nextPc s d q x ∧ OtherCtxs d q x s t ∧ t.regs = s.regs ∧ StoresKept s t) ∧
      (bitsOf ((s.ctx d q x).rd sA) 47 0 ≠ 0 ∨ mayArrive s d q (bitsOf ((s.ctx d q x).rd sA) 63 48) = false →
        Runs (.stepend d q sA) s fun t =>
          t.fld (.scvStepStatus d) F.scvStepStatus_MISUSE = min (s.fld (.scvStepStatus d) F.scvStepStatus_MISUSE + 1) 65535
          ∧ (t.die d).stepArr = (s.die d).stepArr ∧ (t.die d).steps = (s.die d).steps ∧ (t.ctx d q x).pc = nextPc s d q x
          ∧ Raises s t [{ Report.plain .stepMisuse d.val q.val .scv 0 with ctx := some ⟨d, q, x⟩, tag := bitsOf ((s.ctx d q x).rd sA) 63 48 }])) ∧
    (∀ i a, (s.die d).stepArr[i]? = some a →
      (a.beat = s.beat d ∨ arrivalClear s d a = false → exec (.stepArrival d i) s = .next s) ∧
      (arrivalClear s d a = true →
        (∀ u, a.stale = false → openStep s d a.target = some u →
          ((u.arrived ||| 2 ^ a.core.val) &&& u.mask ≠ u.mask → Runs (.stepArrival d i) s fun t =>
            (t.die d).stepArr = (s.die d).stepArr.eraseIdx i
              ∧ openStep t d a.target = some { u with arrived := u.arrived ||| 2 ^ a.core.val } ∧ t.regs = s.regs ∧ Raises s t []) ∧
          ((u.arrived ||| 2 ^ a.core.val) &&& u.mask = u.mask → Runs (.stepArrival d i) s fun t =>
            (t.die d).stepArr = (s.die d).stepArr.eraseIdx i ∧ Recorded s t d u (if u.late then 2 else 1) ∧ Raises s t [])) ∧
        (a.stale = true ∨ openStep s d a.target = none → Runs (.stepArrival d i) s fun t =>
          (t.die d).stepArr = (s.die d).stepArr.eraseIdx i ∧ (t.die d).steps = (s.die d).steps
            ∧ t.fld (.scvStepStatus d) F.scvStepStatus_MISUSE = min (s.fld (.scvStepStatus d) F.scvStepStatus_MISUSE + 1) 65535
            ∧ Raises s t [{ Report.plain .stepMisuse d.val a.core.val .scv 0 with ctx := some ⟨d, a.core, a.slot⟩, tag := a.target }]))) ∧
    (∀ id u dl, openStep s d id = some u → u.deadline = some dl →
      (u.late = false → dl ≤ s.time d → closesNow s d u = false → Runs (.stepDeadline d id) s fun t =>
        t.fld (.scvStepStatus d) F.scvStepStatus_LATE = min (s.fld (.scvStepStatus d) F.scvStepStatus_LATE + 1) 65535
          ∧ openStep t d id = some { u with late := true }
          ∧ Raises s t [{ Report.plain .stepLate d.val 0 .scv 0 with tag := id }]) ∧
      (u.late = true ∨ s.time d < dl ∨ closesNow s d u = true → exec (.stepDeadline d id) s = .next s)) ∧
    (∀ id, WriteReady s (.scvStepAbort d) → id < 65536 →
      (∀ u, openStep s d id = some u → Runs (.stepAbort d id) s fun t => Recorded s t d u 3 ∧ Raises s t []
        ∧ (t.die d).stepArr = (s.die d).stepArr.map (fun a => if a.target = id then { a with stale := true } else a)) ∧
      (openStep s d id = none → Rejects (.stepAbort d id) s (.scvStepAbort d)))

/-- Alignment to the upstream neighbour: a TS frame leaves every near and skip port in service each 8 µs; one that arrives from
upstream in ACQUIRE with an offset above 1 µs steps the timebase forward; its rate is corrected toward upstream within
the bounds of R315; 1 ms within 4 ns locks; 100 µs of silence loses the upstream, and a timestamp ends HOLDOVER; MASTER and
TB_SET are the master's (R314, R315, R318, R319, R342, R408). -/
def Obligations.TimebaseAlignment : Prop :=
  ∀ (s : State),
    (Runs .tsSend s fun t => (∀ p : Port, p.val < 4 → inService s p = true → (s.port p).tsSent + 8000 ≤ s.now →
        (t.port p).tsSent = s.now ∧ ∃ w1 w2, (t.port p).out = (s.port p).out ++
          [{ arc := 0, role := 0, body := .link 2 (BitVec.ofNat 64 s.now) w1 w2, credit := none }])
      ∧ (∀ p : Port, 4 ≤ p.val ∨ inService s p = false ∨ s.now < (s.port p).tsSent + 8000 → t.port p = s.port p)
      ∧ t.regs = s.regs ∧ StoresKept s t ∧ DiesKept s t) ∧
    (∀ h w0 w1 w2 u lane, receive s h false = .yes u lane →
      (h.port ≠ upstreamPort u → Runs (.ts h w0 w1 w2) s fun t => (t.port h.port).tsIn = some (w0.toNat, u.now) ∧ t.regs = u.regs
        ∧ t.mem = u.mem ∧ t.dies = u.dies) ∧
      (h.port = upstreamPort u → u.fld .ptcTbConf F.ptcTbConf_MASTER = 0 → w1 = 0 → tbState u = 3 → Runs (.ts h w0 w1 w2) s fun t =>
        tbState t = 1 ∧ t.circ.tbHeard = u.now ∧ t.now = u.now ∧ t.mem = u.mem ∧ t.dies = u.dies) ∧
      (h.port = upstreamPort u → u.fld .ptcTbConf F.ptcTbConf_MASTER = 0 → w1 ≠ 0 → tbState u = 1 → 1000 < tsOffset u w0 w1 w2 →
        Runs (.ts h w0 w1 w2) s fun t => t.now = (u.now + (tsOffset u w0 w1 w2).toNat) % 2 ^ 64
          ∧ (∀ d, t.time d = (u.time d + (tsOffset u w0 w1 w2).toNat) % 2 ^ 64) ∧ tbState t = 1
          ∧ t.fld .ptcTbStatus F.ptcTbStatus_OFFSET_NS = ofSigned 32 (tsOffset u w0 w1 w2) ∧ t.mem = u.mem)) ∧
    (tbState s = 1 → (toSigned 32 (s.fld .ptcTbStatus F.ptcTbStatus_OFFSET_NS)).natAbs ≤ 4 → s.circ.tbBand + 1000000 ≤ s.now →
      s.circ.tbBand < s.circ.tbHeard → Runs .tbLock s fun t => tbState t = 2 ∧ RegsKept [.ptcTbStatus] s t ∧ t.circ = s.circ) ∧
    (tbState s ≠ 1 → exec .tbLock s = .next s) ∧
    (s.circ.tbHeard + 100000 ≤ s.now → tbState s = 1 ∨ tbState s = 2 →
      (s.fld .ptcTbConf F.ptcTbConf_ALT_VALID = 0 ∨ inService s (altPort s) = false → Runs .tbUpstreamTimeout s fun t => tbState t = 3 ∧ RegsKept [.ptcTbStatus] s t) ∧
      (s.fld .ptcTbConf F.ptcTbConf_ALT_VALID = 1 → inService s (altPort s) = true →
        Runs .tbUpstreamTimeout s fun t => tbState t = 1 ∧ upstreamPort t = altPort s ∧ RegsKept [.ptcTbStatus, .ptcTbConf] s t)) ∧
    (s.now < s.circ.tbHeard + 100000 → exec .tbUpstreamTimeout s = .next s) ∧
    (∀ v, WriteReady s .ptcTbConf →
      (bitsOf v 0 0 = 1 → Runs (.tbConfWrite v) s fun t => tbState t = 4
        ∧ t.reg .ptcTbConf = mergeWord .ptcTbConf (s.reg .ptcTbConf) v true ∧ RegsKept [.ptcTbStatus, .ptcTbConf] s t) ∧
      (bitsOf v 0 0 = 0 → tbState s = 4 → (∀ p : Port, inService s p = false) → Runs (.tbConfWrite v) s fun t => tbState t = 0
        ∧ t.reg .ptcTbConf = mergeWord .ptcTbConf (s.reg .ptcTbConf) v true ∧ RegsKept [.ptcTbStatus, .ptcTbConf] s t)) ∧
    (∀ ns : Word,
      (WriteOpen s .ptcTbSet → s.fld .ptcTbConf F.ptcTbConf_MASTER = 1 → s.now < ns.toNat → Runs (.tbSet ns) s fun t =>
        t.now = ns.toNat ∧ (∀ d, t.time d = (s.time d + (ns.toNat - s.now)) % 2 ^ 64)
          ∧ (∀ d, (t.die d).steps.map (fun u => u.opened) = (s.die d).steps.map (fun u => u.opened + (ns.toNat - s.now)))
          ∧ StoresKept s t ∧ t.ctxs = s.ctxs) ∧
      (WriteReady s .ptcTbSet → s.fld .ptcTbConf F.ptcTbConf_MASTER = 0 ∨ ns.toNat ≤ s.now → Rejects (.tbSet ns) s .ptcTbSet)) ∧
    (∀ o r : Int, o = toSigned 32 (s.fld .ptcTbStatus F.ptcTbStatus_OFFSET_NS) → r = (trimRate s).pow.tbRate →
      (tbState s = 1 → r.natAbs ≤ 500 ∧ (0 < o → 0 ≤ r) ∧ (o < 0 → r ≤ 0)) ∧
      (tbState s = 2 → r.natAbs ≤ 50 ∧ (0 < o → 0 ≤ r) ∧ (o < 0 → r ≤ 0)) ∧
      (tbState s = 3 → r = s.pow.tbRate) ∧ (tbState s ≠ 1 → tbState s ≠ 2 → tbState s ≠ 3 → r = 0))

/-! ### Counters, signals, waits, credits and barriers (chapter 08) -/

/-- A misuse by a context counts and raises MISUSE with its counter, and the context goes on (R356, R384). -/
def MisusedBy (s t : State) (d : Die) (q : CoreId) (x : SlotId) (phys : Nat) : Prop :=
  t.fld (.syncStatus d) F.syncStatus_MISUSE = min (s.fld (.syncStatus d) F.syncStatus_MISUSE + 1) 65535
    ∧ Raises s t [{ Report.plain .misuse d.val q.val .sync 0 with ctx := some ⟨d, q, x⟩, tag := phys }]
    ∧ (t.ctx d q x).pc = nextPc s d q x

/-- Only one counter of the machine has moved, by n; no report was raised (R344). -/
def Counted (s t : State) (d : Die) (phys n : Nat) : Prop :=
  counterValue t d phys = counterValue s d phys + n ∧ RegsKept [ctrReg d phys] s t ∧ Raises s t [] ∧ StoresKept s t

/-- SIGNAL joins its queue or is a misuse; it leaves by its scope once its fence is clear: it adds to a counter of its die, or
goes to the other die or through its window; a packet is applied, held for its data, or discarded when its complements
disagree; WAIT acts on the counter that its VID names, CONSUME and CREAD on theirs at the end of the beat, the updates first, then
the consumes, then the reads (R343 to R364). -/
def Obligations.SignalsAndCounters : Prop :=
  ∀ (s : State) (d : Die) (q : CoreId) (x : SlotId) (sA : Fin 32) (w : Word), w = (s.ctx d q x).rd sA →
    (Issues s d q x [sA] →
      (xlateS (s.ctx d q x) (bitsOf w 63 52) = none → ∀ c ∈ ([.signal d q sA, .barrive d q sA] : List Instr), Runs c s fun t =>
        (t.ctx d q x).st = .stopped ∧ (t.ctx d q x).cause = 3
          ∧ Raises s t [{ Report.plain .xlate d.val q.val .scv 0 with ctx := some ⟨d, q, x⟩ }]) ∧
      (∀ phys, xlateS (s.ctx d q x) (bitsOf w 63 52) = some phys →
        (bitsOf w 31 0 = 0 ∨ bitsOf w 51 50 = 3 ∨ 8064 ≤ phys ∨ (bitsOf w 51 50 = 0 ∧ signalable s d phys = false) →
          Runs (.signal d q sA) s fun t => MisusedBy s t d q x phys ∧ (t.core d q).sigQ = (s.core d q).sigQ) ∧
        (bitsOf w 31 0 ≠ 0 → bitsOf w 51 50 ≠ 3 → phys < 8064 → (bitsOf w 51 50 = 0 → signalable s d phys = true) →
          (queueHasRoom s d q 5 = true → Runs (.signal d q sA) s fun t => CoreBecomes d q { s.core d q with
              sigQ := (s.core d q).sigQ ++ [⟨x, phys, bitsOf w 51 50, bitsOf w 49 44, bitsOf w 31 0, (s.die d).stamp, s.beat d⟩] } s t
            ∧ (t.ctx d q x).pc = nextPc s d q x ∧ OtherCtxs d q x s t ∧ t.regs = s.regs ∧ StoresKept s t) ∧
          (queueHasRoom s d q 5 = false → Runs (.signal d q sA) s fun t => t.cores = s.cores ∧ (t.ctx d q x).st = .wait
            ∧ (t.ctx d q x).waiting = some (.queueFull 5) ∧ (t.ctx d q x).pc = (s.ctx d q x).pc)) ∧
        (phys < 8064 ∨ 8128 ≤ phys → Runs (.barrive d q sA) s fun t => MisusedBy s t d q x phys
          ∧ (t.die d).barArr = (s.die d).barArr) ∧
        (8064 ≤ phys → phys < 8128 → Runs (.barrive d q sA) s fun t =>
          (t.die d).barArr = (s.die d).barArr ++ [⟨q, x, phys - 8064, (s.die d).stamp, s.beat d, false⟩] ∧ (t.ctx d q x).pc = nextPc s d q x
            ∧ OtherCtxs d q x s t ∧ t.regs = s.regs ∧ StoresKept s t)) ∧
      (∀ phys, xlateW (s.ctx d q x) (bitsOf w 63 52) = some phys →
        (∀ sD, Runs (.cread d q sD sA) s fun t => (t.die d).reads = (s.die d).reads ++ [⟨q, x, sD, phys⟩]
          ∧ (t.ctx d q x).pc = nextPc s d q x ∧ (t.ctx d q x).s = (s.ctx d q x).s ∧ OtherCtxs d q x s t ∧ t.regs = s.regs
          ∧ StoresKept s t) ∧
        (bitsOf w 31 0 ≠ 0 → bitsOf w 51 50 = 0 → phys < 8064 → phys % 2 = 0 → (creditPair s d (phys / 2)).1 = true →
          Runs (.consume d q sA) s fun t => (t.die d).consumes = (s.die d).consumes ++ [⟨q, x, phys, bitsOf w 31 0⟩]
            ∧ (t.ctx d q x).pc = nextPc s d q x ∧ OtherCtxs d q x s t ∧ t.regs = s.regs ∧ StoresKept s t ∧ Raises s t []) ∧
        (bitsOf w 31 0 = 0 ∨ bitsOf w 51 50 ≠ 0 ∨ 8064 ≤ phys ∨ phys % 2 = 1 ∨ (creditPair s d (phys / 2)).1 = false →
          Runs (.consume d q sA) s fun t => MisusedBy s t d q x phys ∧ (t.die d).consumes = (s.die d).consumes))) ∧
    (∀ phys inc, (s.die d).consumes = [⟨q, x, phys, inc⟩] → phys < 8064 → phys % 2 = 0 → ∀ t, t = judgeConsumes s d →
      (inc ≤ counterValue s d phys - counterValue s d (phys + 1) → Counted s t d (phys + 1) inc) ∧
      (counterValue s d phys - counterValue s d (phys + 1) < inc →
        ((creditPair s d (phys / 2)).2 = true → counterValue t d (phys + 1) = counterValue s d phys ∧ Raises s t []
          ∧ t.fld (.syncStatus d) F.syncStatus_UNDER = min (s.fld (.syncStatus d) F.syncStatus_UNDER + 1) 65535) ∧
        ((creditPair s d (phys / 2)).2 = false → counterValue t d (phys + 1) = counterValue s d (phys + 1)
          ∧ Raises s t [{ Report.plain .crdUnder d.val q.val .sync 0 with ctx := some ⟨d, q, x⟩, tag := phys }]))) ∧
    (∀ sD phys, (s.die d).reads = [⟨q, x, sD, phys⟩] → ((takeReads s d).ctx d q x).rd sD = s.reg (ctrReg d phys)
      ∧ OtherScalars sD (s.ctx d q x) ((takeReads s d).ctx d q x) ∧ OtherCtxs d q x s (takeReads s d)
      ∧ (takeReads s d).regs = s.regs) ∧
    (∀ (sB : Fin 32) (pD : Fin 8) phys, Issues s d q x [sA, sB] → xlateW (s.ctx d q x) (bitsOf w 63 52) = some phys → bitsOf w 51 50 = 0 →
      (bitsOf w 47 0 ≤ counterValue s d phys → Runs (.wait d q sA sB pD) s fun t => (t.ctx d q x).p.testBit pD.val = true
        ∧ (t.ctx d q x).last = 1 ∧ (t.ctx d q x).lastVid = bitsOf w 63 52 ∧ (t.ctx d q x).pc = nextPc s d q x ∧ OnlyIssued d q x s t) ∧
      (counterValue s d phys < bitsOf w 47 0 → Runs (.wait d q sA sB pD) s fun t => (t.ctx d q x).st = .wait
        ∧ (t.ctx d q x).waiting = some (.counter (bitsOf w 63 52) phys 0 (bitsOf w 47 0) ((s.ctx d q x).rd sB).toNat pD.val)
        ∧ (t.ctx d q x).pc = (s.ctx d q x).pc ∧ OnlyCtx d q x s t)) ∧
    (∀ vid phys mode value timeout pd, (s.ctx d q x).st = .wait → (s.ctx d q x).stopReq = false →
      (s.ctx d q x).waiting = some (.counter vid phys mode value timeout pd) →
      (counterWillHold s d phys mode value = false → timeout ≠ 0 → timeout ≤ s.time d → Runs (.waitTimeout d q x) s fun t => (t.ctx d q x).st = .ready ∧ (t.ctx d q x).waiting = none
        ∧ (t.ctx d q x).p.testBit pd = false ∧ (t.ctx d q x).last = 2 ∧ (t.ctx d q x).lastVid = vid
        ∧ (t.ctx d q x).pc = nextPc s d q x ∧ OtherCtxs d q x s t ∧ t.cores = s.cores ∧ t.regs = s.regs ∧ StoresKept s t) ∧
      (counterWillHold s d phys mode value = true ∨ timeout = 0 ∨ s.time d < timeout → exec (.waitTimeout d q x) s = .next s)) ∧
    (∀ i e, readySignal s d q = some (i, e) →
      (e.scope = 0 → e.phys < 8192 → counterValue s d e.phys + e.inc < 2 ^ 48 → Runs (.signalDepart d q) s fun t =>
        Counted s t d e.phys e.inc ∧ (t.core d q).sigQ = (s.core d q).sigQ.eraseIdx i) ∧
      (e.scope = 1 → Runs (.signalDepart d q) s fun t => (t.core d q).sigQ = (s.core d q).sigQ.eraseIdx i
        ∧ (t.die (1 - d)).bridge.map (fun b => b.packet) = (s.die (1 - d)).bridge.map (fun b => b.packet) ++ [sigPacket 0 e.phys e.inc 0]
        ∧ t.regs = s.regs ∧ Raises s t []) ∧
      (e.scope = 2 → windowSignals s e.win = false → Runs (.signalDepart d q) s fun t =>
        (t.core d q).sigQ = (s.core d q).sigQ.eraseIdx i ∧ t.remoteOut = s.remoteOut ∧ t.regs = s.regs
        ∧ Raises s t [{ Report.plain .windowRefused d.val q.val .sync 0 with ctx := some ⟨d, q, e.slot⟩ }]) ∧
      (e.scope = 2 → windowSignals s e.win = true → Runs (.signalDepart d q) s fun t => t.regs = s.regs ∧ Raises s t []
        ∧ ∃ r, t.remoteOut = s.remoteOut ++ [r] ∧ r.kind = .sig ∧ r.packet = some (sigPacket 0 e.phys e.inc 0))) ∧
    (readySignal s d q = none → exec (.signalDepart d q) s = .next s) ∧
    (∀ h rest, (s.die d).bridge = h :: rest → h.packet.kind = 0 →
      (h.packet.ok = true → signalable s d (bitsOf h.packet.w0 63 51) = true → bitsOf h.packet.w0 31 0 ≠ 0 →
        counterValue s d (bitsOf h.packet.w0 63 51) + bitsOf h.packet.w0 31 0 < 2 ^ 48 →
        (bitsOf h.packet.w1 47 0 ≤ (s.die d).xferPkts.at_ 0 h.xfer → Runs (.signalPacket d) s fun t =>
          Counted s t d (bitsOf h.packet.w0 63 51) (bitsOf h.packet.w0 31 0) ∧ (t.die d).bridge = rest) ∧
        ((s.die d).xferPkts.at_ 0 h.xfer < bitsOf h.packet.w1 47 0 → Runs (.signalPacket d) s fun t =>
          (t.die d).bridge = rest ∧ (t.die d).heldSigs = (s.die d).heldSigs ++ [h] ∧ t.regs = s.regs)) ∧
      (h.packet.ok = false → Runs (.signalPacket d) s fun t => (t.die d).bridge = rest ∧ (t.die d).heldSigs = (s.die d).heldSigs
        ∧ Raises s t [{ Report.plain .sigBad d.val 0 .sync 0 with tag := bitsOf h.packet.w0 63 51 }] ∧ RegsKept [.syncStatus d] s t)) ∧
    (∀ i h, (s.die d).heldSigs[i]? = some h → signalable s d (bitsOf h.packet.w0 63 51) = true → bitsOf h.packet.w0 31 0 ≠ 0 →
      counterValue s d (bitsOf h.packet.w0 63 51) + bitsOf h.packet.w0 31 0 < 2 ^ 48 →
      (bitsOf h.packet.w1 47 0 ≤ (s.die d).xferPkts.at_ 0 h.xfer → Runs (.fencedSignalApply d i) s fun t =>
        Counted s t d (bitsOf h.packet.w0 63 51) (bitsOf h.packet.w0 31 0) ∧ (t.die d).heldSigs = (s.die d).heldSigs.eraseIdx i) ∧
      ((s.die d).xferPkts.at_ 0 h.xfer < bitsOf h.packet.w1 47 0 → exec (.fencedSignalApply d i) s = .next s))

/-- An update of a counter saturates at 2^48 - 1 with SAT set, and CTR_SAT is raised when SAT goes from 0 to 1 (R344). -/
def CountersSaturateRule : Prop :=
  ∀ (s : State) (d : Die) (q : CoreId) (i : Nat) (e : SigEntry), readySignal s d q = some (i, e) → e.scope = 0 → e.phys < 8192 →
    2 ^ 48 ≤ counterValue s d e.phys + e.inc → Runs (.signalDepart d q) s fun t =>
      counterValue t d e.phys = 2 ^ 48 - 1 ∧ t.fld (ctrReg d e.phys) F.syncCtr_SAT = 1
      ∧ Raises s t (if s.fld (ctrReg d e.phys) F.syncCtr_SAT = 1 then []
          else [{ Report.plain .ctrSat d.val 0 .sync 0 with tag := e.phys }])

/-- The registers of the synchronisation unit: a counter written only rises, a translation entry of a slot that is STOPPED
or EMPTY takes the word, CLEAR of a quiet die takes every counter to 0 and every object to OFF (R347, R350, R379). -/
def SyncRegistersRule : Prop :=
  ∀ (s : State) (d : Die),
    (∀ (n : Fin 8192) (v : Word), WriteReady s (.syncCtr d n) → v.toNat < 2 ^ 48 →
      (n.val < 8128 → counterValue s d n.val ≤ v.toNat → Runs (.counterWrite d n v) s fun t => counterValue t d n.val = v.toNat
        ∧ RegsKept [.syncCtr d n] s t ∧ Raises s t [] ∧ StoresKept s t ∧ DiesKept s t) ∧
      (8128 ≤ n.val ∨ v.toNat < counterValue s d n.val → Rejects (.counterWrite d n v) s (.syncCtr d n))) ∧
    (∀ v : Word, WriteReady s (.syncXlEntry d) →
      ((xlSel s d).2.2 ≠ 0 → (s.ctx d (xlSel s d).1 (xlSel s d).2.1).st = .stopped ∨ (s.ctx d (xlSel s d).1 (xlSel s d).2.1).st = .empty →
        Runs (.xlEntryWrite d v) s fun t => (t.ctx d (xlSel s d).1 (xlSel s d).2.1).xl.at_ 0 (xlSel s d).2.2 = bitsOf v 15 0
          ∧ (∀ n, n ≠ (xlSel s d).2.2 → (t.ctx d (xlSel s d).1 (xlSel s d).2.1).xl.at_ 0 n = (s.ctx d (xlSel s d).1 (xlSel s d).2.1).xl.at_ 0 n)
          ∧ OnlyCtx d (xlSel s d).1 (xlSel s d).2.1 s t) ∧
      ((xlSel s d).2.2 = 0 ∨ ((s.ctx d (xlSel s d).1 (xlSel s d).2.1).st ≠ .stopped ∧ (s.ctx d (xlSel s d).1 (xlSel s d).2.1).st ≠ .empty) →
        Rejects (.xlEntryWrite d v) s (.syncXlEntry d))) ∧
    (WriteReady s (.syncCtrl d) →
      (s.quiet d = true → Runs (.syncClear d) s fun t => (∀ n, n < 8192 → counterValue t d n = 0) ∧ (∀ b, barState t d b = 0)
        ∧ (∀ n, n < 8192 → counterValue t (1 - d) n = counterValue s (1 - d) n) ∧ StoresKept s t
        ∧ t.ctxs = s.ctxs ∧ t.cores = s.cores ∧ t.dmas = s.dmas ∧ t.die d = { s.die d with barDue := [] }
        ∧ t.die (1 - d) = s.die (1 - d)) ∧
      (s.quiet d = false → Rejects (.syncClear d) s (.syncCtrl d)))

/-- A barrier object: ARM in OFF or BROKEN starts it, DISARM turns it OFF, FORCE releases the waiters of a BROKEN one; a core's
arrival is recorded, and the last of a die's own object releases it: ARMED again, its release count one higher, as many beats after its last arrival as its LEVEL gives; a
second arrival is a misuse; arrivals and releases that cross to the other die act on their node (R366 to R376, R387). -/
def Obligations.Barriers : Prop :=
  ∀ (s : State) (d : Die) (b : Fin 64),
    (∀ v, WriteReady s (.syncBarB d b) →
      let n := mergeWord (barB d b) (s.reg (barB d b) &&& ~~~(woMask (barB d b))) (putBits (putBits v 51 50 0) 49 49 1) true
      (barState s d b ≠ 1 → barState s d b ≠ 2 → armOk s d (s.reg (barA d b)) n = true → Runs (.barrierArm d b v) s fun t =>
        barState t d b = 1 ∧ t.fld (barA d b) F.syncBarA_ARRIVED = 0 ∧ t.fld (barB d b) F.syncBarB_DARR = 0
          ∧ barLevel t d b = bitsOf v 60 58 ∧ t.fld (barA d b) F.syncBarA_CMASK = s.fld (barA d b) F.syncBarA_CMASK
          ∧ RegsKept [barA d b, barB d b, .syncBarC b, .syncBarD b] s t) ∧
      (barState s d b = 1 ∨ barState s d b = 2 ∨ armOk s d (s.reg (barA d b)) n = false →
        Rejects (.barrierArm d b v) s (.syncBarB d b))) ∧
    (WriteReady s (.syncBarB d b) → Runs (.barrierDisarm d b) s fun t => t.reg (barA d b) = 0 ∧ t.reg (barB d b) = 0 ∧ barState t d b = 0
      ∧ RegsKept [barA d b, barB d b, .syncBarC b, .syncBarD b] s t) ∧
    (WriteOpen s (.syncBarB d b) →
      (barState s d b = 3 → counterValue s d (8064 + b.val) + 1 < 2 ^ 48 → Runs (.barrierForce d b) s fun t =>
        counterValue t d (8064 + b.val) = counterValue s d (8064 + b.val) + 1 ∧ barState t d b = 3 ∧ Raises s t []) ∧
      (barState s d b ≠ 3 → Rejects (.barrierForce d b) s (.syncBarB d b))) ∧
    (∀ i a, (s.die d).barArr[i]? = some a → arrivalClear s d a = true → a.target % 64 = b.val → barState s d b = 1 →
      (s.fld (barA d b) F.syncBarA_ARRIVED / 2 ^ a.core.val % 2 = 1 → Runs (.barrierArrival d i) s fun t =>
        t.fld (barA d b) F.syncBarA_ARRIVED = s.fld (barA d b) F.syncBarA_ARRIVED
          ∧ Raises s t [{ Report.plain .barMisuse d.val 0 .sync 0 with tag := 8064 + b.val }]
          ∧ (t.die d).barArr = (s.die d).barArr.eraseIdx i) ∧
      (s.fld (barA d b) F.syncBarA_ARRIVED / 2 ^ a.core.val % 2 = 0 → s.fld (barA d b) F.syncBarA_CMASK / 2 ^ a.core.val % 2 = 1 →
        (s.fld (barA d b) F.syncBarA_ARRIVED ||| 2 ^ a.core.val ≠ s.fld (barA d b) F.syncBarA_CMASK → Runs (.barrierArrival d i) s fun t =>
          t.fld (barA d b) F.syncBarA_ARRIVED = s.fld (barA d b) F.syncBarA_ARRIVED ||| 2 ^ a.core.val ∧ barState t d b = 1
            ∧ RegsKept [barA d b] s t ∧ (t.die d).barArr = (s.die d).barArr.eraseIdx i) ∧
        (s.fld (barA d b) F.syncBarA_ARRIVED ||| 2 ^ a.core.val = s.fld (barA d b) F.syncBarA_CMASK →
          Runs (.barrierArrival d i) s fun t => t.fld (barA d b) F.syncBarA_ARRIVED = s.fld (barA d b) F.syncBarA_CMASK
            ∧ (t.die d).barDue = (s.die d).barDue ++ [⟨s.beat d + barDelay (barLevel s d b), b⟩] ∧ barState t d b = 1
            ∧ RegsKept [barA d b] s t ∧ (t.die d).barArr = (s.die d).barArr.eraseIdx i ∧ Raises s t []))) ∧
    (∀ due, (s.die d).barDue = [⟨due, b⟩] → barState s d b = 1 → ∀ t, t = barsDue s d →
      (s.beat d < due → (t.die d).barDue = [⟨due, b⟩] ∧ t.regs = s.regs ∧ t.reports = s.reports) ∧
      (due ≤ s.beat d → (t.die d).barDue = [] ∧
        (barLevel s d b ≤ 1 → counterValue s d (8064 + b.val) + 1 < 2 ^ 48 →
          t.fld (barA d b) F.syncBarA_ARRIVED = 0 ∧ barState t d b = 1
            ∧ counterValue t d (8064 + b.val) = counterValue s d (8064 + b.val) + 1
            ∧ RegsKept [barA d b, barB d b, ctrReg d (8064 + b.val)] s t ∧ Raises s t []) ∧
        (2 ≤ barLevel s d b → d = 1 → barState t 1 b = 2 ∧ RegsKept [barB 1 b] s t
          ∧ ∃ h, (t.die 0).bridge = (s.die 0).bridge ++ [h] ∧ h.packet.kind = 1 ∧ packetObject h.packet = b))) ∧
    (∀ h rest n, (s.die 0).bridge = h :: rest → h.packet.ok = true → h.packet.kind = 1 → h.packet.stray = false → h.xfer.kind = 0 → packetObject h.packet = b →
      n = bitsOf h.packet.w0 9 9 → barState s 0 b = 1 → s.fld (barB 0 b) F.syncBarB_DARR / 2 ^ n % 2 = 0 →
      s.fld (barB 0 b) F.syncBarB_DMASK / 2 ^ n % 2 = 1 →
      s.fld (barB 0 b) F.syncBarB_DARR ||| 2 ^ n ≠ s.fld (barB 0 b) F.syncBarB_DMASK → Runs .barrierArrivalPacket s fun t =>
        t.fld (barB 0 b) F.syncBarB_DARR = s.fld (barB 0 b) F.syncBarB_DARR ||| 2 ^ n ∧ (t.die 0).bridge = rest
          ∧ RegsKept [barB 0 b] s t ∧ Raises s t []) ∧
    (∀ h rest, (s.die 1).bridge = h :: rest → h.packet.ok = true → h.packet.kind = 2 → h.packet.stray = false → packetObject h.packet = b →
      barState s 1 b = 1 ∨ barState s 1 b = 2 → counterValue s 1 (8064 + b.val) + 1 < 2 ^ 48 → Runs (.barrierReleasePacket 1) s fun t =>
        counterValue t 1 (8064 + b.val) = counterValue s 1 (8064 + b.val) + 1 ∧ barState t 1 b = 1
          ∧ t.fld (barA 1 b) F.syncBarA_ARRIVED = 0 ∧ (t.die 1).bridge = rest ∧ Raises s t [])

/-- Saturation of counters, and the registers of the synchronisation unit (R344, R347, R350, R379). -/
def Obligations.CountersAndSyncRegisters : Prop := CountersSaturateRule ∧ SyncRegistersRule

/-! ### Registers (chapters 11 and 15) -/

/-- Exactly the chosen fields have been cleared: every other readable field of every register holds what it held. -/
def Cleared (cl : Reg → Fld → Prop) (s t : State) : Prop :=
  (∀ r f, f ∈ r.fields → f.access ≠ .wo → (cl r f → t.fld r f = 0) ∧ (¬ cl r f → t.fld r f = s.fld r f))
    ∧ Raises s t [] ∧ StoresKept s t ∧ DiesKept s t

/-- A register access is judged in the order of R498, R499 and R571: its address, READY, its view, the expert lock; one to a
block in reset waits (R518); a privileged write takes the writable fields and leaves the others (R18); EXPERT_UNLOCK is
recorded when it goes to 1 (R500); the grade mask, RUN and QLIMIT keep R140 and R148. -/
def RegisterWritesRule : Prop :=
  ∀ (s : State) (a v : Word), s.pow.off = false →
    (∀ w ∈ ([.mgmt, .job] : List Writer),
      (bitsOf a 63 48 ≠ 0 → exec (.registerWrite w a v) s = .next (s.raise (Report.plain .addressHigh 2 0 .mod (a.toNat % 2 ^ 48)))) ∧
      (bitsOf a 63 48 = 0 → a.toNat % 8 ≠ 0 → ∃ b die,
        exec (.registerWrite w a v) s = .next (s.raise (Report.plain .accessShape die 0 b a.toNat))) ∧
      (bitsOf a 63 48 = 0 → a.toNat % 8 = 0 → Reg.ofAddr a.toNat = none → ∃ b die,
        exec (.registerWrite w a v) s = .next (s.raise (Report.plain .windowViolation die 0 b a.toNat)))) ∧
    (∀ r, a.toNat = r.addr → Reg.ofAddr r.addr = some r →
      (inBlockReset s r = true → Runs (.registerWrite .mgmt a v) s fun t =>
        t = { s with fcu := { s.fcu with waiting := s.fcu.waiting ++ [⟨.mgmt, r.addr, some v, none, none⟩] } }) ∧
      (inBlockReset s r = false →
        (regReady s r = false → ∀ w ∈ ([.mgmt, .job] : List Writer),
          exec (.registerWrite w a v) s = .next (s.raise (Report.plain .windowViolation r.dieCode 0 r.block r.addr))) ∧
        (regReady s r = true → r.hasU = false →
          exec (.registerWrite .job a v) s = .next (s.raise (Report.plain .view r.dieCode 0 r.block r.addr))) ∧
        (regReady s r = true → unlockedFor s r = false → ∀ f ∈ r.fields, f.level = .expert → f.access = .rw →
          bitsOf v f.hi f.lo ≠ bitsOf (writeBase s r) f.hi f.lo → Rejects (.registerWrite .mgmt a v) s r))) ∧
    (∀ (d : Die) (q : CoreId), ∀ r ∈ ([.modIdent, .modTopology, .circPeriodTarget, .circPhase, .ptcReady, .ptcTbTime, .scvBeat d,
      .scvTime d, .engRetired d q, .fdxExpBlocks d q, .wstJobTag d, .syncStatus d, .mldLinkStatus, .dmaDoneCount d 0,
      .secUpdStatus] : List Reg), a.toNat = r.addr → WriteReady s r → Runs (.registerWrite .mgmt a v) s fun t =>
        (∀ f ∈ r.fields, t.fld r f = if f.access = .rw then bitsOf v f.hi f.lo else s.fld r f)
          ∧ RegsKept [r] s t ∧ Raises s t [] ∧ StoresKept s t ∧ DiesKept s t)

/-- EXPERT_UNLOCK is set by its write and is recorded when it goes from 0 to 1 (R499, R500); the grade mask names a listed
grade of no more engines than are fused, while circulation is off and no engine word waits (R140); RUN is written freely,
and QLIMIT to 1 to 8 while the core's queue is empty (R148). -/
def UnlocksAndCoresRule : Prop :=
  ∀ (s : State) (d : Die) (q : CoreId),
    (∀ b, b ≠ .mod → (b = .fcu → 100 ≤ s.fld .fcuCtrl F.fcuCtrl_RESET_HOLD_US) → WriteReady s (unlockReg b d) →
      Runs (.expertUnlock b d) s fun t => bitsOf (t.reg (unlockReg b d)) 0 0 = 1
        ∧ (∀ f ∈ (unlockReg b d).fields, f.access ≠ .wo → f.lo ≠ 0 → t.fld (unlockReg b d) f = s.fld (unlockReg b d) f)
        ∧ RegsKept [unlockReg b d] s t ∧ StoresKept s t ∧ DiesKept s t
        ∧ Raises s t (if bitsOf (s.reg (unlockReg b d)) 0 0 = 1 then [] else
            [{ Report.plain .expertUnlock (unlockReg b d).dieCode 0 b (unlockReg b d).addr with
               tag := s.fld .mldLinkStatus F.mldLinkStatus_SESSION }])) ∧
    (WriteReady s .modIdent → Runs (.expertUnlock .mod d) s fun t =>
      t.reg .modIdent = s.reg .modIdent ∧ RegsKept [] s t ∧ Raises s t [] ∧ StoresKept s t ∧ DiesKept s t) ∧
    (∀ g, WriteOpen s .engGradeMask →
      (1 ≤ g → g ≤ 3 → gradeEngines g ≤ gradeEngines s.fuses.grade → s.fld .circRingConf F.circRingConf_ENABLE = 0 →
        queuesEmpty s = true → Runs (.gradeMaskWrite g) s fun t => t.presentedGrade = g ∧ RegsKept [.engGradeMask] s t
          ∧ bitsOf (readReg t .modIdent true) 3 0 = g ∧ bitsOf (readReg t .modTopology true) 47 40 = gradeEngines g
          ∧ Raises s t [] ∧ StoresKept s t ∧ DiesKept s t) ∧
      (g = 0 ∨ (3 < g ∧ g < 16) ∨ (1 ≤ g ∧ g ≤ 3 ∧ gradeEngines s.fuses.grade < gradeEngines g)
          ∨ s.fld .circRingConf F.circRingConf_ENABLE = 1 ∨ queuesEmpty s = false →
        Rejects (.gradeMaskWrite g) s .engGradeMask)) ∧
    (WriteReady s (.scvCoreCtrl d q) →
      (Runs (.coreRun d q) s fun t => t.fld (.scvCoreCtrl d q) F.scvCoreCtrl_RUN = 1
        ∧ t.fld (.scvCoreCtrl d q) F.scvCoreCtrl_QLIMIT = s.fld (.scvCoreCtrl d q) F.scvCoreCtrl_QLIMIT
        ∧ RegsKept [.scvCoreCtrl d q] s t ∧ Raises s t [] ∧ StoresKept s t ∧ DiesKept s t) ∧
      (Runs (.coreHalt d q) s fun t => t.fld (.scvCoreCtrl d q) F.scvCoreCtrl_RUN = 0
        ∧ t.fld (.scvCoreCtrl d q) F.scvCoreCtrl_QLIMIT = s.fld (.scvCoreCtrl d q) F.scvCoreCtrl_QLIMIT
        ∧ RegsKept [.scvCoreCtrl d q] s t ∧ Raises s t [] ∧ StoresKept s t ∧ DiesKept s t) ∧
      (∀ n, n < 16 → unlockedFor s (.scvCoreCtrl d q) = true → 1 ≤ n → n ≤ 8 → (s.core d q).issueQ = [] →
        Runs (.qlimitWrite d q n) s fun t => t.fld (.scvCoreCtrl d q) F.scvCoreCtrl_QLIMIT = n
          ∧ t.fld (.scvCoreCtrl d q) F.scvCoreCtrl_RUN = s.fld (.scvCoreCtrl d q) F.scvCoreCtrl_RUN
          ∧ RegsKept [.scvCoreCtrl d q] s t ∧ Raises s t [] ∧ StoresKept s t ∧ DiesKept s t) ∧
      (∀ n, n < 16 → n ≠ s.fld (.scvCoreCtrl d q) F.scvCoreCtrl_QLIMIT → n = 0 ∨ 8 < n ∨ (s.core d q).issueQ ≠ [] →
        Rejects (.qlimitWrite d q n) s (.scvCoreCtrl d q)))

/-- CLR_COUNTS of a block clears the counters that its CTRL register names, and nothing else (R145, R149, R189, R244, R298,
R384, R467, R502, R540, R574). -/
def Obligations.CountersAreCleared : Prop :=
  ∀ (s : State) (d : Die),
    (WriteReady s (.engCtrl d) → Runs (.engClrCounts d) s (Cleared (fun r _ => ∃ q, r = .engFreezeDry d q ∨ r = .engFreezeTile d q
      ∨ r = .engFreezeDrain d q ∨ r = .engRetired d q) s)) ∧
    (WriteReady s (.scvCtrl d) → Runs (.scvClrCounts d) s (Cleared (fun r f => (∃ q, r = .scvIssueStall d q)
      ∨ (r = .scvStepStatus d ∧ (f = F.scvStepStatus_LATE ∨ f = F.scvStepStatus_MISUSE))) s)) ∧
    (WriteReady s (.fdxCtrl d) → Runs (.fdxClrCounts d) s (Cleared (fun r _ => (∃ q, r = .fdxPortHold d q ∨ r = .fdxFeedStall d q
      ∨ r = .fdxExpBlocks d q ∨ r = .fdxExpBehind d q) ∨ r = .fdxLowratio d ∨ r = .fdxMcastWait d) s)) ∧
    (WriteReady s (.dmaCtrl d) → Runs (.dmaClrCounts d) s (Cleared (fun r f => (∃ c, r = .dmaDoneCount d c)
      ∨ (r = .dmaTxnStatus d ∧ f = F.dmaTxnStatus_WAITS)) s)) ∧
    (WriteReady s (.wstCtrl d) → Runs (.storeClrCounts d .wst) s (Cleared (fun r f => r = .wstErrCount d ∨ r = .wstErrAddr d
      ∨ r = .wstNarrowStall d ∨ (r = .wstBistStatus d ∧ f = F.wstBistStatus_OVERRUNS)) s)) ∧
    (WriteReady s (.astCtrl d) → Runs (.storeClrCounts d .ast) s (Cleared (fun r _ => r = .astErrCount d ∨ r = .astErrAddr d) s)) ∧
    (WriteReady s (.pstCtrl d) → Runs (.storeClrCounts d .pst) s (Cleared (fun r _ => r = .pstErrCount d ∨ r = .pstErrAddr d) s)) ∧
    (WriteReady s (.syncCtrl d) → Runs (.syncClrCounts d) s (Cleared (fun r f =>
      r = .syncStatus d ∧ (f = F.syncStatus_MISUSE ∨ f = F.syncStatus_UNDER)) s)) ∧
    (WriteReady s (.hbmCtrl d) → Runs (.hbmClrCounts d) s (Cleared (fun r _ => ∃ i, r = .hbmStackErr d i) s)) ∧
    (WriteReady s .lpdCtrl → Runs .lpdClrCounts s (Cleared (fun r f => ∃ k, r = .lpdChStatus k ∧ f.hi < 48) s)) ∧
    (WriteReady s .mldCtrl → Runs .mldClrCounts s (Cleared (fun r f => r = .mldSvcCounts
      ∨ (r = .mldLinkStatus ∧ (f = F.mldLinkStatus_RETRIES ∨ f = F.mldLinkStatus_STALE))) s)) ∧
    (WriteReady s .fcuCtrl → 100 ≤ s.fld .fcuCtrl F.fcuCtrl_RESET_HOLD_US → Runs .fcuClrCounts s (Cleared (fun r f =>
      (∃ k, r = .fcuCount k ∧ f = F.fcuCount_COUNT) ∨ (r = .fcuStatus ∧ f = F.fcuStatus_LOST)) s)) ∧
    (WriteReady s .ptcCtrl → Runs .ptcClrCounts s (Cleared (fun r f => (r = .ptcCap ∧ f = F.ptcCap_EVENTS)
      ∨ (r = .ptcInput ∧ f = F.ptcInput_PEAK_W)
      ∨ (r = .ptcCalStatus ∧ (f = F.ptcCalStatus_RATE_MISS ∨ f = F.ptcCalStatus_FLOOR_MISS))) s))

/-- Register accesses, expert locks, and the registers of the cores (R18, R140, R148, R498 to R500, R571). -/
def Obligations.RegisterAccess : Prop := UnlocksAndCoresRule ∧ RegisterWritesRule

/-! ### Circulation (chapter 01) -/

/-- ROWS_MAX of a cohort is a multiple of 32 up to 256, changed while it is FREE and within 1,024 rows over all cohorts; RELEASE
frees a HELD cohort; ENABLE = 1 is accepted on the conditions of R78 and tags both dies with the arc's job, and the first
time puts the owned blocks before landing; ENABLE = 0 holds the streams, so that RUNNING reads 0 (R45, R47, R53, R78, R80, R241,
R417, R661). -/
def CohortsAndEnableRule : Prop :=
  ∀ (s : State) (c : Fin 8),
    (WriteReady s (.circCohort c) → ∀ (hold : Bool) (n : Nat), n < 512 →
      (n = s.fld (.circCohort c) F.circCohort_ROWS_MAX
          ∨ (n % 32 = 0 ∧ n ≤ 256 ∧ cohortState s c = 0 ∧ rowsMaxBut s c + n ≤ 1024) → Runs (.cohortWrite c hold n) s fun t =>
        t.fld (.circCohort c) F.circCohort_ROWS_MAX = n ∧ t.fld (.circCohort c) F.circCohort_HOLD = hold.toNat
          ∧ cohortState t c = cohortState s c ∧ t.fld (.circCohort c) F.circCohort_LAYER = s.fld (.circCohort c) F.circCohort_LAYER
          ∧ t.fld (.circCohort c) F.circCohort_ROWS = s.fld (.circCohort c) F.circCohort_ROWS
          ∧ RegsKept [.circCohort c] s t ∧ Raises s t [] ∧ StoresKept s t ∧ DiesKept s t) ∧
      (n ≠ s.fld (.circCohort c) F.circCohort_ROWS_MAX →
        n % 32 ≠ 0 ∨ 256 < n ∨ cohortState s c ≠ 0 ∨ 1024 < rowsMaxBut s c + n → Rejects (.cohortWrite c hold n) s (.circCohort c))) ∧
    (WriteReady s (.circCohort c) →
      (cohortState s c = 6 → Runs (.cohortRelease c) s fun t => cohortState t c = 0 ∧ t.fld (.circCohort c) F.circCohort_ROWS = 0
        ∧ t.fld (.circCohort c) F.circCohort_ROWS_MAX = s.fld (.circCohort c) F.circCohort_ROWS_MAX
        ∧ RegsKept [.circCohort c] s t ∧ Raises s t [] ∧ StoresKept s t ∧ DiesKept s t) ∧
      (cohortState s c ≠ 6 → Runs (.cohortRelease c) s fun t => RegsKept [] s t ∧ Raises s t [] ∧ StoresKept s t ∧ DiesKept s t)) ∧
    (WriteReady s .circRingConf →
      (s.fld .circRingConf F.circRingConf_ENABLE = 0 → enableOk s (s.reg .circRingConf) = false → Rejects .circEnable s .circRingConf) ∧
      (s.fld .circRingConf F.circRingConf_ENABLE = 0 → enableOk s (s.reg .circRingConf) = true → s.fld .circSplice F.circSplice_STATE ≠ 2 →
        Runs .circEnable s fun t => t.fld .circRingConf F.circRingConf_ENABLE = 1
          ∧ t.fld .circRingConf F.circRingConf_ARC_ACTIVE = (liveMembers s).length
          ∧ (∀ d, t.fld (.wstJobTag d) F.wstJobTag_JOB = s.fld .circArc F.circArc_JOB ∧ t.fld (.wstJobTag d) F.wstJobTag_ANY = 0)
          ∧ (∀ x, (t.stream x).arrivals = (s.stream x).arrivals
              ++ (if s.circ.ran then [] else (ownedBlocks s x).map (fun b => copyBlock s b.1 b.2)))
          ∧ t.circ.ran = true ∧ t.circ.uncaptured = s.circ.uncaptured
          ∧ RegsKept [.circRingConf, .wstJobTag 0, .wstJobTag 1] s t ∧ Raises s t [] ∧ StoresKept s t ∧ DiesKept s t) ∧
      (s.fld .circRingConf F.circRingConf_ENABLE = 1 →
        (Runs .circEnable s fun t => RegsKept [] s t ∧ t.circ = s.circ ∧ Raises s t [] ∧ StoresKept s t ∧ DiesKept s t) ∧
        (Runs .circDisable s fun t => t.fld .circRingConf F.circRingConf_ENABLE = 0
          ∧ (s.fld .circArc F.circArc_VALID = 1 → passesAll s = false → bitsOf (regValue t .circStatus) 0 0 = 0)
          ∧ t.fld .circRingConf F.circRingConf_SEGMENTS = s.fld .circRingConf F.circRingConf_SEGMENTS
          ∧ t.fld .circRingConf F.circRingConf_MODE = s.fld .circRingConf F.circRingConf_MODE
          ∧ RegsKept [.circRingConf] s t ∧ t.circ = s.circ ∧ Raises s t [] ∧ StoresKept s t ∧ DiesKept s t)))

/-- An arriving frame is taken by the link layer: its port is in service, it came on an ACTIVE lane that carries the logical
lane, it is good, of a TYPE and code that are not reserved, and it has the LSEQ expected there (R396 to R398, R401). -/
def Arrives (s : State) (h : RxHead) (lane : Nat) : Prop :=
  inService s h.port = true ∧ (s.port h.port).sub = none ∧ laneState s h.port h.phys = 2
    ∧ s.fld (laneA h.port h.phys) F.circLaneA_LOGICAL = lane ∧ h.good = true ∧ h.reserved = false
    ∧ h.lseq % 1024 = (s.port h.port).rx.at_ 0 lane % 1024

/-- The header of a stored block. -/
def headOf (b : Blk) : Header := parseHeader (b.bytes.take 32)

/-- The die that a block names. -/
def dieOf (b : Blk) : Die := ⟨(headOf b).die % 2, Nat.mod_lt _ (by decide)⟩

/-- Window bytes that a block needs on its die (R33). -/
def needOf (b : Blk) : Nat := if (headOf b).grad then max (plainBytes (headOf b)) 32 else b.bytes.length

/-- A block that begins landing is the head of a layer: SSEQ 0, or another LAYER than the block before it (R662); the first
block here of another SSEQ is none (the model's choice, log entry 55). -/
def Begun (s : State) (x : StreamId) (b : Blk) : Bool :=
  decide (b.sseq = 0 ∨ ((s.stream x).layer.isSome ∧ (s.stream x).layer ≠ some (headOf b).layer))

/-- The stream once it has noted the layer of a block of SSEQ 0 as its first (R662). -/
def seen (s : State) (x : StreamId) (b : Blk) : State :=
  s.setStream x { s.stream x with firstLayer := if b.sseq = 0 then some (headOf b).layer else (s.stream x).firstLayer }

/-- A block frame for a member joins its block, which is handed on once it is whole; it is discarded outside the window of
R404, and passed on where it does not land. A block lands on its die while the window holds less than its capacity, and
the head of a layer fixes that layer's pass list; resident, it stands in the store and counts on the stream's counter; it
is forwarded when its last frame has left; a block for both dies takes place on both or waits, and in
the first circuit of a backward wave the first member puts a zeroed gradient block behind each West block (R30 to R34, R37, R45,
R48, R50, R71, R167, R253 to R255, R404). -/
def Obligations.BlocksMove : Prop :=
  ∀ (s : State) (x : StreamId),
    (∀ (h : RxHead) (lane e l q sub : Nat) (sot eot : Bool) (bytes : List Byte), Arrives s h lane → h.port.val < 4 →
      partMatch s h (some lane) = some e → x = streamOfRole h.role →
      (landsHere s h.arc h.role q = true →
        (frameInWindow s x q = false → Runs (.blockFrame h sot eot q sub bytes) s fun t =>
          Raises s t [{ Report.plain .frameBad 2 h.port.val .circ 0 with detail := 0 }] ∧ t.circ.streams = s.circ.streams
            ∧ (t.port h.port).owed.at_ 0 e = (s.port h.port).owed.at_ 0 e + 1) ∧
        ((s.stream x).last = some l → seqGap (streamLen s x) q l = 1 → (s.stream x).building = [] → refilling s x = false →
          (Runs (.blockFrame h true true q 0 bytes) s fun t => ∃ b, (t.stream x).arrivals = (s.stream x).arrivals ++ [b]
            ∧ b.sseq = q ∧ b.bytes = bytes.take 256 ∧ b.credits = [(h.port, e)] ∧ (t.stream x).last = some q
            ∧ (t.stream x).building = [] ∧ Raises s t [] ∧ StoresKept s t ∧ DiesKept s t) ∧
          (sub ≤ 64 → Runs (.blockFrame h sot false q sub bytes) s fun t => (t.stream x).arrivals = (s.stream x).arrivals
            ∧ (t.stream x).building = [⟨q, [(sub, bytes.take 256)], [(h.port, e)], none⟩] ∧ (t.stream x).last = some l
            ∧ Raises s t [] ∧ StoresKept s t ∧ DiesKept s t))) ∧
      (isMember s h.arc = false → s.fld .circArc F.circArc_INDEX ≠ h.arc →
        (entryFor (tableOf s (outPort s (movesEast h.port))) h.arc h.role ≠ none → Runs (.blockFrame h sot eot q sub bytes) s fun t =>
          (t.port (outPort s (movesEast h.port))).out = (s.port (outPort s (movesEast h.port))).out
            ++ [⟨h.arc, h.role, .block q sub sot eot (bytes.take 256), some (h.port, e)⟩]
          ∧ t.circ.streams = s.circ.streams ∧ Raises s t []) ∧
        (entryFor (tableOf s (outPort s (movesEast h.port))) h.arc h.role = none → Runs (.blockFrame h sot eot q sub bytes) s fun t =>
          Raises s t [{ Report.plain .partMismatch 2 h.port.val .circ 0 with detail := 0 }]
            ∧ (∀ p, (t.port p).out = (s.port p).out) ∧ t.circ.streams = s.circ.streams))) ∧
    (s.fld .circRingConf F.circRingConf_ENABLE = 0 → exec (.blockLandingStart x) s = .next s) ∧
    (∀ b rest, s.fld .circRingConf F.circRingConf_ENABLE = 1 → passesAll s = false → (s.stream x).arrivals = b :: rest →
      (windowCap s ≤ windowHeld (s.die (dieOf b)) → exec (.blockLandingStart x) s = .next s) ∧
      (∀ y a, windowHeld (s.die (dieOf b)) < windowCap s → (headOf b).ndie ≠ (headOf b).die → updateMode s = false →
        refilling s x = false → allocate (dieOf b) (s.die (dieOf b)) ((headOf b).rawEngine && !(headOf b).grad) (needOf b) = some (y, a) →
        (Runs (.blockLandingStart x) s fun t => (t.die (dieOf b)).window = y.window ++ [{ landEntry b (headOf b) x a false with run := (t.stream x).runCount }]
          ∧ (t.die (dieOf b)).head = y.head ∧ t.die (1 - dieOf b) = s.die (1 - dieOf b) ∧ (t.stream x).arrivals = rest
          ∧ (t.stream x).order = (s.stream x).order ++ [(dieOf b, a)] ∧ t.circ.heardAt = some s.now ∧ StoresKept s t) ∧
        (Begun s x b = false → (headOf b).grad = false → b.sseq + 1 ≠ streamLen s x → Runs (.blockLandingStart x) s fun t =>
          (t.stream x).runs = (s.stream x).runs ∧ (t.stream x).layer = some (headOf b).layer ∧ RegsKept [] s t ∧ Raises s t []) ∧
        ((headOf b).grad = false → Begun s x b = true → b.sseq + 1 ≠ streamLen s x →
          s.fld .fcuStatus F.fcuStatus_SCHED_BROKEN = 0 → (∀ c, outOfOrder (seen s x b) x (headOf b).layer c = false) →
          Runs (.blockLandingStart x) s fun t =>
            (t.stream x).runs = (s.stream x).runs ++ [⟨(s.stream x).runCount + 1, (headOf b).layer,
                (List.finRange 8).filter (placed (seen s x b) x (headOf b).layer true), false⟩]
              ∧ (∀ c, placed (seen s x b) x (headOf b).layer true c = true → cohortState t c = (if x = 0 then 2 else 4)
                  ∧ t.fld (.circCohort c) F.circCohort_LAYER = nextLayer s x (headOf b).layer % 512
                  ∧ (cohortState s c = 1 → t.fld (.circCohort c) F.circCohort_CLASS = (t.stream 0).heads % 3))
              ∧ (∀ c, placed (seen s x b) x (headOf b).layer true c = false → t.reg (.circCohort c) = s.reg (.circCohort c))
              ∧ Raises s t []))) ∧
    (∀ b rest y a, s.fld .circRingConf F.circRingConf_ENABLE = 1 → passesAll s = false → (s.stream 1).arrivals = b :: rest →
      (headOf b).ndie ≠ (headOf b).die → updateMode s = true → refilling s 1 = false → windowHeld (s.die (dieOf b)) < windowCap s →
      allocate (dieOf b) (s.die (dieOf b)) ((headOf b).rawEngine && !(headOf b).grad) (needOf b) = some (y, a) →
      (headOf b).grad = false → Begun s 1 b = false → b.sseq + 1 ≠ streamLen s 1 → Runs (.blockLandingStart 1) s fun t =>
        (t.stream 1).arrivals = (if s.circ.issuing then gradientOf s b.sseq (headOf b) :: rest else rest)
          ∧ (t.die (dieOf b)).window = y.window ++ [{ landEntry b (headOf b) 1 a false with run := (t.stream 1).runCount }]
          ∧ RegsKept [] s t ∧ Raises s t [] ∧ StoresKept s t) ∧
    (∀ b rest y a z e, s.fld .circRingConf F.circRingConf_ENABLE = 1 → passesAll s = false → (s.stream x).arrivals = b :: rest →
      (headOf b).ndie = (headOf b).die → updateMode s = false → refilling s x = false → windowHeld (s.die (dieOf b)) < windowCap s →
      allocate (dieOf b) (s.die (dieOf b)) ((headOf b).rawEngine && !(headOf b).grad) (needOf b) = some (y, a) →
      (windowCap s ≤ windowHeld (s.die (1 - dieOf b)) → exec (.blockLandingStart x) s = .next s) ∧
      (windowHeld (s.die (1 - dieOf b)) < windowCap s →
        allocate (1 - dieOf b) (s.die (1 - dieOf b)) ((headOf b).rawEngine && !(headOf b).grad) (needOf b) = some (z, e) →
        Runs (.blockLandingStart x) s fun t =>
          (t.die (dieOf b)).window = y.window ++ [{ landEntry b (headOf b) x a false with run := (t.stream x).runCount }]
            ∧ (t.die (1 - dieOf b)).window = z.window ++ [landEntry b (headOf b) x e true]
            ∧ (t.stream x).order = (s.stream x).order ++ [(dieOf b, a)] ∧ (t.stream x).arrivals = rest ∧ StoresKept s t)) ∧
    (∀ (d : Die) (i : Nat) (w : WinEntry), (s.die d).window[i]? = some w → w.west = (x == 1) → w.skip = false →
      (w.state ≠ .landing → exec (.blockResident d i) s = .next s) ∧
      (w.state = .landing → w.grad = false → w.copy = false → s.circ.due = [] →
        (ownerOf s x w.sseq = none ∨ (w.failed = false ∧ uncaptured s x w.sseq = false)) →
        s.fld .circSplice F.circSplice_STATE ≠ 3 → s.fld .circSplice F.circSplice_STATE ≠ 4 →
        placeOf w.addr ≠ .lpd → Mem.wf s.mem = true → counterValue s d (8190 + x.val) + 1 < 2 ^ 48 → Runs (.blockResident d i) s fun t =>
          Mem.read t.mem w.addr w.landing.length = w.landing ∧ MemKeptBut w.addr w.landing.length s t
            ∧ (t.die d).window = (s.die d).window.set i { w with landing := [], left := 0, use := useCount s x w
                                                                 state := if useCount s x w = 0 then .forwarding else .resident }
            ∧ (t.stream x).runs = (s.stream x).runs.map (fun r =>
                if r.number < w.run ∨ (w.sseq + 1 = streamLen s x ∧ r.number = w.run) then { r with landed := true } else r)
            ∧ counterValue t d (8190 + x.val) = counterValue s d (8190 + x.val) + 1 ∧ RegsKept [ctrReg d (8190 + x.val)] s t
            ∧ Raises s t (if w.failed then [Report.plain .blockCheck d.val 0 .circ w.addr] else [])) ∧
      (∀ r k, w.state = .landing → w.grad = false → w.copy = false → s.circ.due = [] → ownerOf s x w.sseq = some (r, k) →
        w.failed = true → uncaptured s x w.sseq = false → s.fld .circSplice F.circSplice_STATE ≠ 4 →
        copyGood (s.poke w.addr (w.landing.map (fun b => (b, true)))) (backSlot s r k) = true → Runs (.blockResident d i) s fun t =>
          (∃ v, (t.die d).window[i]? = some v ∧ v.header = blockAt (s.poke w.addr (w.landing.map (fun b => (b, true)))) (backSlot s r k)
            ∧ v.state ≠ .landing ∧ v.addr = w.addr ∧ v.failed = true)
          ∧ Raises s t [Report.plain .blockCheck d.val 0 .circ w.addr, Report.plain .copySubstituted d.val 0 .circ w.addr])) ∧
    (∀ d i w, frontBlock s x = some (d, i, w) →
      (w.sent = 0 ∨ 256 * w.sent < w.landing.length → exec (.blockForwarded x) s = .next s) ∧
      (w.sent ≠ 0 → w.landing.length ≤ 256 * w.sent → Runs (.blockForwarded x) s fun t =>
        (t.stream x).order = (s.stream x).order.drop 1
          ∧ (∀ v ∈ (t.die d).window, v ∈ (s.die d).window
              ∧ ¬(v.skip = false ∧ v.west = w.west ∧ v.sseq = w.sseq ∧ v.grad = w.grad ∧ v.addr = w.addr))
          ∧ t.regs = s.regs ∧ Raises s t [] ∧ StoresKept s t ∧ t.ctxs = s.ctxs ∧ t.cores = s.cores)) ∧
    (frontBlock s x = none → exec (.blockForwarded x) s = .next s)

/-- A layer's run retires when it has landed and every block of it has been used: cohorts on its list leave their stream at
its last layer, East to WAIT_W and West to SAMPLE; in update mode West cohorts, which have no layer after 0, go round again, and the
forward pass of the step is over as its last run retires (R47, R70, R662). -/
def LayersRetireRule : Prop :=
  ∀ (s : State) (x : StreamId),
    ((s.stream x).runs = [] → exec (.layerRetire x) s = .next s) ∧
    (∀ r rest, (s.stream x).runs = r :: rest →
      (runDone s x r = false → exec (.layerRetire x) s = .next s) ∧
      (runDone s x r = true → updateMode s = false →
        (lastLayerOf s x ≠ some r.layer → Runs (.layerRetire x) s fun t => (t.stream x).runs = rest ∧ t.regs = s.regs
          ∧ Raises s t [] ∧ StoresKept s t ∧ DiesKept s t) ∧
        (lastLayerOf s x = some r.layer → Runs (.layerRetire x) s fun t => (t.stream x).runs = rest
          ∧ (∀ c ∈ r.cohorts, cohortState s c = (if x = 0 then 2 else 4) → cohortState t c = (if x = 0 then 3 else 5))
          ∧ (∀ c, c ∉ r.cohorts ∨ cohortState s c ≠ (if x = 0 then 2 else 4) → t.reg (.circCohort c) = s.reg (.circCohort c))
          ∧ Raises s t [] ∧ StoresKept s t ∧ DiesKept s t)) ∧
      (runDone s x r = true → updateMode s = true → (if x = 0 then lastLayerOf s x ≠ some r.layer else r.layer ≠ 0) → Runs (.layerRetire x) s fun t =>
        (t.stream x).runs = rest ∧ t.regs = s.regs ∧ t.circ.wave = s.circ.wave ∧ Raises s t []) ∧
      (runDone s x r = true → updateMode s = true → x = 0 → lastLayerOf s x = some r.layer → s.circ.wave = 1 →
        Runs (.layerRetire x) s fun t => (t.stream x).runs = rest ∧ t.circ.fwdOver = true
          ∧ t.circ.wave = (if s.circ.released then 2 else 1)
          ∧ (∀ c ∈ r.cohorts, cohortState s c = 2 → cohortState t c = 3) ∧ Raises s t []) ∧
      (runDone s x r = true → updateMode s = true → x = 1 → r.layer = 0 → Runs (.layerRetire x) s fun t =>
        (t.stream x).runs = rest ∧ t.circ.wave = s.circ.wave
          ∧ (∀ c ∈ r.cohorts, cohortState s c = 4 → cohortState t c = 0 ∨ cohortState t c = 1)))

/-- Cohorts, the enabling of circulation, and the retiring of layers (R45, R47, R78, R417, R661, R662). -/
def Obligations.CohortsLayersAndEnable : Prop := LayersRetireRule ∧ CohortsAndEnableRule

/-- The message of a type is among those sent. -/
def Sent (t : State) (typ rtag : Nat) (body : List Byte) : Prop := ∃ m ∈ t.mld.sent, m.typ = typ ∧ m.rtag = rtag ∧ m.body = body

/-- PERIOD_REFRESH shows a circuit that has been measured, and compares it with the target (R42, R80). GRADIENT_APPLY writes the
new version to its backing slot and takes the gradient block off its stream; a gradient of a damaged step, one whose block has
not come round since its gradient of the running step passed, is only dropped, and a poisoned block damages the step (R72,
R74, R534). -/
def Obligations.PeriodAndUpdate : Prop :=
  ∀ (s : State),
    ((s.stream 0).circuit = none → exec .periodRefresh s = .next s) ∧
    (∀ p, (s.stream 0).circuit = some p → Runs .periodRefresh s fun t => t.fld .circPhase F.circPhase_PERIOD_NS = p % 2 ^ 32
      ∧ t.fld .circPhase F.circPhase_OFFSET_NS = s.fld .circPhase F.circPhase_OFFSET_NS ∧ (t.stream 0).circuit = none
      ∧ (t.fld .circStatus F.circStatus_PERIOD_SHORT = 1 ↔ s.fld .circPeriodTarget F.circPeriodTarget_NS ≠ 0
          ∧ s.fld .circPeriodTarget F.circPeriodTarget_NS * 1000 < p % 2 ^ 32 * 999)
      ∧ RegsKept [.circPhase, .circStatus] s t ∧ Raises s t [] ∧ StoresKept s t ∧ DiesKept s t) ∧
    (∀ (d : Die) (i : Nat) (block : List Byte) (opt : List (Nat × List Byte)) (w : WinEntry), (s.die d).window[i]? = some w →
      (w.skip = true ∨ w.grad = false ∨ w.sealed_ = false ∨ w.state = .landing ∨ ownerOf s 1 w.sseq = none →
        exec (.gradientApply d i block opt) s = .next s) ∧
      (∀ r k, w.skip = false → w.grad = true → w.sealed_ = true → w.state ≠ .landing → ownerOf s 1 w.sseq = some (r, k) →
        (w.failed = true ∨ s.poisonedIn w.addr w.plain = true → Runs (.gradientApply d i block opt) s fun t =>
          (t.die d).window = (s.die d).window.eraseIdx i ∧ Raises s t [Report.plain .gradPoison d.val 0 .circ w.addr] ∧ StoresKept s t
            ∧ (updateMode s = true → s.fld .circRingConf F.circRingConf_ENABLE = 1 → s.circ.wave ≠ 0 →
                t.fld .circUpdate F.circUpdate_DAMAGED = 1)) ∧
        (w.failed = false → s.poisonedIn w.addr w.plain = false →
          s.fld .circUpdate F.circUpdate_DAMAGED = 1 ∨ s.circ.grads.at_ 0 w.sseq ≠ 2 →
          Runs (.gradientApply d i block opt) s fun t => (t.die d).window = (s.die d).window.eraseIdx i
            ∧ t.regs = s.regs ∧ Raises s t [] ∧ StoresKept s t) ∧
        (w.failed = false → s.poisonedIn w.addr w.plain = false → s.fld .circUpdate F.circUpdate_DAMAGED = 0 →
          s.circ.grads.at_ 0 w.sseq = 2 → slotFits s (backSlot s r k) = true → tierServes s (backSlot s r k) 16448 = true → Mem.wf s.mem = true →
          Runs (.gradientApply d i block []) s fun t => (t.die d).window.length = (s.die d).window.length - 1
            ∧ Mem.read t.mem (backSlot s r k) block.length = block ∧ MemKeptBut (backSlot s r k) block.length s t
            ∧ (0, w.id, backSlot s r k) ∈ t.circ.due ∧ t.regs = s.regs ∧ Raises s t [])))

/-- Whose service moment is due: every cohort but c is no FREE cohort with room. -/
def OnlyFree (s : State) (c : Fin 8) : Prop := ∀ e, cohortState s e = 0 ∧ 32 ≤ s.fld (.circCohort e) F.circCohort_ROWS_MAX ↔ e = c

/-- Sampling takes place only for a cohort in SAMPLE with the logits of every row that draws: the token goes to the commit log
and, in a session, to the control node; a row whose log is too far ahead draws none and is counted; a poisoned row ends
with POISONED; the cohort then waits to go round again. A queued sequence is admitted to a FREE cohort with room when a
stack has room for its pages (R47, R481, R482, R487, R493 to R495). -/
def Obligations.SamplingAndAdmission : Prop :=
  ∀ (s : State) (c : Fin 8) (rows : List (Nat × Bool × List Nat)) (q : Seq),
    (cohortState s c ≠ 5 → exec (.sampleComplete c rows) s = .next s) ∧
    (q ∈ s.mld.seqs → q.cohort = some c → q.draws = true → (∀ r ∈ rows, r.1 ≠ q.id) → exec (.sampleComplete c rows) s = .next s) ∧
    (cohortState s c = 5 → s.mld.seqs.filter (fun q => q.cohort = some c ∧ q.draws) = [q] → seqOf s q.id = some q →
      ∀ (logits : List Nat) (bad : Bool), rows = [(q.id, bad, logits)] →
      ((logOf s q.id).length < s.fld .mldSvcCtrl F.mldSvcCtrl_COMMIT_LAG → s.mld.log.length < 16384 →
        (∀ tok, bad = false → q.grammar = false →
          selectToken (paramsOf q.head) q.toks q.count (Config.freeNat s.fresh) (fun _ => true) logits = some tok →
          Runs (.sampleComplete c rows) s fun t =>
            t.mld.log = s.mld.log ++ [⟨q.id, q.count, tok, (stopReason (paramsOf q.head) (q.gen ++ [tok])).isSome⟩]
              ∧ (cohortState t c = 1 ∨ cohortState t c = 0)
              ∧ (linkState s = 3 → Sent t 0x82 0
                  (tokenBytes ⟨q.id, q.count, tok, (stopReason (paramsOf q.head) (q.gen ++ [tok])).isSome⟩ false))) ∧
        (bad = true → Runs (.sampleComplete c rows) s fun t => t.mld.log = s.mld.log
          ∧ (cohortState t c = 1 ∨ cohortState t c = 0) ∧ (linkState s = 3 → Sent t 0x83 0 (seqEndBody q.id 7 q.count)))) ∧
      (s.fld .mldSvcCtrl F.mldSvcCtrl_COMMIT_LAG ≤ (logOf s q.id).length ∨ 16384 ≤ s.mld.log.length →
        Runs (.sampleComplete c rows) s fun t => t.mld.log = s.mld.log
          ∧ t.fld .mldSvcCounts F.mldSvcCounts_LAGGED = min (s.fld .mldSvcCounts F.mldSvcCounts_LAGGED + 1) (2 ^ 32 - 1)
          ∧ (cohortState t c = 1 ∨ cohortState t c = 0))) ∧
    (s.readyBit 11 = false → exec .admissionTick s = .next s) ∧
    (s.readyBit 11 = true → (∀ e, cohortState s e ≠ 0) → exec .admissionTick s = .next s) ∧
    (∀ k, s.readyBit 11 = true → OnlyFree s c → s.fld .mldSvcCtrl F.mldSvcCtrl_ADMIT = 1 → s.fld .fcuStatus F.fcuStatus_OFF_RING = 0 →
      s.mld.seqs = [q] → q.st = .queued → q.cohort = none → q.unparking = false →
      k = min q.base (s.fld .mldSvcCtrl F.mldSvcCtrl_PREFILL_MAX) → 0 < k → k ≤ s.fld (.circCohort c) F.circCohort_ROWS_MAX →
      balanced s c k = true →
      (∀ n, homeStack s q.need = some n → Runs .admissionTick s fun t => cohortState t c = 1
        ∧ t.fld (.circCohort c) F.circCohort_ROWS = k ∧ RegsKept [.circCohort c] s t ∧ StoresKept s t ∧ DiesKept s t
        ∧ ∃ q', t.mld.seqs = [q'] ∧ q'.id = q.id ∧ q'.st = .prefill ∧ q'.cohort = some c ∧ q'.rows = k ∧ q'.done = k ∧ q'.stack = n
            ∧ q'.pages = (freePages s n).take q.need ∧ q'.toks = q.toks) ∧
      (homeStack s q.need = none → Runs .admissionTick s fun t => cohortState t c = 0 ∧ t.mld.seqs = [q]
        ∧ t.fld (.circCohort c) F.circCohort_ROWS = 0 ∧ RegsKept [.circCohort c] s t ∧ StoresKept s t ∧ DiesKept s t))

/-! ### Ports and the link layer (chapter 09) -/

/-- A substitution of a logical lane by a spare has begun: SUBST is sent, and a soft one takes the spare at once (R412). -/
def SubstStarts (s t : State) (p : Port) (logical sp : Nat) (hard : Bool) : Prop :=
  (t.port p).sub = some ⟨logical, (laneCarrying s p logical).getD logical, sp, hard⟩
    ∧ (t.port p).out = (s.port p).out ++ [⟨0, 0, .link 5 (BitVec.ofNat 64 (logical * 256 + sp)) 0 0, none⟩]
    ∧ laneState t p sp = (if hard then 3 else 4) ∧ portState t p = portState s p ∧ Raises s t []

/-- The port is FAILED with a cause, and its fault stands first among those raised (R409, R436). -/
def Fails (s t : State) (p : Port) (cause : Nat) : Prop :=
  portState t p = 4 ∧ t.fld (.circPortStatus p) F.circPortStatus_CAUSE = cause
    ∧ ∃ rs, Raises s t ({ Report.plain .portFailed 2 p.val .circ 0 with detail := cause } :: rs)

/-- A port trains on signal, names its lanes, identifies itself, is UP once IDs have crossed, and fails on a timeout, on silence
of all lanes, on a lane without a spare, and on an epoch that differs; a lane that fails is replaced by the lowest spare
(R394, R409 to R413, R415, R438). -/
def Obligations.PortsAndLanes : Prop :=
  ∀ (s : State) (p : Port),
    (portState s p = 0 → s.fld (.circPortCtrl p) F.circPortCtrl_ENABLE = 1 → s.pow.phases.contains 6 = true →
      Runs (.portSignalDetect p) s fun t => portState t p = 1 ∧ (t.port p).trainSince = s.now
        ∧ (∀ l, l < lanesOf p → laneState t p l = if laneState s p l = 5 then 5 else 1) ∧ Raises s t [] ∧ StoresKept s t) ∧
    (portState s p ≠ 0 ∨ s.fld (.circPortCtrl p) F.circPortCtrl_ENABLE = 0 ∨ s.pow.phases.contains 6 = false →
      exec (.portSignalDetect p) s = .next s) ∧
    (∀ spares : List Nat,
      (portState s p = 1 → s.now ≤ (s.port p).trainSince + 100000000 → lanesReady s p = true →
        Runs (.portTrained p spares) s fun t => portState t p = 2
          ∧ (∀ l, some l ∈ mappedLanes s p → laneState t p l = 2)
          ∧ (∀ l, l < lanesOf p → some l ∉ mappedLanes s p → laneState s p l = 1 →
              laneState t p l = if spares.contains l then 3 else 5)
          ∧ (∀ l, l < lanesOf p → t.fld (laneA p l) F.circLaneA_LOGICAL = s.fld (laneA p l) F.circLaneA_LOGICAL)
          ∧ (∃ f w0 w1 w2, (t.port p).out = (s.port p).out ++ [f] ∧ f.body = .link 1 w0 w1 w2) ∧ Raises s t []) ∧
      (portState s p ≠ 1 ∨ lanesReady s p = false → exec (.portTrained p spares) s = .next s)) ∧
    (portState s p = 1 → (s.port p).trainSince + 100000000 ≤ s.now → Runs (.portTrainTimeout p) s fun t => Fails s t p 1) ∧
    (portState s p ≠ 1 ∨ s.now < (s.port p).trainSince + 100000000 → exec (.portTrainTimeout p) s = .next s) ∧
    (WriteReady s (.circPortCtrl p) →
      (Runs (.portEnable p) s fun t => t.fld (.circPortCtrl p) F.circPortCtrl_ENABLE = 1 ∧ RegsKept [.circPortCtrl p] s t
        ∧ t.circ = s.circ ∧ Raises s t []) ∧
      (portState s p ≠ 0 → Runs (.portDisable p) s fun t => t.fld (.circPortCtrl p) F.circPortCtrl_ENABLE = 0 ∧ portState t p = 0
        ∧ t.port p = (s.port p).renewed ∧ ∀ l, l < lanesOf p → laneState t p l = if laneState s p l = 5 then 5 else 0)) ∧
    (∀ (h : RxHead) (lane : Nat) (w0 w2 : Word), Arrives s h lane → p = h.port →
      (portState s p = 2 → (s.port p).idOut = true → Runs (.id h w0 w2) s fun t => portState t p = 3
        ∧ t.reg (.circPortPeer p) = putBits w0 7 1 0 ∧ t.fld (.circPortEpoch p) F.circPortEpoch_PEER_EPOCH_FULL = bitsOf w2 31 0
        ∧ ∃ f w1 w3, f ∈ (t.port p).out ∧ f.body = .link 7 (tableOf s p) w1 w3) ∧
      (portState s p = 2 → (s.port p).idOut = false → Runs (.id h w0 w2) s fun t => portState t p = 2 ∧ (t.port p).idIn = true
        ∧ t.reg (.circPortPeer p) = putBits w0 7 1 0) ∧
      (portState s p = 3 → s.fld .circAdmit F.circAdmit_STATE = 1 → s.fld .circBypass F.circBypass_AUTO = 0 →
        bitsOf w0 0 0 = 0 ∨ (p.val < 4 ∧ (bitsOf w0 31 29 ≠ s.ringId ∨ bitsOf w2 31 0 ≠ s.fld .circAdmit F.circAdmit_EPOCH)) →
        Runs (.id h w0 w2) s fun t => Fails s t p 4)) ∧
    (inService s p = false → ∀ lanes, exec (.laneSilence p lanes) s = .next s) ∧
    (∀ lanes, inService s p = true → lanesIn s p 2 ≠ [] → (lanesIn s p 2).all lanes.contains = true →
      s.fld .circBypass F.circBypass_AUTO = 0 → Runs (.laneSilence p lanes) s fun t => Fails s t p 3) ∧
    (∀ l, l < lanesOf p → inService s p = true → (lanesIn s p 2).all ([l].contains) = false → (s.port p).sub = none →
      (laneState s p l = 3 → Runs (.laneSilence p [l]) s fun t => laneState t p l = 5
        ∧ Raises s t [{ Report.plain .spareFailed 2 p.val .circ 0 with detail := l }] ∧ RegsKept [laneA p l] s t) ∧
      (laneState s p l = 2 → s.fld .circLinkCtrl F.circLinkCtrl_SUB_AUTO = 1 →
        (∀ sp, (lanesIn s p 3).head? = some sp → Runs (.laneSilence p [l]) s fun t =>
          SubstStarts s t p (s.fld (laneA p l) F.circLaneA_LOGICAL) sp true) ∧
        (lanesIn s p 3 = [] → p.val < 4 → Runs (.laneSilence p [l]) s fun t => Fails s t p 2))) ∧
    (∀ (l : Fin 34) (sp : Nat), l.val < lanesOf p → inService s p = true → (s.port p).sub = none → laneState s p l.val = 2 →
      (lanesIn s p 3).head? = some sp →
      (s.fld .circLinkCtrl F.circLinkCtrl_SUB_AUTO = 1 →
        (∀ n, s.fld .circLinkCtrl F.circLinkCtrl_SUB_UNCORR ≤ n → Runs (.laneUncorrLimit p l.val n) s fun t =>
          SubstStarts s t p (s.fld (laneA p l.val) F.circLaneA_LOGICAL) sp false) ∧
        (∀ m, m < s.fld .circLinkCtrl F.circLinkCtrl_SUB_MARGIN → Runs (.laneMarginLow p l.val m) s fun t =>
          SubstStarts s t p (s.fld (laneA p l.val) F.circLaneA_LOGICAL) sp false
            ∧ t.fld (laneA p l.val) F.circLaneA_MARGIN = min m 255)) ∧
      (s.fld .circLinkCtrl F.circLinkCtrl_SUB_AUTO = 0 → ∀ n, exec (.laneUncorrLimit p l.val n) s = .next s) ∧
      (WriteOpen s (.circLaneB p l) → Runs (.forceSub p l) s fun t =>
        SubstStarts s t p (s.fld (laneA p l.val) F.circLaneA_LOGICAL) sp false)) ∧
    (∀ l : Fin 34,
      (l.val < lanesOf p → laneState s p l.val ≠ 2 → WriteReady s (.circLaneB p l) → Rejects (.forceSub p l) s (.circLaneB p l)) ∧
      (lanesOf p ≤ l.val → s.pow.off = false → Runs (.forceSub p l) s fun t => t.regs = s.regs ∧ t.circ = s.circ
        ∧ ∃ r, Raises s t [r] ∧ r.src = .windowViolation))

/-- Every kind of frame that comes out of order or not good is discarded and answered with NAK, and one of a reserved TYPE or code is
discarded with a LINK fault; NAK and the retry timeout send
again from the expected frame, IDLE and every frame bring credits and acknowledge; a resend goes first, then LINK frames,
then traffic in the order of R406, one credit a frame (R396, R397, R398, R401, R402, R404, R406, R410, R412). -/
def LinkLayerRule : Prop :=
  ∀ (s : State) (h : RxHead) (lane : Nat) (p : Port), p = h.port →
    (inService s p = true → (s.port p).sub = none → laneState s p h.phys = 2 → s.fld (laneA p h.phys) F.circLaneA_LOGICAL = lane →
      h.good = false ∨ h.lseq % 1024 ≠ (s.port p).rx.at_ 0 lane % 1024 →
      ∀ w : Word, ∀ c ∈ ([.id h w w, .subst h w, .substDone h w, .adapt h w, .nak (.port h) w, .partAnn h w w, .ts h w w w, .form h w,
        .bypass h w, .restoreNote h w, .gapBound h w, .gapReq h w w w, .gapDone h w w, .splice h w, .spliced h w,
        .blockFrame h true true 0 0 []] : List Instr), Runs c s fun t =>
          (t.port p).out = (s.port p).out ++ [⟨0, 0, .link 3 (BitVec.ofNat 64 (lane * 1024 + (s.port p).rx.at_ 0 lane % 1024)) 0 0, none⟩]
            ∧ (t.port p).rx = (s.port p).rx ∧ (t.port p).unacked = (s.port p).unacked
            ∧ t.fld (laneB p h.phys) F.circLaneB_NAKS = min (s.fld (laneB p h.phys) F.circLaneB_NAKS + 1) 65535
            ∧ RegsKept [laneA p h.phys, laneB p h.phys] s t ∧ t.circ.streams = s.circ.streams ∧ Raises s t []) ∧
    (inService s p = true → (s.port p).sub = none → laneState s p h.phys = 2 → s.fld (laneA p h.phys) F.circLaneA_LOGICAL = lane →
      h.good = true → h.lseq % 1024 = (s.port p).rx.at_ 0 lane % 1024 → h.reserved = true →
      ∀ w : Word, ∀ c ∈ ([.id h w w, .subst h w, .substDone h w, .adapt h w, .nak (.port h) w, .partAnn h w w, .ts h w w w, .form h w,
        .bypass h w, .restoreNote h w, .gapBound h w, .gapReq h w w w, .gapDone h w w, .splice h w, .spliced h w,
        .blockFrame h true true 0 0 []] : List Instr), Runs c s fun t =>
          Raises s t [{ Report.plain .frameBad 2 p.val .circ 0 with detail := 0 }] ∧ (t.port p).out = (s.port p).out
            ∧ (t.port p).rx.at_ 0 lane = ((s.port p).rx.at_ 0 lane + 1) % 1024
            ∧ RegsKept [laneA p h.phys, laneB p h.phys] s t ∧ t.circ.streams = s.circ.streams) ∧
    (inService s p = false → ∀ w : Word, ∀ c ∈ ([.id h w w, .idle (.port h), .subst h w, .nak (.port h) w, .partAnn h w w, .form h w,
      .blockFrame h true true 0 0 []] : List Instr), exec c s = .next s) ∧
    (Arrives s h lane →
      (Runs (.idle (.port h)) s fun t => (t.port p).credits.at_ 0 h.cpart = (s.port p).credits.at_ 0 h.cpart + h.ccnt
        ∧ (t.port p).rx = (s.port p).rx ∧ (t.port p).out = (s.port p).out
        ∧ (∀ f ∈ (t.port p).unacked, f ∈ (s.port p).unacked ∧ (f.lane = lane → lseqLe f.lseq h.lack = false))
        ∧ RegsKept [laneA p h.phys, laneB p h.phys] s t ∧ Raises s t []) ∧
      (∀ w : Word, Runs (.nak (.port h) w) s fun t => (t.port p).rx.at_ 0 lane = ((s.port p).rx.at_ 0 lane + 1) % 1024
        ∧ (∀ f ∈ (t.port p).unacked, f ∈ (s.port p).unacked
            ∧ (f.lane = bitsOf w 15 10 → lseqLe (bitsOf w 9 0) f.lseq = true → (f.lane, f.lseq) ∈ (t.port p).resend))
        ∧ Raises s t []) ∧
      (∀ w v : Word, Runs (.partAnn h w v) s fun t => (t.port p).peerPart = w ∧ (t.port p).announced = true
        ∧ (t.port p).credits.at_ 0 0 = bitsOf v 15 0 ∧ (t.port p).credits.at_ 0 1 = bitsOf v 31 16
        ∧ (t.port p).credits.at_ 0 2 = bitsOf v 47 32 ∧ (t.port p).credits.at_ 0 3 = bitsOf v 63 48 ∧ Raises s t []) ∧
      (∀ w : Word, Runs (.subst h w) s fun t => (bitsOf w 13 8, bitsOf w 5 0) ∈ (t.port p).dual ∧ Raises s t []) ∧
      (∀ w : Word, Runs (.substDone h w) s fun t => (t.port p).tx.at_ 0 (bitsOf w 29 24) = bitsOf w 21 16
        ∧ (t.port p).txFailed = (s.port p).txFailed ++ [(s.port p).tx.at_ (bitsOf w 29 24) (bitsOf w 29 24)]
        ∧ (∀ e ∈ (t.port p).dual, e.1 ≠ bitsOf w 29 24) ∧ Raises s t []) ∧
      (∀ w : Word, Runs (.adapt h w) s fun t => (t.port p).coeff.at_ 0 (bitsOf w 13 8, bitsOf w 7 4)
        = (s.port p).coeff.at_ 0 (bitsOf w 13 8, bitsOf w 7 4) + (if bitsOf w 1 0 = 1 then 1 else if bitsOf w 1 0 = 3 then -1 else 0)
        ∧ Raises s t [])) ∧
    (∀ (l idx : Nat) (up : Bool),
      (inService s p = true → laneState s p l = 2 ∨ laneState s p l = 3 → (s.port p).adaptAt.find l = none →
        Runs (.adaptRequest p l idx up) s fun t => (t.port p).out = (s.port p).out
            ++ [⟨0, 0, .link 4 (BitVec.ofNat 64 (l % 64 * 256 + idx % 16 * 16 + (if up then 1 else 3))) 0 0, none⟩]
          ∧ (t.port p).adaptAt.find l = some s.now ∧ t.regs = s.regs ∧ Raises s t []) ∧
      (∀ t0, (s.port p).adaptAt.find l = some t0 → s.now < t0 + 100000 → exec (.adaptRequest p l idx up) s = .next s)) ∧
    (∀ l, (∀ f ∈ (s.port p).unacked, f.lane ≠ l) → exec (.linkRetryTimeout (.port p) l) s = .next s) ∧
    (∀ l f, (s.port p).unacked.find? (fun u => u.lane == l) = some f → inService s p = true →
      (s.port p).progress.at_ 0 l + s.fld .circLinkCtrl F.circLinkCtrl_RETRY_NS ≤ s.now → Runs (.linkRetryTimeout (.port p) l) s fun t =>
        (∀ g ∈ (s.port p).unacked, g.lane = l → lseqLe f.lseq g.lseq = true → (g.lane, g.lseq) ∈ (t.port p).resend)
          ∧ (t.port p).unacked = (s.port p).unacked ∧ t.regs = s.regs ∧ Raises s t []) ∧
    (∀ e : Fin 4,
      (inService s p = false ∨ (s.port p).silent = true → exec (.frameTransmit (.port p) e) s = .next s) ∧
      (inService s p = true → (s.port p).silent = false →
        (∀ r rest, (s.port p).resend = r :: rest → Runs (.frameTransmit (.port p) e) s fun t => (t.port p).resend = rest
          ∧ t.fld (.circPortStatus p) F.circPortStatus_RETRIES = min (s.fld (.circPortStatus p) F.circPortStatus_RETRIES + 1) (2 ^ 32 - 1)
          ∧ RegsKept [.circPortStatus p] s t ∧ Raises s t []) ∧
        (∀ f rest code w0 w1 w2, (s.port p).resend = [] → (s.port p).out = f :: rest → f.body = .link code w0 w1 w2 → f.credit = none →
          code ≠ 1 → portState s p = 3 → (s.port p).unacked.countP (fun u => u.lane == 0) < 512 → Runs (.frameTransmit (.port p) e) s fun t => (t.port p).out = rest
            ∧ (t.port p).unacked = (s.port p).unacked ++ [⟨0, (s.port p).lseq.at_ 0 0, f.departing s.now⟩]
            ∧ (t.port p).lseq.at_ 0 0 = ((s.port p).lseq.at_ 0 0 + 1) % 1024 ∧ (t.port p).credits = (s.port p).credits
            ∧ t.regs = s.regs ∧ Raises s t []) ∧
        ((s.port p).resend = [] → (s.port p).out = [] → (s.port p).credits.at_ 0 e.val = 0 → Runs (.frameTransmit (.port p) e) s fun t =>
          (t.port p).unacked = (s.port p).unacked ∧ (t.port p).out = [] ∧ t.regs = s.regs ∧ Raises s t []) ∧
        (∀ lane, (s.port p).resend = [] → (∀ f ∈ (s.port p).out, f.group ≠ 0) → s.circ.doneNotes = [] →
          (partEntry (tableOf s p) e.val).valid = true → trafficOk s p = true → 0 < (s.port p).credits.at_ 0 e.val →
          lane = partStart (tableOf s p) e.val + (s.port p).rot.at_ 0 e.val % max (partEntry (tableOf s p) e.val).count 1 →
          (s.port p).unacked.countP (fun u => u.lane == lane) < 512 →
          (nextLeaving s p lane (partEntry (tableOf s p) e.val) = .nothing → Runs (.frameTransmit (.port p) e) s fun t =>
            (t.port p).unacked = (s.port p).unacked ∧ (t.port p).out = (s.port p).out ∧ t.regs = s.regs ∧ Raises s t []) ∧
          (∀ i f, nextLeaving s p lane (partEntry (tableOf s p) e.val) = .queued i → (s.port p).out[i]? = some f →
            Runs (.frameTransmit (.port p) e) s fun t => (t.port p).out = (s.port p).out.eraseIdx i
              ∧ (t.port p).unacked = (s.port p).unacked ++ [⟨lane, (s.port p).lseq.at_ 0 lane, { f with credit := none }⟩]
              ∧ (t.port p).credits.at_ 0 e.val = (s.port p).credits.at_ 0 e.val - 1
              ∧ (∀ q k, f.credit = some (q, k) → q ≠ p → (t.port q).owed.at_ 0 k = (s.port q).owed.at_ 0 k + 1)
              ∧ t.regs = s.regs ∧ Raises s t [] ∧ StoresKept s t) ∧
          (∀ x d i w, nextLeaving s p lane (partEntry (tableOf s p) e.val) = .block x → frontBlock s x = some (d, i, w) → w.sent = 0 →
            Runs (.frameTransmit (.port p) e) s fun t => (t.port p).credits.at_ 0 e.val = (s.port p).credits.at_ 0 e.val - 1
              ∧ (∃ u, (t.port p).unacked = (s.port p).unacked ++ [u] ∧ u.lane = lane ∧ u.frame.body
                  = .block w.sseq 0 true (decide ((forwardBytes s d w).length ≤ 256)) ((forwardBytes s d w).take 256)
                  ∧ u.frame.arc = (partEntry (tableOf s p) e.val).arc ∧ u.frame.role = (partEntry (tableOf s p) e.val).role)
              ∧ ((t.die d).window[i]?).map (fun v => v.sent) = some 1 ∧ t.regs = s.regs ∧ Raises s t [] ∧ StoresKept s t))))

/-- A frame of the control link is taken: the link is LINKED or in SESSION, and the frame is good and, unless it is IDLE, has the
LSEQ expected on its lane (R401, R475, R476). -/
def CtrlArrives (s : State) (f : CtrlHead) : Prop :=
  ctrlUp s = true ∧ f.good = true ∧ (f.typ = 0 ∨ f.lseq % 1024 = s.mld.ctrl.rx.at_ 0 f.lane.val % 1024)

/-- The control link keeps the same link layer: IDLE brings credits and acknowledges, a frame out of order or not good is
answered with NAK on its lane, one of a reserved TYPE is discarded with a LINK fault, NAK and the retry timeout send again
from the expected frame, a resend goes first, then a NAK, then the next frame of the next message, one credit a frame (R401,
R402, R474, R475). -/
def ControlLinkRule : Prop :=
  ∀ (s : State) (f : CtrlHead),
    (ctrlUp s = false → ∀ c ∈ ([.idle (.ctrl f), .nak (.ctrl f) 0, .frameTransmit .ctrl 0] : List Instr), exec c s = .next s) ∧
    (ctrlUp s = true → f.good = false ∨ (f.typ ≠ 0 ∧ f.lseq % 1024 ≠ s.mld.ctrl.rx.at_ 0 f.lane.val % 1024) →
      ∀ w : Word, ∀ c ∈ ([.idle (.ctrl f), .nak (.ctrl f) w] : List Instr), Runs c s fun t => f.lane.val ∈ t.mld.ctrl.naks
        ∧ t.mld.ctrl.rx = s.mld.ctrl.rx ∧ t.mld.ctrl.credits = s.mld.ctrl.credits ∧ t.mld.ctrl.unacked = s.mld.ctrl.unacked
        ∧ t.regs = s.regs ∧ Raises s t []) ∧
    (CtrlArrives s f →
      (f.typ = 0 → Runs (.idle (.ctrl f)) s fun t => t.mld.ctrl.credits = s.mld.ctrl.credits + f.ccnt
        ∧ t.mld.ctrl.rx = s.mld.ctrl.rx ∧ t.mld.ctrl.heard.at_ 0 f.lane.val = s.now
        ∧ (∀ g ∈ t.mld.ctrl.unacked, g ∈ s.mld.ctrl.unacked ∧ (g.lane = f.lane.val → lseqLe g.lseq f.lack = false))
        ∧ t.regs = s.regs ∧ Raises s t []) ∧
      (∀ w : Word, f.typ ≠ 0 → f.typ ≠ 1 → f.typ ≠ 6 → Runs (.nak (.ctrl f) w) s fun t =>
        Raises s t [Report.plain .frameBad 2 0 .mld 0] ∧ t.mld.ctrl.building = s.mld.ctrl.building
          ∧ t.mld.ctrl.rx.at_ 0 f.lane.val = (s.mld.ctrl.rx.at_ 0 f.lane.val + 1) % 1024) ∧
      (∀ w : Word, f.typ = 6 → f.tag / 2 ^ 20 % 16 = 3 → Runs (.nak (.ctrl f) w) s fun t =>
        t.mld.ctrl.rx.at_ 0 f.lane.val = (s.mld.ctrl.rx.at_ 0 f.lane.val + 1) % 1024
          ∧ (∀ g ∈ t.mld.ctrl.unacked, g ∈ s.mld.ctrl.unacked
              ∧ (g.lane = bitsOf w 15 10 → lseqLe (bitsOf w 9 0) g.lseq = true → (g.lane, g.lseq) ∈ t.mld.ctrl.resend))
          ∧ t.regs = s.regs ∧ Raises s t [])) ∧
    (∀ l, (∀ g ∈ s.mld.ctrl.unacked, g.lane ≠ l) → exec (.linkRetryTimeout .ctrl l) s = .next s) ∧
    (∀ l g, s.mld.ctrl.unacked.find? (fun u => u.lane == l) = some g → ctrlUp s = true →
      (s.mld.ctrl.progress.at_ 0 l + s.fld .mldLinkCtrl F.mldLinkCtrl_RETRY_NS ≤ s.now → Runs (.linkRetryTimeout .ctrl l) s fun t =>
        (∀ u ∈ s.mld.ctrl.unacked, u.lane = l → lseqLe g.lseq u.lseq = true → (u.lane, u.lseq) ∈ t.mld.ctrl.resend)
          ∧ t.mld.ctrl.unacked = s.mld.ctrl.unacked ∧ t.mld.ctrl.progress.at_ 0 l = s.now ∧ t.regs = s.regs ∧ Raises s t []) ∧
      (s.now < s.mld.ctrl.progress.at_ 0 l + s.fld .mldLinkCtrl F.mldLinkCtrl_RETRY_NS → exec (.linkRetryTimeout .ctrl l) s = .next s)) ∧
    (ctrlUp s = true → ∀ e : Fin 4,
      (∀ r rest, s.mld.ctrl.resend = r :: rest → Runs (.frameTransmit .ctrl e) s fun t => t.mld.ctrl.resend = rest
        ∧ t.fld .mldLinkStatus F.mldLinkStatus_RETRIES = min (s.fld .mldLinkStatus F.mldLinkStatus_RETRIES + 1) 65535
        ∧ RegsKept [.mldLinkStatus] s t ∧ Raises s t []) ∧
      (∀ l rest, s.mld.ctrl.resend = [] → s.mld.ctrl.naks = l :: rest → Runs (.frameTransmit .ctrl e) s fun t =>
        t.mld.ctrl.naks = rest ∧ t.mld.ctrl.unacked = s.mld.ctrl.unacked ++ [⟨l, s.mld.ctrl.lseq.at_ 0 l, .inr l⟩]
          ∧ t.mld.ctrl.credits = s.mld.ctrl.credits ∧ t.regs = s.regs ∧ Raises s t []) ∧
      (s.mld.ctrl.resend = [] → s.mld.ctrl.naks = [] →
        (∀ m, s.mld.sent[s.mld.ctrl.next]? = some m → 0 < s.mld.ctrl.credits →
          s.mld.ctrl.unacked.countP (fun u => u.lane == s.mld.ctrl.rot) < 512 → Runs (.frameTransmit .ctrl e) s fun t =>
            t.mld.ctrl.unacked = s.mld.ctrl.unacked ++ [⟨s.mld.ctrl.rot, s.mld.ctrl.lseq.at_ 0 s.mld.ctrl.rot,
                .inl (s.mld.ctrl.next, s.mld.ctrl.part)⟩]
              ∧ t.mld.ctrl.lseq.at_ 0 s.mld.ctrl.rot = (s.mld.ctrl.lseq.at_ 0 s.mld.ctrl.rot + 1) % 1024
              ∧ t.mld.ctrl.credits = s.mld.ctrl.credits - 1 ∧ t.mld.ctrl.rot = (s.mld.ctrl.rot + 1) % 4
              ∧ (framesOf m.body.length ≤ s.mld.ctrl.part + 1 → t.mld.ctrl.next = s.mld.ctrl.next + 1 ∧ t.mld.ctrl.part = 0)
              ∧ (s.mld.ctrl.part + 1 < framesOf m.body.length → t.mld.ctrl.next = s.mld.ctrl.next ∧ t.mld.ctrl.part = s.mld.ctrl.part + 1)
              ∧ t.regs = s.regs ∧ Raises s t []) ∧
        (s.mld.sent[s.mld.ctrl.next]? = none ∨ s.mld.ctrl.credits = 0
            ∨ 512 ≤ s.mld.ctrl.unacked.countP (fun u => u.lane == s.mld.ctrl.rot) → Runs (.frameTransmit .ctrl e) s fun t =>
          t.mld.ctrl.unacked = s.mld.ctrl.unacked ∧ t.mld.ctrl.next = s.mld.ctrl.next ∧ t.regs = s.regs ∧ Raises s t [])))

/-- The link layer of ring ports and of the control link (R397, R398, R401, R402, R404, R406, R410, R412, R474, R475). -/
def Obligations.TheLinkLayer : Prop := LinkLayerRule ∧ ControlLinkRule

/-! ### The ring: admission, formation, bypass, re-injection and Solder (chapter 09) -/

/-- Formation fails here with a cause (R416). -/
def FormFails (s t : State) (cause : Nat) : Prop :=
  t.fld .circForm F.circForm_STATE = 3 ∧ t.fld .circForm F.circForm_CAUSE = cause ∧ t.fld .circPosition F.circPosition_VALID = 0
    ∧ Raises s t [{ Report.plain .formation 2 0 .circ 0 with detail := cause }]

/-- A note arrives that this member has not seen and did not send (R398, R407). -/
def NoteComes (s : State) (h : RxHead) (code origin number : Nat) : Prop :=
  h.port.val < 4 ∧ (∃ lane e, Arrives s h lane ∧ partMatch s h (some lane) = some e) ∧ isMember s h.arc = true
    ∧ origin ≠ s.position ∧ s.circ.seen.contains (code, origin, number) = false

/-- Admission keeps R414, and a module admitted where its West neighbour stands stands by beside it (R426, R427); formation takes the next position and hands FORM on, ends at the anchor, and fails with its cause;
SKIP moves traffic of the near port to the skip link and counts the neighbour as bypassed; PASS takes the module off the
ring; a FORM note on a span port is discarded; RESTORE waits for its switch-over, after which the position stands by (R403, R414, R416, R418 to R422, R426, R427, R431, R519). -/
def Obligations.RingMembership : Prop :=
  ∀ (s : State),
    (WriteReady s .circAdmit → ∀ ring epoch, ring < 8 → epoch < 2 ^ 32 → ∀ shown : Port → Bool,
      shown = (fun p => s.fld (.circPortPeer p) F.circPortPeer_PEER_POS_VALID == 1 && s.fld (.circPortPeer p) F.circPortPeer_PEER_ADMITTED == 1) →
      (s.fld .circAdmit F.circAdmit_STATE ≠ 2 → (s.fld .circAdmit F.circAdmit_STATE = 1 →
          ring = s.fld .circAdmit F.circAdmit_RING_ID ∧ epoch = s.fld .circAdmit F.circAdmit_EPOCH) →
        s.fld .secStatus F.secStatus_ATTESTED = 1 → epoch ≠ 0 → Runs (.admitModule ring epoch) s fun t =>
          t.fld .circAdmit F.circAdmit_STATE = 1 ∧ t.fld .circAdmit F.circAdmit_RING_ID = ring
            ∧ t.fld .circAdmit F.circAdmit_EPOCH = epoch ∧ RegsKept [.circAdmit, .circPosition, .circSplice] s t ∧ Raises s t []
            ∧ ((s.fld .circPosition F.circPosition_VALID = 1 ∨ s.fld .circForm F.circForm_STATE ≠ 0 ∨ (shown 0 = false ∧ shown 1 = false)) →
                RegsKept [.circAdmit] s t
                ∧ (∀ p, inService s p = true → ∃ f w0 w1 w2, (t.port p).out = (s.port p).out ++ [f] ∧ f.body = .link 1 w0 w1 w2)
                ∧ (∀ p, inService s p = false → t.port p = s.port p))
            ∧ (s.fld .circPosition F.circPosition_VALID = 0 → s.fld .circForm F.circForm_STATE = 0 → shown 1 = true → ringSize s ≤ 512 →
                t.fld .circPosition F.circPosition_VALID = 1
                ∧ t.fld .circPosition F.circPosition_POS = (s.fld (.circPortPeer 1) F.circPortPeer_PEER_POS + 1)
                    % (if ringSize s = 0 then 512 else ringSize s)
                ∧ t.fld .circSplice F.circSplice_STATE = max 1 (s.fld .circSplice F.circSplice_STATE))) ∧
      (s.fld .circAdmit F.circAdmit_STATE = 2 ∨ s.fld .secStatus F.secStatus_ATTESTED = 0 ∨ epoch = 0
          ∨ (s.fld .circAdmit F.circAdmit_STATE = 1
              ∧ (ring ≠ s.fld .circAdmit F.circAdmit_RING_ID ∨ epoch ≠ s.fld .circAdmit F.circAdmit_EPOCH)) →
        Rejects (.admitModule ring epoch) s .circAdmit) ∧
      (Runs .revoke s fun t => t.fld .circAdmit F.circAdmit_STATE = 2
        ∧ t.fld .circAdmit F.circAdmit_RING_ID = s.fld .circAdmit F.circAdmit_RING_ID
        ∧ t.fld .circAdmit F.circAdmit_EPOCH = s.fld .circAdmit F.circAdmit_EPOCH ∧ RegsKept [.circAdmit] s t
        ∧ Raises s t (if s.fld .circAdmit F.circAdmit_STATE = 2 then [] else [Report.plain .revoked 2 0 .circ 0]))) ∧
    (WriteReady s .circForm → ∀ n, n < 256 →
      (portState s 0 = 3 → Runs (.formStart n) s fun t => t.fld .circForm F.circForm_STATE = 1
        ∧ t.fld .circForm F.circForm_CAUSE = 0 ∧ t.fld .circForm F.circForm_SEGMENTS = n ∧ t.circ.anchor = true
        ∧ (t.port 0).out = (s.port 0).out ++ [⟨0, 0, .note 1 (BitVec.ofNat 64
            (n * 2 ^ 16 + s.fld .circAdmit F.circAdmit_EPOCH * 2 ^ 32)) 0 0, none⟩]
        ∧ RegsKept [.circForm] s t ∧ Raises s t []) ∧
      (portState s 0 ≠ 3 → Runs (.formStart n) s fun t => FormFails s t 2)) ∧
    (∀ (h : RxHead) (lane : Nat) (w0 : Word), Arrives s h lane → h.port = 1 ∨ h.port = 3 →
      (s.circ.anchor = false → portState s 0 = 3 → s.fld (.circPortPeer 2) F.circPortPeer_PEER_POS_VALID = 0 → Runs (.form h w0) s fun t =>
        t.fld .circPosition F.circPosition_VALID = 1 ∧ t.fld .circPosition F.circPosition_POS = (bitsOf w0 8 0 + 1) % 512
          ∧ (t.fld .circPosition F.circPosition_SPARE = 1 ↔ (bitsOf w0 8 0 + 1) % 16 = 15)
          ∧ t.fld .circForm F.circForm_STATE = 2 ∧ Raises s t []
          ∧ ∃ f ∈ (t.port 0).out, f.body = .note 1 (BitVec.ofNat 64 ((bitsOf w0 8 0 + 1) % 512 + bitsOf w0 23 16 * 2 ^ 16
              + s.fld .circAdmit F.circAdmit_EPOCH * 2 ^ 32)) 0 0) ∧
      (s.circ.anchor = true → s.fld .circForm F.circForm_STATE = 1 →
        (bitsOf w0 8 0 + 1 = 16 * s.fld .circForm F.circForm_SEGMENTS →
          s.fld (.circPortPeer 2) F.circPortPeer_PEER_POS_VALID = 0 → Runs (.form h w0) s fun t =>
            t.fld .circPosition F.circPosition_VALID = 1 ∧ t.fld .circPosition F.circPosition_POS = 0
              ∧ t.fld .circForm F.circForm_STATE = 2 ∧ Raises s t []) ∧
        (bitsOf w0 8 0 + 1 ≠ 16 * s.fld .circForm F.circForm_SEGMENTS → Runs (.form h w0) s fun t => FormFails s t 1))) ∧
    (∀ (h : RxHead) (lane : Nat) (w0 : Word), Arrives s h lane → 4 ≤ h.port.val → Runs (.form h w0) s fun t =>
      t.reg .circForm = s.reg .circForm ∧ t.reg .circPosition = s.reg .circPosition ∧ ∃ r, Raises s t [r] ∧ r.src = .spanDiscard) ∧
    (s.circ.anchor = true → s.fld .circForm F.circForm_STATE = 1 → s.circ.formSince + 10000000 ≤ s.now →
      Runs .formTimeout s fun t => FormFails s t 4 ∧ RegsKept [.circForm, .circPosition] s t) ∧
    (s.circ.anchor = false ∨ s.fld .circForm F.circForm_STATE ≠ 1 ∨ s.now < s.circ.formSince + 10000000 →
      exec .formTimeout s = .next s) ∧
    (WriteReady s .circBypass →
      (s.fld .circBypass F.circBypass_MODE ≠ 1 → ringSize s ≠ 0 → ringSize s ≤ 512 →
        (skipBits s % 2 = 0 → Runs .skipE s fun t => t.fld .circBypass F.circBypass_MODE = (if skipBits s / 2 = 1 then 4 else 2)
          ∧ t.fld .circBypass F.circBypass_BYP_POS = (s.position + 1) % ringSize s
          ∧ t.circ.bypassed.contains ((s.position + 1) % ringSize s) = true ∧ (t.port 0).unacked = []
          ∧ ∀ f ∈ (s.port 0).out, f.group ≠ 0 → f.sseq = none → (entryFor (tableOf s 2) f.arc f.role).isSome = true →
              f ∈ (t.port 2).out) ∧
        (skipBits s / 2 = 0 → Runs .skipW s fun t => t.fld .circBypass F.circBypass_MODE = (if skipBits s % 2 = 1 then 4 else 3)
          ∧ t.fld .circBypass F.circBypass_BYP_POS = (s.position + ringSize s - 1) % ringSize s
          ∧ t.circ.bypassed.contains ((s.position + ringSize s - 1) % ringSize s) = true ∧ (t.port 1).unacked = []
          ∧ ∀ f ∈ (s.port 1).out, f.group ≠ 0 → f.sseq = none → (entryFor (tableOf s 3) f.arc f.role).isSome = true →
              f ∈ (t.port 3).out)) ∧
      (Runs .pass s fun t => t.fld .circBypass F.circBypass_MODE = 1 ∧ t.fld .fcuStatus F.fcuStatus_OFF_RING = 1
        ∧ t.fld .fcuStatus F.fcuStatus_SCHED_BROKEN = 1 ∧ (∀ d, (t.die d).stopped = true) ∧ t.mld.seqs = []
        ∧ (∀ x, (t.stream x).arrivals = [] ∧ (t.stream x).building = []) ∧ passesAll t = true) ∧
      (∀ c skip p, (c, skip, p) ∈ ([(.restoreE, 2, 0), (.restoreW, 3, 1)] : List (Instr × Port × Port)) →
        ((if p = 0 then skipBits s % 2 else skipBits s / 2) = 1 → peerStands s p = true → Runs c s fun t =>
          t.circ.restoring.contains skip = true ∧ RegsKept [] s t ∧ Raises s t []) ∧
        ((if p = 0 then skipBits s % 2 else skipBits s / 2) = 0 ∨ peerStands s p = false → Rejects c s .circBypass))) ∧
    (∀ east : Bool, let skip : Port := if east then 2 else 3
      let q := if east then (s.position + 1) % ringSize s else (s.position + ringSize s - 1) % ringSize s
      (s.circ.restoring.contains skip = true → (s.port skip).unacked = [] → blockHalfSent s skip = false →
        (s.port skip).out.all (fun f => f.group != 3 || notBegun s skip f) = true → ringSize s ≠ 0 → s.fld .circBypass F.circBypass_MODE ≠ 1 → Runs (.restoreSwitchover east) s fun t =>
          t.fld .circBypass F.circBypass_MODE = (if east then (if skipBits s / 2 = 1 then 3 else 0) else (if skipBits s % 2 = 1 then 2 else 0))
            ∧ q ∈ t.circ.standing ∧ t.circ.bypassed = s.circ.bypassed.erase q ∧ t.circ.restoring = s.circ.restoring.erase skip
            ∧ (t.port skip).out = (s.port skip).out.filter (fun f => f.group == 0)
            ∧ (∀ f ∈ (s.port skip).out, f.group ≠ 0 → f ∈ (t.port (if east then 0 else 1)).out) ∧ Raises s t []) ∧
      (s.circ.restoring.contains skip = false ∨ (s.port skip).unacked ≠ [] ∨ blockHalfSent s skip = true → exec (.restoreSwitchover east) s = .next s)) ∧
    (∀ (h : RxHead) (w0 : Word),
      (NoteComes s h 2 (bitsOf w0 24 16) (bitsOf w0 63 32) → Runs (.bypass h w0) s fun t =>
        t.circ.bypassed.contains (bitsOf w0 8 0) = true) ∧
      (NoteComes s h 3 (bitsOf w0 24 16) (bitsOf w0 63 32) → s.circ.bypassed.contains (bitsOf w0 8 0) = true →
        Runs (.restoreNote h w0) s fun t => bitsOf w0 8 0 ∈ t.circ.standing ∧ t.circ.bypassed = s.circ.bypassed.erase (bitsOf w0 8 0)))

/-- A bound opens a gap from the block after the last one whole, or waits behind one that is open; a member answers a request
with the owned blocks of the gap it holds and then GAP_DONE; D reloads what is still missing once every member has
answered or time is up; ARM and ABORT keep R428, a spliced position is a live member again, and its interim owner lets
its entries go (R423, R424, R426, R428, R429, R442). -/
def Obligations.GapsAndSplices : Prop :=
  ∀ (s : State),
    (∀ (h : RxHead) (lane e : Nat) (w0 : Word) (x : StreamId), Arrives s h lane → h.port.val < 4 →
      partMatch s h (some lane) = some e → isMember s h.arc = true → x.val = bitsOf w0 63 63 →
      (2 ≤ s.fld .circReinjA F.circReinjA_STATE → Runs (.gapBound h w0) s fun t =>
        t.circ.reinj.bounds = s.circ.reinj.bounds ++ [(x, bitsOf w0 55 32)] ∧ t.reg .circReinjA = s.reg .circReinjA ∧ Raises s t []) ∧
      (∀ l, s.fld .circReinjA F.circReinjA_STATE < 2 → (s.stream x).last = some l →
        (0 < seqGap (streamLen s x) (bitsOf w0 55 32) l → 2 * seqGap (streamLen s x) (bitsOf w0 55 32) l < streamLen s x →
          Runs (.gapBound h w0) s fun t => t.fld .circReinjA F.circReinjA_STATE = 2 ∧ t.fld .circReinjA F.circReinjA_STREAM = x.val
            ∧ t.fld .circReinjA F.circReinjA_FIRST = (l + 1) % streamLen s x ∧ t.circ.reinj.hi = some (bitsOf w0 55 32)
            ∧ (t.stream x).last = some (bitsOf w0 55 32) ∧ (t.stream x).building = [] ∧ Raises s t []) ∧
        (seqGap (streamLen s x) (bitsOf w0 55 32) l = 0 ∨ streamLen s x ≤ 2 * seqGap (streamLen s x) (bitsOf w0 55 32) l →
          Runs (.gapBound h w0) s fun t => t.fld .circReinjA F.circReinjA_STATE = 0 ∧ (t.stream x).last = some l ∧ Raises s t []))) ∧
    (∀ (h : RxHead) (w0 w1 w2 : Word) (x : StreamId), NoteComes s h 7 (bitsOf w1 8 0) (bitsOf w1 63 32) → x.val = bitsOf w0 63 63 →
      (∀ b ∈ ownedBlocks s x, seqGap (streamLen s x) b.1 (bitsOf w0 55 32)
          ≤ seqGap (streamLen s x) (bitsOf w0 31 8) (bitsOf w0 55 32) → uncaptured s x b.1 = false → slotFits s b.2 = true →
        tierServes s b.2 16448 = true → Runs (.gapReq h w0 w1 w2) s fun t => ∃ r ∈ t.remoteOut, r.op = 5 ∧ r.tgtPos = bitsOf w1 8 0
          ∧ r.addr = bitsOf w2 47 0 + seqGap (streamLen s x) b.1 (bitsOf w0 55 32) * 16448 ∧ r.data = (blockAt s b.2).take 224) ∧
      (ownedBlocks s x = [] → s.remoteOut = [] → s.circ.doneNotes = [] → Runs (.gapReq h w0 w1 w2) s fun t => t.remoteOut = []
        ∧ t.circ.doneNotes = [] ∧ ∃ p, ∃ f ∈ (t.port p).out, f.body = .note 8 (BitVec.ofNat 64 (x.val * 2 ^ 63 + s.position))
            (BitVec.ofNat 64 (bitsOf w1 63 32 * 2 ^ 32)) 0)) ∧
    (∀ (h : RxHead) (w0 w1 : Word), NoteComes s h 8 (bitsOf w0 8 0) (bitsOf w1 63 32) → s.fld .circReinjA F.circReinjA_STATE = 2 →
      s.circ.reinj.note % 2 ^ 32 = bitsOf w1 63 32 →
      ((∃ p ∈ liveMembers s, p ≠ s.position ∧ p ≠ bitsOf w0 8 0 ∧ p ∉ s.circ.reinj.done) → Runs (.gapDone h w0 w1) s fun t =>
        t.fld .circReinjA F.circReinjA_STATE = 2 ∧ bitsOf w0 8 0 ∈ t.circ.reinj.done ∧ t.mld = s.mld) ∧
      ((∀ p ∈ liveMembers s, p = s.position ∨ p = bitsOf w0 8 0 ∨ p ∈ s.circ.reinj.done) → Runs (.gapDone h w0 w1) s fun t =>
        t.fld .circReinjA F.circReinjA_STATE
          = (if (missingBlocks s ⟨s.fld .circReinjA F.circReinjA_STREAM % 2, Nat.mod_lt _ (by decide)⟩) = [] then 4 else 3))) ∧
    (s.fld .circReinjA F.circReinjA_STATE = 2 →
      s.circ.reinj.since + s.fld .circReinjCtrl F.circReinjCtrl_TIMEOUT_MS * 1000000 ≤ s.now → Runs .reinjTimeout s fun t =>
        t.fld .circReinjA F.circReinjA_STATE
          = (if (missingBlocks s ⟨s.fld .circReinjA F.circReinjA_STREAM % 2, Nat.mod_lt _ (by decide)⟩) = [] then 4 else 3)
        ∧ RegsKept [.circReinjA] s t ∧ Raises s t [] ∧ StoresKept s t ∧ DiesKept s t) ∧
    (s.fld .circReinjA F.circReinjA_STATE ≠ 2
      ∨ s.now < s.circ.reinj.since + s.fld .circReinjCtrl F.circReinjCtrl_TIMEOUT_MS * 1000000 → exec .reinjTimeout s = .next s) ∧
    (WriteReady s .circSplice →
      (spliceArmOk s = true → Runs .spliceArm s fun t => t.fld .circSplice F.circSplice_STATE = 2
        ∧ RegsKept [.circSplice] s t ∧ t.circ = s.circ ∧ Raises s t []) ∧
      (spliceArmOk s = false → Rejects .spliceArm s .circSplice) ∧
      (s.fld .circSplice F.circSplice_STATE = 2 ∨ (s.fld .circSplice F.circSplice_STATE = 6 ∧ s.fld .fcuStatus F.fcuStatus_OFF_RING = 0) →
        Runs .spliceAbort s fun t => t.fld .circSplice F.circSplice_STATE = 1 ∧ RegsKept [.circSplice] s t ∧ Raises s t []) ∧
      (s.fld .circSplice F.circSplice_STATE ≠ 2 → s.fld .circSplice F.circSplice_STATE ≠ 6 ∨ s.fld .fcuStatus F.fcuStatus_OFF_RING = 1 →
        exec .spliceAbort s = .next s)) ∧
    (∀ (h : RxHead) (w0 : Word),
      (NoteComes s h 4 (bitsOf w0 24 16) (bitsOf w0 63 32) → Runs (.splice h w0) s fun t =>
        t.circ.bypassed = s.circ.bypassed.erase (bitsOf w0 8 0) ∧ t.circ.standing = s.circ.standing.erase (bitsOf w0 8 0)
          ∧ (bitsOf w0 8 0 % 16 = 15 → bitsOf w0 8 0 ∈ t.circ.joined)
          ∧ t.fld .circRingConf F.circRingConf_ARC_ACTIVE = min (s.fld .circRingConf F.circRingConf_ARC_ACTIVE + 1) 1023) ∧
      (NoteComes s h 5 (bitsOf w0 8 0) (bitsOf w0 63 32) → Runs (.spliced h w0) s fun t =>
        t.circ.interim = s.circ.interim.drop (bitsOf w0 19 16)
          ∧ (∀ r ∈ s.circ.interim.take (bitsOf w0 19 16), t.reg (.circOwn r) = 0)
          ∧ (∀ r, r ∉ s.circ.interim.take (bitsOf w0 19 16) → t.reg (.circOwn r) = s.reg (.circOwn r))))

/-! ### Memory tiers (chapter 10) -/

/-- A retrain step starts only in a gap of a target in UP with no other step of its stack or package, is forced and counted once
PERIOD_US has passed without one, lasts its time, and its third failure in a row retires the stack or loses the package; a stack leaves service on its flag, on command or by
its count, and is RETIRED once it is quiet or 2 µs have passed, with its sequences lost (R450 to R454, R457, R458, R470). -/
def Obligations.MemoryTiers : Prop :=
  ∀ (s : State),
    (∀ t,
      (targetUp s t = true → stepElsewhere s t = false → inGap s t = true → Runs (.retrainStepStart t) s fun u =>
        u = { s with tier := { s.tier with steps := s.tier.steps ++ [t], stepAt := s.tier.stepAt.put t s.now } }) ∧
      (targetUp s t = false ∨ stepElsewhere s t = true ∨ inGap s t = false → exec (.retrainStepStart t) s = .next s) ∧
      (targetUp s t = false ∨ t ∈ s.tier.steps ∨ s.now < s.tier.stepAt.at_ 0 t + bitsOf (s.reg (retrainCtrl t)) 31 16 * 1000 →
        exec (.retrainStepForced t) s = .next s) ∧
      (targetUp s t = true → t ∉ s.tier.steps → s.tier.stepAt.at_ 0 t + bitsOf (s.reg (retrainCtrl t)) 31 16 * 1000 ≤ s.now →
        (t < 256 → Runs (.retrainStepForced t) s fun u => u.tier.steps = s.tier.steps ++ [t] ∧ u.tier.stepAt.at_ 0 t = s.now
          ∧ u.fld (stackErr (t / 32)) F.hbmStackErr_FORCED = min (s.fld (stackErr (t / 32)) F.hbmStackErr_FORCED + 1) 65535
          ∧ RegsKept [stackErr (t / 32)] s u ∧ Raises s u [] ∧ StoresKept s u) ∧
        (1000 ≤ t → Runs (.retrainStepForced t) s fun u => u.tier.steps = s.tier.steps ++ [t] ∧ u.tier.stepAt.at_ 0 t = s.now
          ∧ u.fld (chStatus (t - 1000)) F.lpdChStatus_FORCED = min (s.fld (chStatus (t - 1000)) F.lpdChStatus_FORCED + 1) 65535
          ∧ RegsKept [chStatus (t - 1000)] s u ∧ Raises s u [] ∧ StoresKept s u)) ∧
      (t ∉ s.tier.steps ∨ s.now < s.tier.stepAt.at_ 0 t + stepNs t → ∀ lock, exec (.retrainStepEnd t lock) s = .next s) ∧
      (t ∈ s.tier.steps → s.tier.stepAt.at_ 0 t + stepNs t ≤ s.now →
        (Runs (.retrainStepEnd t true) s fun u => u.tier.steps = s.tier.steps.erase t ∧ u.tier.failRuns.at_ 0 t = 0
          ∧ u.regs = s.regs ∧ Raises s u [] ∧ StoresKept s u) ∧
        (s.tier.failRuns.at_ 0 t ≤ 1 → Runs (.retrainStepEnd t false) s fun u => u.tier.steps = s.tier.steps.erase t
          ∧ u.tier.failRuns.at_ 0 t = s.tier.failRuns.at_ 0 t + 1 ∧ u.regs = s.regs ∧ Raises s u [] ∧ StoresKept s u) ∧
        (s.tier.failRuns.at_ 0 t = 2 → t < 256 → stackState s (t / 32) = 2 →
          (s.fld (.hbmRetireCtrl ⟨t / 128 % 2, Nat.mod_lt _ (by decide)⟩) F.hbmRetireCtrl_AUTO = 1 → Runs (.retrainStepEnd t false) s fun u =>
            stackState u (t / 32) = 3 ∧ u.fld (stackStatus (t / 32)) F.hbmStackStatus_CAUSE = 2 ∧ Raises s u []) ∧
          (s.fld (.hbmRetireCtrl ⟨t / 128 % 2, Nat.mod_lt _ (by decide)⟩) F.hbmRetireCtrl_AUTO = 0 →
            s.fld (stackStatus (t / 32)) F.hbmStackStatus_PENDING = 0 → Runs (.retrainStepEnd t false) s fun u =>
              stackState u (t / 32) = 2 ∧ u.fld (stackStatus (t / 32)) F.hbmStackStatus_PENDING = 1
                ∧ Raises s u [Report.plain .stackRetired (t / 128) (t / 32) .hbm 0])) ∧
        (s.tier.failRuns.at_ 0 t = 2 → 1000 ≤ t → t < 1016 → s.fld (chStatus (2 * ((t - 1000) / 2))) F.lpdChStatus_STATE ≠ 3 →
          Runs (.retrainStepEnd t false) s fun u => u.fld (chStatus (2 * ((t - 1000) / 2))) F.lpdChStatus_STATE = 3
            ∧ u.fld (chStatus (2 * ((t - 1000) / 2) + 1)) F.lpdChStatus_STATE = 3
            ∧ Raises s u [Report.plain .lpdLost 2 ((t - 1000) / 2) .lpd 0]))) ∧
    (∀ (n : Fin 8) (temp : Nat),
      (Runs (.hbmTempRead n temp false) s fun u => u.fld (stackStatus n.val) F.hbmStackStatus_TEMP = min temp 255
        ∧ stackState u n.val = stackState s n.val ∧ RegsKept [stackStatus n.val] s u ∧ Raises s u [] ∧ StoresKept s u) ∧
      (stackState s n.val = 2 → Runs (.hbmTempRead n temp true) s fun u => u.fld (stackStatus n.val) F.hbmStackStatus_TEMP = min temp 255
        ∧ stackState u n.val = 3 ∧ u.fld (stackStatus n.val) F.hbmStackStatus_CAUSE = 3
        ∧ Raises s u [{ Report.plain .hbmCrit (n.val / 4) n.val .hbm 0 with detail := 3 }]
        ∧ RegsKept [stackStatus n.val, .circUpdate] s u ∧ StoresKept s u) ∧
      (WriteOpen s (.hbmStackCmd ⟨n.val / 4, by omega⟩ ⟨n.val % 4, Nat.mod_lt _ (by decide)⟩) → stackState s n.val = 2 →
        Runs (.hbmRetire n) s fun u => stackState u n.val = 3 ∧ u.fld (stackStatus n.val) F.hbmStackStatus_CAUSE = 4
          ∧ Raises s u [] ∧ RegsKept [stackStatus n.val, .circUpdate] s u ∧ StoresKept s u) ∧
      (WriteReady s (.hbmStackCmd ⟨n.val / 4, by omega⟩ ⟨n.val % 4, Nat.mod_lt _ (by decide)⟩) → stackState s n.val ≠ 2 →
        Rejects (.hbmRetire n) s (.hbmStackCmd ⟨n.val / 4, by omega⟩ ⟨n.val % 4, Nat.mod_lt _ (by decide)⟩)) ∧
      (stackState s n.val = 3 → stackBusy s n.val = false ∨ s.tier.retiring.at_ 0 n.val + 2000 ≤ s.now →
        Runs (.stackRetired n) s fun u => stackState u n.val = 4 ∧ n.val ∈ u.tier.retired
          ∧ Raises s u [Report.plain (if s.tier.retired = [] then .stackRetired else .stackSecond) (n.val / 4) n.val .hbm 0]
          ∧ (∀ q ∈ u.mld.seqs, q.stack = n.val → q.st = .queued ∨ q.st = .parked)
          ∧ RegsKept [stackStatus n.val] s u ∧ StoresKept s u) ∧
      (stackState s n.val ≠ 3 ∨ (stackBusy s n.val = true ∧ s.now < s.tier.retiring.at_ 0 n.val + 2000) →
        exec (.stackRetired n) s = .next s))

/-! ### The control link and the service (chapter 11) -/

/-- The control link trains on light, is LINKED when its lanes carry frames and LOST when one does not; a message is taken only
with a good head, in the session, from its role; HELLO begins a session and answers first of all; a register access is
answered with its status; a LOAD writes where memory stands; a dump goes out whole in messages of at most 65,496 bytes
(R380, R464, R476 to R480, R497, R498). -/
def MessagesRule : Prop :=
  ∀ (s : State),
    ((linkState s = 4 ∨ (linkState s = 0 ∧ s.fld .mldLinkCtrl F.mldLinkCtrl_ENABLE = 1)) → s.pow.phases.contains 1 = true →
      Runs .ctrlLightDetect s fun t => linkState t = 1 ∧ RegsKept [.mldLinkStatus] s t ∧ t.mld = s.mld ∧ Raises s t []) ∧
    (linkState s = 1 ∨ linkState s = 2 ∨ linkState s = 3 ∨ s.pow.phases.contains 1 = false → exec .ctrlLightDetect s = .next s) ∧
    (linkState s = 1 → Runs .ctrlLinked s fun t => linkState t = 2 ∧ t.readyBit 3 = true
      ∧ t.fld .mldLinkStatus F.mldLinkStatus_LANES_UP = 15 ∧ t.inbox = [] ∧ t.mld.ctrl.unacked = [] ∧ t.mld.ctrl.turn = 0
      ∧ RegsKept [.mldLinkStatus, .ptcReady] s t ∧ Raises s t []) ∧
    (linkState s ≠ 1 → exec .ctrlLinked s = .next s) ∧
    (linkState s = 2 ∨ linkState s = 3 → laneLost s = true → Runs .ctrlLost s fun t => linkState t = 4 ∧ t.readyBit 3 = false
      ∧ t.fld .mldLinkStatus F.mldLinkStatus_SESSION = 0 ∧ t.fld .mldLinkStatus F.mldLinkStatus_LANES_UP = 0
      ∧ Raises s t [Report.plain .ctrlLost 2 0 .mld 0] ∧ RegsKept [.mldLinkStatus, .ptcReady] s t ∧ t.mld = s.mld) ∧
    ((linkState s ≠ 2 ∧ linkState s ≠ 3) ∨ laneLost s = false → exec .ctrlLost s = .next s) ∧
    (∀ (h : MsgHead) (n m : Nat) (a v : Word) (bs : List Byte) (es : List (Nat × Nat)),
      (linkState s ≠ 2 → linkState s ≠ 3 → ∀ c ∈ ([.hello h, .job h n m, .load h a bs, .prompt h bs, .ack h es, .evictCancel h n,
        .evictPark h n, .regRd h a, .regWr h a v, .dumpReq h n] : List Instr), exec c s = .next s) ∧
      (h.frame = none → linkState s = 2 ∨ linkState s = 3 →
        (h.ok = false ∨ 2 ≤ h.role → ∀ c ∈ ([.hello h, .job h n m, .load h a bs, .prompt h bs, .ack h es, .evictCancel h n,
          .evictPark h n, .regRd h a, .regWr h a v, .dumpReq h n] : List Instr), exec c s = .next (s.raise (Report.plain .msgBad 2 0 .mld 0))) ∧
        (h.ok = true → h.role < 2 → linkState s = 2 ∨ h.session ≠ s.fld .mldLinkStatus F.mldLinkStatus_SESSION →
          ∀ c ∈ ([.job h n m, .load h a bs, .prompt h bs, .ack h es, .evictCancel h n, .evictPark h n, .regRd h a, .regWr h a v,
            .dumpReq h n] : List Instr), Runs c s fun t =>
              t.fld .mldLinkStatus F.mldLinkStatus_STALE = min (s.fld .mldLinkStatus F.mldLinkStatus_STALE + 1) 65535
                ∧ RegsKept [.mldLinkStatus] s t ∧ t.mld = s.mld ∧ Raises s t [] ∧ StoresKept s t) ∧
        (h.ok = true → h.role < 2 → h.session = 0 → exec (.hello h) s = .next (s.raise (Report.plain .sessionZero 2 0 .mld 0))) ∧
        (h.ok = true → h.role < 2 → h.session ≠ 0 → h.session < 65536 → s.sec.recovery = false → Runs (.hello h) s fun t =>
          linkState t = 3 ∧ t.fld .mldLinkStatus F.mldLinkStatus_SESSION = h.session ∧ t.mld.held = [] ∧ t.fcu.events = []
            ∧ (∃ rest, t.mld.sent = s.mld.sent ++ (⟨0x81, h.rtag, h.session, 0, helloBody s⟩ :: rest))
            ∧ RegsKept [.mldLinkStatus] s t ∧ t.mld.log = s.mld.log ∧ t.mld.seqs = s.mld.seqs
            ∧ (s.fcu.log.all (fun e => e.2.good) = true → Raises s t []) ∧ StoresKept s t)) ∧
      (h.frame = none → linkState s = 3 → h.ok = true → h.session = s.fld .mldLinkStatus F.mldLinkStatus_SESSION →
        (h.role = 1 → ∀ c ∈ ([.prompt h bs, .ack h es, .evictCancel h n, .evictPark h n] : List Instr),
          exec c s = .next (s.raise (Report.plain .msgRole 2 0 .mld 0))) ∧
        (h.role = 0 → ∀ c ∈ ([.job h n m, .load h a bs, .dumpReq h n] : List Instr),
          exec c s = .next (s.raise (Report.plain .msgRole 2 0 .mld 0)))) ∧
      (Accepts s h [1] → s.sec.recovery = false →
        (1 ≤ m → m ≤ 1048576 → Runs (.job h n m) s fun t => t.mld = { s.mld with jobSet := true, job := n % 65536, vocab := m }
          ∧ t.regs = s.regs ∧ Raises s t [] ∧ StoresKept s t) ∧
        (m = 0 ∨ 1048576 < m → exec (.job h n m) s = .next (s.raise (Report.plain .msgBad 2 0 .mld 0))) ∧
        (bitsOf a 62 48 ≠ 0 → exec (.load h a bs) s = .next (s.raise (Report.plain .addressHigh 2 0 .mld (bitsOf a 47 0)))) ∧
        (bitsOf a 63 48 = 0 → bs ≠ [] → inBack s a.toNat bs.length = false →
          (inRange s a.toNat bs.length = false → exec (.load h a bs) s = .next (s.raise (Report.plain .windowViolation 2 0 .mld a.toNat))) ∧
          (inRange s a.toNat bs.length = true → tierHolds s a.toNat bs.length = true → a.toNat % 32 = 0 → bs.length % 32 = 0 →
            writeKind a.toNat 0 = .write → s.mld.blockReqs = [] → Mem.wf s.mem = true →
            (match placeOf a.toNat with | .store d _ _ _ _ => s.readyBit (7 + d.val) | .hbm k => s.readyBit (5 + k / 4 % 2)
                                        | .lpd => s.readyBit 4 | _ => false) = true →
            Runs (.load h a bs) s fun t => Mem.read t.mem (directAddr a.toNat) bs.length = bs
              ∧ MemKeptBut (directAddr a.toNat) bs.length s t ∧ t.regs = s.regs ∧ t.mld = s.mld ∧ Raises s t [] ∧ DiesKept s t)) ∧
        (bitsOf a 63 63 = 1 → bitsOf a 62 48 = 0 → bs ≠ [] → (inBack s (bitsOf a 47 0) 1 = false
            ∨ (s.fld .circRingConf F.circRingConf_ENABLE = 1 ∧ s.mld.blockReqs = [])) →
          exec (.load h a bs) s = .next (s.raise (Report.plain .loadRejected 2 0 .mld (bitsOf a 47 0)))) ∧
        (Runs (.dumpReq h n) s fun t => ∃ ms, t.mld.sent = s.mld.sent ++ ms
          ∧ (∀ k ∈ ms, k.typ = 0x88 ∧ k.rtag = h.rtag ∧ k.body.length ≤ 65496) ∧ ms.flatMap (fun k => k.body) = dumpImage s n
          ∧ t.regs = s.regs ∧ Raises s t [] ∧ StoresKept s t ∧ DiesKept s t)) ∧
      (Accepts s h [0, 1] → ∀ r, a.toNat = r.addr → Reg.ofAddr r.addr = some r → WriteReady s r →
        (h.role = 1 ∨ r.hasU = true → Runs (.regRd h a) s fun t =>
          Sends s t 0x85 h.rtag (leBytes 8 0 ++ leBytes 8 (readReg s r (h.role == 1)).toNat)
            ∧ t.regs = s.regs ∧ Raises s t [] ∧ StoresKept s t) ∧
        (h.role = 0 → r.hasU = false → ∀ c ∈ ([.regRd h a, .regWr h a v] : List Instr), Runs c s fun t =>
          Sends s t 0x85 h.rtag (leBytes 8 (2 * 2 ^ 62) ++ leBytes 8 0) ∧ t.regs = s.regs
            ∧ Raises s t [Report.plain .view r.dieCode 0 r.block r.addr] ∧ StoresKept s t) ∧
        (h.role = 1 → r = .circPeriodTarget → Runs (.regWr h a v) s fun t => Sends s t 0x85 h.rtag (leBytes 8 0 ++ leBytes 8 0)
          ∧ t.fld r F.circPeriodTarget_NS = bitsOf v 39 0 ∧ RegsKept [r] s t ∧ Raises s t [])))

/-- The messages of R478 that come down, as functions of the head. -/
def messages (n m : Nat) (a v : Word) (bs : List Byte) (es : List (Nat × Nat)) : List (MsgHead → Instr) :=
  [(.job · n m), (.load · a bs), (.prompt · bs), (.ack · es), (.evictCancel · n), (.evictPark · n), (.regRd · a), (.regWr · a v),
   (.dumpReq · n)]

/-- Nothing but the link layer of the control link and the messages that wait has changed. -/
def OnlyLink (s t : State) : Prop := t = { s with mld := { s.mld with ctrl := t.mld.ctrl }, inbox := t.inbox }

/-- A message comes as its frames: one that is whole is handed on in the order of MSEQ, one that comes early waits, the first
frame of a longer one waits for the others, a frame too far from the turn is discarded with a LINK fault, one out of order
or not good is answered with NAK, and HELLO begins from MSEQ 0 (R474, R475; the window of turns and the HELLO from MSEQ 0
are the model's choice, log entry 54). -/
def MessageFramesRule : Prop :=
  ∀ (s : State) (h : MsgHead) (f : CtrlHead) (n m : Nat) (a v : Word) (bs : List Byte) (es : List (Nat × Nat)), h.frame = some f →
    (ctrlUp s = true → f.good = false ∨ (f.typ ≠ 0 ∧ f.lseq % 1024 ≠ s.mld.ctrl.rx.at_ 0 f.lane.val % 1024) →
      ∀ c ∈ .hello :: messages n m a v bs es, Runs (c h) s fun t => f.lane.val ∈ t.mld.ctrl.naks
        ∧ t.mld.ctrl.rx = s.mld.ctrl.rx ∧ t.mld.ctrl.building = s.mld.ctrl.building ∧ OnlyLink s t) ∧
    (CtrlArrives s f → f.typ = 1 → s.mld.ctrl.building.length < 8 → (∀ b ∈ s.mld.ctrl.building, b.tag ≠ f.tag % 2 ^ 24) →
      (f.sub = 0 → f.eot = true →
        (turnGap s (f.tag % 2 ^ 24) = 0 → ∀ c ∈ .hello :: messages n m a v bs es, ∃ u,
          exec (c h) s = exec (c { h with frame := none }) u ∧ u.mld.ctrl.turn = (f.tag + 1) % 2 ^ 24
            ∧ u.mld.ctrl.rx.at_ 0 f.lane.val = (s.mld.ctrl.rx.at_ 0 f.lane.val + 1) % 1024
            ∧ u.mld.ctrl.owed = s.mld.ctrl.owed + 1 ∧ u.mld.ctrl.building = s.mld.ctrl.building ∧ u.inbox = s.inbox ∧ OnlyLink s u) ∧
        (0 < turnGap s (f.tag % 2 ^ 24) → turnGap s (f.tag % 2 ^ 24) < 8 → ∀ c ∈ messages n m a v bs es, Runs (c h) s fun t =>
          t.inbox = s.inbox ++ [(f.tag % 2 ^ 24, c { h with frame := none })] ∧ t.mld.ctrl.turn = s.mld.ctrl.turn ∧ OnlyLink s t) ∧
        (turnGap s (f.tag % 2 ^ 24) ≠ 0 → f.tag % 2 ^ 24 = 0 → ∃ u, exec (.hello h) s = exec (.hello { h with frame := none }) u
          ∧ u.mld.ctrl.turn = 1 ∧ u.inbox = [] ∧ OnlyLink s u)) ∧
      (turnGap s (f.tag % 2 ^ 24) < 8 → f.eot = false → f.sub < 256 → ∀ c ∈ .hello :: messages n m a v bs es, Runs (c h) s fun t =>
        t.mld.ctrl.building = s.mld.ctrl.building ++ [⟨f.tag % 2 ^ 24, [f.sub], none⟩] ∧ t.inbox = s.inbox
          ∧ t.mld.ctrl.turn = s.mld.ctrl.turn ∧ OnlyLink s t) ∧
      (8 ≤ turnGap s (f.tag % 2 ^ 24) → ∀ c ∈ messages n m a v bs es, Runs (c h) s fun t =>
        Raises s t [Report.plain .frameBad 2 0 .mld 0] ∧ t.mld.ctrl.building = s.mld.ctrl.building ∧ t.inbox = s.inbox
          ∧ t.mld.ctrl.turn = s.mld.ctrl.turn ∧ t.regs = s.regs ∧ StoresKept s t))

/-- The control link, its messages, and the frames they come in (R380, R464, R474 to R480, R497, R498). -/
def Obligations.LinkAndMessages : Prop := MessagesRule ∧ MessageFramesRule

/-- A PROMPT is answered with the status of R486 and, when it is good, its sequence joins; an ACK clears the tokens below its
index and is counted when it goes beyond what was drawn; EVICT CANCEL ends a waiting sequence at once and marks another for
its cohort's next WAIT_E, as EVICT PARK does (R478, R481, R483, R486, R492, R494). -/
def Obligations.PromptsAndSequences : Prop :=
  ∀ (s : State) (h : MsgHead) (b : List Byte) (id n : Nat), Accepts s h [0] → s.sec.recovery = false →
    (let pid := headField b 0 4
      let status (k : Nat) : List Byte := leBytes 8 (pid % 2 ^ 32 * 2 ^ 32 + k)
      let q := newSeq pid b (promptTokens b)
      (notReady s = true → Runs (.prompt h b) s fun t => Sends s t 0x84 h.rtag (status 5) ∧ t.mld.seqs = s.mld.seqs ∧ t.regs = s.regs) ∧
      (notReady s = false → s.mld.jobSet = false ∨ headField b 4 2 ≠ s.fld .circArc F.circArc_JOB → Runs (.prompt h b) s fun t =>
        Sends s t 0x84 h.rtag (status 6) ∧ t.mld.seqs = s.mld.seqs ∧ t.regs = s.regs) ∧
      (notReady s = false → s.mld.jobSet = true → headField b 4 2 = s.fld .circArc F.circArc_JOB →
        (headField b 6 1 / 2 % 2 = 1 → (∀ p, seqOf s pid = some p → p.st ≠ .parked) → Runs (.prompt h b) s fun t =>
          Sends s t 0x84 h.rtag (status 7) ∧ t.mld.seqs = s.mld.seqs ∧ t.regs = s.regs) ∧
        (headField b 6 1 / 2 % 2 = 0 →
          ((seqOf s pid).isSome = true → Runs (.prompt h b) s fun t =>
            Sends s t 0x84 h.rtag (status 3) ∧ t.mld.seqs = s.mld.seqs ∧ t.regs = s.regs) ∧
          (seqOf s pid = none → tokensOk s b = false → Runs (.prompt h b) s fun t =>
            Sends s t 0x84 h.rtag (status 2) ∧ t.mld.seqs = s.mld.seqs ∧ t.regs = s.regs) ∧
          (seqOf s pid = none → tokensOk s b = true → headField b 6 1 / 4 % 2 = 0 → headField b 6 1 / 8 % 2 = 0 → paramsOk s b = true →
            (promptTokens b).length > headField (b.take 352) 12 4 → s.mld.seqs.countP (fun p => p.st == .queued) < 4096 →
            Runs (.prompt h b) s fun t => Sent t 0x84 h.rtag (status (if neverFits s q then 4 else 0))
              ∧ (neverFits s q = false → s.readyBit 11 = true → ∃ p ∈ t.mld.seqs, p.id = pid ∧ p.toks = promptTokens b))))) ∧
    (∀ q, seqOf s id = some q →
      (n ≤ q.committed → exec (.ack h [(id, n)]) s = .next s) ∧
      (q.committed < n → n ≤ q.count → Runs (.ack h [(id, n)]) s fun t =>
        t.mld.log = s.mld.log.filter (fun k => !(k.id == id && decide (k.idx < n)))
          ∧ (seqOf t id).map (fun p => p.committed) = some n ∧ t.regs = s.regs ∧ Raises s t []) ∧
      (q.committed < n → q.count < n → (∀ k ∈ logOf s id, k.idx + 1 < n) → Runs (.ack h [(id, n)]) s fun t =>
        Raises s t [Report.plain .ackBeyond 2 0 .mld 0] ∧ t.mld = s.mld ∧ RegsKept [.mldSvcCounts] s t
          ∧ t.fld .mldSvcCounts F.mldSvcCounts_ACK_ERRS = min (s.fld .mldSvcCounts F.mldSvcCounts_ACK_ERRS + 1) 65535) ∧
      (q.st = .queued ∨ q.st = .parked → Runs (.evictCancel h id) s fun t => seqOf t id = none
        ∧ Sends s t 0x83 0 (seqEndBody id 4 q.count) ∧ t.regs = s.regs ∧ Raises s t [] ∧ StoresKept s t) ∧
      (q.st = .prefill ∨ q.st = .decode → Runs (.evictCancel h id) s fun t => seqOf t id = some { q with cancelReq := true }
        ∧ t.mld.sent = s.mld.sent ∧ t.regs = s.regs ∧ Raises s t []) ∧
      (q.st = .ending → exec (.evictCancel h id) s = .next s) ∧
      (q.st ≠ .ending → q.st ≠ .parked → Runs (.evictPark h id) s fun t => seqOf t id = some { q with parkReq := true }
        ∧ t.mld.sent = s.mld.sent ∧ t.regs = s.regs ∧ Raises s t []) ∧
      (q.st = .ending ∨ q.st = .parked → Runs (.evictPark h id) s fun t => seqOf t id = some q
        ∧ t.mld.sent = s.mld.sent ∧ t.regs = s.regs ∧ Raises s t [])) ∧
    (seqOf s id = none →
      exec (.evictCancel h id) s = .next s ∧ (logOf s id = [] → exec (.ack h [(id, n)]) s = .next s))

/-! ### The whole machine -/

/-- Every step keeps memory, the flash and the firmware memory in canonical form: addresses rising, no blank byte listed
(the form is the model's own, log entry 3). -/
def Obligations.EveryStepKeepsCanonicalMemory : Prop :=
  ∀ (s t : State), Canonical s → step s = .next t → Canonical t

/-- A register with an address that a module has: a lane register only for a lane its port has (R626). -/
def presentReg : Sys2Proof.Machine.Reg → Bool
  | .circLaneA p l | .circLaneB p l => decide (l.val < lanesOf p)
  | _ => true

/-- Every register stands at one aligned address of its own block's range, and the map from addresses leads back to it (R7,
R614, R615). -/
def Obligations.RegistersHaveTheirAddresses : Prop :=
  ∀ r : Reg, presentReg r = true → Reg.ofAddr r.addr = some r ∧ r.addr % 8 = 0
    ∧ 0xFE00000000 ≤ r.addr ∧ r.addr < 0xFF00000000 ∧ Block.ofNum ((r.addr - 0xFE00000000) / 0x1000000) = some r.block

/-- What reset leaves: nothing waits, memory is in canonical form, every register holds its reset word, every context slot is
EMPTY, every counter and barrier object is at 0, every port and the control link are DOWN, no bring-up phase has ended. -/
def Obligations.WhatResetLeaves : Prop :=
  Canonical State.reset ∧ State.reset.pending = [] ∧ (∀ r, State.reset.reg r = r.resetWord)
    ∧ (∀ d q x, (State.reset.ctx d q x).st = .empty ∧ (State.reset.ctx d q x).pc = 0)
    ∧ (∀ d n, counterValue State.reset d n = 0) ∧ (∀ d b, barState State.reset d b = 0)
    ∧ (∀ p, portState State.reset p = 0) ∧ linkState State.reset = 0 ∧ (∀ i, i < 13 → State.reset.readyBit i = false)
    ∧ (∀ c, cohortState State.reset c = 0) ∧ State.reset.fld .ptcCap F.ptcCap_LIMIT_W = 760
    ∧ (∀ d, State.reset.fld (.wstStoreCtrl d) F.wstStoreCtrl_INVAR = 0) ∧ State.reset.reports = [] ∧ State.reset.pow.phases = []
end

