-- ==== Sys2Proof/Laws/Assoc.lean ====
section
/-! SUPPORT. Laws of sparse tables and of memory. -/

namespace Sys2Proof.Machine

namespace Assoc

variable {κ α : Type} [DecidableEq κ]

@[simp] theorem find_nil (k : κ) : find k ([] : Assoc κ α) = none := rfl

@[simp] theorem find_put_same (t : Assoc κ α) (k : κ) (v : α) : find k (put k v t) = some v := by
  induction t with
  | nil => simp [put, find]
  | cons p t ih => obtain ⟨j, w⟩ := p; unfold put; split <;> simp_all [find]

theorem find_put_ne (t : Assoc κ α) {k j : κ} (v : α) (h : j ≠ k) : find j (put k v t) = find j t := by
  induction t with
  | nil => simp [put, find, h]
  | cons p t ih => obtain ⟨i, w⟩ := p; unfold put; split <;> simp_all [find]

theorem find_put (t : Assoc κ α) (k j : κ) (v : α) : find j (put k v t) = if j = k then some v else find j t := by
  split
  · subst j; simp
  · rw [find_put_ne _ _ ‹_›]

@[simp] theorem at_put_same (t : Assoc κ α) (d v : α) (k : κ) : (put k v t).at_ d k = v := by simp [at_]

theorem at_put_ne (t : Assoc κ α) (d v : α) {k j : κ} (h : j ≠ k) : (put k v t).at_ d j = t.at_ d j := by
  simp [at_, find_put_ne _ _ h]

@[simp] theorem find_drop_same (t : Assoc κ α) (k : κ) : find k (drop_ k t) = none := by
  unfold drop_
  induction t with
  | nil => rfl
  | cons p t ih =>
    obtain ⟨j, w⟩ := p
    by_cases h : j = k
    · simpa [List.filter_cons, h] using ih
    · simpa [List.filter_cons, find, h, Ne.symm h] using ih

theorem find_drop_ne (t : Assoc κ α) {k j : κ} (h : j ≠ k) : find j (drop_ k t) = find j t := by
  unfold drop_
  induction t with
  | nil => rfl
  | cons p t ih =>
    obtain ⟨i, w⟩ := p
    by_cases h1 : i = k
    · have : j ≠ i := fun e => h (e.trans h1)
      simpa [List.filter_cons, find, h1, h, this] using ih
    · by_cases h2 : j = i <;> simp_all [find]

end Assoc

namespace Mem

@[simp] theorem get_nil (a : Nat) : get [] a = 0 := rfl

theorem wfFrom_mono {m : List Host.Cell} {n n' : Nat} (h : n ≤ n') (hw : wfFrom n' m = true) : wfFrom n m = true := by
  cases m with
  | nil => rfl
  | cons c t =>
    obtain ⟨j, b⟩ := c
    simp only [wfFrom, Bool.and_eq_true, decide_eq_true_eq] at hw ⊢
    exact ⟨⟨by omega, hw.1.2⟩, hw.2⟩

theorem get_below {m : List Host.Cell} {n a : Nat} (hw : wfFrom n m = true) (h : a < n) : get m a = blank := by
  induction m generalizing n with
  | nil => rfl
  | cons c t ih =>
    obtain ⟨j, b⟩ := c
    simp only [wfFrom, Bool.and_eq_true, decide_eq_true_eq] at hw
    have : a ≠ j := by omega
    simp only [get, if_neg this]
    exact ih hw.2 (by omega)

/-- A byte written is the byte read there, and every other address reads as before. -/
theorem get_set {m : List Host.Cell} {n : Nat} (hw : wfFrom n m = true) (a : Nat) (b : Byte) (x : Nat) :
    get (set m a b) x = if x = a then b else get m x := by
  induction m generalizing n with
  | nil => by_cases hb : b = blank <;> by_cases hx : x = a <;> simp_all [set, get, blank]
  | cons c t ih =>
    obtain ⟨j, d⟩ := c
    simp only [wfFrom, Bool.and_eq_true, decide_eq_true_eq] at hw
    have ih := ih hw.2
    unfold set
    by_cases h1 : a < j
    · rw [if_pos h1]
      by_cases hb : b = blank
      · rw [if_pos hb]
        by_cases hx : x = a
        · subst hx
          have h2 : ¬ x = j := by omega
          simp only [get, if_neg h2, if_pos, hb]
          exact get_below hw.2 (by omega)
        · rw [if_neg hx]
      · rw [if_neg hb]; simp only [get]
    · rw [if_neg h1]
      by_cases h2 : a = j
      · rw [if_pos h2]
        by_cases hb : b = blank
        · rw [if_pos hb]
          by_cases hx : x = a
          · rw [if_pos hx, hb]; exact get_below hw.2 (by omega)
          · have : ¬ x = j := by omega
            simp only [get, if_neg this, if_neg hx]
        · rw [if_neg hb]
          by_cases hx : x = a
          · simp [get, hx]
          · have : ¬ x = j := by omega
            simp [get, hx, this]
      · rw [if_neg h2]
        simp only [get]
        by_cases hx : x = j
        · have : ¬ x = a := by omega
          simp [hx, Ne.symm h2]
        · simp only [if_neg hx]; exact ih

theorem wfFrom_set {m : List Host.Cell} {n : Nat} (hw : wfFrom n m = true) {a : Nat} (h : n ≤ a) (b : Byte) :
    wfFrom n (set m a b) = true := by
  induction m generalizing n with
  | nil => by_cases hb : b = blank <;> simp_all [set, wfFrom]
  | cons c t ih =>
    obtain ⟨j, d⟩ := c
    simp only [wfFrom, Bool.and_eq_true, decide_eq_true_eq] at hw
    unfold set
    by_cases h1 : a < j
    · rw [if_pos h1]
      by_cases hb : b = blank
      · rw [if_pos hb]; simp only [wfFrom, Bool.and_eq_true, decide_eq_true_eq]; exact hw
      · rw [if_neg hb]
        simp only [wfFrom, Bool.and_eq_true, decide_eq_true_eq]
        exact ⟨⟨h, hb⟩, ⟨by omega, hw.1.2⟩, hw.2⟩
    · rw [if_neg h1]
      by_cases h2 : a = j
      · rw [if_pos h2]
        by_cases hb : b = blank
        · rw [if_pos hb]; exact wfFrom_mono (by omega) hw.2
        · rw [if_neg hb]
          simp only [wfFrom, Bool.and_eq_true, decide_eq_true_eq]
          exact ⟨⟨h, hb⟩, by rw [h2]; exact hw.2⟩
      · rw [if_neg h2]
        simp only [wfFrom, Bool.and_eq_true, decide_eq_true_eq]
        exact ⟨hw.1, ih hw.2 (by omega)⟩

/-- Writing one byte keeps the canonical form. -/
theorem wf_set {m : List Host.Cell} (hw : wf m = true) (a : Nat) (b : Byte) : wf (set m a b) = true :=
  wfFrom_set hw (Nat.zero_le _) b

/-- Writing bytes keeps the canonical form. -/
theorem wf_write (bs : List Byte) {m : List Host.Cell} (hw : wf m = true) (a : Nat) : wf (write m a bs) = true := by
  induction bs generalizing m a with
  | nil => exact hw
  | cons b bs ih => exact ih (wf_set hw a b) (a + 1)

/-- Taking cells out keeps the canonical form. -/
theorem wfFrom_filter {m : List Host.Cell} {n : Nat} (p : Host.Cell → Bool) (hw : wfFrom n m = true) :
    wfFrom n (m.filter p) = true := by
  induction m generalizing n with
  | nil => rfl
  | cons c t ih =>
    obtain ⟨j, d⟩ := c
    simp only [wfFrom, Bool.and_eq_true, decide_eq_true_eq] at hw
    rw [List.filter_cons]
    split
    · simp only [wfFrom, Bool.and_eq_true, decide_eq_true_eq]; exact ⟨hw.1, ih hw.2⟩
    · exact wfFrom_mono (by omega) (ih hw.2)

theorem wf_clear {m : List Host.Cell} (hw : wf m = true) (lo hi : Nat) : wf (clear m lo hi) = true := wfFrom_filter _ hw

/-- The bytes written are the bytes read, and every other address reads as before. -/
theorem get_write (bs : List Byte) {m : List Host.Cell} (hw : wf m = true) (a x : Nat) :
    get (write m a bs) x = if a ≤ x ∧ x < a + bs.length then bs.getD (x - a) 0 else get m x := by
  induction bs generalizing m a with
  | nil => simp [write]
  | cons b bs ih =>
    simp only [write, List.length_cons]
    rw [ih (wf_set hw a b) (a + 1), get_set (n := 0) hw]
    by_cases h1 : x = a
    · subst h1; simp
    · by_cases h2 : a + 1 ≤ x ∧ x < a + 1 + bs.length
      · have h3 : a ≤ x ∧ x < a + (bs.length + 1) := by omega
        rw [if_pos h2, if_pos h3]
        obtain ⟨k, rfl⟩ : ∃ k, x = a + 1 + k := ⟨x - (a + 1), by omega⟩
        rw [show a + 1 + k - a = k + 1 by omega, show a + 1 + k - (a + 1) = k by omega, List.getD_cons_succ]
      · have h3 : ¬(a ≤ x ∧ x < a + (bs.length + 1)) := by omega
        rw [if_neg h2, if_neg h3, if_neg h1]

/-- Clearing a stretch: its addresses read blank, and every other address reads as before. -/
theorem get_clear {m : List Host.Cell} {n : Nat} (hw : wfFrom n m = true) (lo hi x : Nat) :
    get (clear m lo hi) x = if lo ≤ x ∧ x < hi then blank else get m x := by
  unfold clear
  induction m generalizing n with
  | nil => simp [get, blank]
  | cons c t ih =>
    obtain ⟨j, d⟩ := c
    simp only [wfFrom, Bool.and_eq_true, decide_eq_true_eq] at hw
    have ih := ih hw.2
    rw [List.filter_cons]
    by_cases h : (decide (j < lo) || decide (hi ≤ j)) = true
    · simp only [h, if_true, get]
      by_cases hx : x = j
      · subst hx
        simp only [Bool.or_eq_true, decide_eq_true_eq] at h
        have : ¬(lo ≤ x ∧ x < hi) := by omega
        simp [this]
      · simp only [if_neg hx]; exact ih
    · simp only [h, get]
      by_cases hx : x = j
      · subst hx
        simp only [Bool.or_eq_true, decide_eq_true_eq] at h
        have h2 : lo ≤ x ∧ x < hi := by omega
        simp only [h2, and_self, if_true] at ih ⊢
        simpa using ih
      · simp only [if_neg hx]; simpa using ih

end Mem

end Sys2Proof.Machine
end

