-- ==== Sys2Proof/Laws/Bits.lean ====
section
/-! SUPPORT. Laws of bit fields. -/

namespace Sys2Proof.Machine

theorem bitsOf_lt (w : Word) (hi lo : Nat) : bitsOf w hi lo < 2 ^ (hi + 1 - lo) := Nat.mod_lt _ (by positivity)

theorem testBit_bitsOf (w : Word) (hi lo i : Nat) :
    (bitsOf w hi lo).testBit i = (decide (i < hi + 1 - lo) && w.getLsbD (lo + i)) := by
  unfold bitsOf
  rw [Nat.testBit_mod_two_pow, Nat.testBit_div_two_pow]
  simp only [BitVec.testBit_toNat, Nat.add_comm]

theorem getLsbD_maskOf (hi lo i : Nat) : (maskOf hi lo).getLsbD i = (decide (i < 64) && (decide (lo ≤ i) && decide (i - lo < hi + 1 - lo))) := by
  unfold maskOf
  rw [BitVec.getLsbD_ofNat, Nat.mul_comm, Nat.testBit_two_pow_mul, Nat.testBit_two_pow_sub_one]

theorem getLsbD_putBits (w : Word) (hi lo v i : Nat) :
    (putBits w hi lo v).getLsbD i
      = (decide (i < 64) && if lo ≤ i ∧ i - lo < hi + 1 - lo then v.testBit (i - lo) else w.getLsbD i) := by
  unfold putBits
  rw [BitVec.getLsbD_or, BitVec.getLsbD_and, BitVec.getLsbD_not, getLsbD_maskOf, BitVec.getLsbD_ofNat, Nat.mul_comm (v % _),
    Nat.testBit_two_pow_mul, Nat.testBit_mod_two_pow]
  by_cases h1 : i < 64
  · by_cases h : lo ≤ i ∧ i - lo < hi + 1 - lo
    · simp only [h1, h.1, h.2, and_self, decide_true, Bool.and_self, Bool.not_true, Bool.and_false, Bool.true_and, if_true,
        Bool.false_or]
    · have e : (decide (lo ≤ i) && decide (i - lo < hi + 1 - lo)) = false := by
        rw [← Bool.decide_and]; exact decide_eq_false h
      simp only [h1, decide_true, Bool.true_and, ← Bool.and_assoc, e, Bool.false_and, Bool.and_false, Bool.not_false, Bool.and_true,
        Bool.or_false, if_neg h]
  · simp only [h1, decide_false, Bool.false_and, BitVec.getLsbD_of_ge w i (by omega), Bool.or_self]

/-- A field reads what was put into it, modulo its width. -/
theorem bitsOf_putBits_same (w : Word) (hi lo v : Nat) (h : hi < 64) :
    bitsOf (putBits w hi lo v) hi lo = v % 2 ^ (hi + 1 - lo) := by
  apply Nat.eq_of_testBit_eq
  intro i
  rw [testBit_bitsOf, Nat.testBit_mod_two_pow, getLsbD_putBits]
  by_cases h1 : i < hi + 1 - lo
  · have h2 : lo + i < 64 := by omega
    simp [h1, h2]
  · simp [h1]

/-- A field keeps its value when a field apart from it is put. -/
theorem bitsOf_putBits_apart (w : Word) (hi lo v hi' lo' : Nat) (h : hi' < lo ∨ hi < lo') :
    bitsOf (putBits w hi lo v) hi' lo' = bitsOf w hi' lo' := by
  apply Nat.eq_of_testBit_eq
  intro i
  rw [testBit_bitsOf, testBit_bitsOf, getLsbD_putBits]
  by_cases h1 : i < hi' + 1 - lo'
  · have h2 : ¬(lo ≤ lo' + i ∧ lo' + i - lo < hi + 1 - lo) := by omega
    simp only [h1, decide_true, Bool.true_and, if_neg h2]
    by_cases h3 : lo' + i < 64
    · simp [h3]
    · simp [h3, BitVec.getLsbD_of_ge w (lo' + i) (by omega)]
  · simp [h1]

end Sys2Proof.Machine
end

