-- ==== Sys2Proof/Laws/State.lean ====
section
/-! SUPPORT. One lemma per field of the state and per update of it, and what the accessors read after an update. -/

namespace Sys2Proof.Machine.State

@[simp] theorem setReg_pending (s : State) (r : Reg) (w : Word) : (s.setReg r w).pending = s.pending := rfl
@[simp] theorem setReg_mem (s : State) (r : Reg) (w : Word) : (s.setReg r w).mem = s.mem := rfl
@[simp] theorem setReg_poison (s : State) (r : Reg) (w : Word) : (s.setReg r w).poison = s.poison := rfl
@[simp] theorem setReg_latent (s : State) (r : Reg) (w : Word) : (s.setReg r w).latent = s.latent := rfl
@[simp] theorem setReg_repairs (s : State) (r : Reg) (w : Word) : (s.setReg r w).repairs = s.repairs := rfl
@[simp] theorem setReg_ctxs (s : State) (r : Reg) (w : Word) : (s.setReg r w).ctxs = s.ctxs := rfl
@[simp] theorem setReg_cores (s : State) (r : Reg) (w : Word) : (s.setReg r w).cores = s.cores := rfl
@[simp] theorem setReg_dies (s : State) (r : Reg) (w : Word) : (s.setReg r w).dies = s.dies := rfl
@[simp] theorem setReg_dmas (s : State) (r : Reg) (w : Word) : (s.setReg r w).dmas = s.dmas := rfl
@[simp] theorem setReg_reports (s : State) (r : Reg) (w : Word) : (s.setReg r w).reports = s.reports := rfl
@[simp] theorem setReg_fcu (s : State) (r : Reg) (w : Word) : (s.setReg r w).fcu = s.fcu := rfl
@[simp] theorem setReg_remoteOut (s : State) (r : Reg) (w : Word) : (s.setReg r w).remoteOut = s.remoteOut := rfl
@[simp] theorem setReg_windowSince (s : State) (r : Reg) (w : Word) : (s.setReg r w).windowSince = s.windowSince := rfl
@[simp] theorem setReg_accepted (s : State) (r : Reg) (w : Word) : (s.setReg r w).accepted = s.accepted := rfl
@[simp] theorem setReg_inbound (s : State) (r : Reg) (w : Word) : (s.setReg r w).inbound = s.inbound := rfl
@[simp] theorem setReg_inbox (s : State) (r : Reg) (w : Word) : (s.setReg r w).inbox = s.inbox := rfl
@[simp] theorem setReg_circ (s : State) (r : Reg) (w : Word) : (s.setReg r w).circ = s.circ := rfl
@[simp] theorem setReg_tier (s : State) (r : Reg) (w : Word) : (s.setReg r w).tier = s.tier := rfl
@[simp] theorem setReg_mld (s : State) (r : Reg) (w : Word) : (s.setReg r w).mld = s.mld := rfl
@[simp] theorem setReg_pow (s : State) (r : Reg) (w : Word) : (s.setReg r w).pow = s.pow := rfl
@[simp] theorem setReg_sec (s : State) (r : Reg) (w : Word) : (s.setReg r w).sec = s.sec := rfl
@[simp] theorem setReg_mgmt (s : State) (r : Reg) (w : Word) : (s.setReg r w).mgmt = s.mgmt := rfl
@[simp] theorem setReg_fuses (s : State) (r : Reg) (w : Word) : (s.setReg r w).fuses = s.fuses := rfl
@[simp] theorem setReg_fresh (s : State) (r : Reg) (w : Word) : (s.setReg r w).fresh = s.fresh := rfl

@[simp] theorem setFld_pending (s : State) (r : Reg) (f : Fld) (v : Nat) : (s.setFld r f v).pending = s.pending := rfl
@[simp] theorem setFld_mem (s : State) (r : Reg) (f : Fld) (v : Nat) : (s.setFld r f v).mem = s.mem := rfl
@[simp] theorem setFld_poison (s : State) (r : Reg) (f : Fld) (v : Nat) : (s.setFld r f v).poison = s.poison := rfl
@[simp] theorem setFld_latent (s : State) (r : Reg) (f : Fld) (v : Nat) : (s.setFld r f v).latent = s.latent := rfl
@[simp] theorem setFld_repairs (s : State) (r : Reg) (f : Fld) (v : Nat) : (s.setFld r f v).repairs = s.repairs := rfl
@[simp] theorem setFld_ctxs (s : State) (r : Reg) (f : Fld) (v : Nat) : (s.setFld r f v).ctxs = s.ctxs := rfl
@[simp] theorem setFld_cores (s : State) (r : Reg) (f : Fld) (v : Nat) : (s.setFld r f v).cores = s.cores := rfl
@[simp] theorem setFld_dies (s : State) (r : Reg) (f : Fld) (v : Nat) : (s.setFld r f v).dies = s.dies := rfl
@[simp] theorem setFld_dmas (s : State) (r : Reg) (f : Fld) (v : Nat) : (s.setFld r f v).dmas = s.dmas := rfl
@[simp] theorem setFld_reports (s : State) (r : Reg) (f : Fld) (v : Nat) : (s.setFld r f v).reports = s.reports := rfl
@[simp] theorem setFld_fcu (s : State) (r : Reg) (f : Fld) (v : Nat) : (s.setFld r f v).fcu = s.fcu := rfl
@[simp] theorem setFld_remoteOut (s : State) (r : Reg) (f : Fld) (v : Nat) : (s.setFld r f v).remoteOut = s.remoteOut := rfl
@[simp] theorem setFld_windowSince (s : State) (r : Reg) (f : Fld) (v : Nat) : (s.setFld r f v).windowSince = s.windowSince := rfl
@[simp] theorem setFld_accepted (s : State) (r : Reg) (f : Fld) (v : Nat) : (s.setFld r f v).accepted = s.accepted := rfl
@[simp] theorem setFld_inbound (s : State) (r : Reg) (f : Fld) (v : Nat) : (s.setFld r f v).inbound = s.inbound := rfl
@[simp] theorem setFld_inbox (s : State) (r : Reg) (f : Fld) (v : Nat) : (s.setFld r f v).inbox = s.inbox := rfl
@[simp] theorem setFld_circ (s : State) (r : Reg) (f : Fld) (v : Nat) : (s.setFld r f v).circ = s.circ := rfl
@[simp] theorem setFld_tier (s : State) (r : Reg) (f : Fld) (v : Nat) : (s.setFld r f v).tier = s.tier := rfl
@[simp] theorem setFld_mld (s : State) (r : Reg) (f : Fld) (v : Nat) : (s.setFld r f v).mld = s.mld := rfl
@[simp] theorem setFld_pow (s : State) (r : Reg) (f : Fld) (v : Nat) : (s.setFld r f v).pow = s.pow := rfl
@[simp] theorem setFld_sec (s : State) (r : Reg) (f : Fld) (v : Nat) : (s.setFld r f v).sec = s.sec := rfl
@[simp] theorem setFld_mgmt (s : State) (r : Reg) (f : Fld) (v : Nat) : (s.setFld r f v).mgmt = s.mgmt := rfl
@[simp] theorem setFld_fuses (s : State) (r : Reg) (f : Fld) (v : Nat) : (s.setFld r f v).fuses = s.fuses := rfl
@[simp] theorem setFld_fresh (s : State) (r : Reg) (f : Fld) (v : Nat) : (s.setFld r f v).fresh = s.fresh := rfl

@[simp] theorem addFld_pending (s : State) (r : Reg) (f : Fld) (n : Nat) : (s.addFld r f n).pending = s.pending := rfl
@[simp] theorem addFld_mem (s : State) (r : Reg) (f : Fld) (n : Nat) : (s.addFld r f n).mem = s.mem := rfl
@[simp] theorem addFld_poison (s : State) (r : Reg) (f : Fld) (n : Nat) : (s.addFld r f n).poison = s.poison := rfl
@[simp] theorem addFld_latent (s : State) (r : Reg) (f : Fld) (n : Nat) : (s.addFld r f n).latent = s.latent := rfl
@[simp] theorem addFld_repairs (s : State) (r : Reg) (f : Fld) (n : Nat) : (s.addFld r f n).repairs = s.repairs := rfl
@[simp] theorem addFld_ctxs (s : State) (r : Reg) (f : Fld) (n : Nat) : (s.addFld r f n).ctxs = s.ctxs := rfl
@[simp] theorem addFld_cores (s : State) (r : Reg) (f : Fld) (n : Nat) : (s.addFld r f n).cores = s.cores := rfl
@[simp] theorem addFld_dies (s : State) (r : Reg) (f : Fld) (n : Nat) : (s.addFld r f n).dies = s.dies := rfl
@[simp] theorem addFld_dmas (s : State) (r : Reg) (f : Fld) (n : Nat) : (s.addFld r f n).dmas = s.dmas := rfl
@[simp] theorem addFld_reports (s : State) (r : Reg) (f : Fld) (n : Nat) : (s.addFld r f n).reports = s.reports := rfl
@[simp] theorem addFld_fcu (s : State) (r : Reg) (f : Fld) (n : Nat) : (s.addFld r f n).fcu = s.fcu := rfl
@[simp] theorem addFld_remoteOut (s : State) (r : Reg) (f : Fld) (n : Nat) : (s.addFld r f n).remoteOut = s.remoteOut := rfl
@[simp] theorem addFld_windowSince (s : State) (r : Reg) (f : Fld) (n : Nat) : (s.addFld r f n).windowSince = s.windowSince := rfl
@[simp] theorem addFld_accepted (s : State) (r : Reg) (f : Fld) (n : Nat) : (s.addFld r f n).accepted = s.accepted := rfl
@[simp] theorem addFld_inbound (s : State) (r : Reg) (f : Fld) (n : Nat) : (s.addFld r f n).inbound = s.inbound := rfl
@[simp] theorem addFld_inbox (s : State) (r : Reg) (f : Fld) (n : Nat) : (s.addFld r f n).inbox = s.inbox := rfl
@[simp] theorem addFld_circ (s : State) (r : Reg) (f : Fld) (n : Nat) : (s.addFld r f n).circ = s.circ := rfl
@[simp] theorem addFld_tier (s : State) (r : Reg) (f : Fld) (n : Nat) : (s.addFld r f n).tier = s.tier := rfl
@[simp] theorem addFld_mld (s : State) (r : Reg) (f : Fld) (n : Nat) : (s.addFld r f n).mld = s.mld := rfl
@[simp] theorem addFld_pow (s : State) (r : Reg) (f : Fld) (n : Nat) : (s.addFld r f n).pow = s.pow := rfl
@[simp] theorem addFld_sec (s : State) (r : Reg) (f : Fld) (n : Nat) : (s.addFld r f n).sec = s.sec := rfl
@[simp] theorem addFld_mgmt (s : State) (r : Reg) (f : Fld) (n : Nat) : (s.addFld r f n).mgmt = s.mgmt := rfl
@[simp] theorem addFld_fuses (s : State) (r : Reg) (f : Fld) (n : Nat) : (s.addFld r f n).fuses = s.fuses := rfl
@[simp] theorem addFld_fresh (s : State) (r : Reg) (f : Fld) (n : Nat) : (s.addFld r f n).fresh = s.fresh := rfl

@[simp] theorem setCtx_pending (s : State) (d : Die) (q : CoreId) (x : SlotId) (c : Ctx) : (s.setCtx d q x c).pending = s.pending := rfl
@[simp] theorem setCtx_regs (s : State) (d : Die) (q : CoreId) (x : SlotId) (c : Ctx) : (s.setCtx d q x c).regs = s.regs := rfl
@[simp] theorem setCtx_mem (s : State) (d : Die) (q : CoreId) (x : SlotId) (c : Ctx) : (s.setCtx d q x c).mem = s.mem := rfl
@[simp] theorem setCtx_poison (s : State) (d : Die) (q : CoreId) (x : SlotId) (c : Ctx) : (s.setCtx d q x c).poison = s.poison := rfl
@[simp] theorem setCtx_latent (s : State) (d : Die) (q : CoreId) (x : SlotId) (c : Ctx) : (s.setCtx d q x c).latent = s.latent := rfl
@[simp] theorem setCtx_repairs (s : State) (d : Die) (q : CoreId) (x : SlotId) (c : Ctx) : (s.setCtx d q x c).repairs = s.repairs := rfl
@[simp] theorem setCtx_cores (s : State) (d : Die) (q : CoreId) (x : SlotId) (c : Ctx) : (s.setCtx d q x c).cores = s.cores := rfl
@[simp] theorem setCtx_dies (s : State) (d : Die) (q : CoreId) (x : SlotId) (c : Ctx) : (s.setCtx d q x c).dies = s.dies := rfl
@[simp] theorem setCtx_dmas (s : State) (d : Die) (q : CoreId) (x : SlotId) (c : Ctx) : (s.setCtx d q x c).dmas = s.dmas := rfl
@[simp] theorem setCtx_reports (s : State) (d : Die) (q : CoreId) (x : SlotId) (c : Ctx) : (s.setCtx d q x c).reports = s.reports := rfl
@[simp] theorem setCtx_fcu (s : State) (d : Die) (q : CoreId) (x : SlotId) (c : Ctx) : (s.setCtx d q x c).fcu = s.fcu := rfl
@[simp] theorem setCtx_remoteOut (s : State) (d : Die) (q : CoreId) (x : SlotId) (c : Ctx) : (s.setCtx d q x c).remoteOut = s.remoteOut := rfl
@[simp] theorem setCtx_windowSince (s : State) (d : Die) (q : CoreId) (x : SlotId) (c : Ctx) : (s.setCtx d q x c).windowSince = s.windowSince := rfl
@[simp] theorem setCtx_accepted (s : State) (d : Die) (q : CoreId) (x : SlotId) (c : Ctx) : (s.setCtx d q x c).accepted = s.accepted := rfl
@[simp] theorem setCtx_inbound (s : State) (d : Die) (q : CoreId) (x : SlotId) (c : Ctx) : (s.setCtx d q x c).inbound = s.inbound := rfl
@[simp] theorem setCtx_inbox (s : State) (d : Die) (q : CoreId) (x : SlotId) (c : Ctx) : (s.setCtx d q x c).inbox = s.inbox := rfl
@[simp] theorem setCtx_circ (s : State) (d : Die) (q : CoreId) (x : SlotId) (c : Ctx) : (s.setCtx d q x c).circ = s.circ := rfl
@[simp] theorem setCtx_tier (s : State) (d : Die) (q : CoreId) (x : SlotId) (c : Ctx) : (s.setCtx d q x c).tier = s.tier := rfl
@[simp] theorem setCtx_mld (s : State) (d : Die) (q : CoreId) (x : SlotId) (c : Ctx) : (s.setCtx d q x c).mld = s.mld := rfl
@[simp] theorem setCtx_pow (s : State) (d : Die) (q : CoreId) (x : SlotId) (c : Ctx) : (s.setCtx d q x c).pow = s.pow := rfl
@[simp] theorem setCtx_sec (s : State) (d : Die) (q : CoreId) (x : SlotId) (c : Ctx) : (s.setCtx d q x c).sec = s.sec := rfl
@[simp] theorem setCtx_mgmt (s : State) (d : Die) (q : CoreId) (x : SlotId) (c : Ctx) : (s.setCtx d q x c).mgmt = s.mgmt := rfl
@[simp] theorem setCtx_fuses (s : State) (d : Die) (q : CoreId) (x : SlotId) (c : Ctx) : (s.setCtx d q x c).fuses = s.fuses := rfl
@[simp] theorem setCtx_fresh (s : State) (d : Die) (q : CoreId) (x : SlotId) (c : Ctx) : (s.setCtx d q x c).fresh = s.fresh := rfl

@[simp] theorem setCore_pending (s : State) (d : Die) (q : CoreId) (c : Core) : (s.setCore d q c).pending = s.pending := rfl
@[simp] theorem setCore_regs (s : State) (d : Die) (q : CoreId) (c : Core) : (s.setCore d q c).regs = s.regs := rfl
@[simp] theorem setCore_mem (s : State) (d : Die) (q : CoreId) (c : Core) : (s.setCore d q c).mem = s.mem := rfl
@[simp] theorem setCore_poison (s : State) (d : Die) (q : CoreId) (c : Core) : (s.setCore d q c).poison = s.poison := rfl
@[simp] theorem setCore_latent (s : State) (d : Die) (q : CoreId) (c : Core) : (s.setCore d q c).latent = s.latent := rfl
@[simp] theorem setCore_repairs (s : State) (d : Die) (q : CoreId) (c : Core) : (s.setCore d q c).repairs = s.repairs := rfl
@[simp] theorem setCore_ctxs (s : State) (d : Die) (q : CoreId) (c : Core) : (s.setCore d q c).ctxs = s.ctxs := rfl
@[simp] theorem setCore_dies (s : State) (d : Die) (q : CoreId) (c : Core) : (s.setCore d q c).dies = s.dies := rfl
@[simp] theorem setCore_dmas (s : State) (d : Die) (q : CoreId) (c : Core) : (s.setCore d q c).dmas = s.dmas := rfl
@[simp] theorem setCore_reports (s : State) (d : Die) (q : CoreId) (c : Core) : (s.setCore d q c).reports = s.reports := rfl
@[simp] theorem setCore_fcu (s : State) (d : Die) (q : CoreId) (c : Core) : (s.setCore d q c).fcu = s.fcu := rfl
@[simp] theorem setCore_remoteOut (s : State) (d : Die) (q : CoreId) (c : Core) : (s.setCore d q c).remoteOut = s.remoteOut := rfl
@[simp] theorem setCore_windowSince (s : State) (d : Die) (q : CoreId) (c : Core) : (s.setCore d q c).windowSince = s.windowSince := rfl
@[simp] theorem setCore_accepted (s : State) (d : Die) (q : CoreId) (c : Core) : (s.setCore d q c).accepted = s.accepted := rfl
@[simp] theorem setCore_inbound (s : State) (d : Die) (q : CoreId) (c : Core) : (s.setCore d q c).inbound = s.inbound := rfl
@[simp] theorem setCore_inbox (s : State) (d : Die) (q : CoreId) (c : Core) : (s.setCore d q c).inbox = s.inbox := rfl
@[simp] theorem setCore_circ (s : State) (d : Die) (q : CoreId) (c : Core) : (s.setCore d q c).circ = s.circ := rfl
@[simp] theorem setCore_tier (s : State) (d : Die) (q : CoreId) (c : Core) : (s.setCore d q c).tier = s.tier := rfl
@[simp] theorem setCore_mld (s : State) (d : Die) (q : CoreId) (c : Core) : (s.setCore d q c).mld = s.mld := rfl
@[simp] theorem setCore_pow (s : State) (d : Die) (q : CoreId) (c : Core) : (s.setCore d q c).pow = s.pow := rfl
@[simp] theorem setCore_sec (s : State) (d : Die) (q : CoreId) (c : Core) : (s.setCore d q c).sec = s.sec := rfl
@[simp] theorem setCore_mgmt (s : State) (d : Die) (q : CoreId) (c : Core) : (s.setCore d q c).mgmt = s.mgmt := rfl
@[simp] theorem setCore_fuses (s : State) (d : Die) (q : CoreId) (c : Core) : (s.setCore d q c).fuses = s.fuses := rfl
@[simp] theorem setCore_fresh (s : State) (d : Die) (q : CoreId) (c : Core) : (s.setCore d q c).fresh = s.fresh := rfl

@[simp] theorem setDie_pending (s : State) (d : Die) (x : DieSt) : (s.setDie d x).pending = s.pending := rfl
@[simp] theorem setDie_regs (s : State) (d : Die) (x : DieSt) : (s.setDie d x).regs = s.regs := rfl
@[simp] theorem setDie_mem (s : State) (d : Die) (x : DieSt) : (s.setDie d x).mem = s.mem := rfl
@[simp] theorem setDie_poison (s : State) (d : Die) (x : DieSt) : (s.setDie d x).poison = s.poison := rfl
@[simp] theorem setDie_latent (s : State) (d : Die) (x : DieSt) : (s.setDie d x).latent = s.latent := rfl
@[simp] theorem setDie_repairs (s : State) (d : Die) (x : DieSt) : (s.setDie d x).repairs = s.repairs := rfl
@[simp] theorem setDie_ctxs (s : State) (d : Die) (x : DieSt) : (s.setDie d x).ctxs = s.ctxs := rfl
@[simp] theorem setDie_cores (s : State) (d : Die) (x : DieSt) : (s.setDie d x).cores = s.cores := rfl
@[simp] theorem setDie_dmas (s : State) (d : Die) (x : DieSt) : (s.setDie d x).dmas = s.dmas := rfl
@[simp] theorem setDie_reports (s : State) (d : Die) (x : DieSt) : (s.setDie d x).reports = s.reports := rfl
@[simp] theorem setDie_fcu (s : State) (d : Die) (x : DieSt) : (s.setDie d x).fcu = s.fcu := rfl
@[simp] theorem setDie_remoteOut (s : State) (d : Die) (x : DieSt) : (s.setDie d x).remoteOut = s.remoteOut := rfl
@[simp] theorem setDie_windowSince (s : State) (d : Die) (x : DieSt) : (s.setDie d x).windowSince = s.windowSince := rfl
@[simp] theorem setDie_accepted (s : State) (d : Die) (x : DieSt) : (s.setDie d x).accepted = s.accepted := rfl
@[simp] theorem setDie_inbound (s : State) (d : Die) (x : DieSt) : (s.setDie d x).inbound = s.inbound := rfl
@[simp] theorem setDie_inbox (s : State) (d : Die) (x : DieSt) : (s.setDie d x).inbox = s.inbox := rfl
@[simp] theorem setDie_circ (s : State) (d : Die) (x : DieSt) : (s.setDie d x).circ = s.circ := rfl
@[simp] theorem setDie_tier (s : State) (d : Die) (x : DieSt) : (s.setDie d x).tier = s.tier := rfl
@[simp] theorem setDie_mld (s : State) (d : Die) (x : DieSt) : (s.setDie d x).mld = s.mld := rfl
@[simp] theorem setDie_pow (s : State) (d : Die) (x : DieSt) : (s.setDie d x).pow = s.pow := rfl
@[simp] theorem setDie_sec (s : State) (d : Die) (x : DieSt) : (s.setDie d x).sec = s.sec := rfl
@[simp] theorem setDie_mgmt (s : State) (d : Die) (x : DieSt) : (s.setDie d x).mgmt = s.mgmt := rfl
@[simp] theorem setDie_fuses (s : State) (d : Die) (x : DieSt) : (s.setDie d x).fuses = s.fuses := rfl
@[simp] theorem setDie_fresh (s : State) (d : Die) (x : DieSt) : (s.setDie d x).fresh = s.fresh := rfl

@[simp] theorem setDma_pending (s : State) (d : Die) (c : Cluster) (x : Dma) : (s.setDma d c x).pending = s.pending := rfl
@[simp] theorem setDma_regs (s : State) (d : Die) (c : Cluster) (x : Dma) : (s.setDma d c x).regs = s.regs := rfl
@[simp] theorem setDma_mem (s : State) (d : Die) (c : Cluster) (x : Dma) : (s.setDma d c x).mem = s.mem := rfl
@[simp] theorem setDma_poison (s : State) (d : Die) (c : Cluster) (x : Dma) : (s.setDma d c x).poison = s.poison := rfl
@[simp] theorem setDma_latent (s : State) (d : Die) (c : Cluster) (x : Dma) : (s.setDma d c x).latent = s.latent := rfl
@[simp] theorem setDma_repairs (s : State) (d : Die) (c : Cluster) (x : Dma) : (s.setDma d c x).repairs = s.repairs := rfl
@[simp] theorem setDma_ctxs (s : State) (d : Die) (c : Cluster) (x : Dma) : (s.setDma d c x).ctxs = s.ctxs := rfl
@[simp] theorem setDma_cores (s : State) (d : Die) (c : Cluster) (x : Dma) : (s.setDma d c x).cores = s.cores := rfl
@[simp] theorem setDma_dies (s : State) (d : Die) (c : Cluster) (x : Dma) : (s.setDma d c x).dies = s.dies := rfl
@[simp] theorem setDma_reports (s : State) (d : Die) (c : Cluster) (x : Dma) : (s.setDma d c x).reports = s.reports := rfl
@[simp] theorem setDma_fcu (s : State) (d : Die) (c : Cluster) (x : Dma) : (s.setDma d c x).fcu = s.fcu := rfl
@[simp] theorem setDma_remoteOut (s : State) (d : Die) (c : Cluster) (x : Dma) : (s.setDma d c x).remoteOut = s.remoteOut := rfl
@[simp] theorem setDma_windowSince (s : State) (d : Die) (c : Cluster) (x : Dma) : (s.setDma d c x).windowSince = s.windowSince := rfl
@[simp] theorem setDma_accepted (s : State) (d : Die) (c : Cluster) (x : Dma) : (s.setDma d c x).accepted = s.accepted := rfl
@[simp] theorem setDma_inbound (s : State) (d : Die) (c : Cluster) (x : Dma) : (s.setDma d c x).inbound = s.inbound := rfl
@[simp] theorem setDma_inbox (s : State) (d : Die) (c : Cluster) (x : Dma) : (s.setDma d c x).inbox = s.inbox := rfl
@[simp] theorem setDma_circ (s : State) (d : Die) (c : Cluster) (x : Dma) : (s.setDma d c x).circ = s.circ := rfl
@[simp] theorem setDma_tier (s : State) (d : Die) (c : Cluster) (x : Dma) : (s.setDma d c x).tier = s.tier := rfl
@[simp] theorem setDma_mld (s : State) (d : Die) (c : Cluster) (x : Dma) : (s.setDma d c x).mld = s.mld := rfl
@[simp] theorem setDma_pow (s : State) (d : Die) (c : Cluster) (x : Dma) : (s.setDma d c x).pow = s.pow := rfl
@[simp] theorem setDma_sec (s : State) (d : Die) (c : Cluster) (x : Dma) : (s.setDma d c x).sec = s.sec := rfl
@[simp] theorem setDma_mgmt (s : State) (d : Die) (c : Cluster) (x : Dma) : (s.setDma d c x).mgmt = s.mgmt := rfl
@[simp] theorem setDma_fuses (s : State) (d : Die) (c : Cluster) (x : Dma) : (s.setDma d c x).fuses = s.fuses := rfl
@[simp] theorem setDma_fresh (s : State) (d : Die) (c : Cluster) (x : Dma) : (s.setDma d c x).fresh = s.fresh := rfl

@[simp] theorem raise_pending (s : State) (r : Report) : (s.raise r).pending = s.pending := rfl
@[simp] theorem raise_regs (s : State) (r : Report) : (s.raise r).regs = s.regs := rfl
@[simp] theorem raise_mem (s : State) (r : Report) : (s.raise r).mem = s.mem := rfl
@[simp] theorem raise_poison (s : State) (r : Report) : (s.raise r).poison = s.poison := rfl
@[simp] theorem raise_latent (s : State) (r : Report) : (s.raise r).latent = s.latent := rfl
@[simp] theorem raise_repairs (s : State) (r : Report) : (s.raise r).repairs = s.repairs := rfl
@[simp] theorem raise_ctxs (s : State) (r : Report) : (s.raise r).ctxs = s.ctxs := rfl
@[simp] theorem raise_cores (s : State) (r : Report) : (s.raise r).cores = s.cores := rfl
@[simp] theorem raise_dies (s : State) (r : Report) : (s.raise r).dies = s.dies := rfl
@[simp] theorem raise_dmas (s : State) (r : Report) : (s.raise r).dmas = s.dmas := rfl
@[simp] theorem raise_fcu (s : State) (r : Report) : (s.raise r).fcu = s.fcu := rfl
@[simp] theorem raise_remoteOut (s : State) (r : Report) : (s.raise r).remoteOut = s.remoteOut := rfl
@[simp] theorem raise_windowSince (s : State) (r : Report) : (s.raise r).windowSince = s.windowSince := rfl
@[simp] theorem raise_accepted (s : State) (r : Report) : (s.raise r).accepted = s.accepted := rfl
@[simp] theorem raise_inbound (s : State) (r : Report) : (s.raise r).inbound = s.inbound := rfl
@[simp] theorem raise_inbox (s : State) (r : Report) : (s.raise r).inbox = s.inbox := rfl
@[simp] theorem raise_circ (s : State) (r : Report) : (s.raise r).circ = s.circ := rfl
@[simp] theorem raise_tier (s : State) (r : Report) : (s.raise r).tier = s.tier := rfl
@[simp] theorem raise_mld (s : State) (r : Report) : (s.raise r).mld = s.mld := rfl
@[simp] theorem raise_pow (s : State) (r : Report) : (s.raise r).pow = s.pow := rfl
@[simp] theorem raise_sec (s : State) (r : Report) : (s.raise r).sec = s.sec := rfl
@[simp] theorem raise_mgmt (s : State) (r : Report) : (s.raise r).mgmt = s.mgmt := rfl
@[simp] theorem raise_fuses (s : State) (r : Report) : (s.raise r).fuses = s.fuses := rfl
@[simp] theorem raise_fresh (s : State) (r : Report) : (s.raise r).fresh = s.fresh := rfl

@[simp] theorem burn_pending (s : State) (n : Nat) : (s.burn n).pending = s.pending := rfl
@[simp] theorem burn_regs (s : State) (n : Nat) : (s.burn n).regs = s.regs := rfl
@[simp] theorem burn_mem (s : State) (n : Nat) : (s.burn n).mem = s.mem := rfl
@[simp] theorem burn_poison (s : State) (n : Nat) : (s.burn n).poison = s.poison := rfl
@[simp] theorem burn_latent (s : State) (n : Nat) : (s.burn n).latent = s.latent := rfl
@[simp] theorem burn_repairs (s : State) (n : Nat) : (s.burn n).repairs = s.repairs := rfl
@[simp] theorem burn_ctxs (s : State) (n : Nat) : (s.burn n).ctxs = s.ctxs := rfl
@[simp] theorem burn_cores (s : State) (n : Nat) : (s.burn n).cores = s.cores := rfl
@[simp] theorem burn_dies (s : State) (n : Nat) : (s.burn n).dies = s.dies := rfl
@[simp] theorem burn_dmas (s : State) (n : Nat) : (s.burn n).dmas = s.dmas := rfl
@[simp] theorem burn_reports (s : State) (n : Nat) : (s.burn n).reports = s.reports := rfl
@[simp] theorem burn_fcu (s : State) (n : Nat) : (s.burn n).fcu = s.fcu := rfl
@[simp] theorem burn_remoteOut (s : State) (n : Nat) : (s.burn n).remoteOut = s.remoteOut := rfl
@[simp] theorem burn_windowSince (s : State) (n : Nat) : (s.burn n).windowSince = s.windowSince := rfl
@[simp] theorem burn_accepted (s : State) (n : Nat) : (s.burn n).accepted = s.accepted := rfl
@[simp] theorem burn_inbound (s : State) (n : Nat) : (s.burn n).inbound = s.inbound := rfl
@[simp] theorem burn_inbox (s : State) (n : Nat) : (s.burn n).inbox = s.inbox := rfl
@[simp] theorem burn_circ (s : State) (n : Nat) : (s.burn n).circ = s.circ := rfl
@[simp] theorem burn_tier (s : State) (n : Nat) : (s.burn n).tier = s.tier := rfl
@[simp] theorem burn_mld (s : State) (n : Nat) : (s.burn n).mld = s.mld := rfl
@[simp] theorem burn_pow (s : State) (n : Nat) : (s.burn n).pow = s.pow := rfl
@[simp] theorem burn_sec (s : State) (n : Nat) : (s.burn n).sec = s.sec := rfl
@[simp] theorem burn_mgmt (s : State) (n : Nat) : (s.burn n).mgmt = s.mgmt := rfl
@[simp] theorem burn_fuses (s : State) (n : Nat) : (s.burn n).fuses = s.fuses := rfl

@[simp] theorem ctx_setReg (s : State) (r : Reg) (w : Word) (e : Die) (p : CoreId) (y : SlotId) : (s.setReg r w).ctx e p y = s.ctx e p y := rfl
@[simp] theorem core_setReg (s : State) (r : Reg) (w : Word) (e : Die) (p : CoreId) : (s.setReg r w).core e p = s.core e p := rfl
@[simp] theorem die_setReg (s : State) (r : Reg) (w : Word) (e : Die) : (s.setReg r w).die e = s.die e := rfl
@[simp] theorem dma_setReg (s : State) (r : Reg) (w : Word) (e : Die) (y : Cluster) : (s.setReg r w).dma e y = s.dma e y := rfl

@[simp] theorem ctx_setFld (s : State) (r : Reg) (f : Fld) (v : Nat) (e : Die) (p : CoreId) (y : SlotId) : (s.setFld r f v).ctx e p y = s.ctx e p y := rfl
@[simp] theorem core_setFld (s : State) (r : Reg) (f : Fld) (v : Nat) (e : Die) (p : CoreId) : (s.setFld r f v).core e p = s.core e p := rfl
@[simp] theorem die_setFld (s : State) (r : Reg) (f : Fld) (v : Nat) (e : Die) : (s.setFld r f v).die e = s.die e := rfl
@[simp] theorem dma_setFld (s : State) (r : Reg) (f : Fld) (v : Nat) (e : Die) (y : Cluster) : (s.setFld r f v).dma e y = s.dma e y := rfl

@[simp] theorem ctx_addFld (s : State) (r : Reg) (f : Fld) (n : Nat) (e : Die) (p : CoreId) (y : SlotId) : (s.addFld r f n).ctx e p y = s.ctx e p y := rfl
@[simp] theorem core_addFld (s : State) (r : Reg) (f : Fld) (n : Nat) (e : Die) (p : CoreId) : (s.addFld r f n).core e p = s.core e p := rfl
@[simp] theorem die_addFld (s : State) (r : Reg) (f : Fld) (n : Nat) (e : Die) : (s.addFld r f n).die e = s.die e := rfl
@[simp] theorem dma_addFld (s : State) (r : Reg) (f : Fld) (n : Nat) (e : Die) (y : Cluster) : (s.addFld r f n).dma e y = s.dma e y := rfl

@[simp] theorem reg_setCtx (s : State) (d : Die) (q : CoreId) (x : SlotId) (c : Ctx) (k : Reg) : (s.setCtx d q x c).reg k = s.reg k := rfl
@[simp] theorem fld_setCtx (s : State) (d : Die) (q : CoreId) (x : SlotId) (c : Ctx) (k : Reg) (g : Fld) : (s.setCtx d q x c).fld k g = s.fld k g := rfl
@[simp] theorem core_setCtx (s : State) (d : Die) (q : CoreId) (x : SlotId) (c : Ctx) (e : Die) (p : CoreId) : (s.setCtx d q x c).core e p = s.core e p := rfl
@[simp] theorem die_setCtx (s : State) (d : Die) (q : CoreId) (x : SlotId) (c : Ctx) (e : Die) : (s.setCtx d q x c).die e = s.die e := rfl
@[simp] theorem dma_setCtx (s : State) (d : Die) (q : CoreId) (x : SlotId) (c : Ctx) (e : Die) (y : Cluster) : (s.setCtx d q x c).dma e y = s.dma e y := rfl
@[simp] theorem now_setCtx (s : State) (d : Die) (q : CoreId) (x : SlotId) (c : Ctx) : (s.setCtx d q x c).now = s.now := rfl
@[simp] theorem beat_setCtx (s : State) (d : Die) (q : CoreId) (x : SlotId) (c : Ctx) (e : Die) : (s.setCtx d q x c).beat e = s.beat e := rfl
@[simp] theorem time_setCtx (s : State) (d : Die) (q : CoreId) (x : SlotId) (c : Ctx) (e : Die) : (s.setCtx d q x c).time e = s.time e := rfl

@[simp] theorem reg_setCore (s : State) (d : Die) (q : CoreId) (c : Core) (k : Reg) : (s.setCore d q c).reg k = s.reg k := rfl
@[simp] theorem fld_setCore (s : State) (d : Die) (q : CoreId) (c : Core) (k : Reg) (g : Fld) : (s.setCore d q c).fld k g = s.fld k g := rfl
@[simp] theorem ctx_setCore (s : State) (d : Die) (q : CoreId) (c : Core) (e : Die) (p : CoreId) (y : SlotId) : (s.setCore d q c).ctx e p y = s.ctx e p y := rfl
@[simp] theorem die_setCore (s : State) (d : Die) (q : CoreId) (c : Core) (e : Die) : (s.setCore d q c).die e = s.die e := rfl
@[simp] theorem dma_setCore (s : State) (d : Die) (q : CoreId) (c : Core) (e : Die) (y : Cluster) : (s.setCore d q c).dma e y = s.dma e y := rfl
@[simp] theorem now_setCore (s : State) (d : Die) (q : CoreId) (c : Core) : (s.setCore d q c).now = s.now := rfl
@[simp] theorem beat_setCore (s : State) (d : Die) (q : CoreId) (c : Core) (e : Die) : (s.setCore d q c).beat e = s.beat e := rfl
@[simp] theorem time_setCore (s : State) (d : Die) (q : CoreId) (c : Core) (e : Die) : (s.setCore d q c).time e = s.time e := rfl

@[simp] theorem reg_setDie (s : State) (d : Die) (x : DieSt) (k : Reg) : (s.setDie d x).reg k = s.reg k := rfl
@[simp] theorem fld_setDie (s : State) (d : Die) (x : DieSt) (k : Reg) (g : Fld) : (s.setDie d x).fld k g = s.fld k g := rfl
@[simp] theorem ctx_setDie (s : State) (d : Die) (x : DieSt) (e : Die) (p : CoreId) (y : SlotId) : (s.setDie d x).ctx e p y = s.ctx e p y := rfl
@[simp] theorem core_setDie (s : State) (d : Die) (x : DieSt) (e : Die) (p : CoreId) : (s.setDie d x).core e p = s.core e p := rfl
@[simp] theorem dma_setDie (s : State) (d : Die) (x : DieSt) (e : Die) (y : Cluster) : (s.setDie d x).dma e y = s.dma e y := rfl
@[simp] theorem now_setDie (s : State) (d : Die) (x : DieSt) : (s.setDie d x).now = s.now := rfl
@[simp] theorem beat_setDie (s : State) (d : Die) (x : DieSt) (e : Die) : (s.setDie d x).beat e = s.beat e := rfl
@[simp] theorem time_setDie (s : State) (d : Die) (x : DieSt) (e : Die) : (s.setDie d x).time e = s.time e := rfl

@[simp] theorem reg_setDma (s : State) (d : Die) (c : Cluster) (x : Dma) (k : Reg) : (s.setDma d c x).reg k = s.reg k := rfl
@[simp] theorem fld_setDma (s : State) (d : Die) (c : Cluster) (x : Dma) (k : Reg) (g : Fld) : (s.setDma d c x).fld k g = s.fld k g := rfl
@[simp] theorem ctx_setDma (s : State) (d : Die) (c : Cluster) (x : Dma) (e : Die) (p : CoreId) (y : SlotId) : (s.setDma d c x).ctx e p y = s.ctx e p y := rfl
@[simp] theorem core_setDma (s : State) (d : Die) (c : Cluster) (x : Dma) (e : Die) (p : CoreId) : (s.setDma d c x).core e p = s.core e p := rfl
@[simp] theorem die_setDma (s : State) (d : Die) (c : Cluster) (x : Dma) (e : Die) : (s.setDma d c x).die e = s.die e := rfl
@[simp] theorem now_setDma (s : State) (d : Die) (c : Cluster) (x : Dma) : (s.setDma d c x).now = s.now := rfl
@[simp] theorem beat_setDma (s : State) (d : Die) (c : Cluster) (x : Dma) (e : Die) : (s.setDma d c x).beat e = s.beat e := rfl
@[simp] theorem time_setDma (s : State) (d : Die) (c : Cluster) (x : Dma) (e : Die) : (s.setDma d c x).time e = s.time e := rfl

@[simp] theorem reg_raise (s : State) (r : Report) (k : Reg) : (s.raise r).reg k = s.reg k := rfl
@[simp] theorem fld_raise (s : State) (r : Report) (k : Reg) (g : Fld) : (s.raise r).fld k g = s.fld k g := rfl
@[simp] theorem ctx_raise (s : State) (r : Report) (e : Die) (p : CoreId) (y : SlotId) : (s.raise r).ctx e p y = s.ctx e p y := rfl
@[simp] theorem core_raise (s : State) (r : Report) (e : Die) (p : CoreId) : (s.raise r).core e p = s.core e p := rfl
@[simp] theorem die_raise (s : State) (r : Report) (e : Die) : (s.raise r).die e = s.die e := rfl
@[simp] theorem dma_raise (s : State) (r : Report) (e : Die) (y : Cluster) : (s.raise r).dma e y = s.dma e y := rfl
@[simp] theorem now_raise (s : State) (r : Report) : (s.raise r).now = s.now := rfl
@[simp] theorem beat_raise (s : State) (r : Report) (e : Die) : (s.raise r).beat e = s.beat e := rfl
@[simp] theorem time_raise (s : State) (r : Report) (e : Die) : (s.raise r).time e = s.time e := rfl

@[simp] theorem reg_burn (s : State) (n : Nat) (k : Reg) : (s.burn n).reg k = s.reg k := rfl
@[simp] theorem fld_burn (s : State) (n : Nat) (k : Reg) (g : Fld) : (s.burn n).fld k g = s.fld k g := rfl
@[simp] theorem ctx_burn (s : State) (n : Nat) (e : Die) (p : CoreId) (y : SlotId) : (s.burn n).ctx e p y = s.ctx e p y := rfl
@[simp] theorem core_burn (s : State) (n : Nat) (e : Die) (p : CoreId) : (s.burn n).core e p = s.core e p := rfl
@[simp] theorem die_burn (s : State) (n : Nat) (e : Die) : (s.burn n).die e = s.die e := rfl
@[simp] theorem dma_burn (s : State) (n : Nat) (e : Die) (y : Cluster) : (s.burn n).dma e y = s.dma e y := rfl
@[simp] theorem now_burn (s : State) (n : Nat) : (s.burn n).now = s.now := rfl
@[simp] theorem beat_burn (s : State) (n : Nat) (e : Die) : (s.burn n).beat e = s.beat e := rfl
@[simp] theorem time_burn (s : State) (n : Nat) (e : Die) : (s.burn n).time e = s.time e := rfl

/-! ### What an accessor reads after its own update -/

@[simp] theorem reg_setReg_same (s : State) (r : Reg) (w : Word) : (s.setReg r w).reg r = w := by
  simp [reg, setReg]

theorem reg_setReg_ne (s : State) {r k : Reg} (w : Word) (h : k ≠ r) : (s.setReg r w).reg k = s.reg k := by
  simp [reg, setReg, Assoc.find_put_ne _ _ h]

theorem reg_setReg (s : State) (r k : Reg) (w : Word) : (s.setReg r w).reg k = if k = r then w else s.reg k := by
  split
  · subst k; simp
  · exact reg_setReg_ne s w ‹_›

/-- A register whose word is replaced by its own word reads the same everywhere. -/
theorem fld_setReg_ne (s : State) {r k : Reg} (w : Word) (g : Fld) (h : k ≠ r) : (s.setReg r w).fld k g = s.fld k g := by
  simp [fld, reg_setReg_ne s w h]

theorem reg_setFld_ne (s : State) {r k : Reg} (f : Fld) (v : Nat) (h : k ≠ r) : (s.setFld r f v).reg k = s.reg k :=
  reg_setReg_ne s _ h

theorem fld_setFld_ne (s : State) {r k : Reg} (f g : Fld) (v : Nat) (h : k ≠ r) : (s.setFld r f v).fld k g = s.fld k g :=
  fld_setReg_ne s _ g h

/-- A field reads what was put into it, modulo its width. -/
theorem fld_setFld_same (s : State) (r : Reg) (f : Fld) (v : Nat) (h : f.hi < 64) :
    (s.setFld r f v).fld r f = v % 2 ^ (f.hi + 1 - f.lo) := by
  simp [fld, setFld, bitsOf_putBits_same _ _ _ _ h]

/-- A field apart from the one that is put keeps its value. -/
theorem fld_setFld_apart (s : State) (r : Reg) (f g : Fld) (v : Nat) (h : g.hi < f.lo ∨ f.hi < g.lo) :
    (s.setFld r f v).fld r g = s.fld r g := by
  simp [fld, setFld, bitsOf_putBits_apart _ _ _ _ _ _ h]

theorem reg_addFld_ne (s : State) {r k : Reg} (f : Fld) (n : Nat) (h : k ≠ r) : (s.addFld r f n).reg k = s.reg k :=
  reg_setFld_ne s f _ h

theorem fld_addFld_ne (s : State) {r k : Reg} (f g : Fld) (n : Nat) (h : k ≠ r) : (s.addFld r f n).fld k g = s.fld k g :=
  fld_setFld_ne s f g _ h

theorem fld_addFld_apart (s : State) (r : Reg) (f g : Fld) (n : Nat) (h : g.hi < f.lo ∨ f.hi < g.lo) :
    (s.addFld r f n).fld r g = s.fld r g := fld_setFld_apart s r f g _ h

/-- A counter goes up and stays at the top value of its width (R18). -/
theorem fld_addFld_same (s : State) (r : Reg) (f : Fld) (n : Nat) (h : f.hi < 64) :
    (s.addFld r f n).fld r f = min (s.fld r f + n) (2 ^ (f.hi + 1 - f.lo) - 1) := by
  unfold addFld
  rw [fld_setFld_same _ _ _ _ h, satAdd]
  have := Nat.one_le_two_pow (n := f.hi + 1 - f.lo)
  exact Nat.mod_eq_of_lt (by omega)

@[simp] theorem ctx_setCtx_same (s : State) (d : Die) (q : CoreId) (x : SlotId) (c : Ctx) : (s.setCtx d q x c).ctx d q x = c := by
  simp [ctx, setCtx]

theorem ctx_setCtx_ne (s : State) {d e : Die} {q p : CoreId} {x y : SlotId} (c : Ctx) (h : (e, p, y) ≠ (d, q, x)) :
    (s.setCtx d q x c).ctx e p y = s.ctx e p y := by
  simp [ctx, setCtx, Assoc.at_put_ne _ _ _ h]

@[simp] theorem core_setCore_same (s : State) (d : Die) (q : CoreId) (c : Core) : (s.setCore d q c).core d q = c := by
  simp [core, setCore]

theorem core_setCore_ne (s : State) {d e : Die} {q p : CoreId} (c : Core) (h : (e, p) ≠ (d, q)) :
    (s.setCore d q c).core e p = s.core e p := by
  simp [core, setCore, Assoc.at_put_ne _ _ _ h]

@[simp] theorem die_setDie_same (s : State) (d : Die) (x : DieSt) : (s.setDie d x).die d = x := by
  simp [die, setDie]

theorem die_setDie_ne (s : State) {d e : Die} (x : DieSt) (h : e ≠ d) : (s.setDie d x).die e = s.die e := by
  simp [die, setDie, Assoc.at_put_ne _ _ _ h]

@[simp] theorem dma_setDma_same (s : State) (d : Die) (c : Cluster) (x : Dma) : (s.setDma d c x).dma d c = x := by
  simp [dma, setDma]

theorem dma_setDma_ne (s : State) {d e : Die} {c p : Cluster} (x : Dma) (h : (e, p) ≠ (d, c)) :
    (s.setDma d c x).dma e p = s.dma e p := by
  simp [dma, setDma, Assoc.at_put_ne _ _ _ h]

@[simp] theorem raise_reports_eq (s : State) (r : Report) : (s.raise r).reports = s.reports ++ [{ r with found := s.now }] := rfl

@[simp] theorem burn_fresh_eq (s : State) (n : Nat) : (s.burn n).fresh = s.fresh + n := rfl

end Sys2Proof.Machine.State
end

