-- ==== Sys2Proof/Tests/Slice0.lean ====
section
/-! SUPPORT. The tests: ill-formed commands that WellFormed refuses, and for every statement with hypotheses a state and
operands that meet them, clause by clause, at boundary values. -/

open Sys2Proof Sys2Proof.Machine

namespace Sys2Proof.Tests

/-! The tests are elaborated one after another, to keep within the memory of the check. -/

set_option Elab.async false

/-! ### States the witnesses use -/

/-- Registers written one after another. -/
def withRegs (s : State) (l : List (Reg × Word)) : State := l.foldl (fun s e => s.setReg e.1 e.2) s

/-- Fields written one after another. -/
def withFlds (s : State) (l : List (Reg × Fld × Nat)) : State := l.foldl (fun s e => s.setFld e.1 e.2.1 e.2.2) s

/-- A module that has come up: every READY bit set, every bring-up phase over. -/
def up : State :=
  { State.reset.setReg .ptcReady 0xFFFFE00000001FFF with pow := { Pow.reset with phases := [0, 1, 2, 3, 4, 5, 6, 7] } }

/-- As `up`, with expert fields unlocked, the timebase at 50 s. -/
def upX : State :=
  withRegs up [(.engCtrl 0, 1), (.scvCtrl 0, 1), (.wstCtrl 0, 1), (.astCtrl 0, 1), (.pstCtrl 0, 1), (.fdxCtrl 0, 1),
    (.dmaCtrl 0, 1), (.syncCtrl 0, 1), (.circCtrl, 1), (.hbmCtrl 0, 1), (.hbmCtrl 1, 1), (.lpdCtrl, 1), (.mldCtrl, 1),
    (.ptcCtrl, 1), (.secCtrl, 1), (.ptcTbTime, 50000000000)]

/-- The state with its power controller changed. -/
def powS (s : State) (f : Pow → Pow) : State := { s with pow := f s.pow }

/-- The state with its security block changed. -/
def secS (s : State) (f : Sec → Sec) : State := { s with sec := f s.sec }

/-- The state with its fault unit changed. -/
def fcuS (s : State) (f : Fcu → Fcu) : State := { s with fcu := f s.fcu }

/-! ### Power (chapter 13) -/

/-- A linked module with a message of the control link whose turn has come. -/
def inTurn : State :=
  { withFlds upX [(.mldLinkStatus, F.mldLinkStatus_STATE, 2)] with inbox := [(0, .job ⟨none, true, 1, 5, 3⟩ 7 9)] }

/-- A module with die 0 out of reset and at rest, die 1 still in reset, its timebase corrected at the most. -/
def atRest : State :=
  powS ((State.reset.setReg .ptcReady 0x80).setDie 0 { DieSt.reset with phase := 999 }) fun p => { p with
    off := false, tbPhase := 999999, tbRate := 500 }

theorem witness_StepRunsTheFrontCommand :
    (inTurn.pending = [] ∧ (dueMessage inTurn).map (fun p => p.1) = some (.job ⟨none, true, 1, 5, 3⟩ 7 9))
    ∧ (let s := powS up fun p => { p with off := true }; s.pending = [] ∧ dueMessage s = none ∧ s.pow.off = true)
    ∧ (let s := powS State.reset fun p => { p with off := false, tbRate := -500 }
       s.pending = [] ∧ dueMessage s = none ∧ s.pow.off = false ∧ s.circ.heldRemote = [] ∧ s.pow.tbPhase < 1000000
        ∧ -500 ≤ s.pow.tbRate ∧ s.pow.tbRate ≤ 500 ∧ s.readyBit 8 = false ∧ s.readyBit 7 = false)
    ∧ (atRest.pending = [] ∧ dueMessage atRest = none ∧ atRest.pow.off = false ∧ atRest.circ.heldRemote = []
        ∧ atRest.pow.tbPhase < 1000000 ∧ -500 ≤ atRest.pow.tbRate ∧ atRest.pow.tbRate ≤ 500 ∧ atRest.readyBit 8 = false
        ∧ atRest.readyBit 7 = true ∧ DieAtRest atRest 0) := by
  unfold DieAtRest; decide +kernel

/-- Conditions of the power and thermal events that have lasted exactly as long as R548, R551 and R556 ask. -/
def powerDue : State := powS upX fun p => { p with
  vinSince := some 49999000000, inletSince := some 40000000000, floorSince := some 49990000000, underSince := some 49999000000,
  coolSince := some 49000000000, capping := true, capAt := 49999000000, thermCapping := true, thermAt := 49000000000 }

theorem witness_PowerAndItsEvents :
    (powS up fun p => { p with off := true }).pow.off = true ∧ up.pow.off = false
    ∧ (powerDue.pow.vinSince = some 49999000000 ∧ 49999000000 + 1000000 ≤ powerDue.now ∧ powerDue.pow.begun.find 0 = none)
    ∧ (powerDue.pow.inletSince = some 40000000000 ∧ 40000000000 + 10000000000 ≤ powerDue.now ∧ powerDue.pow.begun.find 2 = none)
    ∧ ((withFlds up [(.ptcStage 8, F.ptcStage_STATE, 1)]).fld (.ptcStage 8) F.ptcStage_STATE = 1
        ∧ (withFlds up [(.ptcStage 8, F.ptcStage_STATE, 1)]).fld (.ptcStage 8) F.ptcStage_LOST_MASK = 0
        ∧ 0 < (withFlds up [(.ptcStage 8, F.ptcStage_STATE, 1)]).fld (.ptcStage 8) F.ptcStage_PHASES
        ∧ (withFlds up [(.ptcStage 8, F.ptcStage_STATE, 1)]).fld (.ptcStage 8) F.ptcStage_PHASES ≤ 32)
    ∧ ((withFlds up [(.ptcStage 1, F.ptcStage_STATE, 2), (.ptcStage 1, F.ptcStage_LOST_MASK, 1)]).fld (.ptcStage 1) F.ptcStage_STATE = 2
        ∧ (withFlds up [(.ptcStage 1, F.ptcStage_STATE, 2), (.ptcStage 1, F.ptcStage_LOST_MASK, 1)]).fld (.ptcStage 1)
            F.ptcStage_LOST_MASK = 2 ^ 0
        ∧ 1 < (withFlds up [(.ptcStage 1, F.ptcStage_STATE, 2)]).fld (.ptcStage 1) F.ptcStage_PHASES
        ∧ (withFlds up [(.ptcStage 1, F.ptcStage_STATE, 2)]).fld (.ptcStage 1) F.ptcStage_PHASES ≤ 32)
    ∧ up.pow.refclkBad = false := by
  decide +kernel

/-- A module above its power limit by one watt and one degree above TJ_CAP, one step above 600 mV. -/
def hot : State :=
  withFlds (powS powerDue fun p => { p with capPoint := 601, thermPoint := 605, capAt := 49999900000, thermAt := 49900000000 })
    [(.ptcInput, F.ptcInput_PIN_W, 761), (.ptcTherm, F.ptcTherm_TJ_D0, 200)]

/-- As `up`, with no function in UNCAL. -/
def calUp : State := withFlds upX [(.ptcCalStatus, ⟨8, 0, .u, .basic, .ro⟩, 0)]

theorem witness_CappingAndThermalLimits :
    (calUp.pow.off = false ∧ uncal calUp 2 = false ∧ calUp.pow.capping = false
        ∧ calUp.fld .ptcCap F.ptcCap_LIMIT_W < 32767 ∧ calUp.pow.begun.find 1 = none)
    ∧ (hot.pow.capping = true ∧ hot.fld .ptcCap F.ptcCap_LIMIT_W < hot.fld .ptcInput F.ptcInput_PIN_W
        ∧ hot.pow.capAt + 100000 ≤ hot.now ∧ 600 < hot.pow.capPoint)
    ∧ (powerDue.pow.capping = true ∧ powerDue.pow.underSince = some 49999000000 ∧ 49999000000 + 1000000 ≤ powerDue.now
        ∧ powerDue.pow.capAt + 1000000 ≤ powerDue.now)
    ∧ (powerDue.pow.floorSince = some 49990000000 ∧ 49990000000 + 10000000 ≤ powerDue.now
        ∧ powerDue.fld .ptcCap F.ptcCap_FLOOR = 0 ∧ powerDue.pow.begun.find 6 = none)
    ∧ (up.pow.off = false ∧ 0 ≤ tjCap up ∧ tjCap up < 110 - thermEarly up ∧ tjCap up < 255 ∧ up.pow.begun.find 3 = none
        ∧ up.fld .ptcTherm F.ptcTherm_TJ_D1 < 110 - thermEarly up ∧ 110 - thermEarly up ≤ 255
        ∧ up.fld .ptcTherm F.ptcTherm_TJ_HUB < 110 - thermEarly up ∧ up.pow.thermCapping = false)
    ∧ (hot.pow.thermCapping = true ∧ (∃ x ∈ tjReadings hot, tjCap hot < x) ∧ hot.pow.thermAt + 100000000 ≤ hot.now
        ∧ 600 < hot.pow.thermPoint)
    ∧ (powerDue.pow.thermCapping = true ∧ powerDue.pow.coolSince = some 49000000000 ∧ 49000000000 + 1000000000 ≤ powerDue.now
        ∧ powerDue.pow.thermAt + 1000000000 ≤ powerDue.now) := by
  decide +kernel

theorem witness_SetPointWrites :
    WriteOpen upX (.ptcDieV 1) ∧ (600 ≤ 850 ∧ 850 ≤ 850 ∧ 850 % 5 = 0) ∧ ¬(600 ≤ 599 ∧ 599 ≤ 850 ∧ 599 % 5 = 0) := by
  unfold WriteOpen WriteReady; decide +kernel

/-- A calibrated die whose rail has settled, with CAL_MHZ at c. -/
def rated (c : Nat) : State :=
  withFlds (powS calUp fun p => { p with railSince := [(1, 49999900000)], settled := [1], raisedAt := [(1, 49900000000)] })
    [(.scvRate 1, F.scvRate_CAL_MHZ, c)]

theorem witness_Calibration :
    ((rated 0).pow.railSince.find 1 = some 49999900000 ∧ 49999900000 + 100000 ≤ (rated 0).now)
    ∧ ((rated 1741).readyBit (7 + (1 : Die).val) = true ∧ uncal (rated 1741) 1 = false
        ∧ max (dieFloor (rated 1741) 1) (0 * 99 / 100) < calAim (rated 1741) 1)
    ∧ ((rated 0).readyBit (7 + (1 : Die).val) = true ∧ uncal (rated 0) 1 = false
        ∧ calAim (rated 0) 1 < max (dieFloor (rated 0) 1) (65535 * 99 / 100) ∧ 1 ∈ (rated 0).pow.settled
        ∧ ∀ t0 ∈ (rated 0).pow.raisedAt.find 1, t0 + 100000000 ≤ (rated 0).now)
    ∧ (let s := powS upX fun p => { p with settled := [0] }
       s.readyBit (7 + (0 : Die).val) = true ∧ uncal s 0 = true ∧ (0 : Die) ∈ s.pow.settled)
    ∧ upX.readyBit 0 = true
    ∧ (upX.readyBit (7 + (0 : Die).val) = true
        ∧ (withRegs upX [(.scvTime 0, 1000000), (.scvBeat 0, 1000)]).pow.rateAt.at_ 0 0 + 1000000
            ≤ (withRegs upX [(.scvTime 0, 1000000), (.scvBeat 0, 1000)]).time 0
        ∧ min (((withRegs upX [(.scvTime 0, 1000000), (.scvBeat 0, 1000)]).beat 0
            - ((withRegs upX [(.scvTime 0, 1000000), (.scvBeat 0, 1000)]).die 0).rateBeat) / 1000) 65535
            < calAim (withRegs upX [(.scvTime 0, 1000000), (.scvBeat 0, 1000), (.scvRate 0, 0xFFFFFFFFFFFFFFFF)]) 0)
    ∧ (WriteOpen upX .ptcCalCmd ∧ upX.fld .ptcCalStatus F.ptcCalStatus_BUSY = 0
        ∧ converged (powS upX fun p => { p with calUnits := [(2, 0)] }) 2 = true)
    ∧ (withFlds upX [(.ptcCalStatus, F.ptcCalStatus_BUSY, 1)]).fld .ptcCalStatus F.ptcCalStatus_BUSY = 1
    ∧ ((List.replicate 8 (0 : Byte)).length = 8
        ∧ (secS upX fun x => { x with calOp := some (8, true) }).sec.calOp = some ((8 : Fin 9).val, true))
    ∧ (secS upX fun x => { x with calOp := some (0, false) }).sec.calOp = some ((0 : Fin 9).val, false) := by
  unfold WriteOpen WriteReady; decide +kernel

/-! ### Bring-up, resets, the fault unit, security, the management connector (chapters 12, 13, 14, 16) -/

/-- A module in bring-up whose first k phases are over. -/
def phased (k : Nat) : State :=
  { State.reset.setReg .ptcReady (BitVec.ofNat 64 ([0, 5, 7, 15, 31, 127, 4607, 6655].getD k 8191)) with
    pow := { Pow.reset with phases := List.range k } }

theorem witness_BringUpPhases :
    (phaseDue (phased 0) 0 [] = true ∧ (phased 0).pow.refclkBad = false ∧ (phased 0).pow.kept = false
        ∧ (phased 0).fcu.held = [] ∧ (phased 0).fcu.heldOver = [] ∧ (phased 0).sec.fuseBad = false)
    ∧ (phaseDue (phased 1) 1 [0] = true ∧ (phased 1).sec.fuseBad = false)
    ∧ (phaseDue (phased 2) 2 [0, 1] = true ∧ (phased 2).readyBit 1 = true ∧ linkState (phased 2) = 0
        ∧ (phased 2).fld .mldLinkCtrl F.mldLinkCtrl_ENABLE = 1)
    ∧ phaseDue (phased 3) 3 [0, 1] = true
    ∧ (phaseDue (phased 4) 4 [0, 1, 2, 3] = true ∧ (phased 4).readyBit 1 = true
        ∧ ∀ k ∈ ([1, 2, 3, 4] : List (Fin 9)), (phased 4).reg (.ptcStage k) = (Reg.ptcStage k).resetWord)
    ∧ (phaseDue (phased 5) 5 [0, 1, 2, 3, 4] = true ∧ (phased 5).readyBit 1 = true
        ∧ ∀ k ∈ ([1, 2, 3, 4] : List (Fin 9)), (phased 5).fld (.ptcStage k) F.ptcStage_STATE ≠ 3)
    ∧ (phaseDue (phased 6) 6 [0, 1, 2, 3, 4, 5] = true ∧ (phased 6).readyBit 1 = true ∧ (phased 6).readyBit 7 = true
        ∧ (phased 6).readyBit 8 = true)
    ∧ (phaseDue (phased 7) 7 [0, 1, 2, 3, 4, 5, 6] = true ∧ (phased 7).readyBit 1 = true) := by
  decide +kernel

/-- A level-5 decision whose hold ends now. -/
def held5 : State := fcuS (withFlds upX [(.fcuCtrl, F.fcuCtrl_RESET_HOLD_US, 100)]) fun f =>
  { f with holdClass := some .config, holdAt := 49999900000 }

theorem witness_ModuleResets :
    up.pow.off = false ∧ up.sec.blow = none ∧ held5.pow.off = false ∧ held5.sec.blow = none ∧ held5.fcu.holdClass ≠ none
    ∧ held5.fcu.holdAt + held5.fld .fcuCtrl F.fcuCtrl_RESET_HOLD_US * 1000 ≤ held5.now ∧ held5.readyBit 2 = true := by
  decide +kernel

/-- A report of a source, with an originating context where one is given. -/
def repOf (src : Source) (b : Block) (d : Nat) (c : Option CtxRef) : Report := { Report.plain src d 3 b 0x123456 with ctx := c }

/-- The state with one report on the fault path. -/
def withRep (s : State) (r : Report) : State := { s with reports := [r] }

/-- XLATE is configured at a level. -/
def xlateAt (n : Nat) (s : State) : State := s.setFld (.fcuReact .xlate) F.fcuReact_LEVEL n

/-- Slot 0 of core 0 of die 0 is READY. -/
def readyCtx (s : State) : State := s.setCtx 0 0 0 { Ctx.empty with st := .ready }

/-- The report of a translation fault of that slot. -/
def xlateRep : Report := repOf .xlate .scv 0 (some ⟨0, 0, 0⟩)

/-- The control link is in a session. -/
def sess (s : State) : State := withFlds s [(.mldLinkStatus, F.mldLinkStatus_STATE, 3), (.mldLinkStatus, F.mldLinkStatus_SESSION, 5)]

/-- A report of a lower source of the same class, and one of the same source on the other die. -/
def tiedReps : List Report := [repOf .writeRejected .scv 0 none, repOf .xlate .scv 1 none]

theorem witness_ReportsAreRecorded :
    (∀ o ∈ tiedReps, o.found = xlateRep.found ∧ o.src.cls = xlateRep.src.cls) ∧ Source.writeRejected.id < Source.xlate.id
    ∧ (repOf .xlate .scv 1 none).src.id = xlateRep.src.id ∧ xlateRep.die < (repOf .xlate .scv 1 none).die
    ∧ let s := withRep (sess (xlateAt 1 upX)) xlateRep;
    s.pow.off = false ∧ s.readyBit 2 = true ∧ s.reports = xlateRep :: [] ∧ (applied s xlateRep).level ≤ 1
      ∧ (∀ o ∈ ([] : List Report), o.found = xlateRep.found → o.src.cls ≠ xlateRep.src.cls)
      ∧ s.fcu.log.find (s.fld .fcuLogSel F.fcuLogSel_NEXT) = none ∧ linkState s = 3 := by
  decide +kernel

theorem witness_LevelsActAndEscalate :
    (let s := withRep (readyCtx (xlateAt 2 upX)) xlateRep;
      s.pow.off = false ∧ s.readyBit 2 = true ∧ s.reports = xlateRep :: [] ∧ xlateRep.ctx = some ⟨0, 0, 0⟩
        ∧ (applied s xlateRep).level = 2 ∧ s.fld .circRingConf F.circRingConf_ENABLE = 0 ∧ (s.ctx 0 0 0).st = .ready)
    ∧ (let s := withRep (xlateAt 3 upX) xlateRep;
        xlateRep.resetDie = some 0 ∧ (applied s xlateRep).level = 3)
    ∧ (let s := withRep (xlateAt 4 upX) xlateRep;
        (applied s xlateRep).pin = true ∧ 4 ≤ (applied s xlateRep).level)
    ∧ (let s := withRep (xlateAt 5 upX) xlateRep;
        (applied s xlateRep).level = 5 ∧ s.fcu.holdClass = none)
    ∧ (xlateAt 0 upX).fld (.fcuReact .xlate) F.fcuReact_LEVEL = 0
    ∧ (let s := fcuS (withFlds (xlateAt 1 upX) [(.fcuClass .config, F.fcuClass_ESC_EN, 1)]) fun f =>
          { f with unacked := [⟨12, .config, 4, true, false⟩] };
        s.fld (.fcuReact .xlate) F.fcuReact_LEVEL = 1 ∧ s.fld (.fcuClass Source.xlate.cls) F.fcuClass_ESC_EN = 1
          ∧ max 1 (unackLevel s Source.xlate.cls + 1) = 5 ∧ s.fcu.holdClass ≠ some Source.xlate.cls)
    ∧ (let s := fcuS (withFlds (xlateAt 1 upX) [(.fcuClass .config, F.fcuClass_ESC_EN, 1)]) fun f =>
          { f with unacked := [⟨12, .config, 5, true, false⟩] };
        6 ≤ max 1 (unackLevel s Source.xlate.cls + 1)) := by
  decide +kernel

/-- Three records of which none is acknowledged. -/
def unk : State := fcuS (withFlds upX [(.fcuClass .config, F.fcuClass_SVC_ACK, 1)]) fun f =>
  { f with unacked := [⟨12, .config, 1, false, false⟩, ⟨13, .config, 1, false, false⟩, ⟨14, .data, 4, true, false⟩],
           nextSeq := 15, handlers := [⟨12, .config, 1, false, false⟩] }

theorem witness_FaultUnitCommands :
    (WriteReady unk .fcuAck ∧ 14 < 2 ^ 32 ∧ seqUpTo 14 ((unk.fcu.nextSeq + 2 ^ 32 - 1) % 2 ^ 32) = true
        ∧ seqUpTo 14 (unk.fld (.fcuClass .config) F.fcuClass_ACKED_SEQ) = false)
    ∧ (nextHandler unk.fcu.handlers = some ⟨12, .config, 1, false, false⟩
        ∧ unk.fld (.fcuClass .config) F.fcuClass_SVC_ACK = 1)
    ∧ (up.readyBit 2 = true ∧ (!(up.fld .fcuPin F.fcuPin_DRIVEN_A == 1)).toNat ≠ up.fld .fcuPin F.fcuPin_DRIVEN_A ∧ up.fcu.mismatch = false
        ∧ (fcuS up fun f => { f with mismatch := true }).fcu.mismatch = true)
    ∧ (upX.readyBit (7 + (1 : Die).val) = true ∧ 1 ∉ upX.fcu.silent
        ∧ (fcuS upX fun f => { f with beats := [(1, 49999990000)] }).fcu.beats.at_ 0 1 + 10000 ≤ upX.now)
    ∧ (WriteOpen (withFlds upX [(.fcuCtrl, F.fcuCtrl_EXPERT_UNLOCK, 1)]) .fcuInject ∧ 2 < 3 ∧ 255 < 256 ∧ 2 ^ 32 - 1 < 2 ^ 32)
    ∧ (WriteReady (withFlds upX [(.fcuCtrl, F.fcuCtrl_RESET_HOLD_US, 100)]) .fcuCtrl
        ∧ 100 ≤ (withFlds upX [(.fcuCtrl, F.fcuCtrl_RESET_HOLD_US, 100)]).fld .fcuCtrl F.fcuCtrl_RESET_HOLD_US ∧ resumeBusy upX = false)
    ∧ (WriteReady (readyCtx upX) .fcuCtrl ∧ resumeBusy (readyCtx upX) = true)
    ∧ ((Block.scv, 1) ∈ (fcuS upX fun f => { f with resets := [(.scv, 1)] }).fcu.resets
        ∧ resetMayEnd (fcuS upX fun f => { f with resets := [(.scv, 1)] }) .scv 1 = true
        ∧ (fcuS upX fun f => { f with resets := [(.scv, 1)] }).fcu.waiting = []) := by
  unfold WriteOpen WriteReady; decide +kernel

theorem witness_PinRelease :
    (WriteReady upX .fcuPin ∧ upX.readyBit 2 = true ∧ ∀ u ∈ upX.fcu.unacked, u.acked = true ∨ (u.pin = false ∧ u.level ≠ 4))
    ∧ (let s := fcuS upX fun f => { f with unacked := [⟨12, .data, 3, false, false⟩, ⟨13, .data, 4, true, true⟩] };
        WriteReady s .fcuPin ∧ s.readyBit 2 = true ∧ ∀ u ∈ s.fcu.unacked, u.acked = true ∨ (u.pin = false ∧ u.level ≠ 4))
    ∧ (let s := fcuS upX fun f => { f with unacked := [⟨14, .data, 4, false, false⟩] };
        WriteReady s .fcuPin ∧ s.readyBit 2 = true ∧ ∃ u ∈ s.fcu.unacked, u.acked = false ∧ (u.pin = true ∨ u.level = 4)) := by
  unfold WriteReady; decide +kernel

/-- A running image whose SVN is 64. -/
def svn64 : State := withFlds upX [(.secStatus, F.secStatus_IMAGE_SVN, 64)]

theorem witness_FuseAdvance :
    (64 < 256 ∧ WriteOpen svn64 .secFuseCmd ∧ svn64.sec.blow = none ∧ svn64.fuses.rollback < 64 ∧ 64 ≤ 64
        ∧ 64 ≤ svn64.fld .secStatus F.secStatus_IMAGE_SVN ∧ svn64.readyBit 1 = true)
    ∧ (0 ≤ svn64.fuses.rollback ∧ 64 < 65 ∧ upX.fld .secStatus F.secStatus_IMAGE_SVN < 1)
    ∧ (let s := secS upX fun x => { x with blow := some (.advance 2), blowAt := 49998000000 };
        s.sec.blow = some (.advance 2) ∧ s.sec.blowAt + (2 - s.fuses.rollback) * 1000000 ≤ s.now)
    ∧ (let s := secS upX fun x => { x with blow := some (.advance 2), blowAt := 49998000001 };
        s.sec.blow = some (.advance 2) ∧ s.now < s.sec.blowAt + (2 - s.fuses.rollback) * 1000000) := by
  unfold WriteOpen WriteReady; decide +kernel

theorem witness_FuseRevoke :
    (WriteOpen upX .secFuseCmd ∧ upX.sec.blow = none ∧ 3 ≤ 3 ∧ 3 ∉ upX.fuses.revoked
        ∧ (upX.readyBit 1 = true → 3 ≠ upX.fld .secStatus F.secStatus_KEY_SLOT) ∧ (∃ j, j < 4 ∧ j ≠ 3 ∧ j ∉ upX.fuses.revoked))
    ∧ (3 < 4 ∧ upX.readyBit 1 = true ∧ 0 = upX.fld .secStatus F.secStatus_KEY_SLOT)
    ∧ (let s := { upX with fuses := { upX.fuses with revoked := [0, 1, 2] } };
        WriteOpen s .secFuseCmd ∧ 2 ∈ s.fuses.revoked ∧ ∀ j, j < 4 → j = 3 ∨ j ∈ s.fuses.revoked)
    ∧ (let s := secS upX fun x => { x with blow := some (.advance 1) };
        WriteOpen s .secFuseCmd ∧ s.sec.blow ≠ none)
    ∧ (let s := secS upX fun x => { x with blow := some (.revoke 3), blowAt := 49999000000 };
        WriteOpen s .secFuseCmd ∧ s.sec.blow = some (.revoke 3) ∧ s.sec.blowAt + 1000000 ≤ s.now) := by
  unfold WriteOpen WriteReady
  refine ⟨⟨by decide +kernel, by decide +kernel, by decide +kernel, by decide +kernel, by decide +kernel, 0, ?_⟩, ?_⟩ <;> decide +kernel

/-- A session in recovery. -/
def recov : State := secS (sess upX) fun x => { x with recovery := true, reqRepeat := true, reqAt := 49000000000, cause := 3 }

theorem witness_ImageRequest :
    recov.sec.recovery = true ∧ linkState recov = 3 ∧ recov.sec.reqRepeat = true ∧ recov.sec.reqAt + 1000000000 ≤ recov.now
    ∧ (secS recov fun x => { x with reqDue := true }).sec.reqDue = true := by
  decide +kernel

/-- A message of a role in the session. -/
def mh (role : Nat) : MsgHead := ⟨none, true, role, 5, 3⟩

theorem witness_ImageMessages :
    (Accepts (sess upX) (mh 1) [1] ∧ Canonical (sess upX))
    ∧ (let s := withFlds (sess upX) [(.secUpdStatus, F.secUpdStatus_STATE, 1)];
        Accepts s (mh 1) [1] ∧ Canonical s ∧ s.sec.verifying = none
          ∧ 33554431 + ([7] : List Byte).length ≤ 33554432 ∧ s.sec.recovery = false ∧ updState s = 1
          ∧ overlapsWritten s 33554431 ([7] : List Byte).length = false ∧ 0 / 65536 < 33554431 / 65536)
    ∧ (∀ n ∈ ([0, 3, 4] : List Nat), let s := withFlds (sess upX) [(.secUpdStatus, F.secUpdStatus_STATE, n)];
        Accepts s (mh 1) [1] ∧ Canonical s ∧ s.sec.verifying = none ∧ s.sec.recovery = false ∧ updState s = n)
    ∧ 33554432 < 33554432 + ([7] : List Byte).length
    ∧ (Accepts recov (mh 1) [1] ∧ Canonical recov ∧ recov.sec.verifying = none ∧ recov.sec.recovery = true
        ∧ overlapsWritten recov 33554431 ([7] : List Byte).length = false)
    ∧ (let s := secS (sess upX) fun x => { x with verifying := some 40 };
        Accepts s (mh 1) [1] ∧ Canonical s ∧ s.sec.verifying = some 40 ∧ s.sec.recovery = false)
    ∧ (let s := secS recov fun x => { x with verifying := some 40 };
        Accepts s (mh 1) [1] ∧ Canonical s ∧ s.sec.verifying = some 40 ∧ s.sec.recovery = true) := by
  unfold Accepts Canonical; refine ⟨?_, ?_, ?_, ?_, ?_, ?_, ?_⟩ <;> decide +kernel

/-- A configuration record. -/
def recOf (cal : Bool) (k : Nat) (live : Bool) (n : Nat) : ConfRec :=
  { cal := cal, key := k, payload := List.replicate n 1, live := live, user := false }

theorem size_recOf (c : Bool) (k : Nat) (l : Bool) (n : Nat) : (recOf c k l n).size = 56 + (n + 7) / 8 * 8 := by
  simp [recOf, ConfRec.size]

theorem bank_low : bankFree (secS upX fun x => { x with recs := List.replicate 96 (recOf false 1 true 16384) }) < 524288 := by
  simp only [bankFree, secS, List.map_replicate, size_recOf, List.sum_replicate]; decide

theorem witness_AttestationAndRecords :
    (WriteReady upX .secAttCmd ∧ upX.fld .secStatus F.secStatus_ATT_BUSY = 0 ∧ upX.readyBit 1 = true)
    ∧ (let s := withFlds (sess upX) [(.secStatus, F.secStatus_ATT_BUSY, 1)];
        WriteReady s .secAttCmd ∧ s.fld .secStatus F.secStatus_ATT_BUSY = 1 ∧ linkState s = 3)
    ∧ (let s := secS upX fun x => { x with repairDue := [(1, 5, 700)], recs := [] };
        s.sec.repairDue = (1, 5, 700) :: [] ∧ s.sec.recs = [])
    ∧ WriteOpen upX .secRecCtrl
    ∧ (secS upX fun x => { x with reclaiming := true }).sec.reclaiming = true
    ∧ bankFree (secS upX fun x => { x with recs := List.replicate 96 (recOf false 1 true 16384) }) < 524288 := by
  unfold WriteOpen WriteReady; refine ⟨?_, ?_, ?_, ?_, ?_, bank_low⟩ <;> decide +kernel

theorem witness_ManagementConnector :
    answers up = true
    ∧ (let s := { up with mgmt := { up.mgmt with sel := Reg.addr .fcuStatus } };
        answers s = true ∧ s.mgmt.sel = Reg.addr .fcuStatus ∧ Reg.ofAddr (Reg.addr .fcuStatus) = some .fcuStatus
          ∧ inBlockReset s .fcuStatus = false ∧ regReady s .fcuStatus = true ∧ Reg.hasU .fcuStatus = true)
    ∧ (let s := { up with mgmt := { up.mgmt with sel := Reg.addr .fcuAck } };
        answers s = true ∧ s.mgmt.sel = Reg.addr .fcuAck ∧ Reg.ofAddr (Reg.addr .fcuAck) = some .fcuAck
          ∧ inBlockReset s .fcuAck = false ∧ regReady s .fcuAck = true ∧ Reg.hasU .fcuAck = false)
    ∧ readyFailed up = false
    ∧ (let s := { up.setReg .ptcReady 0xFFFFE00000000FFF with mgmt := { up.mgmt with sel := Reg.addr .ptcReady } };
        answers s = true ∧ s.mgmt.sel = Reg.addr .ptcReady ∧ readyFailed s = true)
    ∧ alertLow unk = true ∧ answers unk = true ∧ 127 < 128 ∧ 2 ^ 48 - 1 < 2 ^ 48 := by
  decide +kernel

/-! ### Contexts and scalar instructions (chapters 03, 05, 07) -/

/-- `Issues` from its parts, the physical address of the word at the PC given. -/
theorem issues_of {s : State} {d : Die} {q : CoreId} {x : SlotId} {srcs : List (Fin 32)} (a : Nat)
    (h : issuing s d q = some x ∧ (s.ctx d q x).translate (s.ctx d q x).pc 4 .x = some a
      ∧ (readStore s a 4 = s ∧ s.poisonedIn a 4 = false) ∧ ∀ r ∈ srcs, loadPending s d q x r = false) : Issues s d q x srcs :=
  ⟨h.1, ⟨a, h.2.1, h.2.2.1⟩, h.2.2.2⟩

/-- Where the program of the test context stands. -/
def xbase : Nat := unitBase 0 .ast 0 + 0x780000

/-- A region of 8,192 bytes at a context address. -/
def regionAt (cb mb : Nat) (x : Bool) : Region := { cbase := cb, mbase := mb, size := 13, r := true, w := true, a := true, x := x }

/-- A READY context at the start of a region it may run in; its other regions lead to stores, HBM3E and registers. -/
def c0 : Ctx := { Ctx.empty with
  st := .ready, pc := 0x10000, s := [(1, 70000), (2, 70001), (3, 50000000000), (4, 50000000001)], p := 255, prio := 3,
  regions := [(0, regionAt 0x10000 xbase true), (1, regionAt 0x20000 (unitBase 0 .wst 0) false), (2, regionAt 0x30000 0x10000 false),
    (3, regionAt 0x40000 (unitBase 0 .pst 0) false), (4, regionAt 0x50000 (unitBase 1 .wst 0) false),
    (5, regionAt 0x60000 0x8000000000 false)] }

/-- Core 0 of die 0 runs, at beat 70,000 and time 50 s. -/
def run (s : State) : State :=
  withFlds s [(.scvCoreCtrl 0 0, F.scvCoreCtrl_RUN, 1), (.scvBeat 0, ⟨63, 0, .u, .basic, .ro⟩, 70000),
    (.scvTime 0, ⟨63, 0, .u, .basic, .ro⟩, 50000000000)]

/-- The state at another beat of die 0. -/
def atBeat (s : State) (b : Nat) : State := s.setReg (.scvBeat 0) (BitVec.ofNat 64 b)

/-- The test context issues. -/
def ru : State := (run upX).setCtx 0 0 0 c0

theorem ru_issues : Issues ru 0 0 0 [1, 2, 3, 4] := issues_of xbase (by decide +kernel)

theorem ru_issues_none : Issues ru 0 0 0 [] := issues_of xbase (by decide +kernel)

theorem witness_ScalarOperations :
    Issues ru 0 0 0 [1, 2, 3, 4] ∧ (ru.ctx 0 0 0).p < 256 ∧ (∀ v ∈ ([0, 31] : List (Fin 32)), vectorPending ru 0 0 v.val = false)
    ∧ ((ru.ctx 0 0 0).translate 0x10100 64 .r = some (xbase + 256) ∧ wideReject ru (xbase + 256) 64 2 .none_ = none
        ∧ ownStore 0 (xbase + 256) = true)
    ∧ ((ru.ctx 0 0 0).translate 0x10100 64 (storePerm (ru.ctx 0 0 0) 0x10100 64) = some (xbase + 256)
        ∧ wideReject ru (xbase + 256) 64 4 .none_ = none)
    ∧ ((ru.ctx 0 0 0).translate 0x30000 64 .r = some 0x10000 ∧ wideReject ru 0x10000 64 2 .none_ = some .windowViolation)
    ∧ (illegalWord 0xE8000000 = false ∧ bitsOf32 0xE8000000 31 24 = 0xE8) :=
  ⟨ru_issues, by decide +kernel⟩

/-- A core whose issue queue is full and whose combining buffer holds an entry. -/
def busyCore : Core := { Core.reset with
  issueQ := List.replicate 8 ⟨7, 0, 3, 69990⟩, combine := [⟨unitBase 0 .ast 0, [(3, (7, false))], []⟩] }

/-- The test context with core 0 busy. -/
def rub : State := ru.setCore 0 0 busyCore

theorem rub_issues (srcs : List (Fin 32)) (h : srcs = [1] ∨ srcs = []) : Issues rub 0 0 0 srcs := by
  rcases h with rfl | rfl <;> exact issues_of xbase (by decide +kernel)

theorem ru_issues_one (r : Fin 32) (h : r = 1 ∨ r = 2 ∨ r = 3 ∨ r = 4) : Issues ru 0 0 0 [r] := by
  rcases h with rfl | rfl | rfl | rfl <;> exact issues_of xbase (by decide +kernel)

theorem witness_ReadsAndWaits :
    Issues ru 0 0 0 [] ∧ (Issues ru 0 0 0 [1] ∧ ((ru.ctx 0 0 0).rd 1).toNat ≤ ru.beat 0)
    ∧ (Issues ru 0 0 0 [2] ∧ ¬((ru.ctx 0 0 0).rd 2).toNat ≤ ru.beat 0)
    ∧ (Issues ru 0 0 0 [3] ∧ ((ru.ctx 0 0 0).rd 3).toNat ≤ ru.time 0)
    ∧ (Issues ru 0 0 0 [4] ∧ ¬((ru.ctx 0 0 0).rd 4).toNat ≤ ru.time 0)
    ∧ ((ru.core 0 0).issueQ.any (fun e => e.slot == 0) = false ∧ (ru.core 0 0).combine.isEmpty = true)
    ∧ (Issues rub 0 0 0 [1] ∧ (rub.core 0 0).issueQ.any (fun e => e.slot == 0) = true ∧ (rub.core 0 0).combine.isEmpty = false) :=
  ⟨ru_issues_none, ⟨ru_issues_one 1 (by decide), by decide +kernel⟩, ⟨ru_issues_one 2 (by decide), by decide +kernel⟩,
    ⟨ru_issues_one 3 (by decide), by decide +kernel⟩, ⟨ru_issues_one 4 (by decide), by decide +kernel⟩, by decide +kernel,
    rub_issues [1] (by decide), by decide +kernel⟩

theorem witness_IssueAndBranch :
    (Issues ru 0 0 0 [1] ∧ queueHasRoom ru 0 0 0 = true) ∧ (Issues rub 0 0 0 [1] ∧ queueHasRoom rub 0 0 0 = false
        ∧ (rub.ctx 0 0 0).stalledAt ≠ some (rub.beat 0))
    ∧ (Issues ru 0 0 0 [] ∧ 2 ^ 48 - 1 < 2 ^ 48) :=
  ⟨⟨ru_issues_one 1 (by decide), by decide +kernel⟩, ⟨rub_issues [1] (by decide), by decide +kernel⟩, ru_issues_none, by decide⟩

/-- The test context in a state, waiting for a condition, with a save area. -/
def cst (st : CtxState) (w : Option WaitCond) : State :=
  ru.setCtx 0 0 0 { c0 with st := st, waiting := w, area := unitBase 0 .ast 0 + 0x4000 }

theorem witness_SlotCommands :
    (∀ st ∈ ([.stopped, .ready, .wait, .empty] : List CtxState),
      WriteReady (cst st none) (.scvCtxCmd 0 0) ∧ ((cst st none).ctx 0 0 0).st = st)
    ∧ unitBase 0 .ast 0 + 0x4000 < 2 ^ 48 ∧ saveAreaOk 0 0 (unitBase 0 .ast 0 + 0x4000) = true
    ∧ saveAreaOk 0 0 (unitBase 0 .ast 0 + 0x4001) = false ∧ saveAreaOk 0 0 0 = false := by
  unfold WriteReady; decide +kernel

/-- A narrow access of the test context is outstanding. -/
def outstanding : State := (cst .ready none).setDie 0 { DieSt.reset with
  accs := [{ stamp := 0, kind := .read, addr := xbase, size := 4, data := [], dest := .scalar 0 0 0 3 false, portB := false,
             issue := 69998, ret := 0, served := false }] }

/-- A context whose eight regions stand side by side, with a word in every kind of field. -/
def c8 : Ctx := { c0 with
  st := .saving, area := unitBase 0 .ast 0 + 0x4000, xl := [(4095, 65535)], last := 3, lastVid := 4095,
  regions := [(0, regionAt 0x10000 xbase true), (1, regionAt 0x20000 xbase false), (2, regionAt 0x30000 xbase false),
    (3, regionAt 0x40000 xbase false), (4, regionAt 0x50000 xbase false), (5, regionAt 0x60000 xbase false),
    (6, regionAt 0x70000 xbase false), (7, regionAt 0x80000 xbase false)] }

theorem witness_SaveThenRestore :
    let s := ru.setCtx 0 0 0 c8
    (s.ctx 0 0 0).st = .saving ∧ saveAreaOk 0 0 (s.ctx 0 0 0).area = true ∧ Mem.wf s.mem = true ∧ Saveable 0 0 (s.ctx 0 0 0) := by
  refine ⟨by decide +kernel, by decide +kernel, by decide +kernel, by decide +kernel, by decide +kernel, by decide +kernel,
    by decide +kernel, by decide +kernel, by decide +kernel, ?_, ?_, ?_⟩
  · intro v
    show (if v = 4095 then some 65535 else none).getD 0 < 65536
    split <;> decide
  · intro r
    have h : ∀ r : Fin 8, ∀ g ∈ [(c8.regions.find r).getD (regionAt 0 0 false)],
        ((ru.setCtx 0 0 0 c8).ctx 0 0 0).regions.find r = some g ∧ g.cbase < 2 ^ 48 ∧ g.mbase < 2 ^ 48
          ∧ parseRegion ((0 : CoreId).val / 4) 0 g.cbase g.mbase g.word (comp 64 g.word) = some g := by decide +kernel
    exact ⟨_, h r _ (List.mem_singleton.mpr rfl)⟩
  · have h : ∀ r t : Fin 8, r ≠ t → ((ru.setCtx 0 0 0 c8).ctx 0 0 0).regions.find r = ((ru.setCtx 0 0 0 c8).ctx 0 0 0).regions.find r →
        (match ((ru.setCtx 0 0 0 c8).ctx 0 0 0).regions.find r, ((ru.setCtx 0 0 0 c8).ctx 0 0 0).regions.find t with
          | some g, some k => g.overlaps k
          | _, _ => false) = false := by decide +kernel
    intro r t g k hrt hg hk
    have := h r t hrt rfl
    rw [hg, hk] at this
    exact this

theorem witness_ContextsSettleAndWake :
    (let s := ru.setCtx 0 0 0 { c0 with stopReq := true };
      (s.ctx 0 0 0).stopReq = true ∧ narrowOutstanding s 0 0 0 = false)
    ∧ narrowOutstanding outstanding 0 0 0 = true
    ∧ ((cst .saving none).ctx 0 0 0).st = .saving ∧ saveAreaOk 0 0 ((cst .saving none).ctx 0 0 0).area = true
    ∧ Mem.wf (cst .saving none).mem = true ∧ ((cst .restoring none).ctx 0 0 0).st = .restoring
    ∧ (∀ w ∈ ([.beat 70000, .beat 70001, .time 50000000000, .time 50000000001] : List WaitCond),
        ((cst .wait (some w)).ctx 0 0 0).st = .wait ∧ ((cst .wait (some w)).ctx 0 0 0).waiting = some w
          ∧ ((cst .wait (some w)).ctx 0 0 0).stopReq = false)
    ∧ condHolds (cst .wait (some (.beat 70000))) 0 0 0 (.beat 70000) = true
    ∧ condHolds (cst .wait (some (.beat 70001))) 0 0 0 (.beat 70001) = false
    ∧ condHolds (cst .wait (some (.time 50000000000))) 0 0 0 (.time 50000000000) = true
    ∧ condHolds (cst .wait (some (.time 50000000001))) 0 0 0 (.time 50000000001) = false := by
  decide +kernel

/-! ### The stores (chapter 05) -/

/-- Some bytes in a weight store and a partial store. -/
def mem0 : List Host.Cell := Mem.write (Mem.write [] (unitBase 0 .wst 0) [1, 2, 3]) (unitBase 0 .pst 0) [7, 0, 8]

/-- An access in flight. -/
def accOf (dest : AccDest) (served : Bool) (a : Nat) (k : AccKind) (n : Nat) : Access :=
  { stamp := 0, kind := k, addr := a, size := n, data := (List.range n).map fun i => (BitVec.ofNat 8 (i + 3), false), dest := dest,
    portB := false, issue := 69998, ret := if served then 70000 else 0, served := served }

/-- The test context with accesses in flight. -/
def withAcc (l : List Access) : State := { ru.setDie 0 { DieSt.reset with accs := l } with mem := mem0 }

/-- The test context with writes that take effect at the beat's end. -/
def withEff (l : List Effect) : State := { ru.setDie 0 { DieSt.reset with effects := l } with mem := mem0 }

/-- A write of each kind of one class. -/
def eff1 (cls : Nat) : List Effect :=
  [⟨cls, .write, unitBase 0 .wst 0 + 2, [(8, false), (1, true)]⟩, ⟨cls, .bitSet, unitBase 0 .wst 0, [(8, false)]⟩,
    ⟨cls, .bitClear, unitBase 0 .pst 0 + 8, [(255, false)]⟩,
    ⟨cls, .acc true, unitBase 0 .pst 0 + 8, [(0, false), (0, false), (0x80, false), (0x3F, false)]⟩,
    ⟨cls, .acc false, unitBase 0 .wst 0, [(0x80, false), (0x3F, false)]⟩]

theorem witness_StoreAccesses :
    (∀ p ∈ ([(accOf (.scalar 0 0 0 3 true) false (unitBase 0 .wst 0) .read 8, 70000, 0),
        (accOf (.store 0 0 0) false (unitBase 0 .pst 0) .write 1, 70005, 3),
        (accOf (.store 0 0 0) false (unitBase 0 .wst 0 + 2) .bitSet 2, 70008, 0),
        (accOf (.store 0 0 0) false (unitBase 0 .pst 0) .bitClear 8, 70013, 3),
        (accOf (.store 0 0 0) false (unitBase 0 .pst 0 + 8) (.acc true) 8, 70021, 3)] : List (Access × Nat × Nat)),
      let s := atBeat (withAcc [p.1]) p.2.1;
      (s.die 0).accs[0]? = some p.1 ∧ servable s 0 0 p.1 = some p.2.2 ∧ servable (atBeat s (p.2.1 + 1)) 0 0 p.1 = none)
    ∧ (∀ p ∈ ([accOf (.scalar 0 0 0 3 true) true (unitBase 0 .wst 0) .read 8, accOf (.store 0 0 0) true (unitBase 0 .wst 0) .write 8,
        accOf (.vector 0 0 0 5 0) true (unitBase 0 .wst 0) .read 32, accOf (.feeder 0 0 2 16) true (unitBase 0 .wst 0) .read 32]
        : List Access), ((withAcc [p]).die 0).accs[0]? = some p ∧ p.served = true ∧ p.ret ≤ (withAcc [p]).beat 0
          ∧ (((withAcc [p]).die 0).accs.take 0).any (fun b => sameOrder b p) = false
          ∧ (atBeat (withAcc [p]) 69999).beat 0 < p.ret)
    ∧ (∀ e ∈ eff1 8, ((withEff [e]).die 0).effects = [e] ∧ e.cls < 9 ∧ e.kind ≠ .read
        ∧ (match placeOf e.addr with | .store d _ _ _ _ => d == 0 | _ => false) = true ∧ Mem.wf (withEff [e]).mem = true)
    ∧ (∀ e ∈ eff1 8, ∀ f ∈ eff1 7, ((withEff [e, f]).die 0).effects = [e, f] ∧ f.cls < e.cls ∧ e.cls < 9) := by
  decide +kernel

/-- An entry of the combining buffer, with the first and the last byte of its line. -/
def e1 : CombEntry := ⟨unitBase 0 .wst 0, [(0, (9, false)), (1023, (0, false))], [(0, 4)]⟩

/-- The test context with core 0's buffers in use and a scrub whose word still holds its error. -/
def buffered : State :=
  { (ru.setCore 0 0 { Core.reset with combine := [e1], drains := [⟨3, true, none⟩, ⟨4, false, none⟩, ⟨5, true, some 70005⟩] }).setDie 0
      { DieSt.reset with rmws := [⟨3, 1, 70000⟩, ⟨3, 1, 70001⟩], scrubs := [⟨.wst, unitBase 0 .wst 0⟩, ⟨.pst, unitBase 0 .pst 0⟩] }
    with mem := mem0, latent := [(unitBase 0 .pst 0, ⟨[], 1⟩)] }

theorem witness_BuffersAreWritten :
    ((buffered.die 0).rmws[0]? = some ⟨3, 1, 70000⟩ ∧ 70000 ≤ buffered.beat 0 ∧ (buffered.die 0).rmws[1]? = some ⟨3, 1, 70001⟩
        ∧ buffered.beat 0 < 70001)
    ∧ (((atBeat buffered 70001).die 0).scrubs.filter (fun c => c.live (atBeat buffered 70001)) = ⟨.pst, unitBase 0 .pst 0⟩ :: []
        ∧ slotOpen (atBeat buffered 70001) 0 (bankIndex (unitBase 0 .pst 0)) (rowOf (unitBase 0 .pst 0)).1 7 = true)
    ∧ ((ru.die 0).scrubs.filter (fun c => c.live ru) = [])
    ∧ (∀ p ∈ ([(0, ⟨3, true, none⟩, 70003), (1, ⟨4, false, none⟩, 70004), (2, ⟨5, true, some 70005⟩, 70005)] : List (Nat × DrainEntry × Nat)),
        (buffered.core 0 0).drains[p.1]? = some p.2.1
        ∧ ((buffered.core 0 0).drains.take p.1).any (fun o => o.line % 8 = p.2.1.line % 8) = false
        ∧ slotOpen (atBeat buffered p.2.2) 0 (p.2.1.line % 8) (bankKey .pst 0 (p.2.1.line % 8)) 0 = true)
    ∧ ((buffered.core 0 0).combine = e1 :: [] ∧ freeSlot buffered 0 (e1.access 0 0) = some 0
        ∧ (∀ p ∈ ((e1.access 0 0).port).toList, p ∉ (buffered.die 0).used) ∧ (e1.access 0 0).port.isSome = true
        ∧ (buffered.die 0).accs.any (fun b => !b.narrow && b.port == (e1.access 0 0).port && (freeSlot buffered 0 b).isSome) = false
        ∧ (e1.bytes.map Prod.fst).Nodup)
    ∧ (ru.core 0 0).combine = [] := by
  decide +kernel

/-- The test context under the combining policy. -/
def combining : State := withFlds ru [(.wstStoreCtrl 0, F.wstStoreCtrl_NPOLICY, 1)]

theorem combining_issues : Issues combining 0 0 0 [1] := issues_of xbase (by decide +kernel)

/-- The test context with HBM3E stack 0 UP. -/
def hbmUp : State := ru.setFld (.hbmStackStatus 0 0) F.hbmStackStatus_STATE 2

theorem hbmUp_issues : Issues hbmUp 0 0 0 [1] := issues_of xbase (by decide +kernel)

/-- Where the last double word of a region stands. -/
def last8 : Nat := 0x20000 + 8184

/-- The combining policy with an entry for the last line of the region, its last double word written. -/
def pendingLast : State := combining.setCore 0 0 { Core.reset with
  combine := [⟨unitBase 0 .wst 0 + 7168, (List.range 8).map fun i => (1016 + i, (7, false)), [(0, 4)]⟩] }

theorem pendingLast_issues : Issues pendingLast 0 0 0 [1] := issues_of xbase (by decide +kernel)

/-- The combining policy with 16 entries for other lines. -/
def combineFull : State := combining.setCore 0 0 { Core.reset with
  combine := (List.range 16).map fun i => ⟨unitBase 0 .wst 0 + 0x100000 + i * 1024, [(0, (7, false))], [(0, 4)]⟩ }

theorem combineFull_issues : Issues combineFull 0 0 0 [1] := issues_of xbase (by decide +kernel)

/-- The physical address of the last double word of that region. -/
def m8 : Nat := unitBase 0 .wst 0 + 8184

theorem witness_NarrowAccesses :
    (Issues ru 0 0 0 [1] ∧ (ru.ctx 0 0 0).translate 0 (2 ^ (0 : Fin 4).val) .r = none
        ∧ (ru.ctx 0 0 0).translate (last8 + 1) (2 ^ (3 : Fin 4).val)
            (storePerm (ru.ctx 0 0 0) (last8 + 1) (2 ^ (3 : Fin 4).val)) = none)
    ∧ ((ru.ctx 0 0 0).translate 0x30000 (2 ^ (3 : Fin 4).val) .r = some 0x10000 ∧ placeOf 0x10000 ≠ .register
        ∧ narrowReject ru 0x10000 8 2 = some .windowViolation
        ∧ (ru.ctx 0 0 0).translate 0x30000 8 (storePerm (ru.ctx 0 0 0) 0x30000 8) = some 0x10000
        ∧ narrowReject ru 0x10000 8 4 = some .windowViolation)
    ∧ ((ru.ctx 0 0 0).translate last8 (2 ^ (3 : Fin 4).val) .r = some m8 ∧ narrowReject ru m8 8 2 = none
        ∧ placeOf m8 = .store 0 .wst 0 0 8184 ∧ combines ru 0 0 m8 = false)
    ∧ (Issues pendingLast 0 0 0 [1] ∧ (pendingLast.ctx 0 0 0).translate last8 8 .r = some m8 ∧ narrowReject pendingLast m8 8 2 = none
        ∧ combines pendingLast 0 0 m8 = true ∧ covered (pendingLast.core 0 0) (directAddr m8) 8 = true
        ∧ (combEntry (pendingLast.core 0 0) (directAddr m8)).isSome = true)
    ∧ ((ru.ctx 0 0 0).translate last8 8 (storePerm (ru.ctx 0 0 0) last8 8) = some m8 ∧ narrowReject ru m8 8 4 = none)
    ∧ (Issues combining 0 0 0 [1] ∧ (combining.ctx 0 0 0).translate last8 8 (storePerm (combining.ctx 0 0 0) last8 8) = some m8
        ∧ narrowReject combining m8 8 4 = none ∧ combines combining 0 0 m8 = true ∧ narrowKind m8 8 = .write
        ∧ (combining.core 0 0).combine.length < 16)
    ∧ (Issues combineFull 0 0 0 [1] ∧ (combineFull.ctx 0 0 0).translate last8 8 (storePerm (combineFull.ctx 0 0 0) last8 8) = some m8
        ∧ narrowReject combineFull m8 8 4 = none ∧ combines combineFull 0 0 m8 = true
        ∧ combEntry (combineFull.core 0 0) (directAddr m8) = none ∧ 16 ≤ (combineFull.core 0 0).combine.length
        ∧ (combineFull.ctx 0 0 0).stalledAt ≠ some (combineFull.beat 0))
    ∧ (Issues hbmUp 0 0 0 [1] ∧ (hbmUp.ctx 0 0 0).translate 0x30000 8 .r = some 0x10000 ∧ narrowReject hbmUp 0x10000 8 2 = none
        ∧ placeOf 0x10000 = .hbm 0) :=
  ⟨⟨ru_issues_one 1 (by decide), by decide +kernel⟩, by decide +kernel, by decide +kernel, ⟨pendingLast_issues, by decide +kernel⟩,
    by decide +kernel, ⟨combining_issues, by decide +kernel⟩, ⟨combineFull_issues, by decide +kernel⟩, hbmUp_issues, by decide +kernel⟩

theorem witness_StoresAreCleared :
    (WriteReady upX (.wstCtrl 0) ∧ upX.quiet 0 = true) ∧ (WriteReady ru (.wstCtrl 0) ∧ ru.quiet 0 = false)
    ∧ (withFlds upX [(.wstCtrl 0, F.wstCtrl_CLEAR_BUSY, 1)]).fld (.wstCtrl 0) F.wstCtrl_CLEAR_BUSY = 1
    ∧ upX.fld (.wstCtrl 0) F.wstCtrl_CLEAR_BUSY = 0
    ∧ WriteReady upX (.wstStoreCtrl 0) ∧ (WriteReady ru (.wstStoreCtrl 0) ∧ ru.invar 0 ≠ !(ru.invar 0)) := by
  unfold WriteReady; decide +kernel

/-- A background test that runs, at a region. -/
def bistOf (b : Bist) (region : Nat) : State :=
  withFlds (upX.setDie 0 { DieSt.reset with bist := b }) [(.wstBistStatus 0, F.wstBistStatus_REGION, region)]

/-- A line of a region under test. -/
def bl : BistLine := ⟨false, 0, false, false⟩

/-- A test with a line in each stage. -/
def bist4 : Bist := { Bist.reset with
  running := true
  started := true
  lines := [bl, { bl with saved := true, march := 255 }, { bl with saved := true, march := 256 },
    { bl with saved := true, march := 256, failed := true }] }

/-- The last region of store lines at a beat of the class 7 slot of line i's bank. -/
def marching (i : Nat) : State := atBeat (bistOf bist4 73727) (70000 + (bistBank (bistOf bist4 73727) 0 i).1 + 1)

/-- A die up and running with the test enabled; a region started INTERVAL beats ago. -/
def testDue (next : Nat) : State :=
  withFlds ((run upX).setDie 0 { DieSt.reset with bist := { Bist.reset with started := true, startBeat := 69900, next := next } })
    [(.wstBistCtrl 0, F.wstBistCtrl_ENABLE, 1), (.wstBistCtrl 0, F.wstBistCtrl_INTERVAL, 100)]

/-- A forced repair of the last row of a bank, before and after its save, in its slot. -/
def forcing (saved : Bool) : State := atBeat (bistOf { bist4 with forced := [⟨0, 7, 500, saved⟩] } 3) 70001

theorem witness_BackgroundTest :
    (∀ n ∈ [0, 73727, 73728, regionCount - 1], let s := testDue n;
        s.fld (.wstBistCtrl 0) F.wstBistCtrl_ENABLE = 1 ∧ s.fld (.wstCtrl 0) F.wstCtrl_CLEAR_BUSY = 0
        ∧ s.dieUp 0 = true ∧ (s.die 0).bist.running = false ∧ (s.die 0).bist.outOfTurn = none
        ∧ (s.die 0).bist.next = n ∧ n < regionCount
        ∧ (s.die 0).bist.startBeat + s.fld (.wstBistCtrl 0) F.wstBistCtrl_INTERVAL ≤ s.beat 0)
    ∧ ((upX.setFld (.wstBistCtrl 0) F.wstBistCtrl_ENABLE 0).fld (.wstBistCtrl 0) F.wstBistCtrl_ENABLE = 0 ∧ ((bistOf bist4 0).die 0).bist.running = true)
    ∧ (∀ i ∈ [0, 1, 2, 3], let s := marching i;
        (s.die 0).bist.lines[i]? = bist4.lines[i]? ∧ (s.die 0).bist.running = true ∧ (s.die 0).bist.forced = []
        ∧ testSlot s 0 (bistBank s 0 i).1 (bistBank s 0 i).2 = true
        ∧ testSlot (atBeat s (s.beat 0 + 1)) 0 (bistBank s 0 i).1 (bistBank s 0 i).2 = false
        ∧ s.latent = [] ∧ s.fld (.wstBistStatus 0) F.wstBistStatus_REGION < 73728
        ∧ (regionLine 0 (s.fld (.wstBistStatus 0) F.wstBistStatus_REGION) i).isSome = true)
    ∧ (∀ a ∈ (regionLine 0 73727 3).toList, (freeEntry (marching 3) 0 (rowOf a).1).isSome = true
        ∧ freeEntry { marching 3 with repairs := (List.range 8).map fun e => ((0, (rowOf a).1, e), ⟨true, false, 2, 5⟩) } 0
            (rowOf a).1 = none)
    ∧ (WriteOpen upX (.wstRepairEntry 0) ∧ WriteOpen upX (.astRepairEntry 0) ∧ WriteOpen upX (.pstRepairEntry 0)
        ∧ (upX.repair 0 (repairSel upX 0 .wst).1 (repairSel upX 0 .wst).2).valid = false
        ∧ (upX.repair 0 (repairSel upX 0 .wst).1 (repairSel upX 0 .wst).2).bad = false
        ∧ (upX.die 0).bist.forced.any (fun f => f.key = (repairSel upX 0 .wst).1 ∧ f.entry = (repairSel upX 0 .wst).2) = false
        ∧ bankRows .wst ((repairSel upX 0 .wst).1 % 1000 % 40) - 1 < bankRows .wst ((repairSel upX 0 .wst).1 % 1000 % 40)
        ∧ bankRows .wst ((repairSel upX 0 .wst).1 % 1000 % 40) - 1 < 1024)
    ∧ (∀ b, ((forcing b).die 0).bist.forced = ⟨0, 7, 500, b⟩ :: [] ∧ testSlot (forcing b) 0 (0 % 1000 % 40 % 8) 0 = true
        ∧ (forcing b).latent = []) := by
  unfold WriteOpen WriteReady; decide +kernel

/-! ### The lane engines (chapter 03) -/

/-- An engine word: opcode, number of rows less one, FMT and TKEEP, DRAIN and PSBASE, for all four engines. -/
def engWordOf (op nrow fmt drain psbase : Nat) : Word :=
  BitVec.ofNat 64 (op * 2 ^ 59 + 15 * 2 ^ 55 + nrow * 2 ^ 50 + fmt * 2 ^ 47 + drain * 2 ^ 43 + psbase * 2 ^ 33)

/-- An engine with an active tile and a complete shadow tile. -/
def engOf (k : TileKind) (int : Bool) : Engine :=
  { active := some ⟨k, List.replicate (if k = .bf16 then 2048 else 1024) 1, false⟩,
    shadow := some ⟨k, match k with
      | .bf16 => [List.replicate 1024 2, List.replicate 1024 3]
      | .b4 => [List.replicate 512 2, List.replicate 512 3]
      | _ => [List.replicate 1024 2], false⟩,
    slots := [], intType := int }

/-- Core 0 of die 0 with this word due at the head of its issue queue and 16 rows in its activation queue. -/
def engState (k : TileKind) (int : Bool) (w : Word) : State :=
  (run upX).setCore 0 0 { Core.reset with
    issueQ := [⟨w, 0, 3, 69999⟩]
    engines := (List.finRange 4).map fun e => (e, engOf k int)
    actQ := List.replicate 16 ⟨List.replicate 32 1, false⟩ }

/-- Every arithmetic instruction with its opcode, tile and slot type, on 8 rows, draining RAW to the last lines; one on 16 rows
without a drain. -/
def arithCases : List (EngOp × Word × TileKind × Bool) :=
  [(.mmaF8, engWordOf 1 7 0 1 1016, .k8, false), (.mmaI8, engWordOf 2 7 2 1 1016, .k8, true), (.mmaB4, engWordOf 3 7 0 1 1016, .b4, false),
   (.mmaBf16, engWordOf 4 7 0 1 1016, .bf16, false), (.distL1, engWordOf 8 7 0 1 1016, .k8, false), (.distL2, engWordOf 9 7 0 1 1016, .k8, false),
   (.cmpMin, engWordOf 12 7 0 1 1016, .k8, false), (.cmpMax, engWordOf 13 7 0 1 1016, .k8, false), (.cmpEqc, engWordOf 14 7 0 1 1016, .k8, true),
   (.mmaF8, engWordOf 1 15 0 0 0, .k8, false)]

/-- The parts of `Heads` for the state of a case. -/
def headsParts (s : State) (w : Word) (op : EngOp) : Prop :=
  s.dieUp 0 = true ∧ (s.core 0 0).issueQ = ⟨w, 0, 3, 69999⟩ :: [] ∧ (s.core 0 0).prog = none
    ∧ headDue s 0 0 ⟨w, 0, 3, 69999⟩ = true ∧ judgeHead s 0 0 w = .run op
    ∧ (takesEntry op (engFields w) = true → rowsOfOp op (engFields w) ≤ (s.core 0 0).actQ.length)
    ∧ (drainInto (engFields w).accDrain ((List.range (rowsOfOp op (engFields w))).flatMap (rowLines op (engFields w)))
        (s.core 0 0).drains).isSome = true
    ∧ ((engFields w).accDrain = true → s.latent = [])

theorem heads_of_parts {s : State} {w : Word} {op : EngOp} (h : headsParts s w op) : Heads s 0 0 ⟨w, 0, 3, 69999⟩ [] op := h

theorem witness_EngineArithmetic :
    ∀ p ∈ arithCases,
      let s := engState p.2.2.1 p.2.2.2 p.2.1;
      let f := engFields p.2.1;
      p.1 ∈ (arithOps 0 0).map Prod.snd ∧ headsParts s p.2.1 p.1 ∧ Mem.wf s.mem = true ∧ 3 ∈ gangOf f.emask
        ∧ ((loadTiles (s.core 0 0) p.1 f).engine 3).active.isSome = true ∧ (s.core 0 0).actQ[f.nrow]?.isSome = true := by
  unfold headsParts; decide +kernel

theorem witness_EngineSelectAndSlide :
    ∀ p ∈ ([(.nop, 0), (.topkSel, engWordOf 16 7 1 1 1016), (.slide, engWordOf 20 15 1 0 0)] : List (EngOp × Word)),
      let s := engState .bf16 false p.2;
      headsParts s p.2 p.1 ∧ Mem.wf s.mem = true
        ∧ ((loadTiles (s.core 0 0) .topkSel (engFields p.2)).engine 3).active.isSome = true ∧ (s.core 0 0).actQ.length = 16
        ∧ ((s.core 0 0).engine 3).active.isSome = true := by
  unfold headsParts; decide +kernel

/-- A core with some rows queued, shadow tiles or none, entries in its drain buffer, and an instruction due or at a row. -/
def frozen (w : Word) (rows : Nat) (shadow : Bool) (drains : Nat) (prog : Option Nat) : State :=
  (run upX).setCore 0 0 { Core.reset with
    issueQ := [⟨w, 0, 3, 69999⟩]
    engines := (List.finRange 4).map fun e => (e, if shadow then engOf .k8 false else { engOf .k8 false with shadow := none })
    actQ := List.replicate rows ⟨List.replicate 32 1, false⟩
    drains := (List.range drains).map fun i => ⟨i, false, none⟩
    prog := prog }

/-- MMA.F8 on 8 rows, draining RAW to the last lines. -/
def fw : Word := engWordOf 1 7 0 1 1016

theorem witness_EngineRejectsAndFreezes :
    (∀ p ∈ ([(BitVec.ofNat 64 (5 * 2 ^ 59), 1), (BitVec.ofNat 64 (1 * 2 ^ 59), 2), (engWordOf 4 8 0 0 0, 3), (engWordOf 3 0 0 0 0, 4)]
        : List (Word × Nat)),
      let s := engState .k8 false p.1;
      s.dieUp 0 = true ∧ (s.core 0 0).issueQ = [⟨p.1, 0, 3, 69999⟩] ∧ (s.core 0 0).prog = none
        ∧ headDue s 0 0 ⟨p.1, 0, 3, 69999⟩ = true ∧ judgeHead s 0 0 p.1 = .reject p.2)
    ∧ (∀ p ∈ ([(frozen fw 0 true 0 none, .dry), (frozen fw 16 false 0 none, .tile)] : List (State × FreezeCause)),
        p.1.dieUp 0 = true ∧ (p.1.core 0 0).issueQ = ⟨fw, 0, 3, 69999⟩ :: [] ∧ (p.1.core 0 0).prog = none
          ∧ headDue p.1 0 0 ⟨fw, 0, 3, 69999⟩ = true ∧ judgeHead p.1 0 0 fw = .freeze p.2)
    ∧ (∀ p ∈ ([(frozen fw 0 true 0 (some 7), .dry), (frozen fw 1 true 8 (some 7), .drain)] : List (State × FreezeCause)),
        p.1.dieUp 0 = true ∧ (p.1.core 0 0).issueQ = ⟨fw, 0, 3, 69999⟩ :: [] ∧ (p.1.core 0 0).prog = some 7
          ∧ EngOp.ofCode (engFields fw).op = some .mmaF8 ∧ 7 < rowsOfOp .mmaF8 (engFields fw)
          ∧ rowBlock (p.1.core 0 0) .mmaF8 (engFields fw) 7 = some p.2)
    ∧ (let s := frozen fw 1 true 7 (some 7);
        s.dieUp 0 = true ∧ (s.core 0 0).prog = some 7 ∧ 7 + 1 = rowsOfOp .mmaF8 (engFields fw)
          ∧ rowBlock (s.core 0 0) .mmaF8 (engFields fw) 7 = none
          ∧ (s.cores.map Prod.fst).Nodup ∧ (s.cores.find (0, 0)).isSome = true) := by
  decide +kernel

theorem witness_Int8DotProducts : 0 < 2 ∧ 1 < 2 ∧ 0 < 64 ∧ 63 < 64 := by decide

/-! ### Feeders, the weight bus, the expander and the tile path (chapters 04, 06) -/

/-- A READY context with a and b in registers 1 and 2 and regions on a unit of each store. -/
def feedCtx (a b : Nat) : Ctx := { c0 with
  s := [(1, BitVec.ofNat 64 a), (2, BitVec.ofNat 64 b)]
  regions := [(0, regionAt 0x10000 xbase true), (1, regionAt 0x20000 (unitBase 0 .ast 0) false),
    (2, regionAt 0x30000 (unitBase 0 .pst 0) false), (3, regionAt 0x40000 (unitBase 0 .wst 0) false)] }

/-- That context issues. -/
def ab (a b : Nat) : State := (run upX).setCtx 0 0 0 (feedCtx a b)

theorem ab_issues {s : State} {srcs : List (Fin 32)} (h : issuing s 0 0 = some 0
    ∧ (s.ctx 0 0 0).translate (s.ctx 0 0 0).pc 4 .x = some xbase ∧ (readStore s xbase 4 = s ∧ s.poisonedIn xbase 4 = false)
    ∧ ∀ r ∈ srcs, loadPending s 0 0 0 r = false) : Issues s 0 0 0 srcs := issues_of xbase h

/-- Operands of AFEED: 32 rows of 32 bytes, one line. -/
def afeedA : Nat := 31 * 2 ^ 59 + 2 ^ 58 + 0x20000

/-- Operand b of XPAND and MCAST: staged or not, line of the partial-sum store, plain length, element kind. -/
def xb (stage ps e k : Nat) : Nat := stage * 2 ^ 62 + ps * 2 ^ 52 + e * 2 ^ 32 + k * 2 ^ 30

/-- The context's core with full tile and feed queues. -/
def full (s : State) : State := s.setCore 0 0 { Core.reset with
  treqs := List.replicate 4 (.tfeed 0 1 .k8 0 0 0), feeds := List.replicate 4 ⟨1, 16, unitBase 0 .ast 0, 1, 0, 1, 0, 0⟩ }

/-- The context's core with half a tile in a shadow. -/
def half (s : State) : State := s.setCore 0 0 { Core.reset with
  tordHalf := true, engines := [(0, { Engine.reset with shadow := some ⟨.bf16, [List.replicate 1024 1], false⟩ })] }

/-- WTORD of all four engines, and TFEED of eight KiB up to the last line. -/
def wtordA : Nat := 3 * 2 ^ 32 + 0xE4
/-- The operand of a TFEED. -/
def tfeedA : Nat := 1015 + 7 * 2 ^ 16 + 2 ^ 28

/-- Core 2 of die 0 runs a WTORD of all four engines on a module of grade A224, where it has three. -/
def core2 : State :=
  { (withFlds upX [(.scvCoreCtrl 0 2, F.scvCoreCtrl_RUN, 1)]).setCtx 0 2 0 (feedCtx wtordA 0) with fuses := { upX.fuses with grade := 3 } }

/-- A resident block of the weight window, of one stored line, and one of gradients with four lines in plain form. -/
def we : WinEntry :=
  { skip := false, id := 9, addr := unitBase 0 .wst 0 + 4096, size := 1088, gap := 0, use := 3, state := .resident, west := false,
    sseq := 5, layer := 3, grad := false, sealed_ := false, plain := 0, failed := false, copy := false, left := 0, header := [],
    landing := [], credits := [], sent := 0, run := 0 }

/-- The gradient block. -/
def gwe : WinEntry := { we with addr := unitBase 0 .wst 0 + 16384, grad := true, plain := 4096 }

/-- A window with the gradient block in it. -/
def withGrad (s : State) : State := s.setDie 0 { s.die 0 with window := [gwe] }

/-- Operand b of AFEED: two accesses a step of 1,024 bytes apart. -/
def afeedB : Nat := 2 ^ 48 + 1024 * 2 ^ 24

/-- The conditions of AFEED on its operands, with the address of its first access. -/
def afeedTake (a b : Nat) (m : Nat) (s : State) : Prop :=
  (s.ctx 0 0 0).translate (bitsOf (BitVec.ofNat 64 a) 47 0)
      (bitsOf (BitVec.ofNat 64 b) 63 48 * bitsOf (BitVec.ofNat 64 b) 47 24 + feedBytes (bitsOf (BitVec.ofNat 64 a) 63 59 + 1) 32) .r = some m
    ∧ bitsOf (BitVec.ofNat 64 a) 58 58 = 1 ∧ bitsOf (BitVec.ofNat 64 a) 57 48 = 0 ∧ bitsOf (BitVec.ofNat 64 b) 15 0 = 0 ∧ m % 32 = 0
    ∧ bitsOf (BitVec.ofNat 64 b) 47 24 % 32 = 0
    ∧ (List.range (bitsOf (BitVec.ofNat 64 b) 63 48 + 1)).all (fun i =>
        clusterLine 0 0 (m + i * bitsOf (BitVec.ofNat 64 b) 47 24) (feedBytes (bitsOf (BitVec.ofNat 64 a) 63 59 + 1) 32)) = true

theorem witness_FeedInstructions :
    (Issues (ab afeedA afeedB) 0 0 0 [1, 2] ∧ afeedTake afeedA afeedB (unitBase 0 .ast 0) (ab afeedA afeedB)
      ∧ queueHasRoom (ab afeedA afeedB) 0 0 1 = true)
    ∧ (Issues (full (ab afeedA afeedB)) 0 0 0 [1, 2] ∧ afeedTake afeedA afeedB (unitBase 0 .ast 0) (full (ab afeedA afeedB))
      ∧ queueHasRoom (full (ab afeedA afeedB)) 0 0 1 = false)
    ∧ (Issues (ab (afeedA + 2 ^ 57) 0) 0 0 0 [1, 2] ∧ bitsOf (BitVec.ofNat 64 (afeedA + 2 ^ 57)) 57 48 ≠ 0
        ∧ ((ab (afeedA + 2 ^ 57) 0).ctx 0 0 0).translate (bitsOf (BitVec.ofNat 64 (afeedA + 2 ^ 57)) 47 0) 1024 .r
            = some (unitBase 0 .ast 0))
    ∧ (Issues (ab 0x31FE0 (xb 1 1020 2048 2)) 0 0 0 [1, 2]
        ∧ ((ab 0x31FE0 (xb 1 1020 2048 2)).ctx 0 0 0).translate 0x31FE0 32 .r = some (unitBase 0 .pst 0 + 0x1FE0)
        ∧ placeOf (unitBase 0 .pst 0 + 0x1FE0) = .store 0 .pst 0 0 0x1FE0 ∧ (unitBase 0 .pst 0 + 0x1FE0) % 32 = 0
        ∧ formOk (ekindOfCode 2) true 1020 2048 = true ∧ queueHasRoom (ab 0x31FE0 (xb 1 1020 2048 2)) 0 0 2 = true
        ∧ bitsOf (BitVec.ofNat 64 (xb 1 1020 2048 2)) 31 30 = 2 ∧ bitsOf (BitVec.ofNat 64 (xb 1 1020 2048 2)) 61 52 = 1020
        ∧ bitsOf (BitVec.ofNat 64 (xb 1 1020 2048 2)) 46 32 = 2048)
    ∧ (((ab 0x21FE0 (xb 0 0 1024 0)).ctx 0 0 0).translate 0x21FE0 32 .r = some (unitBase 0 .ast 0 + 0x1FE0)
        ∧ placeOf (unitBase 0 .ast 0 + 0x1FE0) = .store 0 .ast 0 0 0x1FE0)
    ∧ (Issues (ab (9 * 2 ^ 32) 0) 0 0 0 [1, 2] ∧ bitsOf (BitVec.ofNat 64 (9 * 2 ^ 32)) 31 0 = 0)
    ∧ (Issues (ab (9 * 2 ^ 32 + 2 ^ 31) (xb 0 0 1024 0 + 8 * 2 ^ 47)) 0 0 0 [1, 2] ∧ ekindOfCode 0 = some .k8
        ∧ bitsOf (BitVec.ofNat 64 (xb 0 0 1024 0 + 8 * 2 ^ 47)) 50 47 ≤ 8 ∧ formOk (some .k8) false 0 1024 = true
        ∧ queueHasRoom (ab (9 * 2 ^ 32 + 2 ^ 31) (xb 0 0 1024 0 + 8 * 2 ^ 47)) 0 0 3 = true)
    ∧ (Issues (ab (9 * 2 ^ 32 + 2 ^ 31) (xb 1 1023 1024 0 + 2 ^ 29 + 15 * 2 ^ 21)) 0 0 0 [1, 2]
        ∧ bitsOf (BitVec.ofNat 64 (xb 1 1023 1024 0 + 2 ^ 29 + 15 * 2 ^ 21)) 29 29 = 1
        ∧ bitsOf (BitVec.ofNat 64 (xb 1 1023 1024 0 + 2 ^ 29 + 15 * 2 ^ 21)) 25 21 = 15
        ∧ bitsOf (BitVec.ofNat 64 (xb 1 1023 1024 0 + 2 ^ 29 + 15 * 2 ^ 21)) 20 17 = 0
        ∧ bitsOf (BitVec.ofNat 64 (xb 1 1023 1024 0 + 2 ^ 29 + 15 * 2 ^ 21)) 62 62 = 1
        ∧ bitsOf (BitVec.ofNat 64 (xb 1 1023 1024 0 + 2 ^ 29 + 15 * 2 ^ 21)) 61 52 + 0 + 1 ≤ 1024 ∧ 15 + 0 ≤ 15
        ∧ formOk (some .k8) ((1 == 1) && !true) 1023 1024 = true)
    ∧ (Issues (ab (9 * 2 ^ 32 + 960 * 2 ^ 22) (8 * 2 ^ 60 + 63)) 0 0 0 [1, 2]
        ∧ 0 + 63 ≤ 63 ∧ 960 + 63 + 1 ≤ 1024
        ∧ findBlock ((ab (9 * 2 ^ 32 + 960 * 2 ^ 22) (8 * 2 ^ 60 + 63)).die 0) true 9 = none)
    ∧ (Issues (withGrad (ab (9 * 2 ^ 32) 4)) 0 0 0 [1, 2]
        ∧ findBlock ((withGrad (ab (9 * 2 ^ 32) 4)).die 0) true (bitsOf (BitVec.ofNat 64 (9 * 2 ^ 32)) 63 32) = some 0
        ∧ ((withGrad (ab (9 * 2 ^ 32) 4)).die 0).window[0]? = some gwe
        ∧ pastPlain gwe (bitsOf (BitVec.ofNat 64 4) 11 6) (bitsOf (BitVec.ofNat 64 4) 5 0) = true ∧ pastPlain gwe 0 3 = false)
    ∧ (Issues (ab wtordA 0) 0 0 0 [1]
        ∧ (List.range (bitsOf (BitVec.ofNat 64 wtordA) 35 32 + 1)).any (fun i =>
            (ab wtordA 0).present 0 / 2 ^ bitsOf (BitVec.ofNat 64 wtordA) (2 * i + 1) (2 * i) % 2 = 0) = false
        ∧ noPartialTile ((ab wtordA 0).core 0 0) = true)
    ∧ (Issues (half (ab wtordA 0)) 0 0 0 [1] ∧ noPartialTile ((half (ab wtordA 0)).core 0 0) = false)
    ∧ (Issues core2 0 2 0 [1] ∧ (List.range (bitsOf ((core2.ctx 0 2 0).rd 1) 35 32 + 1)).any (fun i =>
          core2.present 2 / 2 ^ bitsOf ((core2.ctx 0 2 0).rd 1) (2 * i + 1) (2 * i) % 2 = 0) = true)
    ∧ (Issues (ab tfeedA 0) 0 0 0 [1] ∧ ekindOfCode (bitsOf (BitVec.ofNat 64 tfeedA) 29 28) = some .b4
        ∧ bitsOf (BitVec.ofNat 64 tfeedA) 15 10 = 0 ∧ bitsOf (BitVec.ofNat 64 tfeedA) 27 26 = 0
        ∧ bitsOf (BitVec.ofNat 64 tfeedA) 63 30 = 0
        ∧ bitsOf (BitVec.ofNat 64 tfeedA) 9 0 + stagedLines .b4 (bitsOf (BitVec.ofNat 64 tfeedA) 25 16 + 1) ≤ 1024
        ∧ queueHasRoom (ab tfeedA 0) 0 0 2 = true)
    ∧ (Issues (full (ab tfeedA 0)) 0 0 0 [1] ∧ queueHasRoom (full (ab tfeedA 0)) 0 0 2 = false) := by
  unfold afeedTake
  refine ⟨⟨ab_issues ?_, ?_⟩, ⟨ab_issues ?_, ?_⟩, ⟨ab_issues ?_, ?_⟩, ⟨ab_issues ?_, ?_⟩, ?_, ⟨ab_issues ?_, ?_⟩, ⟨ab_issues ?_, ?_⟩,
    ⟨ab_issues ?_, ?_⟩, ⟨ab_issues ?_, ?_⟩, ⟨ab_issues ?_, ?_⟩, ⟨ab_issues ?_, ?_⟩, ⟨ab_issues ?_, ?_⟩, ⟨issues_of xbase ?_, ?_⟩,
    ⟨ab_issues ?_, ?_⟩, ab_issues ?_, ?_⟩ <;> decide +kernel

/-- Table 15 of die 0 with two codes of one bit. -/
def coded : State := withRegs up [(.fdxEpcLen 0 15 0, 0x11)]

theorem witness_FeedInstructions_tables :
    (WriteReady coded (.fdxEpcTag 0 15) ∧ 65535 < 65536 ∧ coded.fld (.fdxEpcTag 0 15) F.fdxEpcTag_VALID = 0
        ∧ tableValid (tableLens coded 0 15) 4 = true)
    ∧ (15 < 16 ∧ tableValid (tableLens coded 0 15) 15 = false) := by
  unfold WriteReady; decide +kernel

/-- A bus request for a block, since beat 69,990. -/
def rq (blk : Nat) (f : BusReq → BusReq) : BusReq := f { BusReq.fresh 4 0 69990 with block := blk, cmask := 0x80000001, e := 1024, ekind := .k8 }

/-- Die 0 with these requests on its bus and these blocks in its window. -/
def bus (l : List BusReq) (ws : List WinEntry) : State := (run upX).setDie 0 { DieSt.reset with busQ := l, window := ws }

/-- The eight beats in which the slots of a bank come round. -/
def beats8 : List Nat := (List.range 8).map (70000 + ·)

/-- A feeder of 4 rows of 32 bytes. -/
def fd : Feed := ⟨4, 32, unitBase 0 .ast 0, 3, 128, 2, 0, 0⟩

/-- Core 0 with that feeder and some rows queued. -/
def feeding (rows : Nat) : State :=
  (run upX).setCore 0 0 { Core.reset with feeds := [fd], actQ := List.replicate rows ⟨[], false⟩ }

/-- The access that the feeder issues next. -/
def fdAcc (s : State) : Access :=
  { stamp := (s.die 0).stamp, kind := .read, addr := directAddr (fd.addr + fd.next * fd.stride), size := feedBytes fd.rows fd.rb,
    data := [], dest := .feeder 0 0 fd.rows fd.rb, portB := false, issue := s.beat 0, ret := 0, served := false }

theorem witness_FeedersAndBus_feeds :
    ((feeding 60).dieUp 0 = true ∧ ((feeding 60).core 0 0).feeds = fd :: []
        ∧ ((feeding 60).core 0 0).actQ.length + ((feeding 60).core 0 0).actReserved + fd.rows ≤ 64
        ∧ (∃ b ∈ beats8, (slotClass (fdAcc (atBeat (feeding 60) b)) ((fdAcc (atBeat (feeding 60) b)).due (atBeat (feeding 60) b))).isSome = true
            ∧ ((atBeat (feeding 60) b).die 0).accs.any
                (fun c => c.dest.core == some (0, 0) && portRank c == 0 && c.issue == (atBeat (feeding 60) b).beat 0) = false)
        ∧ ∃ b ∈ beats8, slotClass (fdAcc (atBeat (feeding 60) b)) ((fdAcc (atBeat (feeding 60) b)).due (atBeat (feeding 60) b)) = none)
    ∧ 64 < ((feeding 61).core 0 0).actQ.length + ((feeding 61).core 0 0).actReserved + fd.rows := by
  decide +kernel

theorem witness_FeedersAndBus_lookup :
    (∀ p ∈ ([(rq 9 id, we, false), (rq 9 fun r => { r with gacc := true, lcount := 3 }, gwe, false),
        (rq 9 fun r => { r with gacc := true, lcount := 4 }, gwe, true)] : List (BusReq × WinEntry × Bool)),
      let s := bus [p.1] [p.2.1];
      s.dieUp 0 = true ∧ (s.die 0).busQ[0]? = some p.1 ∧ p.1.active = false ∧ p.1.timedOut = false ∧ s.beat 0 > p.1.since
        ∧ residentFor (s.die 0) p.1 = some p.2.1 ∧ subsFree s 0 p.1 = true ∧ (p.1.gacc && pastPlain p.2.1 p.1.lfirst p.1.lcount) = p.2.2)
    ∧ (let s := bus [rq 9 fun r => { r with since := 70000 }] [we]; s.beat 0 ≤ 70000 ∧ (s.die 0).busQ.length = 1)
    ∧ lookupReady (bus [rq 9 id] [{ we with state := .landing }]) 0 (rq 9 id) = false
    ∧ (∀ p ∈ ([(rq 7 fun r => { r with since := 0 }, we), (rq 7 fun r => { r with since := 0, gacc := true }, we),
        (rq 9 fun r => { r with since := 0, ndone := 3 }, { we with state := .forwarding })] : List (BusReq × WinEntry)),
      let s := bus [p.1] [p.2];
      s.dieUp 0 = true ∧ (s.die 0).busQ[0]? = some p.1 ∧ p.1.active = false ∧ p.1.timedOut = false ∧ residentFor (s.die 0) p.1 = none
        ∧ p.1.since + 1 + s.fld (.fdxMcastCtrl 0) F.fdxMcastCtrl_WAIT_LIMIT ≤ s.beat 0 ∧ p.1.lines = false ∧ subsFree s 0 p.1 = true
        ∧ (p.1.ndone ≠ 0 → findBlock (s.die 0) p.1.gacc p.1.block = some 0 ∧ p.2.state = .forwarding))
    ∧ (let r := rq 7 fun r => { r with since := 0 };
        let s := (bus [r] [we]).setCore 0 0 { Core.reset with treqs := List.replicate 4 (.tfeed 0 1 .k8 0 0 0) };
        r.gacc = false ∧ subsFree s 0 r = false ∧ residentFor (s.die 0) r = none) := by
  decide +kernel

/-- A stored block of 32 zeros, uncompressed. -/
def blk1 : List Byte :=
  assemble { id := 9, layer := 3, die := 0, ndie := 1, grad := false, sealed_ := false, colgrp := 5, codec := 0, kind := 0, table := 0,
             ttag := 0, plainLen := 32, compLen := 32, stepTag := 4, bscale := 0, zeros := true, checked := true }
    (List.replicate 32 0)

/-- A request taken up, its header read: the staged first line of two. -/
def rl (f : BusReq → BusReq) : BusReq := rq 9 fun r => f { r with active := true, found := some we, total := 2, stage := true, checked := true, psoff := 1022 }

/-- A GACC taken up, of two lines. -/
def rg (f : BusReq → BusReq) : BusReq := rq 9 fun r => f { r with active := true, found := some gwe, total := 2, gacc := true }

theorem witness_FeedersAndBus_lines :
    (∀ r ∈ ([rl id, rl fun r => { r with served := 1 }, rl fun r => { r with stage := false }, rl fun r => { r with zero := true }] : List BusReq),
      let s := bus [r] [we];
      (s.die 0).busQ[0]? = some r ∧ r.active = true ∧ r.timedOut = false ∧ r.found = some we ∧ s.latent = [] ∧ r.gacc = false
        ∧ r.checked = true ∧ (∃ b ∈ beats8, (busWinners (atBeat s b) 0).contains 0 = true)
        ∧ ∃ b ∈ beats8, (busWinners (atBeat s b) 0).contains 0 = false)
    ∧ (let r := rl fun r => { r with checked := false, lines := true, lcount := 1 };
        let s := bus [r] [we];
        (s.die 0).busQ[0]? = some r ∧ r.checked = false ∧ (∃ b ∈ beats8, (busWinners (atBeat s b) 0).contains 0 = true)
          ∧ (busPlan r we (windowBytes s we)).expand = false ∧ (busPlan r we (windowBytes s we)).total ≠ 0
          ∧ (busPlan r we (windowBytes s we)).cause = 1)
    ∧ (let w := { we with size := blk1.length };
        let r := rl fun r => { r with checked := false, e := 32, found := some w };
        let s := { bus [r] [w] with mem := Mem.write [] w.addr blk1 };
        (∃ b ∈ beats8, (busWinners (atBeat s b) 0).contains 0 = true)
          ∧ (busPlan r w (windowBytes s w)).expand = false ∧ (busPlan r w (windowBytes s w)).total ≠ 0
          ∧ (busPlan r w (windowBytes s w)).cause = 0)
    ∧ (let s := bus [rg id] [gwe];
        (s.die 0).busQ[0]? = some (rg id) ∧ (rg id).gacc = true ∧ (rg id).buf = none ∧ (rg id).since + 2 ≤ s.beat 0
          ∧ ∃ b ∈ beats8, tileReadDue (atBeat s b) 0 (rg id).core (((rg id).psoff + (rg id).served) % 8) = false
            ∧ slotOpen (atBeat s b) 0 (((rg id).psoff + (rg id).served) % 8)
                (bankKey .pst (rg id).core.val (((rg id).psoff + (rg id).served) % 8)) 1 = true)
    ∧ (∀ k ∈ ([0, 1] : List Nat), let r := rg fun r => { r with buf := some (List.replicate 1024 (0, false)), served := k };
        let s := bus [r] [gwe];
        (s.die 0).busQ[0]? = some r ∧ r.buf.isSome = true ∧ s.latent = [] ∧ ∃ b ∈ beats8, (busWinners (atBeat s b) 0).contains 0 = true) := by
  refine ⟨?_, ?_, ?_, ?_, ?_⟩ <;> decide +kernel

/-- A block's bytes, unpoisoned. -/
def pz (l : List Byte) : List (Byte × Bool) := l.map fun b => (b, false)

/-- Core 0 with these requests and a block at the start of its partial-sum unit. -/
def expReq (l : List TileReq) : State :=
  { (run upX).setCore 0 0 { Core.reset with treqs := l } with mem := Mem.write [] (unitBase 0 .pst 0) blk1 }

/-- Core 0 with a TFEED that has one transfer left of a tile for engine 1, read or not. -/
def tfeeding (read : Bool) : State := (run upX).setCore 0 0 { Core.reset with
  treqs := [.tfeed 2 3 .bf16 2 1 69990], tord := [2, 1], tordPos := 1, tordHalf := true
  tileIn := if read then some (⟨.bf16, List.replicate 1024 3, true⟩, 70000) else none
  engines := [(1, { Engine.reset with shadow := some ⟨.bf16, [List.replicate 1024 1], false⟩ })] }

/-- The address of that transfer. -/
def tfeedAt : Nat := unitBase 0 .pst 0 + 2 * 1024 + (stagedAt .bf16 3 2 1).1

theorem witness_ExpanderAndTilePath_expander :
    (let s := expReq [.tfeed 0 1 .k8 0 0 0, .xpand (unitBase 0 .pst 0) false 0 32 .k8 none [] []];
      s.dieUp 0 = true ∧ (s.core 0 0).expBusy = false
        ∧ expHead (s.core 0 0) = some (1, .xpand (unitBase 0 .pst 0) false 0 32 .k8 none [] [])
        ∧ (s.die 0).accs.any (fun x => decide (x.dest = .expander 0 0)) = false)
    ∧ (∀ b ∈ ([blk1, blk1.set 8 7] : List (List Byte)),
        let s := expReq [.xpand (unitBase 0 .pst 0) false 0 32 .k8 (some b.length) [] (pz b)];
        expHead (s.core 0 0) = some (0, .xpand (unitBase 0 .pst 0) false 0 32 .k8 (some b.length) [] (pz b))
          ∧ b.length ≤ (pz b).length ∧ localSize (unitBase 0 .pst 0) (pz b) ≤ b.length)
    ∧ (expand (expReq []) 0 (pz blk1) 32 .k8 (Config.bytesLeft (expReq []).fresh)).transfers ≠ []
    ∧ (∀ st : Bool, expHead ((expReq [.expand 5 st 7 32 .k8 (pz blk1) 0]).core 0 0) = some (0, .expand 5 st 7 32 .k8 (pz blk1) 0))
    ∧ (expHead ((expReq [.zeros 5 false 0 1024 .k8]).core 0 0) = some (0, .zeros 5 false 0 1024 .k8)
        ∧ (zeroOutput 1024 .k8 0).transfers ≠ [])
    ∧ (((run upX).setCore 0 0 { Core.reset with expBusy := true }).core 0 0).expBusy = true := by
  refine ⟨?_, ?_, ?_, ?_, ?_, ?_⟩ <;> decide +kernel

theorem witness_ExpanderAndTilePath_tiles :
    (let s := tfeeding true;
      s.dieUp 0 = true ∧ s.latent = [] ∧ (s.die 0).used.contains (.tile 0) = false ∧ ∃ p ∈ (nextTransfer s 0 0).toList,
          (nextShadow (s.core 0 0) p.1).complete = false
            ∧ p.1.bytes.length = transferSize (nextShadow (s.core 0 0) p.1).kind (nextShadow (s.core 0 0) p.1).transfers.length)
    ∧ (let s := tfeeding false;
        s.dieUp 0 = true ∧ (s.core 0 0).tileIn = none ∧ tileHead (s.core 0 0) = some (0, .tfeed 2 3 .bf16 2 1 69990)
          ∧ 69990 + (latency (s.invar 0) 0).1 ≤ s.beat 0
          ∧ ∃ b ∈ beats8, slotOpen (atBeat s b) 0 (bankIndex tfeedAt) (rowOf tfeedAt).1 1 = true) := by
  decide +kernel

theorem witness_StoredBlocksRoundTrip :
    (2 ^ 32 - 1 < 2 ^ 32 ∧ 511 < 512 ∧ 1 < 2 ∧ 65535 < 65536 ∧ 3 < 4 ∧ 15 < 16 ∧ (List.replicate 3 (0 : Byte)).length < 65536
      ∧ 255 < 256) := by
  decide

/-! ### The cluster DMAs (chapter 06) -/

/-- Where the test descriptors stand. -/
def dpos : Nat := unitBase 0 .ast 0

/-- The first word of a descriptor. -/
def descW0 (op len rows etype form fence sig : Nat) : Nat :=
  op * 2 ^ 60 + etype * 2 ^ 58 + form * 2 ^ 56 + fence * 2 ^ 55 + sig * 2 ^ 54 + (rows - 1) * 2 ^ 32 + len

/-- The bytes of a descriptor. -/
def desc (w0 src dst w3 w4 w5 w6 : Nat) : List Byte :=
  ([w0, src, dst, w3, w4, w5, w6, 2 ^ 64 - 1 - w0] : List Nat).flatMap (leBytes 8)

/-- The block table of a BLOCKS descriptor with one stored block at the start of the table's first block. -/
def table1 (n : Nat) : List Byte :=
  let bs := ([1, 0, n] : List Nat).flatMap (leBytes 4)
  bs ++ leBytes 4 (crc32c bs) ++ leBytes 4 (not32 (crc32c bs))

/-- Memory with a descriptor, a block table and a stored block behind it. -/
def dmem (ds : List Byte) : List Host.Cell :=
  Mem.write (Mem.write (Mem.write [] dpos ds) (dpos + 2048) (table1 blk1.length)) (dpos + 3072) blk1

/-- The descriptor as it was read. -/
def postOf (ds : List Byte) : Post := (Post.unread dpos none 3).fill (pz ds)

/-- Cluster 0 of die 0 with that descriptor at the head of its queue. -/
def posted (ds : List Byte) : State := { run upX with mem := dmem ds }.setDma 0 0 { Dma.reset with queue := [postOf ds] }

/-- COPY, FILL and PACK. -/
def goodDescs : List (List Byte) :=
  [desc (descW0 0 50 1 0 0 0 0) (dpos + 1024) (unitBase 0 .wst 0 + 40) 0 0 0 0,
   desc (descW0 1 37 1 0 0 1 0) 0 (unitBase 0 .wst 0 + 5) 0 0x8877665544332211 0 0,
   desc (descW0 2 32 1 0 2 0 0) (dpos + 1024) (unitBase 0 .wst 0 + 64) 0 (9 * 2 ^ 32 + 3 * 2 ^ 23 + 15 * 2 ^ 18 + 7 * 4) 0 0]

/-- BLOCKS. -/
def blocksDesc : List Byte := desc (descW0 3 2048 1 0 0 0 0) (dpos + 3072) (unitBase 0 .wst 0 + 64) 0 (dpos + 2048) 0 0

/-- Descriptor 8 of a cluster that runs, started on a beat, its destination stretch begun. -/
def running0 (ds : List Byte) (start : Nat) : Running :=
  { post := postOf ds, number := 8, start := start, bridged := 0, frames := 0, met := false, remotePoison := false,
    checking := false, rows := [], got := [], need := 0, dst := unitBase 0 .wst 0 + 64, done := 0 }

/-- A descriptor that runs, with a signal or without one. -/
def running1 (sig start : Nat) : Running :=
  running0 (desc (descW0 0 50 1 0 0 0 sig) (dpos + 1024) (unitBase 0 .wst 0 + 40) 0 0 (3 * 2 ^ 52 + 2) 0) start

/-- A served read of a cluster's DMA that has just come back. -/
def dmaAcc (dest : AccDest) (data : List (Byte × Bool)) : Access :=
  { stamp := 3, kind := .read, addr := dpos, size := 64, data := data, dest := dest, portB := false, issue := 69990, ret := 70000,
    served := true }

/-- Cluster 0 of die 0 with a descriptor still unread, one that runs, and a read that has come back. -/
def returning (r : Running) (a : Access) : State :=
  let s := (run upX).setDma 0 0 { Dma.reset with queue := [Post.unread dpos none 3], active := [r] }
  s.setDie 0 { s.die 0 with accs := [a] }

/-- A PACK or BLOCKS descriptor that has gathered all but the last 4 bytes of a stretch. -/
def gathering (ds bs : List Byte) : Running :=
  { running0 ds 69990 with need := bs.length, got := pz (bs.take (bs.length - 4)) }

/-- A transaction of the cores, or of another owner. -/
def txnOf (a : Nat) (k : AccKind) (f : Txn → Txn) : Txn := f
  { owner := .cores, stamp := 8, fromPool := false, issued := true, returned := false, kind := k, addr := a, size := 2,
    data := if k = .read then [] else [(1, false), (2, false)], dest := some (if k = .read then .scalar 0 0 0 3 true else .store 0 0 0),
    number := 4, pkt := 0, into := none }

/-- Die 0 with one transaction; HBM3E stack 0 is UP. -/
def txs (x : Txn) : State :=
  ((run upX).setFld (.hbmStackStatus 0 0) F.hbmStackStatus_STATE 2).setDie 0 { DieSt.reset with txns := [x] }

/-- A transaction of DMA 0 that has not issued yet. -/
def waitingTxn : Txn := txnOf 0x1000 .write fun t => { t with issued := false, owner := .dma 0 }

/-- A transaction of the cores through window 63 that has not issued yet. -/
def waitingWin : Txn := txnOf (0xFF00000000 + 63 * 0x4000000 + 256) .write fun t => { t with issued := false }

/-- Window 63 in a state. -/
def winState (st : Nat) (s : State) : State := s.setFld (.dmaRwinA 63) F.dmaRwinA_STATE st

theorem witness_DmaDescriptors_posts :
    (Issues (ab 0x20000 0) 0 0 0 [1] ∧ (0 : Cluster) = clusterOf 0
        ∧ ((ab 0x20000 0).ctx 0 0 0).translate (bitsOf (((ab 0x20000 0).ctx 0 0 0).rd 1) 47 0) 64 .r = some dpos
        ∧ postAddrOk 0 0 dpos = true ∧ queueHasRoom (ab 0x20000 0) 0 0 4 = true)
    ∧ (let s := (ab 0x20000 0).setDma 0 0 { Dma.reset with queue := List.replicate 32 (postOf []) };
        Issues s 0 0 0 [1] ∧ queueHasRoom s 0 0 4 = false)
    ∧ (Issues (ab 0x20001 0) 0 0 0 [1] ∧ ((ab 0x20001 0).ctx 0 0 0).translate (bitsOf (((ab 0x20001 0).ctx 0 0 0).rd 1) 47 0) 64 .r
          = some (dpos + 1) ∧ postAddrOk 0 0 (dpos + 1) = false)
    ∧ (WriteReady upX (.dmaPost 0 0) ∧ dpos < 2 ^ 48 ∧ (upX.dma 0 0).queue.length < 32
        ∧ 32 ≤ ((upX.setDma 0 0 { Dma.reset with queue := List.replicate 32 (postOf []) }).dma 0 0).queue.length) := by
  unfold WriteReady
  refine ⟨⟨ab_issues ?_, ?_⟩, ⟨ab_issues ?_, ?_⟩, ⟨ab_issues ?_, ?_⟩, ?_⟩ <;> decide +kernel

theorem witness_DmaDescriptors_returns :
    (∀ p ∈ ([(running1 0 69990, dmaAcc (.post 0 0 (some 0)) (pz blocksDesc)),
        (running1 0 69990, dmaAcc (.dma 0 0 8 (some (unitBase 0 .wst 0 + 3, .write))) [(1, false), (2, true)]),
        (running1 0 69990, dmaAcc (.dma 0 0 8 (some (unitBase 0 .wst 0 + 3, .write))) [(1, false)])] : List (Running × Access)),
      let s := returning p.1 p.2;
      (s.die 0).accs[0]? = some p.2 ∧ p.2.served = true ∧ p.2.ret ≤ s.beat 0 ∧ p.2.kind = .read
        ∧ ((s.die 0).accs.take 0).any (fun b => sameOrder b p.2) = false)
    ∧ (∀ p ∈ ([(goodDescs.getD 2 [], List.replicate 32 1, 2), (blocksDesc, blk1, 3), (blocksDesc, blk1.set 9 7, 3)]
          : List (List Byte × List Byte × Nat)),
        let r := gathering p.1 p.2.1;
        let a := dmaAcc (.dma 0 0 8 none) (pz (p.2.1.drop (p.2.1.length - 4)));
        let s := returning r a;
        (s.die 0).accs[0]? = some a ∧ runningOf s 0 0 8 = some r ∧ r.checking = false ∧ (r.got ++ a.data).length = r.need
          ∧ r.post.op = p.2.2 ∧ blockPasses ((r.got ++ a.data).map Prod.fst) = (p.2.1 == blk1)) := by
  decide +kernel

theorem witness_DmaDescriptors_starts :
    (∀ ds ∈ goodDescs, AtHead (posted ds) 0 0 (postOf ds) [] ∧ readsTable (posted ds) (postOf ds) = false
        ∧ postCause (posted ds) (postOf ds) none = none ∧ 0 < (postOf ds).len)
    ∧ (goodDescs.map fun ds => (postOf ds).op) = [0, 1, 2]
    ∧ (∀ k ∈ ([0, 1, 2, 3] : List Nat), let ds := desc (descW0 k 0 1 0 0 0 0) 0 0 0 0 0 0;
        AtHead (posted ds) 0 0 (postOf ds) [] ∧ readsTable (posted ds) (postOf ds) = false
          ∧ postCause (posted ds) (postOf ds) none = none ∧ (postOf ds).len = 0 ∧ (postOf ds).op = k)
    ∧ (∀ k ∈ ([0, 1, 2, 3, 4, 15] : List Nat), let ds := desc (descW0 k 50 1 0 0 0 0) 3 0x9000000000 0 0 0 0;
        AtHead (posted ds) 0 0 (postOf ds) [] ∧ readsTable (posted ds) (postOf ds) = false
          ∧ (postCause (posted ds) (postOf ds) none).isSome = true ∧ (postOf ds).op = k)
    ∧ (AtHead (posted blocksDesc) 0 0 (postOf blocksDesc) [] ∧ readsTable (posted blocksDesc) (postOf blocksDesc) = true) := by
  unfold AtHead; decide +kernel

theorem witness_DmaDescriptors_ends :
    (∀ g ∈ ([0, 1] : List Nat), let s := (run upX).setDma 0 0 { Dma.reset with active := [running1 g 69999] };
        (s.dma 0 0).active[0]? = some (running1 g 69999) ∧ 69999 < s.beat 0 ∧ (running1 g 69999).checking = false
          ∧ (running1 g 69999).need = 0 ∧ (s.die 0).txns.any (fun t => t.ofDesc 0 8) = false
          ∧ (s.die 0).accs.any (fun a => a.ofDesc 0 0 8) = false
          ∧ (∀ w : Fin 64, (running1 g 69999).post.uses w = true → s.fld (.dmaRwinA w) F.dmaRwinA_STATE ≠ 4)
          ∧ (running1 g 69999).post.sig = (g == 1) ∧ (running1 g 69999).post.scope = 0
          ∧ signalable s 0 (running1 g 69999).post.sigPhys = true
          ∧ counterValue s 0 (running1 g 69999).post.sigPhys + (running1 g 69999).post.inc < 2 ^ 48)
    ∧ (let s := (run upX).setDma 0 0 { Dma.reset with active := [running1 0 70000] }; s.beat 0 ≤ (running1 0 70000).start) := by
  decide +kernel

theorem witness_DmaDescriptors_transactions :
    (let s := txs waitingTxn;
        (s.die 0).txns[0]? = some waitingTxn ∧ waitingTxn.issued = false ∧ freeEntryFor s 0 waitingTxn = some false
        ∧ slotOfAddr waitingTxn.addr = none ∧ waitingTxn.answers = false
        ∧ (s.die 0).txns.countP (fun u => u.issued && !u.fromPool && decide (u.owner = waitingTxn.owner)) < reserveOf s 0 waitingTxn.owner)
    ∧ (let x := txnOf (unitBase 1 .wst 0) .write fun t => { t with issued := false };
        ((txs x).die 0).txns[0]? = some x ∧ (freeEntryFor (txs x) 0 x).isSome = true ∧ placeOf x.addr = .store 1 .wst 0 0 0)
    ∧ (let s := winState 2 (txs waitingWin);
        (s.die 0).txns[0]? = some waitingWin ∧ (freeEntryFor s 0 waitingWin).isSome = true ∧ slotOfAddr waitingWin.addr = some 63
          ∧ windowCarries s waitingWin = true ∧ waitingWin.owner = .cores ∧ windowCarries (winState 5 s) waitingWin = false)
    ∧ (let s := withFlds (txs waitingTxn) [(.dmaTxnRes 0 0, F.dmaTxnRes_COUNT, 0)];
        reserveOf s 0 waitingTxn.owner ≤ (s.die 0).txns.countP (fun u => u.issued && !u.fromPool && decide (u.owner = waitingTxn.owner))
          ∧ poolUsed s 0 < 8192 - reserves s 0)
    ∧ (let s := withFlds (txs waitingTxn) ([(.dmaTxnRes 0 0, F.dmaTxnRes_COUNT, 0), (.dmaTxnCore 0, F.dmaTxnCore_COUNT, 8192)]);
        reserveOf s 0 waitingTxn.owner ≤ (s.die 0).txns.countP (fun u => u.issued && !u.fromPool && decide (u.owner = waitingTxn.owner))
          ∧ 8192 - reserves s 0 ≤ poolUsed s 0)
    ∧ (∀ k ∈ ([.read, .write] : List AccKind), let x := txnOf 0x1000 k id;
        let s := txs x;
        (s.die 0).txns[0]? = some x ∧ x.issued = true ∧ x.owner = .cores ∧ stepBusy s x.addr = false ∧ x.answers = false
          ∧ x.returned = false ∧ s.latent = [] ∧ Mem.wf s.mem = true ∧ x.kind = k ∧ (∀ b ∈ x.data, b.2 = false)
          ∧ tierHolds s x.addr x.size = true ∧ (k = .write → x.size = x.data.length))
    ∧ (let x := txnOf (unitBase 1 .wst 0) .read fun t => { t with returned := true, data := [(1, false), (2, true)] };
        ((txs x).die 0).txns[0]? = some x ∧ x.issued = true ∧ x.returned = true ∧ stepBusy (txs x) x.addr = false)
    ∧ (let x := txnOf (unitBase 1 .wst 0) .read id; x.answers = true ∧ x.returned = false) := by
  refine ⟨?_, ?_, ?_, ?_, ?_, ?_, ?_, ?_⟩ <;> decide +kernel

/-! ### Remote windows and the remote path (chapters 06, 09) -/

/-- Port p is UP; lanes 0 to 2 are ACTIVE with logical lanes 0, 8 and 16, lane 3 is STANDBY. -/
def upPort (s : State) (p : Port) : State :=
  withFlds s [(.circPortStatus p, F.circPortStatus_STATE, 3), (laneA p 0, F.circLaneA_STATE, 2), (laneA p 1, F.circLaneA_STATE, 2),
    (laneA p 1, F.circLaneA_LOGICAL, 8), (laneA p 2, F.circLaneA_STATE, 2), (laneA p 2, F.circLaneA_LOGICAL, 16),
    (laneA p 3, F.circLaneA_STATE, 3)]

/-- A partition table of three entries: arc 2 with two roles on 8 lanes each, arc 5 on 4. -/
def table3 (r r' : Nat) : Word :=
  BitVec.ofNat 64 (0x8000 + 2 * 1024 + r * 256 + 8 + (0x8000 + 2 * 1024 + r' * 256 + 8) * 65536 + (0x8000 + 5 * 1024 + r * 256 + 4) * 2 ^ 32)

/-- A module at position 3 of a ring of one segment, member of arc 2 from position 0 to 14, ports E and W UP. -/
def ring : State :=
  let s := upPort (upPort upX 0) 1
  let s := withFlds s [(.circRingConf, F.circRingConf_SEGMENTS, 1), (.circPosition, F.circPosition_VALID, 1),
    (.circPosition, F.circPosition_POS, 3), (.circArc, F.circArc_JOB, 77), (.circArc, F.circArc_LAST, 14), (.circArc, F.circArc_INDEX, 2),
    (.circArc, F.circArc_SPLIT, 7), (.circArc, F.circArc_VALID, 1), (.circAdmit, F.circAdmit_STATE, 1),
    (.circStreamLen, F.circStreamLen_NB_E, 100), (.circStreamLen, F.circStreamLen_NB_W, 50)]
  let s := withRegs s [(.circPartE, table3 0 3), (.circPartW, table3 1 2)]
  (s.setPort 0 { s.port 0 with peerPart := table3 1 2, announced := true, credits := [(0, 9), (1, 9), (2, 9)] }).setPort 1
    { s.port 1 with peerPart := table3 0 3, announced := true, credits := [(0, 9), (1, 9), (2, 9)] }

/-- A good frame in order on physical lane l of port p. -/
def rxh (p : Port) (l arc role : Nat) : RxHead :=
  { port := p, phys := l, arc := arc, role := role, lseq := 0, lack := 1023, cpart := 0, ccnt := 0, corr := 0, uncorr := 0, fcrc := true
    reserved := false }

/-- The state and the logical lane that the link layer goes on with. -/
def took (s : State) (h : RxHead) (idle : Bool) : State := match receive s h idle with | .yes u _ => u | .no u => u
/-- The logical lane of a frame that the link layer takes. -/
def tookLane (s : State) (h : RxHead) (idle : Bool) : Option Nat := match receive s h idle with | .yes _ l => l | .no _ => none
/-- The link layer takes a frame. -/
def takes (s : State) (h : RxHead) (idle : Bool) : Bool := match receive s h idle with | .yes _ _ => true | .no _ => false

theorem takes_eq {s : State} {h : RxHead} {idle : Bool} (k : takes s h idle = true) :
    receive s h idle = .yes (took s h idle) (tookLane s h idle) := by
  unfold takes at k; unfold took tookLane
  cases e : receive s h idle with
  | yes u l => rfl
  | no u => rw [e] at k; exact Bool.noConfusion k

/-- Window 63 in a state, of 64 MiB, towards position 9. -/
def win (st : Nat) (s : State) : State :=
  withFlds s [(.dmaRwinA 63, F.dmaRwinA_STATE, st), (.dmaRwinA 63, F.dmaRwinA_OPEN, if st = 0 then 0 else 1),
    (.dmaRwinA 63, F.dmaRwinA_SIZE, 26), (.dmaRwinA 63, F.dmaRwinA_PERM, 7), (.dmaRwinA 63, F.dmaRwinA_TARGET_POS, 9),
    (.dmaRwinA 63, F.dmaRwinA_ROUTE, 1), (.dmaRwinB 63, F.dmaRwinB_REMOTE_BASE, 0x4000000)]

/-- The word that opens window 63 towards a position, with a size exponent. -/
def openV (pos size : Nat) : Word := BitVec.ofNat 64 (2 ^ 58 + 7 * 2 ^ 55 + size * 2 ^ 50 + pos * 2 ^ 41 + 1)

/-- Import entry 15 of 1 MiB from address 0 for position 9 and job 77. -/
def imported (s : State) : State :=
  withFlds s [(.dmaRimpA 15, F.dmaRimpA_VALID, 1), (.dmaRimpA 15, F.dmaRimpA_PERM, 7), (.dmaRimpA 15, F.dmaRimpA_SIZE, 20),
    (.dmaRimpB 15, F.dmaRimpB_JOB, 77), (.dmaRimpB 15, F.dmaRimpB_SRC_POS, 9)]

/-- A transaction through window 63 of an owner. -/
def winTxn (o : TxnOwner) : Txn :=
  { owner := o, stamp := 8, fromPool := false, issued := true, returned := false, kind := .write, addr := 0xFF00000000 + 63 * 0x4000000 + 256,
    size := 32, data := List.replicate 32 (7, false), dest := none, number := 10, pkt := 0, into := none }

/-- A descriptor that writes through window 63, as transfer 10 of DMA 2. -/
def winDesc : Running :=
  { post := { addr := 0, ready := true, ctx := none, words := [4, 0, 0, 0, 0, 0, 0, 0], poison := false, ok := true, src := 0,
              dst := 0xFF00000000 + 63 * 0x4000000, arg := 0, sigPhys := 0, stamp := 1 },
    number := 10, start := 5, bridged := 0, frames := 0, met := false, remotePoison := false, checking := false, rows := [],
    got := [], need := 0, dst := 0, done := 0 }

/-- That descriptor runs, with that transaction. -/
def busyWin (s : State) : State :=
  let s := s.setDie 0 { DieSt.reset with txns := [winTxn (.dma 2)] }
  s.setDma 0 2 { Dma.reset with active := [winDesc] }

/-- A read of a core through window 63. -/
def winRead : Txn := { winTxn .cores with kind := .read, data := [], dest := some (.scalar 0 0 0 3 true), number := 3 }

theorem witness_RemoteWindows_source :
    (∀ pos ∈ ([14, 15] : List Nat), WriteReady (win 0 ring) (.dmaRwinA 63) ∧ (win 0 ring).fld (.dmaRwinA 63) F.dmaRwinA_STATE = 0
        ∧ openFieldsOk (win 0 ring) 63 (mergeWord (.dmaRwinA 63) ((win 0 ring).reg (.dmaRwinA 63)) (openV pos 26 ||| 1) true) = true
        ∧ bitsOf (openV pos 26) 59 58 < 2 ∧ inArc (win 0 ring) (bitsOf (openV pos 26) 49 41) = (pos == 14))
    ∧ ((win 1 ring).fld (.dmaRwinA 63) F.dmaRwinA_STATE = 1
        ∧ (let s := { win 1 ring with windowSince := [(63, 49999900000)] };
            s.fld (.dmaRwinA 63) F.dmaRwinA_STATE = 1 ∧ s.windowSince.at_ 0 63 + 100000 ≤ s.now)
        ∧ (let s := { win 1 ring with windowSince := [(63, 49999900001)] };
            s.fld (.dmaRwinA 63) F.dmaRwinA_STATE = 1 ∧ s.now < s.windowSince.at_ 0 63 + 100000))
    ∧ (∀ k ∈ ([1, 2, 3, 5] : List Nat), WriteReady (win k ring) (.dmaRwinA 63) ∧ (win k ring).fld (.dmaRwinA 63) F.dmaRwinA_STATE = k)
    ∧ (windowBusy (win 2 ring) 63 = false ∧ windowBusy (busyWin (win 2 ring)) 63 = true)
    ∧ (∀ k ∈ ([1, 2, 4] : List Nat), (win k ring).fld (.dmaRwinA 63) F.dmaRwinA_STATE = k
        ∧ bitsOf ((win k ring).reg (.dmaRwinA 63)) 40 38 = 0 ∧ bitsOf ((win k ring).reg (.dmaRwinA 63)) 49 41 = 9)
    ∧ ((0 : Nat), 9) ≠ (0, 8) := by
  unfold WriteReady; refine ⟨?_, ?_, ?_, ?_, ?_, ?_⟩ <;> decide +kernel

theorem witness_RemoteWindows_target :
    (∀ p ∈ ([(0, 9, 77, 1, some 15), (0, 9, 78, 1, none), (1, 9, 77, 1, none), (0, 15, 77, 1, none)] : List (Nat × Nat × Nat × Nat × Option (Fin 16))),
        let r := { RemotePkt.blank .openReq with
          srcRing := p.1, srcPos := p.2.1, win := 63, route := p.2.2.2.1, tgtRing := (imported ring).ringId
          tgtPos := (imported ring).position, addr := 0, size := 20, perm := 7, job := p.2.2.1 };
        (List.finRange 16).find? (fun i => pathAllowed (imported ring) r && importAccepts (imported ring) i r) = p.2.2.2.2)
    ∧ (∀ i, importAccepts (imported ring) i { RemotePkt.blank .openReq with srcPos := 9, size := 20, perm := 7, job := 78 } = false)
    ∧ (1 < 2 ∧ 1 ≠ (imported ring).ringId ∧ inArc (imported ring) 15 = false)
    ∧ (∀ z ∈ ([11, 12, 26] : List Nat), let v : Word := BitVec.ofNat 64 (2 ^ 63 + z * 2 ^ 55 + 0x4000000);
        WriteReady ring (.dmaRimpA 15) ∧ bitsOf v 63 63 = 1 ∧ bitsOf v 59 55 = z ∧ bitsOf v 47 0 % 2 ^ bitsOf v 59 55 = 0) := by
  unfold WriteReady; refine ⟨?_, ?_, ?_, ?_⟩ <;> decide +kernel

theorem witness_RemoteWindows_refusals :
    (7 < 8 ∧ (ring.die 0).txns = [])
    ∧ (let s := (win 2 ring).setDie 0 { DieSt.reset with txns := [winTxn (.dma 2), winRead] };
        (s.die 0).txns.zipIdx.find? (fun e => slotOfAddr e.1.addr == some 63 && decide (e.1.owner = .cores) && e.1.issued && e.1.pkt == 0)
            = some (winRead, 1)
          ∧ winRead.kind = .read ∧ winRead.dest = some (.scalar 0 0 0 3 true) ∧ 0 < winRead.size)
    ∧ (8 ≤ 10 ∧ (2 : Cluster).val = 10 % 8 ∧ runningOf (busyWin (win 2 ring)) 0 2 10 = some winDesc)
    ∧ (let s := (win 2 ring).setDma 0 2 { Dma.reset with signalled := [(10, 0x123)] };
        runningOf s 0 2 10 = none ∧ (s.dma 0 2).signalled.find 10 = some 0x123) := by
  decide +kernel

/-- As `ring`, with an opening of position 9 accepted and window 63 open with a transaction in flight. -/
def ringOpen : State :=
  { busyWin (withFlds (win 2 (imported ring)) [(.hbmStackStatus 0 0, F.hbmStackStatus_STATE, 2), (.circRingConf, F.circRingConf_ENABLE, 1)]) with
    accepted := [(15, { RemotePkt.blank .openReq with srcPos := 9, size := 20, perm := 7, job := 77 })] }

/-- As `ringOpen`, with the opening of a store in place of the one of memory. -/
def ringStore : State :=
  { withFlds ringOpen [(.dmaRimpA 15, F.dmaRimpA_BASE, unitBase 0 .ast 0)] with
    accepted := [(15, { RemotePkt.blank .openReq with srcPos := 9, size := 20, perm := 7, job := 77, addr := unitBase 0 .ast 0 })] }

/-- A packet for this module from position 9. -/
def pk (op addr : Nat) : RemotePkt :=
  { RemotePkt.blank .rwr with
    srcPos := 9, tgtPos := 3, op := op, addr := addr, data := List.replicate 224 5, len := 224, xfer := 10 }

theorem witness_RemoteFrames_taken :
    let h := rxh 1 0 2 0
    (∀ s ∈ [ringOpen, ringStore], receive s h false = .yes (took s h false) (tookLane s h false)
        ∧ partMatch (took s h false) h (tookLane s h false) = some 0)
    ∧ (∀ p ∈ [pk 0 0x1000, pk 1 0x1000, pk 2 0x1000, pk 2 0x4000100, { pk 4 0x1000 with packet := some ⟨0, 5, 7, 8⟩ }],
        p.tgtRing = (took ringOpen h false).ringId ∧ p.tgtPos = (took ringOpen h false).position ∧ p.data.length ≤ 224)
    ∧ remoteWaits (took ringOpen h false) h = false ∧ (took ringOpen h false).circ.heldRemote = []
    ∧ (let s := withFlds ringOpen [(.circRingConf, F.circRingConf_ENABLE, 0)]; remoteWaits (took s h false) h = true) := by
  have k : ∀ s ∈ [ringOpen, ringStore], takes s (rxh 1 0 2 0) false = true
      ∧ partMatch (took s (rxh 1 0 2 0) false) (rxh 1 0 2 0) (tookLane s (rxh 1 0 2 0) false) = some 0 := by decide +kernel
  refine ⟨fun s hs => ⟨takes_eq (k s hs).1, (k s hs).2⟩, ?_, ?_, ?_, ?_⟩ <;> decide +kernel

theorem witness_RemoteFrames_effects :
    let h := rxh 1 0 2 0
    let u := took ringOpen h false
    let v := took ringStore h false
    (let p := pk 0 (0x100000 - 224);
      p.op < 2 ∧ landReject u p p.data.length 4 (landKind p p.data.length) = none ∧ landKind p p.data.length = some .write
        ∧ placeOf p.addr = .hbm 0 ∧ tierHolds u p.addr p.data.length = true ∧ u.latent = [] ∧ Mem.wf u.mem = true)
    ∧ (let p := pk 0 (unitBase 0 .ast 0 + 0x1000);
        landReject v p p.data.length 4 (landKind p p.data.length) = none ∧ landKind p p.data.length = some .write
          ∧ placeOf p.addr = .store 0 .ast 0 0 0x1000)
    ∧ landReject u (pk 0 (0x100000 - 223)) 224 4 (landKind (pk 0 (0x100000 - 223)) 224) = some none
    ∧ landReject u (pk 1 0x1000) 224 4 (landKind (pk 1 0x1000) 224) = some (some .accessShape)
    ∧ (let p := pk 2 0x1000; p.op = 2 ∧ p.len ≤ 224 ∧ landReject u p p.len 2 (some .read) = none)
    ∧ (let p := pk 2 0x4000100;
        p.status = 0 ∧ (answered u ⟨p.srcDie % 2, Nat.mod_lt _ (by decide)⟩ p) = some (0, winTxn (.dma 2), 63))
    ∧ (let p := { pk 4 0 with packet := some ⟨0, 5, 7, 8⟩ };
        p.packet = some ⟨0, 5, 7, 8⟩ ∧ (⟨0, 5, 7, 8⟩ : SigPacket).kind = 0 ∧ admitted u p p.addr 1 1 = true
          ∧ admitted u { p with addr := 0x100000 } 0x100000 1 1 = false) := by
  refine ⟨?_, ?_, ?_, ?_, ?_, ?_, ?_⟩ <;> decide +kernel

/-- An access of a remote frame, served. -/
def remoteAcc (k : AccKind) : Access :=
  { stamp := 9, kind := k, addr := unitBase 0 .ast 0, size := 224, data := List.replicate 224 (5, false), dest := .remote, portB := false,
    issue := 69990, ret := 70000, served := true }

/-- Die 0 with that access, and where its answer goes. -/
def landed (k : AccKind) (eot : Bool) : State :=
  let s := atBeat ring 70000
  { s.setDie 0 { s.die 0 with accs := [remoteAcc k] } with inbound := [⟨0, 9, 1, pk 0 (unitBase 0 .ast 0), eot⟩] }

theorem witness_RemoteFrames_answers :
    ∀ k ∈ ([.read, .write] : List AccKind), ∀ eot : Bool,
      ((landed k eot).die 0).accs[0]? = some (remoteAcc k) ∧ (remoteAcc k).served = true ∧ (remoteAcc k).ret ≤ (landed k eot).beat 0
        ∧ ((landed k eot).inbound.find? (fun e => e.die = 0 ∧ e.stamp = (remoteAcc k).stamp)).isSome = true
        ∧ (hideMarks (remoteAcc k).data).length ≤ 224 := by
  decide +kernel

/-! ### Steps and the timebase (chapter 07) -/

/-- Die 0 with a change of its own state. -/
def onDie (s : State) (f : DieSt → DieSt) : State := s.setDie 0 (f (s.die 0))

/-- An open step of cores 0 and 31 whose deadline is one nanosecond away. -/
def stp (id : Nat) (f : Machine.Step → Machine.Step) : Machine.Step := f
  { id := id, mask := 2 ^ 31 + 1, opened := 40000000000, deadline := some 50000000001, arrived := 0, frozen := [], late := false }

/-- Operand a of STEP and STEPEND: step 65535, cores 0 and 31. -/
def stepA : Nat := 65535 * 2 ^ 48 + 2 ^ 31 + 1

/-- Core 0 about to end step 65535. -/
def ending (f : Machine.Step → Machine.Step) : State := onDie (ab (65535 * 2 ^ 48) 0) fun x => { x with steps := [stp 65535 f] }

/-- The pending arrival of core 0 at step 65535, of an earlier beat. -/
def arr (f : Arrival → Arrival) : Arrival := f ⟨0, 0, 65535, 3, 69999, false⟩

/-- That arrival is pending. -/
def arriving (f : Machine.Step → Machine.Step) (g : Arrival → Arrival) : State := onDie (ab 0 0) fun x =>
  { x with steps := [stp 65535 f], stepArr := [arr g] }

theorem witness_Steps_instructions :
    (Issues (ab stepA 0) 0 0 0 [1, 2] ∧ stepFailure (ab stepA 0) 0 (((ab stepA 0).ctx 0 0 0).rd 1) (((ab stepA 0).ctx 0 0 0).rd 2) = none)
    ∧ (Issues (ab (65535 * 2 ^ 48) 0) 0 0 0 [1, 2]
        ∧ (stepFailure (ab (65535 * 2 ^ 48) 0) 0 (((ab (65535 * 2 ^ 48) 0).ctx 0 0 0).rd 1) (((ab (65535 * 2 ^ 48) 0).ctx 0 0 0).rd 2)).isSome = true)
    ∧ (Issues (ending id) 0 0 0 [1] ∧ bitsOf (((ending id).ctx 0 0 0).rd 1) 47 0 = 0
        ∧ mayArrive (ending id) 0 0 (bitsOf (((ending id).ctx 0 0 0).rd 1) 63 48) = true)
    ∧ (Issues (ending fun u => { u with arrived := 1 }) 0 0 0 [1]
        ∧ mayArrive (ending fun u => { u with arrived := 1 }) 0 0 65535 = false
        ∧ bitsOf (((ending fun u => { u with arrived := 1 }).ctx 0 0 0).rd 1) 63 48 = 65535) := by
  refine ⟨⟨ab_issues ?_, ?_⟩, ⟨ab_issues ?_, ?_⟩, ⟨ab_issues ?_, ?_⟩, ab_issues ?_, ?_⟩ <;> decide +kernel

theorem witness_Steps_events :
    (∀ n ∈ ([0, 2 ^ 31] : List Nat), let s := arriving (fun u => { u with arrived := n }) id;
        (s.die 0).stepArr[0]? = some (arr id) ∧ (arr id).stale = false ∧ (openStep s 0 65535).isSome = true ∧ arrivalClear s 0 (arr id) = true)
    ∧ ((0 ||| 2 ^ 0) &&& (2 ^ 31 + 1) ≠ 2 ^ 31 + 1 ∧ (2 ^ 31 ||| 2 ^ 0) &&& (2 ^ 31 + 1) = 2 ^ 31 + 1)
    ∧ (∀ c ∈ ([[], [(65535 + 1, 0, 0)]] : List (List (Nat × Word × Word))),
        (onDie (arriving id id) fun x => { x with closedNow := c }).die 0 |>.closedNow.all (fun e => 65535 < e.1) = true)
    ∧ (let s := arriving id fun a => { a with stale := true };
        (s.die 0).stepArr[0]? = some (arr fun a => { a with stale := true }) ∧ arrivalClear s 0 (arr fun a => { a with stale := true }) = true)
    ∧ (let s := onDie (arriving id id) fun x => { x with steps := [] }; openStep s 0 65535 = none ∧ arrivalClear s 0 (arr id) = true)
    ∧ (let s := arriving id fun a => { a with beat := 70000 };
        (s.die 0).stepArr[0]? = some (arr fun a => { a with beat := 70000 }) ∧ (arr fun a => { a with beat := 70000 }).beat = s.beat 0)
    ∧ (let s := (arriving id id).setCore 0 0 { Core.reset with issueQ := [⟨5, 0, 2, 69990⟩] };
        (s.die 0).stepArr[0]? = some (arr id) ∧ arrivalClear s 0 (arr id) = false)
    ∧ (let s := ending fun u => { u with deadline := some 50000000000 };
        openStep s 0 65535 = some (stp 65535 fun u => { u with deadline := some 50000000000 }) ∧ 50000000000 ≤ s.time 0
          ∧ closesNow s 0 (stp 65535 fun u => { u with deadline := some 50000000000 }) = false)
    ∧ (let f := fun u : Machine.Step => { u with arrived := 2 ^ 31 }; closesNow (arriving f id) 0 (stp 65535 f) = true)
    ∧ ((ending id).time 0 < 50000000001 ∧ openStep (ending id) 0 65535 = some (stp 65535 id)
        ∧ (stp 65535 fun u => { u with late := true }).late = true)
    ∧ (WriteReady (ending id) (.scvStepAbort 0) ∧ 65535 < 65536 ∧ openStep (ending id) 0 65534 = none) := by
  unfold WriteReady
  refine ⟨?_, ?_, ?_, ?_, ?_, ?_, ?_, ?_, ?_, ?_, ?_⟩ <;> decide +kernel

/-- A ring module with TB_STATUS.STATE, other fields and the circulation state set. -/
def tb (st : Nat) (l : List (Reg × Fld × Nat)) (f : Circ → Circ) : State :=
  let s := withFlds ring ((.ptcTbStatus, F.ptcTbStatus_STATE, st) :: l)
  { s with circ := f s.circ }

/-- Aligned within 4 ns for 1 ms. -/
def banded : State := tb 1 [(.ptcTbStatus, F.ptcTbStatus_OFFSET_NS, 2 ^ 32 - 4)] fun c => { c with tbBand := 49999000000, tbHeard := 49999999999 }

theorem ts_ahead : 1000 < tsOffset (took (tb 1 [] id) (rxh 0 0 2 0) false) 50000002002 50000000000 50000000000 := by
  have h : (took (tb 1 [] id) (rxh 0 0 2 0) false).now = 50000000000 := by decide +kernel
  have a : (50000002002 : Word).toNat = 50000002002 := by decide
  have b : (50000000000 : Word).toNat = 50000000000 := by decide
  unfold tsOffset
  rw [h, a, b]
  dsimp only
  omega

theorem witness_TimebaseAlignment :
    (let s := ring.setPort 0 { ring.port 0 with tsSent := 49999992000 };
      inService s 0 = true ∧ (s.port 0).tsSent + 8000 ≤ s.now)
    ∧ (let s := ring.setPort 0 { ring.port 0 with tsSent := 49999992001 };
        inService s 2 = false ∧ s.now < (s.port 0).tsSent + 8000)
    ∧ (receive ring (rxh 1 0 2 0) false = .yes (took ring (rxh 1 0 2 0) false) (tookLane ring (rxh 1 0 2 0) false)
        ∧ (rxh 1 0 2 0).port ≠ upstreamPort (took ring (rxh 1 0 2 0) false))
    ∧ (receive (tb 1 [] id) (rxh 0 0 2 0) false
          = .yes (took (tb 1 [] id) (rxh 0 0 2 0) false) (tookLane (tb 1 [] id) (rxh 0 0 2 0) false)
        ∧ (rxh 0 0 2 0).port = upstreamPort (took (tb 1 [] id) (rxh 0 0 2 0) false)
        ∧ (took (tb 1 [] id) (rxh 0 0 2 0) false).fld .ptcTbConf F.ptcTbConf_MASTER = 0 ∧ (50000000000 : Word) ≠ 0
        ∧ tbState (took (tb 1 [] id) (rxh 0 0 2 0) false) = 1
        ∧ 1000 < tsOffset (took (tb 1 [] id) (rxh 0 0 2 0) false) 50000002002 50000000000 50000000000)
    ∧ (receive (tb 3 [] id) (rxh 0 0 2 0) false
          = .yes (took (tb 3 [] id) (rxh 0 0 2 0) false) (tookLane (tb 3 [] id) (rxh 0 0 2 0) false)
        ∧ (rxh 0 0 2 0).port = upstreamPort (took (tb 3 [] id) (rxh 0 0 2 0) false)
        ∧ (took (tb 3 [] id) (rxh 0 0 2 0) false).fld .ptcTbConf F.ptcTbConf_MASTER = 0
        ∧ tbState (took (tb 3 [] id) (rxh 0 0 2 0) false) = 3)
    ∧ (tbState banded = 1 ∧ (toSigned 32 (banded.fld .ptcTbStatus F.ptcTbStatus_OFFSET_NS)).natAbs ≤ 4
        ∧ banded.circ.tbBand + 1000000 ≤ banded.now ∧ banded.circ.tbBand < banded.circ.tbHeard)
    ∧ tbState ring ≠ 1
    ∧ (let s := tb 2 [] fun c => { c with tbHeard := 49999900000 };
        s.circ.tbHeard + 100000 ≤ s.now ∧ tbState s = 2 ∧ s.fld .ptcTbConf F.ptcTbConf_ALT_VALID = 0)
    ∧ (let s := tb 1 [(.ptcTbConf, F.ptcTbConf_ALT_VALID, 1), (.ptcTbConf, F.ptcTbConf_ALT, 1)] fun c => { c with tbHeard := 49999900000 };
        s.circ.tbHeard + 100000 ≤ s.now ∧ tbState s = 1 ∧ s.fld .ptcTbConf F.ptcTbConf_ALT_VALID = 1 ∧ inService s (altPort s) = true)
    ∧ (tb 2 [] fun c => { c with tbHeard := 49999900001 }).now < (tb 2 [] fun c => { c with tbHeard := 49999900001 }).circ.tbHeard + 100000
    ∧ (WriteReady upX .ptcTbConf ∧ bitsOf 1 0 0 = 1 ∧ bitsOf 0 0 0 = 0
        ∧ tbState (withFlds upX [(.ptcTbStatus, F.ptcTbStatus_STATE, 4)]) = 4
        ∧ ∀ p : Port, inService (withFlds upX [(.ptcTbStatus, F.ptcTbStatus_STATE, 4)]) p = false)
    ∧ (let s := withFlds upX [(.ptcTbConf, F.ptcTbConf_MASTER, 1)];
        WriteOpen s .ptcTbSet ∧ s.fld .ptcTbConf F.ptcTbConf_MASTER = 1 ∧ s.now < (50000000001 : Word).toNat
          ∧ (50000000000 : Word).toNat ≤ s.now)
    ∧ upX.fld .ptcTbConf F.ptcTbConf_MASTER = 0
    ∧ (∀ k ∈ ([0, 1, 2, 3, 4] : List Nat), tbState (tb k [(.ptcTbStatus, F.ptcTbStatus_OFFSET_NS, 2 ^ 32 - 4)] id) = k) := by
  unfold WriteOpen WriteReady
  refine ⟨?_, ?_, ⟨takes_eq ?_, ?_⟩, ⟨takes_eq ?_, ?_, ?_, ?_, ?_, ts_ahead⟩, ⟨takes_eq ?_, ?_⟩, ?_, ?_, ?_, ?_, ?_, ?_, ?_, ?_, ?_⟩ <;> decide +kernel

/-! ### Counters, signals, waits, credits and barriers (chapter 08) -/

/-- A word of SIGNAL, WAIT, CONSUME or BARRIVE: VID, scope or mode, window, increment. -/
def sg (vid scope win inc : Nat) : Nat := vid * 2 ^ 52 + scope * 2 ^ 50 + win * 2 ^ 44 + inc

/-- A context whose VIDs 1 to 5 and 4095 name counters 8063, 8064, 8127, 6, 9 and 8. -/
def sctx (a b : Nat) : State :=
  (withFlds (run upX) [(.syncCrdMap 0 0, ⟨63, 0, .u, .basic, .ro⟩, 16), (.syncCtr 0 8, F.syncCtr_VALUE, 50), (.syncCtr 0 9, F.syncCtr_VALUE, 40),
      (.syncCtr 0 6, F.syncCtr_VALUE, 9)]).setCtx 0 0 0 { feedCtx a b with
    xl := [(1, 0xE000 + 8063), (2, 0xE000 + 8064), (3, 0xE000 + 8127), (4, 0xE006), (5, 0xE009), (4095, 0xE008)] }

theorem sctx_issues {s : State} {srcs : List (Fin 32)} (h : issuing s 0 0 = some 0
    ∧ (s.ctx 0 0 0).translate (s.ctx 0 0 0).pc 4 .x = some xbase ∧ (readStore s xbase 4 = s ∧ s.poisonedIn xbase 4 = false)
    ∧ ∀ r ∈ srcs, loadPending s 0 0 0 r = false) : Issues s 0 0 0 srcs := issues_of xbase h

/-- Core 0 with one signal in its queue. -/
def sgq (e : SigEntry) : State := (sctx 0 0).setCore 0 0 { Core.reset with sigQ := [e] }

/-- Window 63 takes signals. -/
def win63 (s : State) : State := withFlds s [(.dmaRwinA 63, F.dmaRwinA_STATE, 2), (.dmaRwinA 63, F.dmaRwinA_PERM, 7)]

/-- A packet for counter 6 with an increment, fenced behind n packets of its transfer. -/
def heldOf (n : Nat) : HeldSig := ⟨sigPacket 0 6 5 n, ⟨0, 3, 4⟩⟩

/-- A packet with a wrong complement. -/
def badPkt : HeldSig := ⟨{ sigPacket 0 6 5 0 with w2 := 0 }, ⟨0, 3, 4⟩⟩

/-- Die 0 with one packet before its synchronisation unit, three packets of the transfer written. -/
def bridged (h : HeldSig) : State := onDie (sctx 0 0) fun x => { x with bridge := [h], xferPkts := [(⟨0, 3, 4⟩, 3)] }

/-- Slot 0 of core 0 waits on counter 6 for 10 until a time. -/
def waitingCtr (timeout : Nat) : State :=
  (sctx 0 0).setCtx 0 0 0 { feedCtx 0 0 with st := .wait, waiting := some (.counter 4 6 0 10 timeout 7) }

/-- Core 0's signal queue is full. -/
def sigFull (a : Nat) : State := (sctx a 0).setCore 0 0 { Core.reset with sigQ := List.replicate 8 ⟨0, 6, 0, 63, 1, 3, 5⟩ }

/-- A CONSUME of an increment on counter 8 is due at the end of the beat. -/
def consuming (n : Nat) : State := onDie (sctx 0 0) fun x => { x with consumes := [⟨0, 0, 8, n⟩] }

theorem witness_SignalsAndCounters :
    (Issues (sctx (sg 7 0 0 5) 0) 0 0 0 [1] ∧ xlateS ((sctx (sg 7 0 0 5) 0).ctx 0 0 0) 7 = none
        ∧ bitsOf (((sctx (sg 7 0 0 5) 0).ctx 0 0 0).rd 1) 63 52 = 7)
    ∧ (Issues (sctx (sg 1 0 0 0) 0) 0 0 0 [1] ∧ xlateS ((sctx (sg 1 0 0 0) 0).ctx 0 0 0) 1 = some 8063
        ∧ bitsOf (((sctx (sg 1 0 0 0) 0).ctx 0 0 0).rd 1) 31 0 = 0)
    ∧ (Issues (sctx (sg 1 2 63 (2 ^ 32 - 1)) 0) 0 0 0 [1] ∧ xlateS ((sctx (sg 1 2 63 (2 ^ 32 - 1)) 0).ctx 0 0 0) 1 = some 8063
        ∧ bitsOf (((sctx (sg 1 2 63 (2 ^ 32 - 1)) 0).ctx 0 0 0).rd 1) 31 0 ≠ 0
        ∧ bitsOf (((sctx (sg 1 2 63 (2 ^ 32 - 1)) 0).ctx 0 0 0).rd 1) 51 50 ≠ 3
        ∧ bitsOf (((sctx (sg 1 2 63 (2 ^ 32 - 1)) 0).ctx 0 0 0).rd 1) 51 50 ≠ 0 ∧ queueHasRoom (sctx (sg 1 2 63 (2 ^ 32 - 1)) 0) 0 0 5 = true)
    ∧ (Issues (sctx (sg 5 0 0 1) 0) 0 0 0 [1] ∧ xlateS ((sctx (sg 5 0 0 1) 0).ctx 0 0 0) 5 = some 9
        ∧ bitsOf (((sctx (sg 5 0 0 1) 0).ctx 0 0 0).rd 1) 51 50 = 0 ∧ signalable (sctx (sg 5 0 0 1) 0) 0 9 = false)
    ∧ (Issues (sigFull (sg 4 0 0 1)) 0 0 0 [1] ∧ xlateS ((sigFull (sg 4 0 0 1)).ctx 0 0 0) 4 = some 6
        ∧ bitsOf (((sigFull (sg 4 0 0 1)).ctx 0 0 0).rd 1) 31 0 ≠ 0 ∧ bitsOf (((sigFull (sg 4 0 0 1)).ctx 0 0 0).rd 1) 51 50 ≠ 3
        ∧ signalable (sigFull (sg 4 0 0 1)) 0 6 = true ∧ queueHasRoom (sigFull (sg 4 0 0 1)) 0 0 5 = false)
    ∧ (Issues (sctx (sg 3 0 0 1) 0) 0 0 0 [1] ∧ xlateS ((sctx (sg 3 0 0 1) 0).ctx 0 0 0) 3 = some 8127
        ∧ xlateS ((sctx (sg 3 0 0 1) 0).ctx 0 0 0) 2 = some 8064)
    ∧ (Issues (sctx (sg 4095 0 0 10) 0) 0 0 0 [1] ∧ xlateW ((sctx (sg 4095 0 0 10) 0).ctx 0 0 0) 4095 = some 8
        ∧ (creditPair (sctx (sg 4095 0 0 10) 0) 0 (8 / 2)).1 = true
        ∧ bitsOf (((sctx (sg 4095 0 0 10) 0).ctx 0 0 0).rd 1) 31 0 ≠ 0 ∧ bitsOf (((sctx (sg 4095 0 0 10) 0).ctx 0 0 0).rd 1) 51 50 = 0)
    ∧ (Issues (sctx (sg 5 0 0 10) 0) 0 0 0 [1] ∧ xlateW ((sctx (sg 5 0 0 10) 0).ctx 0 0 0) 5 = some 9 ∧ 9 % 2 = 1)
    ∧ (∀ n ∈ ([10, 11] : List Nat), ((consuming n).die 0).consumes = [⟨0, 0, 8, n⟩]
        ∧ (n ≤ counterValue (consuming n) 0 8 - counterValue (consuming n) 0 (8 + 1) ↔ n = 10)
        ∧ (creditPair (consuming n) 0 (8 / 2)).2 = false
        ∧ (creditPair (withFlds (consuming n) [(.syncCrdFb 0 0, ⟨63, 0, .u, .basic, .ro⟩, 16)]) 0 (8 / 2)).2 = true)
    ∧ ((onDie (sctx 0 0) fun x => { x with reads := [⟨0, 0, 31, 6⟩] }).die 0).reads = [⟨0, 0, 31, 6⟩]
    ∧ (Issues (sctx (sg 4 0 0 9) 60000000000) 0 0 0 [1, 2] ∧ xlateW ((sctx (sg 4 0 0 9) 60000000000).ctx 0 0 0) 4 = some 6
        ∧ bitsOf (((sctx (sg 4 0 0 9) 60000000000).ctx 0 0 0).rd 1) 47 0 ≤ counterValue (sctx (sg 4 0 0 9) 60000000000) 0 6
        ∧ counterValue (sctx (sg 4 0 0 10) 60000000000) 0 6 < bitsOf (((sctx (sg 4 0 0 10) 60000000000).ctx 0 0 0).rd 1) 47 0)
    ∧ (∀ t ∈ [0, 50000000000, 50000000001], ((waitingCtr t).ctx 0 0 0).st = .wait ∧ ((waitingCtr t).ctx 0 0 0).stopReq = false
        ∧ ((waitingCtr t).ctx 0 0 0).waiting = some (.counter 4 6 0 10 t 7) ∧ counterWillHold (waitingCtr t) 0 6 0 10 = false)
    ∧ ((waitingCtr 50000000000).time 0 = 50000000000)
    ∧ (∀ k ∈ [0, 1, 2], readySignal (sgq ⟨0, 6, k, 63, 2 ^ 32 - 1, 3, 5⟩) 0 0 = some (0, ⟨0, 6, k, 63, 2 ^ 32 - 1, 3, 5⟩))
    ∧ (counterValue (sgq ⟨0, 6, 0, 63, 2 ^ 32 - 1, 3, 5⟩) 0 6 + (2 ^ 32 - 1) < 2 ^ 48
        ∧ windowSignals (sgq ⟨0, 6, 2, 63, 5, 3, 5⟩) 63 = false ∧ windowSignals (win63 (sgq ⟨0, 6, 2, 63, 5, 3, 5⟩)) 63 = true
        ∧ readySignal (win63 (sgq ⟨0, 6, 2, 63, 5, 3, 5⟩)) 0 0 = some (0, ⟨0, 6, 2, 63, 5, 3, 5⟩) ∧ readySignal upX 0 0 = none)
    ∧ (∀ n ∈ [3, 4], ((bridged (heldOf n)).die 0).bridge = heldOf n :: [] ∧ (heldOf n).packet.kind = 0 ∧ (heldOf n).packet.ok = true
        ∧ signalable (bridged (heldOf n)) 0 (bitsOf (heldOf n).packet.w0 63 51) = true ∧ bitsOf (heldOf n).packet.w0 31 0 ≠ 0
        ∧ counterValue (bridged (heldOf n)) 0 (bitsOf (heldOf n).packet.w0 63 51) + bitsOf (heldOf n).packet.w0 31 0 < 2 ^ 48
        ∧ (bitsOf (heldOf n).packet.w1 47 0 ≤ ((bridged (heldOf n)).die 0).xferPkts.at_ 0 (heldOf n).xfer ↔ n = 3))
    ∧ (((bridged badPkt).die 0).bridge = badPkt :: [] ∧ badPkt.packet.kind = 0 ∧ badPkt.packet.ok = false)
    ∧ (∀ n ∈ [3, 4], let s := onDie (sctx 0 0) fun x => { x with heldSigs := [heldOf n], xferPkts := [(⟨0, 3, 4⟩, 3)] };
        (s.die 0).heldSigs[0]? = some (heldOf n) ∧ signalable s 0 (bitsOf (heldOf n).packet.w0 63 51) = true
          ∧ counterValue s 0 (bitsOf (heldOf n).packet.w0 63 51) + bitsOf (heldOf n).packet.w0 31 0 < 2 ^ 48
          ∧ (bitsOf (heldOf n).packet.w1 47 0 ≤ (s.die 0).xferPkts.at_ 0 (heldOf n).xfer ↔ n = 3)) := by
  refine ⟨⟨sctx_issues ?_, ?_⟩, ⟨sctx_issues ?_, ?_⟩, ⟨sctx_issues ?_, ?_⟩, ⟨sctx_issues ?_, ?_⟩, ⟨sctx_issues ?_, ?_⟩, ⟨sctx_issues ?_, ?_⟩,
    ⟨sctx_issues ?_, ?_⟩, ⟨sctx_issues ?_, ?_⟩, ?_, ?_, ⟨sctx_issues ?_, ?_⟩, ?_, ?_, ?_, ?_, ?_, ?_, ?_⟩ <;> decide +kernel

theorem witness_CountersAndSyncRegisters :
    (∀ n ∈ [0, 1], let s := withFlds (sgq ⟨0, 6, 0, 0, 1, 3, 5⟩) [(.syncCtr 0 6, F.syncCtr_VALUE, 2 ^ 48 - 1), (.syncCtr 0 6, F.syncCtr_SAT, n)];
      readySignal s 0 0 = some (0, ⟨0, 6, 0, 0, 1, 3, 5⟩) ∧ 2 ^ 48 ≤ counterValue s 0 6 + 1 ∧ s.fld (ctrReg 0 6) F.syncCtr_SAT = n)
    ∧ (WriteReady upX (.syncCtr 0 8127) ∧ (BitVec.ofNat 64 (2 ^ 48 - 1)).toNat < 2 ^ 48 ∧ (8127 : Fin 8192).val < 8128
        ∧ counterValue upX 0 8127 ≤ (BitVec.ofNat 64 (2 ^ 48 - 1)).toNat)
    ∧ (WriteReady upX (.syncCtr 0 8128) ∧ 8128 ≤ (8128 : Fin 8192).val)
    ∧ (let s := withFlds upX [(.syncCtr 0 6, F.syncCtr_VALUE, 9)];
        WriteReady s (.syncCtr 0 6) ∧ (8 : Word).toNat < counterValue s 0 6)
    ∧ (let s := withRegs upX [(.syncXlSel 0, BitVec.ofNat 64 (31 * 65536 + 3 * 4096 + 4095))];
        WriteReady s (.syncXlEntry 0) ∧ (xlSel s 0).2.2 ≠ 0 ∧ (s.ctx 0 (xlSel s 0).1 (xlSel s 0).2.1).st = .empty)
    ∧ (WriteReady upX (.syncXlEntry 0) ∧ (xlSel upX 0).2.2 = 0)
    ∧ (WriteReady upX (.syncCtrl 0) ∧ upX.quiet 0 = true) ∧ (WriteReady (sctx 0 0) (.syncCtrl 0) ∧ (sctx 0 0).quiet 0 = false) := by
  unfold WriteReady; decide +kernel

/-- Barrier object 63 of a die, with its state, level and masks, on a ring module. -/
def bar (d : Die) (st lvl cm arr dm darr : Nat) : State :=
  withFlds ring [(barA d 63, F.syncBarA_CMASK, cm), (barA d 63, F.syncBarA_ARRIVED, arr), (barB d 63, F.syncBarB_STATE, st),
    (barB d 63, F.syncBarB_LEVEL, lvl), (barB d 63, F.syncBarB_DMASK, dm), (barB d 63, F.syncBarB_DARR, darr)]

/-- Core 31's arrival at object 63 is pending on die 0, of the beat before. -/
def arrAt (s : State) : State := onDie (withFlds s [(.scvBeat 0, ⟨63, 0, .u, .basic, .ro⟩, 6)]) fun x => { x with barArr := [⟨31, 0, 63, 1, 5, false⟩] }

/-- The word that an ARM of an object leaves. -/
def armed (s : State) (d : Die) (b : Fin 64) (v : Word) : Word :=
  mergeWord (barB d b) (s.reg (barB d b) &&& ~~~(woMask (barB d b))) (putBits (putBits v 51 50 0) 49 49 1) true

/-- An arrival of die 1 and a release for object 63. -/
def barPkt (kind w : Nat) : HeldSig :=
  let w0 : Word := BitVec.ofNat 64 ((8064 + 63) * 2 ^ 51 + kind * 2 ^ 49 + w)
  ⟨⟨w0, 0, ~~~w0, ~~~0⟩, ⟨0, 0, 0⟩⟩

/-- A release of object 63 of a die stands due at a beat, the die at beat 70,000. -/
def dueAt (d : Die) (lvl due : Nat) : State :=
  let s := withFlds (bar d 1 lvl 1 1 0 0) [(.scvBeat d, ⟨63, 0, .u, .basic, .ro⟩, 70000)]
  s.setDie d { DieSt.reset with barDue := [⟨due, 63⟩] }

theorem witness_Barriers :
    (∀ st ∈ [0, 3], WriteReady (bar 0 st 0 0x80000000 0 0 0) (.syncBarB 0 63) ∧ barState (bar 0 st 0 0x80000000 0 0 0) 0 63 = st
        ∧ armOk (bar 0 st 0 0x80000000 0 0 0) 0 ((bar 0 st 0 0x80000000 0 0 0).reg (barA 0 63))
            (armed (bar 0 st 0 0x80000000 0 0 0) 0 63 (BitVec.ofNat 64 (2 ^ 58))) = true)
    ∧ (∀ st ∈ [1, 2], barState (bar 0 st 0 1 0 0 0) 0 63 = st)
    ∧ armOk (bar 0 0 0 1 0 0 0) 0 ((bar 0 0 0 1 0 0 0).reg (barA 0 63)) (armed (bar 0 0 0 1 0 0 0) 0 63 (BitVec.ofNat 64 (5 * 2 ^ 58))) = false
    ∧ (WriteOpen (bar 0 3 0 1 0 0 0) (.syncBarB 0 63) ∧ counterValue (bar 0 3 0 1 0 0 0) 0 (8064 + (63 : Fin 64).val) + 1 < 2 ^ 48)
    ∧ (WriteOpen (bar 0 2 0 1 0 0 0) (.syncBarB 0 63) ∧ barState (bar 0 2 0 1 0 0 0) 0 63 ≠ 3)
    ∧ (∀ p ∈ ([(0x80000000, 0x80000000), (0x80000001, 0), (0x80000000, 0)] : List (Nat × Nat)), let s := arrAt (bar 0 1 1 p.1 p.2 0 0);
        (s.die 0).barArr[0]? = some ⟨31, 0, 63, 1, 5, false⟩ ∧ arrivalClear s 0 ⟨31, 0, 63, 1, 5, false⟩ = true ∧ 63 % 64 = (63 : Fin 64).val ∧ barState s 0 63 = 1
          ∧ s.fld (barA 0 63) F.syncBarA_ARRIVED = p.2 ∧ s.fld (barA 0 63) F.syncBarA_CMASK = p.1 ∧ barLevel s 0 63 ≤ 1
          ∧ counterValue s 0 (8064 + (63 : Fin 64).val) + 1 < 2 ^ 48)
    ∧ (0x80000000 / 2 ^ 31 % 2 = 1 ∧ 0 / 2 ^ 31 % 2 = 0 ∧ 0x80000001 / 2 ^ 31 % 2 = 1 ∧ 0 ||| 2 ^ 31 ≠ 0x80000001 ∧ 0 ||| 2 ^ 31 = 0x80000000)
    ∧ (∀ l ∈ ([0, 1] : List Nat), ∀ due ∈ ([70000, 70001] : List Nat), (dueAt 0 l due).beat 0 = 70000 ∧ barState (dueAt 0 l due) 0 63 = 1
        ∧ ((dueAt 0 l due).die 0).barDue = [⟨due, 63⟩] ∧ barLevel (dueAt 0 l due) 0 63 = l
        ∧ counterValue (dueAt 0 l due) 0 (8064 + (63 : Fin 64).val) + 1 < 2 ^ 48)
    ∧ (((dueAt 1 2 70000).die 1).barDue = [⟨70000, 63⟩] ∧ (dueAt 1 2 70000).beat 1 = 70000 ∧ barState (dueAt 1 2 70000) 1 63 = 1
        ∧ barLevel (dueAt 1 2 70000) 1 63 = 2)
    ∧ (let s := onDie (bar 0 1 2 0 0 3 0) fun x => { x with bridge := [barPkt 1 (2 ^ 9)] };
        (s.die 0).bridge = barPkt 1 (2 ^ 9) :: [] ∧ (barPkt 1 (2 ^ 9)).packet.ok = true ∧ (barPkt 1 (2 ^ 9)).packet.kind = 1
          ∧ (barPkt 1 (2 ^ 9)).packet.stray = false
          ∧ (barPkt 1 (2 ^ 9)).xfer.kind = 0 ∧ packetObject (barPkt 1 (2 ^ 9)).packet = 63
          ∧ bitsOf (barPkt 1 (2 ^ 9)).packet.w0 9 9 = 1 ∧ barState s 0 63 = 1 ∧ s.fld (barB 0 63) F.syncBarB_DARR / 2 ^ 1 % 2 = 0
          ∧ s.fld (barB 0 63) F.syncBarB_DMASK / 2 ^ 1 % 2 = 1 ∧ s.fld (barB 0 63) F.syncBarB_DARR ||| 2 ^ 1 ≠ s.fld (barB 0 63) F.syncBarB_DMASK)
    ∧ (∀ st ∈ [1, 2], let s := (bar 1 st 2 1 1 0 0).setDie 1 { DieSt.reset with bridge := [barPkt 2 0] };
        (s.die 1).bridge = barPkt 2 0 :: [] ∧ (barPkt 2 0).packet.ok = true ∧ (barPkt 2 0).packet.kind = 2
          ∧ (barPkt 2 0).packet.stray = false
          ∧ packetObject (barPkt 2 0).packet = 63 ∧ barState s 1 63 = st ∧ counterValue s 1 (8064 + (63 : Fin 64).val) + 1 < 2 ^ 48) := by
  unfold WriteOpen WriteReady
  refine ⟨?_, ?_, ?_, ?_, ?_, ?_, ?_, ?_, ?_, ?_, ?_⟩ <;> decide +kernel

/-! ### Registers (chapters 11, 15) -/

theorem witness_CountersAreCleared :
    ∀ d : Die, ∀ r ∈ ([.engCtrl d, .scvCtrl d, .fdxCtrl d, .dmaCtrl d, .wstCtrl d, .astCtrl d, .pstCtrl d, .syncCtrl d, .hbmCtrl d,
      .lpdCtrl, .mldCtrl, .fcuCtrl, .ptcCtrl] : List Reg), up.pow.off = false ∧ inBlockReset up r = false ∧ regReady up r = true
        ∧ 100 ≤ up.fld .fcuCtrl F.fcuCtrl_RESET_HOLD_US := by
  decide +kernel

/-- The address of a register as a word, moved by n. -/
def addrOf (r : Reg) (n : Nat) : Word := BitVec.ofNat 64 (r.addr + n)

/-- Block SCV of die 1 is in reset. -/
def inReset : State := fcuS upX fun f => { f with resets := [(.scv, 1)] }

theorem witness_RegisterAccess :
    (up.pow.off = false ∧ bitsOf (addrOf .modIdent (2 ^ 48)) 63 48 ≠ 0)
    ∧ (bitsOf (addrOf .modIdent 4) 63 48 = 0 ∧ (addrOf .modIdent 4).toNat % 8 ≠ 0)
    ∧ (bitsOf (0xFEFFFFFFF8 : Word) 63 48 = 0 ∧ (0xFEFFFFFFF8 : Word).toNat % 8 = 0 ∧ Reg.ofAddr (0xFEFFFFFFF8 : Word).toNat = none)
    ∧ (Reg.ofAddr (Reg.scvCtrl 1).addr = some (.scvCtrl 1) ∧ (addrOf (.scvCtrl 1) 0).toNat = (Reg.scvCtrl 1).addr
        ∧ inBlockReset inReset (.scvCtrl 1) = true ∧ inBlockReset inReset (.scvCtrl 0) = false)
    ∧ (Reg.ofAddr (Reg.scvCtrl 1).addr = some (.scvCtrl 1) ∧ inBlockReset State.reset (.scvCtrl 1) = false
        ∧ regReady State.reset (.scvCtrl 1) = false ∧ State.reset.pow.off = false)
    ∧ (Reg.ofAddr Reg.fcuAck.addr = some .fcuAck ∧ inBlockReset up .fcuAck = false ∧ regReady up .fcuAck = true ∧ Reg.hasU .fcuAck = false)
    ∧ (Reg.ofAddr Reg.ptcThermCtrl.addr = some .ptcThermCtrl ∧ regReady up .ptcThermCtrl = true ∧ unlockedFor up .ptcThermCtrl = false
        ∧ F.ptcThermCtrl_TJ_CAP ∈ Reg.fields .ptcThermCtrl ∧ F.ptcThermCtrl_TJ_CAP.level = .expert ∧ F.ptcThermCtrl_TJ_CAP.access = .rw
        ∧ bitsOf (0 : Word) F.ptcThermCtrl_TJ_CAP.hi F.ptcThermCtrl_TJ_CAP.lo
            ≠ bitsOf (writeBase up .ptcThermCtrl) F.ptcThermCtrl_TJ_CAP.hi F.ptcThermCtrl_TJ_CAP.lo)
    ∧ ((addrOf .modIdent 0).toNat = Reg.addr .modIdent ∧ WriteReady up .modIdent ∧ WriteReady up (.dmaDoneCount 1 0)
        ∧ (addrOf (.dmaDoneCount 1 0) 0).toNat = (Reg.dmaDoneCount 1 0).addr)
    ∧ (∀ b ∈ ([.scv, .fcu, .sec] : List Block), b ≠ .mod ∧ 100 ≤ up.fld .fcuCtrl F.fcuCtrl_RESET_HOLD_US ∧ WriteReady up (unlockReg b 1))
    ∧ (WriteOpen upX .engGradeMask ∧ 1 ≤ 1 ∧ 3 ≤ 3 ∧ gradeEngines 1 ≤ gradeEngines upX.fuses.grade
        ∧ gradeEngines 3 ≤ gradeEngines upX.fuses.grade ∧ upX.fld .circRingConf F.circRingConf_ENABLE = 0 ∧ queuesEmpty upX = true)
    ∧ (let s := { upX with fuses := { upX.fuses with grade := 3 } };
        WriteOpen s .engGradeMask ∧ gradeEngines s.fuses.grade < gradeEngines 2)
    ∧ (WriteOpen (withFlds upX [(.circRingConf, F.circRingConf_ENABLE, 1)]) .engGradeMask
        ∧ (withFlds upX [(.circRingConf, F.circRingConf_ENABLE, 1)]).fld .circRingConf F.circRingConf_ENABLE = 1)
    ∧ (WriteOpen (upX.setCore 1 31 busyCore) .engGradeMask ∧ queuesEmpty (upX.setCore 1 31 busyCore) = false)
    ∧ (WriteReady upX (.scvCoreCtrl 0 31) ∧ unlockedFor upX (.scvCoreCtrl 0 31) = true ∧ (upX.core 0 31).issueQ = [] ∧ 1 ≤ 8 ∧ 8 ≤ 8)
    ∧ (0 ≠ upX.fld (.scvCoreCtrl 0 31) F.scvCoreCtrl_QLIMIT ∧ 9 ≠ upX.fld (.scvCoreCtrl 0 31) F.scvCoreCtrl_QLIMIT ∧ 8 < 9)
    ∧ (WriteReady (upX.setCore 0 31 busyCore) (.scvCoreCtrl 0 31) ∧ 7 ≠ (upX.setCore 0 31 busyCore).fld (.scvCoreCtrl 0 31) F.scvCoreCtrl_QLIMIT
        ∧ ((upX.setCore 0 31 busyCore).core 0 31).issueQ ≠ []) := by
  unfold WriteOpen WriteReady
  refine ⟨?_, ?_, ?_, ?_, ?_, ?_, ?_, ?_, ?_, ?_, ?_, ?_, ?_, ?_, ?_, ?_⟩ <;> decide +kernel

/-! ### Circulation (chapter 01) -/

/-- A stored block of 32 zero bytes of a layer, for a die. -/
def blkBytes (layer die : Nat) (grad : Bool) : List Byte :=
  assemble { id := 500, layer := layer, die := die, ndie := 1 - die, grad := grad, sealed_ := grad, colgrp := 0, codec := 0,
             kind := if grad then 4 else 15, table := 0, ttag := 0, plainLen := 32, compLen := 32, stepTag := 0, bscale := 0,
             zeros := true, checked := true } (List.replicate 32 0)

/-- That block as rebuilt from frames, with a SSEQ. -/
def mkB (q layer die : Nat) : Blk := { sseq := q, bytes := blkBytes layer die false, badSize := false, credits := [(1, 0)] }

/-- The state with a stream's state changed. -/
def strm (s : State) (x : StreamId) (f : StreamSt → StreamSt) : State := s.setStream x (f (s.stream x))

/-- Circulation is on. -/
def on (s : State) : State := withFlds s [(.circRingConf, F.circRingConf_ENABLE, 1), (.circWindow, F.circWindow_RESERVE_KIB, 4096)]

/-- A cohort in a state, at a layer, with rows. -/
def coh (c : Fin 8) (st layer rows max : Nat) (s : State) : State :=
  withFlds s [(.circCohort c, F.circCohort_STATE, st), (.circCohort c, F.circCohort_LAYER, layer), (.circCohort c, F.circCohort_ROWS, rows),
    (.circCohort c, F.circCohort_ROWS_MAX, max)]

/-- Where the first block of die 0's window stands. -/
def wa : Nat := windowAddr 0 4096

/-- A window entry of a block of layer 3 on the East stream. -/
def ent (st : BlockState) (f : WinEntry → WinEntry) : WinEntry := f
  { skip := false, id := 500, addr := wa, size := 96, gap := 0, use := 0, state := st, west := false, sseq := 5, layer := 3, grad := false,
    sealed_ := false, plain := 0, failed := false, copy := false, left := 0, header := [], landing := blkBytes 3 0 false, credits := [], sent := 0, run := 1 }

/-- Die 0 with a window. -/
def wnd (s : State) (l : List WinEntry) : State := s.setDie 0 { s.die 0 with window := l, head := 9000 }

/-- A block has arrived at the East stream. -/
def arrived (s : State) : State := strm s 0 fun t =>
  { t with arrivals := [mkB 5 3 0], last := some 9, layer := some 2, firstLayer := some 3, lastLayer := some 6 }

/-- As `ring`, the East stream's last block being the fourth. -/
def ring4 : State := strm ring 0 fun t => { t with last := some 4 }

/-- A module of another arc, with and without a partition entry for arc 2 Eastward. -/
def other : State := withFlds ring [(.circArc, F.circArc_VALID, 0), (.circArc, F.circArc_INDEX, 9)]

/-- In update mode a block of the running layer has arrived at the West stream, in the first circuit of the backward wave or later. -/
def westward (first : Bool) : State :=
  let s := strm (withFlds (on ring) [(.circRingConf, F.circRingConf_MODE, 1)]) 1 fun t =>
    { t with arrivals := [mkB 5 2 0], last := some 4, layer := some 2 }
  { s with circ := { s.circ with issuing := first, wave := 3 } }

/-- A block whose NDIE names its own die: it takes place on both. -/
def both : Blk :=
  { sseq := 5, badSize := false, credits := [(1, 0)]
    bytes := assemble { id := 500, layer := 3, die := 0, ndie := 0, grad := false, sealed_ := false, colgrp := 0, codec := 0, kind := 15,
                        table := 0, ttag := 0, plainLen := 32, compLen := 32, stepTag := 0, bscale := 0, zeros := true, checked := true }
               (List.replicate 32 0) }

/-- A block that arrived failing its check is landing. -/
def failedEnt : WinEntry := ent .landing fun w => { w with failed := true }

/-- That block is owned here, and its backing copy is good. -/
def ownedHere : State :=
  let s := withFlds (wnd (on ring) [failedEnt]) ((List.finRange 16).map fun c => (chStatus c.val, F.lpdChStatus_STATE, 2))
  let s := withRegs s [(.circOwn 0, BitVec.ofNat 64 (2 ^ 63 + 5 * 2 ^ 24 + 4)), (.lpdBack, BitVec.ofNat 64 (2 ^ 19 * 2 ^ 36 + 16 * 2 ^ 17))]
  s.pokeClean (backSlot s 0 0) (blkBytes 3 0 false)

theorem witness_BlocksMove :
    (∀ s ∈ [ring4, other, other.setReg .circPartE 0], Arrives s (rxh 1 0 2 0) 0 ∧ (rxh 1 0 2 0).port.val < 4
        ∧ partMatch s (rxh 1 0 2 0) (some 0) = some 0 ∧ 0 = streamOfRole (rxh 1 0 2 0).role)
    ∧ (landsHere ring4 2 0 5 = true ∧ (ring4.stream 0).last = some 4 ∧ seqGap (streamLen ring4 0) 5 4 = 1 ∧ (ring4.stream 0).building = []
        ∧ refilling ring4 0 = false ∧ 64 ≤ 64)
    ∧ (landsHere ring4 2 0 99 = true ∧ frameInWindow ring4 0 99 = false)
    ∧ (isMember other 2 = false ∧ other.fld .circArc F.circArc_INDEX ≠ 2
        ∧ entryFor (tableOf other (outPort other (movesEast 1))) 2 0 ≠ none
        ∧ isMember (other.setReg .circPartE 0) 2 = false ∧ (other.setReg .circPartE 0).fld .circArc F.circArc_INDEX ≠ 2
        ∧ entryFor (tableOf (other.setReg .circPartE 0) (outPort (other.setReg .circPartE 0) (movesEast 1))) 2 0 = none)
    ∧ ring.fld .circRingConf F.circRingConf_ENABLE = 0
    ∧ (let s := wnd (arrived (on ring)) [ent .resident fun w => { w with size := 197132288 }];
        s.fld .circRingConf F.circRingConf_ENABLE = 1 ∧ passesAll s = false ∧ (s.stream 0).arrivals = mkB 5 3 0 :: []
          ∧ windowCap s ≤ windowHeld (s.die (dieOf (mkB 5 3 0))))
    ∧ (let s := arrived (coh 7 2 3 5 64 (on ring));
        s.fld .circRingConf F.circRingConf_ENABLE = 1 ∧ passesAll s = false ∧ (s.stream 0).arrivals = mkB 5 3 0 :: []
          ∧ windowHeld (s.die (dieOf (mkB 5 3 0))) < windowCap s ∧ (headOf (mkB 5 3 0)).ndie ≠ (headOf (mkB 5 3 0)).die
          ∧ updateMode s = false ∧ refilling s 0 = false
          ∧ (allocate (dieOf (mkB 5 3 0)) (s.die (dieOf (mkB 5 3 0))) ((headOf (mkB 5 3 0)).rawEngine && !(headOf (mkB 5 3 0)).grad)
              (needOf (mkB 5 3 0))).isSome = true
          ∧ (headOf (mkB 5 3 0)).grad = false ∧ Begun s 0 (mkB 5 3 0) = true
          ∧ (mkB 5 3 0).sseq + 1 ≠ streamLen s 0 ∧ s.fld .fcuStatus F.fcuStatus_SCHED_BROKEN = 0
          ∧ (∀ c, outOfOrder (seen s 0 (mkB 5 3 0)) 0 (headOf (mkB 5 3 0)).layer c = false)
          ∧ placed (seen s 0 (mkB 5 3 0)) 0 (headOf (mkB 5 3 0)).layer true 7 = true
          ∧ placed (seen s 0 (mkB 5 3 0)) 0 (headOf (mkB 5 3 0)).layer true 0 = false)
    ∧ (∀ l ∈ ([none, some 3] : List (Option Nat)), Begun (strm (arrived (on ring)) 0 fun t => { t with layer := l }) 0 (mkB 5 3 0) = false)
    ∧ (Begun (arrived (on ring)) 0 (mkB 0 2 0) = true ∧ (mkB 0 2 0).sseq = 0)
    ∧ (∀ b ∈ [false, true], let s := westward b;
        s.fld .circRingConf F.circRingConf_ENABLE = 1 ∧ passesAll s = false ∧ (s.stream 1).arrivals = mkB 5 2 0 :: []
          ∧ (headOf (mkB 5 2 0)).ndie ≠ (headOf (mkB 5 2 0)).die ∧ updateMode s = true ∧ refilling s 1 = false
          ∧ windowHeld (s.die (dieOf (mkB 5 2 0))) < windowCap s
          ∧ (allocate (dieOf (mkB 5 2 0)) (s.die (dieOf (mkB 5 2 0))) ((headOf (mkB 5 2 0)).rawEngine && !(headOf (mkB 5 2 0)).grad)
              (needOf (mkB 5 2 0))).isSome = true
          ∧ (headOf (mkB 5 2 0)).grad = false ∧ Begun s 1 (mkB 5 2 0) = false ∧ (mkB 5 2 0).sseq + 1 ≠ streamLen s 1 ∧ s.circ.issuing = b)
    ∧ (let s := strm (arrived (on ring)) 0 fun t => { t with arrivals := [both] };
        s.fld .circRingConf F.circRingConf_ENABLE = 1 ∧ passesAll s = false ∧ (s.stream 0).arrivals = both :: []
          ∧ (headOf both).ndie = (headOf both).die ∧ updateMode s = false ∧ refilling s 0 = false
          ∧ windowHeld (s.die (dieOf both)) < windowCap s ∧ windowHeld (s.die (1 - dieOf both)) < windowCap s
          ∧ (allocate (dieOf both) (s.die (dieOf both)) ((headOf both).rawEngine && !(headOf both).grad) (needOf both)).isSome = true
          ∧ (allocate (1 - dieOf both) (s.die (1 - dieOf both)) ((headOf both).rawEngine && !(headOf both).grad) (needOf both)).isSome = true)
    ∧ (let s := (arrived (on ring)).setDie 1 { DieSt.reset with window := [ent .resident fun w => { w with size := 197132288 }], head := 9000 };
        windowCap s ≤ windowHeld (s.die (1 - dieOf both)) ∧ windowHeld (s.die (dieOf both)) < windowCap s)
    ∧ (∀ st ∈ ([.landing, .resident, .forwarding] : List BlockState), let w := ent st id;
        let s := wnd (on ring) [w];
        (s.die 0).window[0]? = some w ∧ w.west = ((0 : StreamId) == 1) ∧ w.skip = false ∧ w.state = st ∧ w.grad = false ∧ w.copy = false
          ∧ ownerOf s 0 w.sseq = none ∧ s.circ.due = [] ∧ s.fld .circSplice F.circSplice_STATE ≠ 3 ∧ s.fld .circSplice F.circSplice_STATE ≠ 4
          ∧ placeOf w.addr ≠ .lpd ∧ Mem.wf s.mem = true ∧ counterValue s 0 (8190 + (0 : StreamId).val) + 1 < 2 ^ 48)
    ∧ ((ownedHere.die 0).window[0]? = some failedEnt ∧ failedEnt.west = ((0 : StreamId) == 1) ∧ failedEnt.state = .landing
        ∧ failedEnt.failed = true ∧ failedEnt.grad = false ∧ failedEnt.copy = false ∧ ownedHere.circ.due = []
        ∧ ownerOf ownedHere 0 5 = some (0, 0) ∧ uncaptured ownedHere 0 5 = false ∧ ownedHere.fld .circSplice F.circSplice_STATE ≠ 4
        ∧ copyGood (ownedHere.poke wa (failedEnt.landing.map (fun b => (b, true)))) (backSlot ownedHere 0 0) = true)
    ∧ (∀ n ∈ [0, 1], let w := ent .forwarding fun w => { w with sent := n };
        let s := strm (wnd (on ring) [w]) 0 fun t => { t with order := [(0, wa)] };
        frontBlock s 0 = some (0, 0, w) ∧ (w.sent = 0 ↔ n = 0) ∧ w.landing.length ≤ 256 * 1)
    ∧ frontBlock ring 0 = none := by
  unfold Arrives
  refine ⟨?_, ?_, ?_, ?_, ?_, ?_, ?_, ?_, ?_, ?_, ?_, ?_, ?_, ?_, ?_, ?_⟩ <;> decide +kernel

/-- The East stream with layers in flight. -/
def runs (s : State) (l : List LayerRun) : State := strm s 0 fun t => { t with runs := l, lastLayer := some 6 }

/-- The same in update mode, in the forward wave of a step. -/
def updating (l : List LayerRun) : State :=
  let s := runs (coh 7 2 6 5 64 (withFlds (on ring) [(.circRingConf, F.circRingConf_MODE, 1)])) l
  { s with circ := { s.circ with wave := 1 } }

theorem witness_CohortsLayersAndEnable :
    (ring.stream 0).runs = []
    ∧ (let s := runs (on ring) [⟨1, 6, [7], false⟩]; (s.stream 0).runs = ⟨1, 6, [7], false⟩ :: [] ∧ runDone s 0 ⟨1, 6, [7], false⟩ = false)
    ∧ (∀ l ∈ [3, 6], let s := runs (coh 7 2 l 5 64 (on ring)) [⟨1, l, [7], true⟩];
        (s.stream 0).runs = ⟨1, l, [7], true⟩ :: [] ∧ runDone s 0 ⟨1, l, [7], true⟩ = true ∧ updateMode s = false
          ∧ (lastLayerOf s 0 = some l ↔ l = 6) ∧ (7 : Fin 8) ∈ [(7 : Fin 8)] ∧ cohortState s 7 = 2 ∧ cohortState s 0 ≠ 2)
    ∧ (∀ l ∈ [3, 6], let s := updating [⟨1, l, [7], true⟩];
        (s.stream 0).runs = ⟨1, l, [7], true⟩ :: [] ∧ runDone s 0 ⟨1, l, [7], true⟩ = true ∧ updateMode s = true ∧ s.circ.wave = 1
          ∧ (lastLayerOf s 0 = some l ↔ l = 6) ∧ (7 : Fin 8) ∈ [(7 : Fin 8)] ∧ cohortState s 7 = 2)
    ∧ (∀ l ∈ [0, 3], let s := strm (coh 7 4 l 5 64 (updating [])) 1 fun t => { t with runs := [⟨1, l, [7], true⟩] };
        (s.stream 1).runs = ⟨1, l, [7], true⟩ :: [] ∧ runDone s 1 ⟨1, l, [7], true⟩ = true ∧ updateMode s = true ∧ cohortState s 7 = 4)
    ∧ (WriteReady upX (.circCohort 7) ∧ 256 < 512 ∧ 256 % 32 = 0 ∧ cohortState upX 7 = 0 ∧ rowsMaxBut upX 7 + 256 ≤ 1024
        ∧ 0 = upX.fld (.circCohort 7) F.circCohort_ROWS_MAX)
    ∧ (288 ≠ upX.fld (.circCohort 7) F.circCohort_ROWS_MAX ∧ 33 % 32 ≠ 0 ∧ 256 < 288)
    ∧ (let s := coh 0 0 0 0 256 (coh 1 0 0 0 256 (coh 2 0 0 0 256 (coh 3 0 0 0 256 upX)));
        WriteReady s (.circCohort 7) ∧ 32 ≠ s.fld (.circCohort 7) F.circCohort_ROWS_MAX ∧ 1024 < rowsMaxBut s 7 + 32)
    ∧ (∀ st ∈ [2, 6], WriteReady (coh 7 st 3 5 64 upX) (.circCohort 7) ∧ cohortState (coh 7 st 3 5 64 upX) 7 = st
        ∧ 32 ≠ (coh 7 st 3 5 64 upX).fld (.circCohort 7) F.circCohort_ROWS_MAX)
    ∧ (WriteReady upX .circRingConf ∧ upX.fld .circRingConf F.circRingConf_ENABLE = 0 ∧ enableOk upX (upX.reg .circRingConf) = false)
    ∧ (WriteReady ring .circRingConf ∧ ring.fld .circRingConf F.circRingConf_ENABLE = 0 ∧ enableOk ring (ring.reg .circRingConf) = true
        ∧ ring.fld .circSplice F.circSplice_STATE ≠ 2)
    ∧ ((on ring).fld .circArc F.circArc_VALID = 1 ∧ passesAll (on ring) = false)
    ∧ (WriteReady (on ring) .circRingConf ∧ (on ring).fld .circRingConf F.circRingConf_ENABLE = 1) := by
  unfold WriteReady
  refine ⟨?_, ?_, ?_, ?_, ?_, ?_, ?_, ?_, ?_, ?_, ?_, ?_, ?_⟩ <;> decide +kernel

/-! ### Period, update mode, sampling, admission (chapters 01, 11) -/

/-- Record 0 of the ownership table names a block of the West stream, and the backing region stands. -/
def own (s : State) : State :=
  withRegs s [(.circOwn 0, BitVec.ofNat 64 (2 ^ 63 + 5 * 2 ^ 24 + 4)), (.circOwn 1, BitVec.ofNat 64 (2 ^ 63 + 2 ^ 62 + 5 * 2 ^ 24 + 4)),
    (.lpdBack, BitVec.ofNat 64 (2 ^ 19 * 2 ^ 36 + 16 * 2 ^ 17))]

/-- Every channel of LPDDR is UP. -/
def lpdUp (s : State) : State := withFlds s ((List.finRange 16).map fun c => (chStatus c.val, F.lpdChStatus_STATE, 2))

/-- Every stack of HBM is UP. -/
def stacksUp (s : State) : State :=
  withFlds s ([(0 : Die), 1].flatMap fun d => (List.finRange 4).map fun i => (Reg.hbmStackStatus d i, F.hbmStackStatus_STATE, 2))

/-- A gradient entry of an owned block at place 0 of die 0. -/
def gradEnt (f : WinEntry → WinEntry) : WinEntry :=
  ent .forwarding fun w => f { w with west := true, sseq := 6, grad := true, sealed_ := true, plain := 64 }

/-- The last owned SSEQ of record 1 stands for the gradient entry. -/
def gr (dmg : Nat) (f : WinEntry → WinEntry) : State :=
  let s := withFlds (wnd (own (lpdUp (on ring))) [gradEnt f]) [(.circUpdate, F.circUpdate_DAMAGED, dmg)]
  { s with circ := { s.circ with grads := [(6, 2)] } }

theorem witness_PeriodAndUpdate :
    (upX.stream 0).circuit = none
    ∧ (∀ p ∈ ([(1001, false), (1002, true), (2 ^ 32 + 5, false)] : List (Nat × Bool)),
        let s := strm (withFlds upX [(.circPeriodTarget, F.circPeriodTarget_NS, 1000)]) 0 fun t => { t with circuit := some p.1 };
        (s.stream 0).circuit = some p.1 ∧ s.fld .circPeriodTarget F.circPeriodTarget_NS ≠ 0
          ∧ decide (s.fld .circPeriodTarget F.circPeriodTarget_NS * 1000 < p.1 % 2 ^ 32 * 999) = p.2)
    ∧ ((gr 0 fun w => { w with sealed_ := false }).die 0).window[0]? = some (gradEnt fun w => { w with sealed_ := false })
    ∧ (∀ f ∈ ([id, fun w => { w with failed := true }] : List (WinEntry → WinEntry)), ∀ m ∈ [0, 1],
        ((gr m f).die 0).window[0]? = some (gradEnt f) ∧ (gradEnt f).skip = false ∧ (gradEnt f).grad = true ∧ (gradEnt f).sealed_ = true
          ∧ (gradEnt f).state ≠ .landing ∧ (ownerOf (gr m f) 1 (gradEnt f).sseq).isSome = true
          ∧ (gr m f).poisonedIn (gradEnt f).addr (gradEnt f).plain = false ∧ (gr m f).fld .circUpdate F.circUpdate_DAMAGED = m
          ∧ (match ownerOf (gr m f) 1 (gradEnt f).sseq with
              | some (r, k) => slotFits (gr m f) (backSlot (gr m f) r k) && tierServes (gr m f) (backSlot (gr m f) r k) 16448
              | none => false) = true
          ∧ (gr m f).circ.grads.at_ 0 (gradEnt f).sseq = 2 ∧ Mem.wf (gr m f).mem = true)
    ∧ (∀ g ∈ ([[], [(6, 1)]] : List (List (Nat × Nat))), let s : State := { gr 0 id with circ := { (gr 0 id).circ with grads := g } };
        (s.die 0).window[0]? = some (gradEnt id) ∧ (ownerOf s 1 (gradEnt id).sseq).isSome = true ∧ (gradEnt id).failed = false
          ∧ s.poisonedIn (gradEnt id).addr (gradEnt id).plain = false ∧ s.circ.grads.at_ 0 (gradEnt id).sseq ≠ 2)
    ∧ (let s := withFlds (gr 0 fun w => { w with failed := true }) [(.circRingConf, F.circRingConf_MODE, 1)];
        let t : State := { s with circ := { s.circ with wave := 2 } };
        (t.die 0).window[0]? = some (gradEnt fun w => { w with failed := true }) ∧ (ownerOf t 1 6).isSome = true ∧ updateMode t = true
          ∧ t.fld .circRingConf F.circRingConf_ENABLE = 1 ∧ t.circ.wave ≠ 0) := by
  refine ⟨?_, ?_, ?_, ?_, ?_, ?_⟩ <;> decide +kernel

/-- The head of a prompt with a greedy choice: its next index, its bound and its stop tokens. -/
def promptHead (next maxNew : Nat) (stop : List Nat) : List Byte :=
  (leBytes 4 7 ++ leBytes 2 0 ++ [0, BitVec.ofNat 8 stop.length] ++ leBytes 4 40 ++ leBytes 4 next ++ leBytes 4 maxNew ++ leBytes 8 77
    ++ leBytes 4 0 ++ leBytes 4 0x3F800000 ++ leBytes 2 0 ++ leBytes 2 0 ++ leBytes 4 0x3F800000 ++ List.replicate 12 0
    ++ stop.flatMap (leBytes 4)) ++ List.replicate 300 0

/-- Sequence 7, drawing in cohort 2. -/
def seq7 (f : Seq → Seq) : Seq := f
  { id := 7, st := .decode, head := promptHead 0 20 [3], toks := [4, 5, 6, 1], base := 3, cohort := some 2, rows := 1, done := 3, stack := 1,
    pages := [0], park := [], committed := 0, gstate := 0, parkReq := false, unparking := false, cancelReq := false, ended := false }

/-- The service with its sequences. -/
def svc (s : State) (l : List Seq) : State := { s with mld := { s.mld with seqs := l, jobSet := true, vocab := 5 } }

/-- Every cohort but 2 is in PRE, cohort 2 is FREE. -/
def oneFree (s : State) : State := (List.finRange 8).foldl (fun s c => coh c (if c = 2 then 0 else 1) 0 0 64 s) s

/-- Logits of five tokens. -/
def logits5 : List Nat := [0x3F800000, 0xBF800000, 0x40000000, 0x40400000, 0x3F000000]

/-- Sequence 7 waits to be admitted. -/
def waiting : Seq := seq7 fun q => { q with st := .queued, cohort := none, toks := [4, 5, 6], rows := 0, done := 0, pages := [] }

theorem witness_SamplingAndAdmission :
    (let s := sess (svc (coh 2 5 0 1 64 upX) [seq7 id]);
      cohortState s 2 = 5 ∧ s.mld.seqs.filter (fun q => q.cohort = some 2 ∧ q.draws = true) = [seq7 id] ∧ seqOf s (seq7 id).id = some (seq7 id)
        ∧ (logOf s (seq7 id).id).length < s.fld .mldSvcCtrl F.mldSvcCtrl_COMMIT_LAG ∧ s.mld.log.length < 16384 ∧ (seq7 id).grammar = false
        ∧ selectToken (paramsOf (seq7 id).head) (seq7 id).toks (seq7 id).count (Config.freeNat s.fresh) (fun _ => true) logits5 = some 3
        ∧ linkState s = 3)
    ∧ (cohortState upX 2 ≠ 5)
    ∧ (let s := svc (coh 2 5 0 1 64 upX) [seq7 id];
        seq7 id ∈ s.mld.seqs ∧ (seq7 id).cohort = some 2 ∧ (seq7 id).draws = true ∧ (∀ r ∈ ([(8, false, logits5)] : List (Nat × Bool × List Nat)), r.1 ≠ (seq7 id).id))
    ∧ (let s := withFlds (svc (coh 2 5 0 1 64 upX) [seq7 id]) [(.mldSvcCtrl, F.mldSvcCtrl_COMMIT_LAG, 0)];
        cohortState s 2 = 5 ∧ s.mld.seqs.filter (fun q => q.cohort = some 2 ∧ q.draws = true) = [seq7 id] ∧ seqOf s (seq7 id).id = some (seq7 id)
          ∧ s.fld .mldSvcCtrl F.mldSvcCtrl_COMMIT_LAG ≤ (logOf s (seq7 id).id).length)
    ∧ State.reset.readyBit 11 = false
    ∧ (let s := coh 2 1 0 0 64 (oneFree upX); s.readyBit 11 = true ∧ ∀ e, cohortState s e ≠ 0)
    ∧ (let s := stacksUp (svc (withFlds (oneFree upX) [(.mldSvcCtrl, F.mldSvcCtrl_ADMIT, 1), (.mldSvcCtrl, F.mldSvcCtrl_KV_RESERVE_MIB, 36844)]) [waiting]);
        s.readyBit 11 = true ∧ (∀ e, cohortState s e = 0 ∧ 32 ≤ s.fld (.circCohort e) F.circCohort_ROWS_MAX ↔ e = 2)
          ∧ s.fld .mldSvcCtrl F.mldSvcCtrl_ADMIT = 1 ∧ s.fld .fcuStatus F.fcuStatus_OFF_RING = 0 ∧ s.mld.seqs = [waiting]
          ∧ waiting.st = .queued ∧ waiting.cohort = none ∧ waiting.unparking = false
          ∧ 3 = min waiting.base (s.fld .mldSvcCtrl F.mldSvcCtrl_PREFILL_MAX) ∧ 3 ≤ s.fld (.circCohort 2) F.circCohort_ROWS_MAX
          ∧ balanced s 2 3 = true)
    ∧ (let s := svc (withFlds (oneFree upX) [(.mldSvcCtrl, F.mldSvcCtrl_ADMIT, 1)]) [waiting];
        s.readyBit 11 = true ∧ (∀ e, cohortState s e = 0 ∧ 32 ≤ s.fld (.circCohort e) F.circCohort_ROWS_MAX ↔ e = 2)
          ∧ balanced s 2 3 = true ∧ homeStack s waiting.need = none) := by
  refine ⟨?_, ?_, ?_, ?_, ?_, ?_, ?_, ?_⟩ <;> decide +kernel

/-- A stack in service with room makes a home. -/
theorem homeStack_isSome {s : State} {need : Nat} (n : Nat) (hn : n < 8) (h : stackState s n = 2)
    (k : need ≤ (freePages s n).length) : (homeStack s need).isSome = true := by
  have hr : n ∈ (List.range 8).filter (fun n => decide (stackState s n = 2 ∧ need ≤ (freePages s n).length)) := by simp [hn, h, k]
  unfold homeStack
  dsimp only
  generalize (List.range 8).filter (fun n => decide (stackState s n = 2 ∧ need ≤ (freePages s n).length)) = l at hr ⊢
  generalize hm : (if (l.filter fun n => decide (n / 4 = Config.freeNat s.fresh % 2)).isEmpty = true then l
    else l.filter fun n => decide (n / 4 = Config.freeNat s.fresh % 2)) = m
  have hm' : m ≠ [] := by
    subst hm; split
    · exact List.ne_nil_of_mem hr
    · rename_i h1; exact fun e => h1 (by rw [e]; rfl)
  have hl : 0 < m.length := List.length_pos_iff.mpr hm'
  have : Config.freeNat (s.fresh + 1) % max m.length 1 < m.length := by
    have h1 : max m.length 1 = m.length := by omega
    rw [h1]; exact Nat.mod_lt _ hl
  rw [List.getElem?_eq_getElem this]; rfl

/-- As above, a stack holding ten pages; how many pages the sequence needs is the configuration's (log entry 16). -/
theorem witness_SamplingAndAdmission_room (hk : waiting.need ≤ 10) :
    let s := stacksUp (svc (withFlds (oneFree upX) [(.mldSvcCtrl, F.mldSvcCtrl_ADMIT, 1), (.mldSvcCtrl, F.mldSvcCtrl_KV_RESERVE_MIB, 36844)]) [waiting])
    (homeStack s waiting.need).isSome = true := by
  refine homeStack_isSome 0 (by decide) (by decide +kernel) (le_trans hk ?_)
  decide +kernel

/-! ### Ports and the link layer (chapter 09) -/

/-- A port changed. -/
def pt (s : State) (p : Port) (f : PortSt → PortSt) : State := s.setPort p (f (s.port p))

/-- A port in a state, enabled. -/
def pst (p : Port) (st : Nat) (s : State) : State := withFlds s [(.circPortStatus p, F.circPortStatus_STATE, st), (.circPortCtrl p, F.circPortCtrl_ENABLE, 1)]

/-- Every lane of a port in a state. -/
def lns (p : Port) (st : Nat) (s : State) : State := withFlds s ((List.range (lanesOf p)).map fun l => (laneA p l, F.circLaneA_STATE, st))

/-- No bypass of its own. -/
def noAuto (s : State) : State := withFlds s [(.circBypass, F.circBypass_AUTO, 0)]

/-- Admitted with epoch 7, no bypass of its own. -/
def adm (s : State) : State := withFlds s [(.circAdmit, F.circAdmit_STATE, 1), (.circAdmit, F.circAdmit_EPOCH, 7), (.circBypass, F.circBypass_AUTO, 0)]

/-- Lane substitution is or is not automatic. -/
def subAuto (n : Nat) : State := withFlds (noAuto ring) [(.circLinkCtrl, F.circLinkCtrl_SUB_AUTO, n)]

/-- A port that trains since a time, its lanes locked. -/
def trains (p : Port) (since : Nat) : State :=
  pt (withFlds (lns p 1 (pst p 1 upX)) ((List.range (lanesOf p)).map fun l => (laneA p l, F.circLaneA_LOGICAL, l))) p
    fun x => { x with trainSince := since }

theorem witness_PortsAndLanes :
    (∀ p : Port, portState (pst p 0 upX) p = 0 ∧ (pst p 0 upX).fld (.circPortCtrl p) F.circPortCtrl_ENABLE = 1 ∧ (pst p 0 upX).pow.phases.contains 6 = true)
    ∧ portState ring 0 ≠ 0
    ∧ (∀ p ∈ ([0, 5] : List Port), portState (trains p 49900000000) p = 1
        ∧ (trains p 49900000000).now = ((trains p 49900000000).port p).trainSince + 100000000
        ∧ lanesReady (trains p 49900000000) p = true)
    ∧ lanesReady (withFlds (trains 0 49900000000) [(laneA 0 0, F.circLaneA_STATE, 0)]) 0 = false
    ∧ (portState (trains 0 49900000001) 0 = 1 ∧ (trains 0 49900000001).now < ((trains 0 49900000001).port 0).trainSince + 100000000)
    ∧ (portState ring 0 ≠ 1 ∧ WriteReady ring (.circPortCtrl 0) ∧ portState ring 0 ≠ 0)
    ∧ (∀ b ∈ [true, false], let s := pt (pst 0 2 ring) 0 fun x => { x with idOut := b };
        Arrives s (rxh 0 0 2 0) 0 ∧ (rxh 0 0 2 0).port = 0 ∧ portState s 0 = 2 ∧ (s.port 0).idOut = b)
    ∧ (Arrives (adm ring) (rxh 0 0 2 0) 0 ∧ portState (adm ring) 0 = 3 ∧ (adm ring).fld .circAdmit F.circAdmit_STATE = 1
        ∧ (adm ring).fld .circBypass F.circBypass_AUTO = 0 ∧ bitsOf (0 : Word) 0 0 = 0 ∧ bitsOf (1 : Word) 0 0 = 1
        ∧ bitsOf (1 : Word) 31 0 ≠ (adm ring).fld .circAdmit F.circAdmit_EPOCH)
    ∧ inService upX 0 = false
    ∧ (inService (noAuto ring) 0 = true ∧ lanesIn (noAuto ring) 0 2 = [0, 1, 2] ∧ (noAuto ring).fld .circBypass F.circBypass_AUTO = 0)
    ∧ (∀ l ∈ [0, 3], l < lanesOf 0 ∧ inService (subAuto 1) 0 = true ∧ (lanesIn (subAuto 1) 0 2).all ([l].contains) = false
        ∧ ((subAuto 1).port 0).sub = none ∧ laneState (subAuto 1) 0 l = (if l = 0 then 2 else 3)
        ∧ (subAuto 1).fld .circLinkCtrl F.circLinkCtrl_SUB_AUTO = 1 ∧ (lanesIn (subAuto 1) 0 3).head? = some 3)
    ∧ (let s := withFlds (subAuto 1) [(laneA 0 3, F.circLaneA_STATE, 5)];
        inService s 0 = true ∧ (lanesIn s 0 2).all ([0].contains) = false ∧ (s.port 0).sub = none ∧ laneState s 0 0 = 2
          ∧ s.fld .circLinkCtrl F.circLinkCtrl_SUB_AUTO = 1 ∧ lanesIn s 0 3 = [])
    ∧ (0 < (subAuto 1).fld .circLinkCtrl F.circLinkCtrl_SUB_MARGIN ∧ (subAuto 0).fld .circLinkCtrl F.circLinkCtrl_SUB_AUTO = 0
        ∧ laneState (subAuto 0) 0 0 = 2 ∧ (lanesIn (subAuto 0) 0 3).head? = some 3 ∧ WriteOpen (subAuto 0) (.circLaneB 0 0))
    ∧ (3 < lanesOf 0 ∧ laneState ring 0 3 ≠ 2 ∧ WriteReady ring (.circLaneB 0 3) ∧ lanesOf 4 ≤ 33 ∧ ring.pow.off = false) := by
  unfold Arrives WriteOpen WriteReady
  refine ⟨?_, ?_, ?_, ?_, ?_, ?_, ?_, ?_, ?_, ?_, ?_, ?_, ?_, ?_⟩ <;> decide +kernel

/-- A LINK frame. -/
def lf (c : Nat) : Frame := { arc := 0, role := 0, body := .link c 5 6 7, credit := none }

/-- Port 0 with unacknowledged frames, its last progress long ago. -/
def un (l : List SentFrame) : State := pt ring 0 fun x => { x with unacked := l, progress := [(0, 5)] }

/-- The peer of port 0 is admitted: traffic may pass. -/
def peered (s : State) : State := withFlds s [(.circPortPeer 0, F.circPortPeer_PEER_ADMITTED, 1)]

/-- A block at the front of the East stream, forwarding. -/
def frontFw : State := strm (wnd (peered (on ring)) [ent .forwarding id]) 0 fun t => { t with order := [(0, wa)] }

/-- A frame of another module's block, with the credit it holds. -/
def passed : Frame := ⟨2, 0, .block 3 0 true false [1, 2], some (1, 0)⟩

/-- That frame waits on port 0. -/
def passing : State := pt (peered (on ring)) 0 fun x => { x with out := [passed] }

/-- The control link in a state. -/
def ctl (st : Nat) (f : CtrlSt → CtrlSt) (s : State) : State :=
  let s := withFlds s [(.mldLinkStatus, F.mldLinkStatus_STATE, st), (.mldLinkCtrl, F.mldLinkCtrl_ENABLE, 1)]
  { s with mld := { s.mld with ctrl := f s.mld.ctrl } }

/-- A good frame of the control link. -/
def cth (lane : Fin 4) (typ tag lseq : Nat) : CtrlHead := ⟨lane, typ, tag, 0, true, true, lseq, 1023, 4, 0, true⟩

/-- A message of n bytes waits for the control link, which has c credits. -/
def speaking (c n : Nat) : State :=
  let s := ctl 3 (fun x => { x with credits := c, rot := 3, lseq := [(3, 1023)] }) upX
  { s with mld := { s.mld with sent := [⟨5, 3, 1, 9, List.replicate n 7⟩] } }

theorem witness_TheLinkLayer :
    (∀ h ∈ ([{ rxh 0 0 2 0 with fcrc := false }, { rxh 0 0 2 0 with lseq := 1 }, { rxh 0 0 2 0 with lseq := 1023 }] : List RxHead),
        inService ring h.port = true ∧ (ring.port h.port).sub = none ∧ laneState ring h.port h.phys = 2
          ∧ ring.fld (laneA h.port h.phys) F.circLaneA_LOGICAL = 0
          ∧ (h.good = false ∨ h.lseq % 1024 ≠ (ring.port h.port).rx.at_ 0 0 % 1024))
    ∧ inService upX 0 = false
    ∧ Arrives ring (rxh 0 0 2 0) 0
    ∧ (let h := { rxh 0 0 2 0 with reserved := true };
        inService ring h.port = true ∧ (ring.port h.port).sub = none ∧ laneState ring h.port h.phys = 2
          ∧ ring.fld (laneA h.port h.phys) F.circLaneA_LOGICAL = 0 ∧ h.good = true
          ∧ h.lseq % 1024 = (ring.port h.port).rx.at_ 0 0 % 1024 ∧ h.reserved = true)
    ∧ (inService ring 0 = true ∧ laneState ring 0 0 = 2 ∧ laneState ring 0 3 = 3 ∧ (ring.port 0).adaptAt.find 3 = none)
    ∧ (let s := pt ring 0 fun x => { x with adaptAt := [(0, 49999900001)] };
        (s.port 0).adaptAt.find 0 = some 49999900001 ∧ s.now < 49999900001 + 100000)
    ∧ (∀ f ∈ (ring.port 0).unacked, f.lane ≠ 0)
    ∧ (let s := un [⟨8, 4, lf 4⟩, ⟨0, 1023, lf 4⟩, ⟨0, 0, lf 4⟩];
        (s.port 0).unacked.find? (fun u => u.lane == 0) = some ⟨0, 1023, lf 4⟩ ∧ inService s 0 = true
          ∧ (s.port 0).progress.at_ 0 0 + s.fld .circLinkCtrl F.circLinkCtrl_RETRY_NS ≤ s.now)
    ∧ (let s := pt ring 0 fun x => { x with silent := true }; inService s 0 = true ∧ (s.port 0).silent = true)
    ∧ (let s := pt ring 0 fun x => { x with resend := [(0, 3)], unacked := [⟨0, 3, lf 4⟩] };
        inService s 0 = true ∧ (s.port 0).silent = false ∧ (s.port 0).resend = (0, 3) :: [])
    ∧ (let s := pt ring 0 fun x => { x with out := [lf 4, lf 5] };
        inService s 0 = true ∧ (s.port 0).silent = false ∧ (s.port 0).resend = [] ∧ (s.port 0).out = lf 4 :: [lf 5]
          ∧ (lf 4).body = .link 4 5 6 7 ∧ (lf 4).credit = none ∧ portState s 0 = 3
          ∧ (s.port 0).unacked.countP (fun u => u.lane == 0) < 512)
    ∧ (let s := pt ring 0 fun x => { x with credits := [] };
        inService s 0 = true ∧ (s.port 0).silent = false ∧ (s.port 0).resend = [] ∧ (s.port 0).out = [] ∧ (s.port 0).credits.at_ 0 0 = 0)
    ∧ (∀ p ∈ ([(peered ring, .nothing), (passing, .queued 0), (frontFw, .block 0)] : List (State × Leaving)), let s := p.1;
        inService s 0 = true ∧ (s.port 0).silent = false ∧ (s.port 0).resend = [] ∧ (∀ f ∈ (s.port 0).out, f.group ≠ 0)
          ∧ s.circ.doneNotes = [] ∧ (partEntry (tableOf s 0) 0).valid = true ∧ trafficOk s 0 = true ∧ 0 < (s.port 0).credits.at_ 0 0
          ∧ partStart (tableOf s 0) 0 + (s.port 0).rot.at_ 0 0 % max (partEntry (tableOf s 0) 0).count 1 = 0
          ∧ (s.port 0).unacked.countP (fun u => u.lane == 0) < 512 ∧ nextLeaving s 0 0 (partEntry (tableOf s 0) 0) = p.2)
    ∧ ((passing.port 0).out[0]? = some passed ∧ passed.credit = some (1, 0) ∧ (1 : Port) ≠ 0)
    ∧ (frontBlock frontFw 0 = some (0, 0, ent .forwarding id) ∧ (ent .forwarding id).sent = 0)
    ∧ (ctrlUp (ctl 0 id upX) = false ∧ ctrlUp State.reset = false)
    ∧ (∀ h ∈ ([{ cth 0 0 0 0 with fcrc := false }, { cth 3 6 (3 * 2 ^ 20) 0 with uncorr := 1 }, cth 3 6 (3 * 2 ^ 20) 1,
          cth 3 6 (3 * 2 ^ 20) 1023] : List CtrlHead), ∀ st ∈ ([2, 3] : List Nat), ctrlUp (ctl st id upX) = true
        ∧ (h.good = false ∨ (h.typ ≠ 0 ∧ h.lseq % 1024 ≠ (ctl st id upX).mld.ctrl.rx.at_ 0 h.lane.val % 1024)))
    ∧ (∀ h ∈ ([cth 3 0 0 99, cth 3 2 0 0, cth 3 7 0 0, cth 3 6 (3 * 2 ^ 20) 0] : List CtrlHead), CtrlArrives (ctl 3 id upX) h)
    ∧ ((cth 3 2 0 0).typ ≠ 0 ∧ (cth 3 2 0 0).typ ≠ 1 ∧ (cth 3 2 0 0).typ ≠ 6 ∧ (cth 3 6 (3 * 2 ^ 20) 0).tag / 2 ^ 20 % 16 = 3)
    ∧ (∀ g ∈ (ctl 3 id upX).mld.ctrl.unacked, g.lane ≠ 3)
    ∧ (∀ n ∈ ([0, 1] : List Nat), let s := ctl 3 (fun x => { x with progress := [(3, upX.now - upX.fld .mldLinkCtrl F.mldLinkCtrl_RETRY_NS + n)]
                                                                    unacked := [⟨0, 9, .inl (0, 0)⟩, ⟨3, 1023, .inl (0, 1)⟩, ⟨3, 0, .inr 3⟩] }) upX;
        s.mld.ctrl.unacked.find? (fun u => u.lane == 3) = some ⟨3, 1023, .inl (0, 1)⟩ ∧ ctrlUp s = true
          ∧ (s.mld.ctrl.progress.at_ 0 3 + s.fld .mldLinkCtrl F.mldLinkCtrl_RETRY_NS ≤ s.now ↔ n = 0))
    ∧ (let s := ctl 2 (fun x => { x with resend := [(3, 0)], unacked := [⟨3, 0, .inr 3⟩] }) upX;
        ctrlUp s = true ∧ s.mld.ctrl.resend = (3, 0) :: [])
    ∧ (let s := ctl 2 (fun x => { x with naks := [3, 1] }) upX;
        ctrlUp s = true ∧ s.mld.ctrl.resend = [] ∧ s.mld.ctrl.naks = 3 :: [1])
    ∧ (∀ n ∈ ([216, 217] : List Nat), let s := speaking 1 n;
        ctrlUp s = true ∧ s.mld.ctrl.resend = [] ∧ s.mld.ctrl.naks = [] ∧ s.mld.sent[s.mld.ctrl.next]? = some ⟨5, 3, 1, 9, List.replicate n 7⟩
          ∧ 0 < s.mld.ctrl.credits ∧ s.mld.ctrl.unacked.countP (fun u => u.lane == s.mld.ctrl.rot) < 512
          ∧ (framesOf n ≤ s.mld.ctrl.part + 1 ↔ n = 216))
    ∧ ((ctl 3 id upX).mld.sent[(ctl 3 id upX).mld.ctrl.next]? = none ∧ (speaking 0 4).mld.ctrl.credits = 0) := by
  unfold Arrives CtrlArrives
  refine ⟨?_, ?_, ?_, ?_, ?_, ?_, ?_, ?_, ?_, ?_, ?_, ?_, ?_, ?_, ?_, ?_, ?_, ?_, ?_, ?_, ?_, ?_, ?_, ?_, ?_⟩ <;> decide +kernel
/-! ### The ring: membership, gaps, Solder (chapter 09) -/

/-- Attested, in an admission state with ring 3 and epoch 9. -/
def att (n : Nat) : State :=
  withFlds ring [(.secStatus, F.secStatus_ATTESTED, 1), (.circAdmit, F.circAdmit_STATE, n), (.circAdmit, F.circAdmit_RING_ID, 3),
    (.circAdmit, F.circAdmit_EPOCH, 9)]

/-- The ring state changed. -/
def cc (f : Circ → Circ) (s : State) : State := { s with circ := f s.circ }

/-- The anchor forms a ring of one segment since a time. -/
def forming (since : Nat) : State :=
  withFlds (cc (fun c => { c with anchor := true, formSince := since }) ring) [(.circForm, F.circForm_STATE, 1), (.circForm, F.circForm_SEGMENTS, 1)]

/-- A bypass mode, both neighbours admitted. -/
def byp (m : Nat) (f : Circ → Circ) : State :=
  withFlds (cc f ring) [(.circBypass, F.circBypass_MODE, m), (.circPortPeer 0, F.circPortPeer_PEER_ADMITTED, 1),
    (.circPortPeer 1, F.circPortPeer_PEER_ADMITTED, 1)]

/-- A NOTE of arc 2. -/
def noteFrame : Frame := ⟨2, 0, .note 4 5 6 7, none⟩

/-- Both near ports have a NOTE to send, and the skip links have partitions for it. -/
def skipping : State :=
  pt (pt (withRegs (byp 0 id) [(.circPartSe, table3 0 3), (.circPartSw, table3 0 2)]) 0 fun x => { x with out := [noteFrame] }) 1
    fun x => { x with out := [noteFrame] }

theorem noteComes_of {s : State} {h : RxHead} {code origin number : Nat}
    (k : h.port.val < 4 ∧ (Arrives s h 0 ∧ partMatch s h (some 0) = some 0) ∧ isMember s h.arc = true ∧ origin ≠ s.position
      ∧ s.circ.seen.contains (code, origin, number) = false) : NoteComes s h code origin number := ⟨k.1, ⟨0, 0, k.2.1⟩, k.2.2⟩

theorem witness_RingMembership :
    (∀ n ∈ [0, 1, 2], WriteReady (att n) .circAdmit ∧ (att n).fld .circAdmit F.circAdmit_STATE = n
        ∧ 3 = (att n).fld .circAdmit F.circAdmit_RING_ID ∧ 9 = (att n).fld .circAdmit F.circAdmit_EPOCH
        ∧ (att n).fld .secStatus F.secStatus_ATTESTED = 1 ∧ inService (att n) 0 = true ∧ inService (att n) 4 = false)
    ∧ (∀ v ∈ [0, 1], let s := withFlds (att 1) [(.circPosition, F.circPosition_VALID, v), (.circPortPeer 1, F.circPortPeer_PEER_POS_VALID, 1 - v),
          (.circPortPeer 1, F.circPortPeer_PEER_ADMITTED, 1)];
        WriteReady s .circAdmit ∧ s.fld .circPosition F.circPosition_VALID = v ∧ s.fld .circForm F.circForm_STATE = 0
          ∧ s.fld .secStatus F.secStatus_ATTESTED = 1
          ∧ (s.fld (.circPortPeer 1) F.circPortPeer_PEER_POS_VALID = 1 ↔ v = 0) ∧ s.fld (.circPortPeer 1) F.circPortPeer_PEER_ADMITTED = 1
          ∧ ringSize s ≤ 512)
    ∧ (WriteReady ring .circForm ∧ portState ring 0 = 3 ∧ WriteReady upX .circForm ∧ portState upX 0 ≠ 3 ∧ 255 < 256)
    ∧ (Arrives ring (rxh 1 0 2 0) 0 ∧ (rxh 1 0 2 0).port = 1 ∧ ring.circ.anchor = false ∧ portState ring 0 = 3
        ∧ ring.fld (.circPortPeer 2) F.circPortPeer_PEER_POS_VALID = 0)
    ∧ (Arrives (forming 5) (rxh 1 0 2 0) 0 ∧ (forming 5).circ.anchor = true ∧ (forming 5).fld .circForm F.circForm_STATE = 1
        ∧ bitsOf (15 : Word) 8 0 + 1 = 16 * (forming 5).fld .circForm F.circForm_SEGMENTS
        ∧ bitsOf (14 : Word) 8 0 + 1 ≠ 16 * (forming 5).fld .circForm F.circForm_SEGMENTS)
    ∧ (Arrives (lns 4 2 (pst 4 3 ring)) (rxh 4 0 2 0) 0 ∧ 4 ≤ (rxh 4 0 2 0).port.val)
    ∧ ((forming 49990000000).circ.anchor = true ∧ (forming 49990000000).fld .circForm F.circForm_STATE = 1
        ∧ (forming 49990000000).circ.formSince + 10000000 = (forming 49990000000).now)
    ∧ (forming 49990000001).now < (forming 49990000001).circ.formSince + 10000000
    ∧ (WriteReady skipping .circBypass ∧ skipping.fld .circBypass F.circBypass_MODE ≠ 1 ∧ ringSize skipping = 16 ∧ skipBits skipping % 2 = 0
        ∧ skipBits skipping / 2 = 0 ∧ (skipping.port 0).out = [noteFrame] ∧ noteFrame.group ≠ 0 ∧ noteFrame.sseq = none
        ∧ (entryFor (tableOf skipping 2) noteFrame.arc noteFrame.role).isSome = true
        ∧ (entryFor (tableOf skipping 3) noteFrame.arc noteFrame.role).isSome = true)
    ∧ (∀ m ∈ [0, 2, 3, 4], WriteReady (byp m id) .circBypass ∧ (byp m id).fld .circBypass F.circBypass_MODE ≠ 1
        ∧ peerStands (byp m id) 0 = true ∧ peerStands (byp m id) 1 = true
        ∧ skipBits (byp m id) % 2 = (if m = 2 ∨ m = 4 then 1 else 0) ∧ skipBits (byp m id) / 2 = (if m = 3 ∨ m = 4 then 1 else 0))
    ∧ (∀ m ∈ [2, 3, 4], let s := byp m fun c => { c with restoring := [2, 3], bypassed := [4, 2] };
        s.circ.restoring.contains 2 = true ∧ s.circ.restoring.contains 3 = true ∧ (∀ p ∈ ([2, 3] : List Port), (s.port p).unacked = []
          ∧ (s.port p).out.all (fun f => f.group != 3 || notBegun s p f) = true ∧ blockHalfSent s p = false) ∧ ringSize s ≠ 0 ∧ s.fld .circBypass F.circBypass_MODE ≠ 1)
    ∧ (byp 2 id).circ.restoring.contains 2 = false
    ∧ NoteComes ring (rxh 1 0 2 0) 2 (bitsOf (0x0000000900070006 : Word) 24 16) (bitsOf (0x0000000900070006 : Word) 63 32)
    ∧ (NoteComes (byp 2 fun c => { c with bypassed := [6] }) (rxh 1 0 2 0) 3 (bitsOf (0x0000000900070006 : Word) 24 16)
          (bitsOf (0x0000000900070006 : Word) 63 32)
        ∧ (byp 2 fun c => { c with bypassed := [6] }).circ.bypassed.contains (bitsOf (0x0000000900070006 : Word) 8 0) = true) := by
  refine ⟨?_, ?_, ?_, ?_, ?_, ?_, ?_, ?_, ?_, ?_, ?_, ?_, noteComes_of ?_, noteComes_of ?_, ?_⟩ <;> (try unfold Arrives) <;> (try unfold WriteReady) <;> decide +kernel

/-- A gap in a state, from SSEQ 20 to 22. -/
def gp (st : Nat) (r : Reinj → Reinj) (s : State) : State :=
  withFlds (cc (fun c => { c with reinj := r c.reinj }) s) [(.circReinjA, F.circReinjA_STATE, st), (.circReinjA, F.circReinjA_FIRST, 20),
    (.circReinjA, F.circReinjA_LAST, 22)]

/-- The last whole block of both streams. -/
def lastq (q : Nat) (s : State) : State := strm (strm s 0 fun t => { t with last := some q }) 1 fun t => { t with last := some q }

/-- The bound of a gap: its stream and its last SSEQ. -/
def bound (x q : Nat) : Word := BitVec.ofNat 64 (x * 2 ^ 63 + q * 2 ^ 32)

/-- A request for the blocks of the East stream between two SSEQ. -/
def reqW (first last : Nat) : Word := BitVec.ofNat 64 (first * 2 ^ 32 + last * 2 ^ 8)

/-- Members that have answered. -/
def answeredBy (l : List Nat) : State := gp 2 (fun r => { r with note := 9, done := l }) ring

/-- Solder in a state. -/
def spl (n : Nat) : State := withFlds (own ring) [(.circSplice, F.circSplice_STATE, n)]

theorem witness_GapsAndSplices :
    (∀ s ∈ [lastq 19 (gp 2 id ring), lastq 19 (gp 1 id ring), lastq 19 ring], Arrives s (rxh 1 0 2 0) 0 ∧ (rxh 1 0 2 0).port.val < 4
        ∧ partMatch s (rxh 1 0 2 0) (some 0) = some 0 ∧ isMember s (rxh 1 0 2 0).arc = true)
    ∧ (2 ≤ (gp 2 id ring).fld .circReinjA F.circReinjA_STATE ∧ (lastq 19 ring).fld .circReinjA F.circReinjA_STATE < 2)
    ∧ (∀ x : StreamId, ((lastq 19 ring).stream x).last = some 19 ∧ x.val = bitsOf (bound x.val 20) 63 63
        ∧ seqGap (streamLen (lastq 19 ring) x) (bitsOf (bound x.val 20) 55 32) 19 = 1
        ∧ seqGap (streamLen (lastq 19 ring) x) (bitsOf (bound x.val 19) 55 32) 19 = 0 ∧ 2 < streamLen (lastq 19 ring) x
        ∧ streamLen (lastq 19 ring) x ≤ 2 * seqGap (streamLen (lastq 19 ring) x) (bitsOf (bound x.val 18) 55 32) 19)
    ∧ NoteComes (own (lpdUp ring)) (rxh 1 0 2 0) 7 (bitsOf (0x0000000900000005 : Word) 8 0) (bitsOf (0x0000000900000005 : Word) 63 32)
    ∧ (let s := own (lpdUp ring);
        (ownedBlocks s 0).any (fun b => decide (seqGap (streamLen s 0) b.1 (bitsOf (reqW 0 99) 55 32)
            ≤ seqGap (streamLen s 0) (bitsOf (reqW 0 99) 31 8) (bitsOf (reqW 0 99) 55 32)) && !uncaptured s 0 b.1 && slotFits s b.2
            && tierServes s b.2 16448) = true)
    ∧ (NoteComes ring (rxh 1 0 2 0) 7 (bitsOf (0x0000000900000005 : Word) 8 0) (bitsOf (0x0000000900000005 : Word) 63 32)
        ∧ ownedBlocks ring 0 = [] ∧ ring.remoteOut = [] ∧ ring.circ.doneNotes = [])
    ∧ (NoteComes (answeredBy [0, 1]) (rxh 1 0 2 0) 8 (bitsOf (14 : Word) 8 0) (bitsOf (bound 0 9) 63 32)
        ∧ (answeredBy [0, 1]).fld .circReinjA F.circReinjA_STATE = 2 ∧ (answeredBy [0, 1]).circ.reinj.note % 2 ^ 32 = bitsOf (bound 0 9) 63 32
        ∧ ∃ p ∈ liveMembers (answeredBy [0, 1]), p ≠ (answeredBy [0, 1]).position ∧ p ≠ bitsOf (14 : Word) 8 0
            ∧ p ∉ (answeredBy [0, 1]).circ.reinj.done)
    ∧ (NoteComes (answeredBy [0, 1, 2, 4, 5, 6, 7, 8, 9, 10, 11, 12, 13]) (rxh 1 0 2 0) 8 (bitsOf (14 : Word) 8 0) (bitsOf (bound 0 9) 63 32)
        ∧ ∀ p ∈ liveMembers (answeredBy [0, 1, 2, 4, 5, 6, 7, 8, 9, 10, 11, 12, 13]),
            p = (answeredBy [0, 1, 2, 4, 5, 6, 7, 8, 9, 10, 11, 12, 13]).position ∨ p = bitsOf (14 : Word) 8 0
              ∨ p ∈ (answeredBy [0, 1, 2, 4, 5, 6, 7, 8, 9, 10, 11, 12, 13]).circ.reinj.done)
    ∧ (∀ n ∈ [0, 1], let d := 50000000000 - ring.fld .circReinjCtrl F.circReinjCtrl_TIMEOUT_MS * 1000000;
        let s := gp 2 (fun r => { r with since := d + n }) ring;
        s.fld .circReinjA F.circReinjA_STATE = 2
          ∧ (s.circ.reinj.since + s.fld .circReinjCtrl F.circReinjCtrl_TIMEOUT_MS * 1000000 ≤ s.now ↔ n = 0))
    ∧ (WriteReady (spl 1) .circSplice ∧ spliceArmOk (spl 1) = true ∧ WriteReady ring .circSplice ∧ spliceArmOk ring = false)
    ∧ (∀ n ∈ [0, 1, 2, 6], WriteReady (spl n) .circSplice ∧ (spl n).fld .circSplice F.circSplice_STATE = n
        ∧ (spl n).fld .fcuStatus F.fcuStatus_OFF_RING = 0)
    ∧ (let s := withFlds (spl 6) [(.fcuStatus, F.fcuStatus_OFF_RING, 1)];
        WriteReady s .circSplice ∧ s.fld .circSplice F.circSplice_STATE ≠ 2 ∧ s.fld .fcuStatus F.fcuStatus_OFF_RING = 1)
    ∧ NoteComes ring (rxh 1 0 2 0) 4 (bitsOf (0x0000000B0007000F : Word) 24 16) (bitsOf (0x0000000B0007000F : Word) 63 32)
    ∧ (NoteComes (cc (fun c => { c with interim := [4, 5, 6] }) ring) (rxh 1 0 2 0) 5 (bitsOf (0x000000090002000E : Word) 8 0)
          (bitsOf (0x000000090002000E : Word) 63 32)
        ∧ (cc (fun c => { c with interim := [4, 5, 6] }) ring).circ.interim.take (bitsOf (0x000000090002000E : Word) 19 16) = [4, 5]) := by
  refine ⟨?_, ?_, ?_, noteComes_of ?_, ?_, ⟨noteComes_of ?_, ?_⟩, ⟨noteComes_of ?_, ?_, ?_, 2, ?_⟩, ⟨noteComes_of ?_, ?_⟩, ?_, ?_, ?_, ?_,
    noteComes_of ?_, noteComes_of ?_, ?_⟩ <;> (try unfold Arrives) <;> (try unfold WriteReady) <;> decide +kernel

/-! ### Memory tiers (chapter 10) -/

/-- Every stack of HBM and every channel of LPDDR is UP. -/
def tiers : State := lpdUp (stacksUp upX)

/-- The tiers' state changed. -/
def tm (f : TierSt → TierSt) (s : State) : State := { s with tier := f s.tier }

/-- The last step of a target began a time ago. -/
def steppedAt (t ago : Nat) (s : State) : State := tm (fun x => { x with stepAt := [(t, s.now - ago)] }) s

/-- A step of a target that began a time ago is under way, n failures in a row behind it. -/
def stepping (t ago n : Nat) : State :=
  tm (fun x => { x with steps := [t], stepAt := [(t, tiers.now - ago)], failRuns := [(t, n)] }) tiers

/-- Stack 7 retires since a time. -/
def retiring7 (ago : Nat) : State :=
  tm (fun x => { x with retiring := [(7, tiers.now - ago)] }) (withFlds tiers [(stackStatus 7, F.hbmStackStatus_STATE, 3)])

/-- A read of stack 7 is under way on die 0. -/
def reading7 (s : State) : State := s.setDie 0 { (s.die 0) with
  txns := [{ owner := .dma 2, stamp := 3, fromPool := false, issued := true, returned := false, kind := .read, addr := 0x4700000000, size := 32,
             data := [], dest := none, number := 4, pkt := 0, into := none }] }

theorem witness_MemoryTiers :
    (∀ t ∈ ([0, 255, 1000, 1015] : List Nat), targetUp tiers t = true ∧ stepElsewhere tiers t = false ∧ inGap tiers t = true)
    ∧ (∀ t ∈ ([256, 999, 1016] : List Nat), targetUp tiers t = false)
    ∧ (stepElsewhere (stepping 224 0 0) 255 = true ∧ stepElsewhere (stepping 223 0 0) 255 = false
        ∧ stepElsewhere (stepping 1014 0 0) 1015 = true
        ∧ inGap (tm (fun x => { x with lastBusy := [(255, tiers.now)] }) tiers) 255 = false)
    ∧ (∀ t ∈ ([255, 1000] : List Nat), ∀ n ∈ ([0, 1] : List Nat),
        let s := steppedAt t (bitsOf (tiers.reg (retrainCtrl t)) 31 16 * 1000 - n) tiers;
        targetUp s t = true ∧ t ∉ s.tier.steps
          ∧ (s.tier.stepAt.at_ 0 t + bitsOf (s.reg (retrainCtrl t)) 31 16 * 1000 ≤ s.now ↔ n = 0))
    ∧ (∀ t ∈ ([255, 1015] : List Nat), ∀ n ∈ ([0, 1, 2] : List Nat), let s := stepping t (stepNs t) n;
        t ∈ s.tier.steps ∧ s.tier.stepAt.at_ 0 t + stepNs t ≤ s.now ∧ s.tier.failRuns.at_ 0 t = n)
    ∧ (0 ∉ tiers.tier.steps ∧ 255 ∈ (stepping 255 119 0).tier.steps
        ∧ (stepping 255 119 0).now < (stepping 255 119 0).tier.stepAt.at_ 0 255 + stepNs 255)
    ∧ (∀ n ∈ ([0, 1] : List Nat), let s := withFlds (stepping 255 120 2) [(.hbmRetireCtrl 1, F.hbmRetireCtrl_AUTO, n)];
        stackState s (255 / 32) = 2 ∧ s.tier.failRuns.at_ 0 255 = 2 ∧ s.fld (.hbmRetireCtrl 1) F.hbmRetireCtrl_AUTO = n
          ∧ s.fld (stackStatus (255 / 32)) F.hbmStackStatus_PENDING = 0)
    ∧ (stepping 1015 200 2).fld (chStatus (2 * ((1015 - 1000) / 2))) F.lpdChStatus_STATE ≠ 3
    ∧ (stackState tiers 7 = 2 ∧ WriteOpen tiers (.hbmStackCmd 1 3) ∧ WriteReady upX (.hbmStackCmd 1 3) ∧ stackState upX 7 ≠ 2)
    ∧ (∀ p ∈ ([(retiring7 0, false), (reading7 (retiring7 2000), true)] : List (State × Bool)),
        stackState p.1 7 = 3 ∧ stackBusy p.1 7 = p.2 ∧ (p.2 = true → p.1.tier.retiring.at_ 0 7 + 2000 ≤ p.1.now))
    ∧ (stackBusy (reading7 (retiring7 1999)) 7 = true
        ∧ (reading7 (retiring7 1999)).now < (reading7 (retiring7 1999)).tier.retiring.at_ 0 7 + 2000) := by
  unfold WriteOpen WriteReady
  refine ⟨?_, ?_, ?_, ?_, ?_, ?_, ?_, ?_, ?_, ?_, ?_⟩ <;> decide +kernel

/-! ### The control link and the service (chapter 11) -/

/-- The control link in a state, in session 5 where it is one. -/
def lk (st : Nat) (s : State) : State :=
  withFlds s [(.mldLinkStatus, F.mldLinkStatus_STATE, st), (.mldLinkStatus, F.mldLinkStatus_SESSION, if st = 3 then 5 else 0),
    (.mldLinkCtrl, F.mldLinkCtrl_ENABLE, 1)]

/-- Every lane of the control link was heard a time ago. -/
def heardAgo (ago : Nat) (s : State) : State :=
  { s with mld := { s.mld with ctrl := { s.mld.ctrl with heard := (List.range 4).map fun l => (l, s.now - ago) } } }

/-- A session on a ring module whose tiers are UP. -/
def linked : State := heardAgo 0 (lk 3 (lpdUp (stacksUp ring)))

/-- How long the silence of a lane may last. -/
def lostNs : Nat := linked.fld .mldLinkCtrl F.mldLinkCtrl_LOST_MS * 1000000

/-- The head of a good message of a role in a session. -/
def msgOf (role session : Nat) : MsgHead := ⟨none, true, role, session, 3⟩

/-- BACK holds 16 slots at the start of LPDDR. -/
def backed : State := withRegs linked [(.lpdBack, BitVec.ofNat 64 (2 ^ 19 * 2 ^ 36 + 16 * 2 ^ 17))]

/-- The head of a message whose frame has come. -/
def mf (role session : Nat) (f : CtrlHead) : MsgHead := ⟨some f, true, role, session, 3⟩

/-- A frame of a message, whole or not. -/
def part (lane : Fin 4) (tag sub : Nat) (eot : Bool) : CtrlHead := { cth lane 1 tag 0 with sub := sub, sot := sub == 0, eot := eot }

/-- The message of MSEQ 2^24 - 1 is the next to be handed on. -/
def turning : State := { linked with mld := { linked.mld with ctrl := { linked.mld.ctrl with turn := 2 ^ 24 - 1, building := [⟨3, [1], none⟩] } } }

theorem witness_LinkAndMessages :
    (linkState (lk 4 upX) = 4 ∧ linkState (lk 0 upX) = 0 ∧ (lk 0 upX).fld .mldLinkCtrl F.mldLinkCtrl_ENABLE = 1
        ∧ (lk 0 upX).pow.phases.contains 1 = true)
    ∧ (State.reset.pow.phases.contains 1 = false ∧ linkState (lk 1 upX) = 1 ∧ linkState (lk 2 upX) = 2 ∧ linkState linked = 3)
    ∧ (∀ st ∈ ([2, 3] : List Nat), ∀ n ∈ ([0, 1] : List Nat), let s := heardAgo (lostNs - n) (lk st upX);
        linkState s = st ∧ (laneLost s = true ↔ n = 0))
    ∧ (∀ st ∈ ([0, 1, 4] : List Nat), linkState (lk st upX) ≠ 2 ∧ linkState (lk st upX) ≠ 3)
    ∧ ((msgOf 1 5).frame = none ∧ { msgOf 1 5 with ok := false }.ok = false ∧ 2 ≤ (msgOf 2 5).role ∧ (msgOf 1 5).ok = true ∧ (msgOf 1 5).role < 2)
    ∧ (linkState (lk 2 upX) = 2 ∧ (msgOf 1 6).session ≠ linked.fld .mldLinkStatus F.mldLinkStatus_SESSION
        ∧ (msgOf 1 5).session = linked.fld .mldLinkStatus F.mldLinkStatus_SESSION ∧ (msgOf 0 0).session = 0
        ∧ (msgOf 0 65535).session ≠ 0 ∧ (msgOf 0 65535).session < 65536 ∧ upX.sec.recovery = false
        ∧ upX.fcu.log.all (fun e => e.2.good) = true)
    ∧ (Accepts linked (msgOf 1 5) [1] ∧ Accepts linked (msgOf 0 5) [0, 1] ∧ linked.sec.recovery = false)
    ∧ ((1 : Nat) ≤ 1048576 ∧ 1048576 < 1048577 ∧ bitsOf (0x4000000000000000 : Word) 62 48 ≠ 0)
    ∧ (let a : Word := BitVec.ofNat 64 (unitBase 0 .ast 0);
        bitsOf a 63 48 = 0 ∧ List.replicate 32 (7 : Byte) ≠ [] ∧ inBack linked a.toNat 32 = false ∧ inRange linked a.toNat 32 = true
          ∧ tierHolds linked a.toNat 32 = true ∧ a.toNat % 32 = 0 ∧ writeKind a.toNat 0 = .write ∧ linked.mld.blockReqs = []
          ∧ Mem.wf linked.mem = true
          ∧ (match placeOf a.toNat with | .store d _ _ _ _ => linked.readyBit (7 + d.val) | .hbm k => linked.readyBit (5 + k / 4 % 2)
                                        | .lpd => linked.readyBit 4 | _ => false) = true)
    ∧ (bitsOf (0x4800000000 : Word) 63 48 = 0 ∧ inBack linked (0x4800000000 : Word).toNat 32 = false
        ∧ inRange linked (0x4800000000 : Word).toNat 32 = false)
    ∧ (let a : Word := BitVec.ofNat 64 (2 ^ 63 + 0x4000);
        bitsOf a 63 63 = 1 ∧ bitsOf a 62 48 = 0 ∧ inBack linked (bitsOf a 47 0) 1 = false
          ∧ (on backed).fld .circRingConf F.circRingConf_ENABLE = 1 ∧ (on backed).mld.blockReqs = [])
    ∧ (∀ r ∈ ([.circPeriodTarget, .scvBeat 1] : List Reg), (addrOf r 0).toNat = r.addr ∧ Reg.ofAddr r.addr = some r ∧ WriteReady linked r)
    ∧ ((Reg.scvBeat 1).hasU = true ∧ Reg.hasU .fcuAck = false ∧ WriteReady linked .fcuAck ∧ (addrOf .fcuAck 0).toNat = Reg.addr .fcuAck)
    ∧ (∀ f ∈ ([{ part 0 0 0 true with fcrc := false }, { part 3 0 0 true with lseq := 1 }] : List CtrlHead),
        (mf 1 5 f).frame = some f ∧ ctrlUp linked = true
          ∧ (f.good = false ∨ (f.typ ≠ 0 ∧ f.lseq % 1024 ≠ linked.mld.ctrl.rx.at_ 0 f.lane.val % 1024)))
    ∧ (∀ p ∈ ([(part 3 (2 ^ 24 - 1) 0 true, 0), (part 0 0 0 true, 1), (part 0 6 0 true, 7), (part 0 7 0 true, 8), (part 0 6 255 false, 7)] :
            List (CtrlHead × Nat)),
        (mf 1 5 p.1).frame = some p.1 ∧ CtrlArrives turning p.1 ∧ p.1.typ = 1 ∧ turning.mld.ctrl.building.length < 8
          ∧ (∀ b ∈ turning.mld.ctrl.building, b.tag ≠ p.1.tag % 2 ^ 24) ∧ turnGap turning (p.1.tag % 2 ^ 24) = p.2
          ∧ p.1.sub < 256 ∧ (p.1.eot = true → p.1.sub = 0)) := by
  unfold CtrlArrives Accepts WriteReady
  refine ⟨?_, ?_, ?_, ?_, ?_, ?_, ?_, ?_, ?_, ?_, ?_, ?_, ?_, ?_, ?_⟩ <;> decide +kernel

/-- The head and tokens of a PROMPT for sequence id of a job, with FLAGS. -/
def promptOf (id job flags next : Nat) (toks : List Nat) : List Byte :=
  (leBytes 4 id ++ leBytes 2 job ++ [BitVec.ofNat 8 flags, 0] ++ leBytes 4 toks.length ++ leBytes 4 next ++ leBytes 4 (next + 1)
    ++ leBytes 8 77 ++ leBytes 4 0 ++ leBytes 4 0x3F800000 ++ leBytes 2 0 ++ leBytes 2 0 ++ leBytes 4 0x3F800000)
    ++ List.replicate 308 0 ++ toks.flatMap (leBytes 4)

/-- A session that takes prompts of job 77, with sequences. -/
def taking (l : List Seq) : State :=
  let s := withFlds linked [(.mldSvcCtrl, F.mldSvcCtrl_ADMIT, 1), (.circRingConf, F.circRingConf_ENABLE, 1), (.fcuPin, F.fcuPin_DRIVEN_A, 1)]
  { s with mld := { s.mld with seqs := l, jobSet := true, job := 77, vocab := 9, log := [⟨7, 0, 1, false⟩, ⟨8, 0, 1, false⟩] } }

/-- Sequence 7, one token drawn, in a state. -/
def inSt (st : SeqState) : Seq := seq7 fun q => { q with st := st }

theorem witness_PromptsAndSequences :
    (Accepts (taking []) (msgOf 0 5) [0] ∧ (taking []).sec.recovery = false)
    ∧ (Accepts linked (msgOf 0 5) [0] ∧ linked.sec.recovery = false ∧ notReady linked = true)
    ∧ (notReady (taking []) = false ∧ (taking []).mld.jobSet = true ∧ (taking []).fld .circArc F.circArc_JOB = 77)
    ∧ (let b := promptOf 7 78 0 0 [1, 2, 8]; headField b 4 2 ≠ (taking []).fld .circArc F.circArc_JOB)
    ∧ (let b := promptOf 7 77 2 0 [];
        headField b 4 2 = 77 ∧ headField b 0 4 = 7 ∧ headField b 6 1 / 2 % 2 = 1 ∧ seqOf (taking []) 7 = none
          ∧ (∀ p ∈ seqOf (taking [inSt .decode]) 7, p.st ≠ .parked) ∧ (seqOf (taking [inSt .decode]) 7).isSome = true)
    ∧ (let b := promptOf 7 77 0 2 [1, 2, 8]; let s := taking [];
        headField b 4 2 = 77 ∧ headField b 0 4 = 7 ∧ headField b 6 1 / 2 % 2 = 0 ∧ seqOf s 7 = none ∧ tokensOk s b = true
          ∧ headField b 6 1 / 4 % 2 = 0 ∧ headField b 6 1 / 8 % 2 = 0 ∧ paramsOk s b = true
          ∧ headField (b.take 352) 12 4 < (promptTokens b).length ∧ s.mld.seqs.countP (fun p => p.st == .queued) < 4096
          ∧ s.readyBit 11 = true)
    ∧ (let b := promptOf 7 77 0 2 [1, 2, 9]; headField b 4 2 = 77 ∧ headField b 6 1 / 2 % 2 = 0 ∧ tokensOk (taking []) b = false)
    ∧ (∀ st ∈ ([.queued, .prefill, .decode, .parked, .ending] : List SeqState), let s := taking [inSt st];
        Accepts s (msgOf 0 5) [0] ∧ s.sec.recovery = false ∧ seqOf s 7 = some (inSt st) ∧ (inSt st).st = st ∧ (inSt st).committed = 0
          ∧ (inSt st).count = 1 ∧ ∀ k ∈ logOf s 7, k.idx + 1 < 2)
    ∧ (seqOf (taking []) 9 = none ∧ logOf (taking []) 9 = []) := by
  unfold Accepts
  refine ⟨?_, ?_, ?_, ?_, ?_, ?_, ?_, ?_, ?_⟩ <;> decide +kernel

/-- As above; how many pages a sequence needs is the configuration's (log entry 16). -/
theorem witness_PromptsAndSequences_fits (hk : (newSeq 7 (promptOf 7 77 0 2 [1, 2, 8]) [1, 2, 8]).need ≤ stackPages (taking [])) :
    neverFits (taking []) (newSeq 7 (promptOf 7 77 0 2 [1, 2, 8]) [1, 2, 8]) = false := by
  have h : (List.range 8).any (fun n => decide (stackState (taking []) n = 2)) = true := by decide +kernel
  unfold neverFits
  rw [h, decide_eq_false (Nat.not_lt.mpr hk)]; rfl

/-! ### The whole machine, and the operands of commands -/

/-- One command waits: a beat of die 0 is read. -/
def oneWaits : State := { ru with pending := [.beats 0 0 5] }

theorem witness_EveryStepKeepsCanonicalMemory :
    Canonical oneWaits ∧ (match step oneWaits with | .next t => decide ((t.ctx 0 0 0).rd 5 = 70000) | _ => false) = true := by
  unfold Canonical; decide +kernel

theorem witness_RegistersHaveTheirAddresses :
    presentReg .modIdent = true ∧ presentReg (.circLaneA 0 33) = true ∧ presentReg (.circLaneB 3 16) = true
      ∧ presentReg (.circLaneA 4 4) = false := by decide +kernel

/-- The head of a frame out of the range of one of its fields. -/
def badHeads : List RxHead :=
  [{ rxh 4 0 0 0 with phys := 4 }, { rxh 0 0 0 0 with phys := 34 }, rxh 0 0 32 0, rxh 0 0 0 4, { rxh 0 0 0 0 with lseq := 1024 },
    { rxh 0 0 0 0 with lack := 1024 }, { rxh 0 0 0 0 with cpart := 4 }, { rxh 0 0 0 0 with ccnt := 256 }]

/-- The head of a control frame out of the range of one of its fields. -/
def badCtrl : List CtrlHead :=
  [cth 0 16 0 0, cth 0 0 (2 ^ 24) 0, { cth 0 0 0 0 with sub := 256 }, cth 0 0 0 1024, { cth 0 0 0 0 with lack := 1024 },
    { cth 0 0 0 0 with ccnt := 256 }]

/-- A remote packet out of the range of one of its fields. -/
def badPkts : List RemotePkt :=
  let p := RemotePkt.blank .rwr
  [{ p with srcRing := 8 }, { p with srcPos := 512 }, { p with srcDie := 2 }, { p with tgtRing := 8 }, { p with tgtPos := 512 },
    { p with xfer := 2 ^ 15 }, { p with pkt := 2 ^ 24 }, { p with op := 16 }, { p with etype := 4 }, { p with len := 257 },
    { p with addr := 2 ^ 48 }, { p with data := List.replicate 225 0 }]

theorem test_wf_frames :
    (∀ h ∈ badHeads, ∀ c ∈ ([.id h 0 0, .idle (.port h), .subst h 0, .nak (.port h) 0, .partAnn h 0 0, .form h 0, .ts h 0 0 0,
        .blockFrame h true true 0 0 [], .rwr h 0 0 (RemotePkt.blank .rwr), .splice h 0] : List Instr), wellFormed c = false)
    ∧ (∀ h ∈ badCtrl, ∀ c ∈ ([.idle (.ctrl h), .nak (.ctrl h) 0, .hello (mf 1 5 h)] : List Instr), wellFormed c = false)
    ∧ (∀ p ∈ badPkts, ∀ c ∈ ([.rwr (rxh 0 0 2 0) 0 0 p, .rrd (rxh 0 0 2 0) 0 p, .rrsp (rxh 0 0 2 0) 0 p, .sig (rxh 0 0 2 0) 0 p] : List Instr),
        wellFormed c = false)
    ∧ (∀ c ∈ ([.blockFrame (rxh 0 0 2 0) true true (2 ^ 24) 0 [], .blockFrame (rxh 0 0 2 0) true true 0 65 [],
        .blockFrame (rxh 0 0 2 0) true true 0 0 (List.replicate 257 0)] : List Instr), wellFormed c = false)
    ∧ wellFormed (.blockFrame (rxh 3 16 31 3) true true (2 ^ 24 - 1) 64 (List.replicate 256 0)) = true := by
  decide +kernel

theorem test_wf_messages :
    (∀ h ∈ [msgOf 4 5, msgOf 1 65536, { msgOf 1 5 with rtag := 65536 }], ∀ c ∈ ([.hello h, .job h 7 9, .load h 0 [], .prompt h [], .ack h [],
        .evictCancel h 7, .evictPark h 7, .regRd h 0, .regWr h 0 0, .dumpReq h 0, .imageData h 0 [], .imageCommit h 0, .imageAbort h] :
          List Instr), wellFormed c = false)
    ∧ (∀ c ∈ ([.job (msgOf 1 5) 65536 9, .job (msgOf 1 5) 7 (2 ^ 32), .ack (msgOf 0 5) [(2 ^ 32, 0)], .ack (msgOf 0 5) [(0, 2 ^ 32)],
        .evictCancel (msgOf 0 5) (2 ^ 32), .evictPark (msgOf 0 5) (2 ^ 32), .dumpReq (msgOf 1 5) 4, .imageData (msgOf 1 5) (2 ^ 32) [],
        .imageCommit (msgOf 1 5) (2 ^ 32)] : List Instr), wellFormed c = false)
    ∧ wellFormed (.job (msgOf 3 65535) 65535 (2 ^ 32 - 1)) = true := by
  decide +kernel

theorem test_wf_lengths (l : List Byte) :
    (65496 < l.length → wellFormed (.load (msgOf 1 5) 0 l) = false ∧ wellFormed (.prompt (msgOf 0 5) l) = false)
      ∧ (65488 < l.length → wellFormed (.imageData (msgOf 1 5) 0 l) = false)
      ∧ (65535 < l.length → wellFormed (.calSaveDone l) = false) := by
  refine ⟨fun h => ⟨?_, ?_⟩, fun h => ?_, fun h => ?_⟩
  · show (msgOk (msgOf 1 5) && decide (l.length ≤ 65496)) = false
    rw [decide_eq_false (by omega), Bool.and_false]
  · show (msgOk (msgOf 0 5) && decide (l.length ≤ 65496)) = false
    rw [decide_eq_false (by omega), Bool.and_false]
  · show (msgOk (msgOf 1 5) && decide (0 < 2 ^ 32) && decide (l.length ≤ 65488)) = false
    rw [decide_eq_false (p := l.length ≤ 65488) (by omega), Bool.and_false]
  · show decide (l.length < 65536) = false
    exact decide_eq_false (by omega)

theorem test_wf_operands :
    ∀ c ∈ ([.romPhase true 64, .lpdPhase [16], .hbmPhase [8], .ringPhase [(4, [4])], .phaseLoss 1 64, .powerMeasure 65536 0 0,
      .powerMeasure 0 65536 0, .powerMeasure 0 0 65536, .calTick 0 65536 false, .setMvWrite 0 1024, .select (2 ^ 48), .gradeMaskWrite 16,
      .qlimitWrite 0 0 16, .scalarOp 0 0 (.vec 0 (List.replicate 1025 0) []) [], .branch 0 0 true (2 ^ 48),
      .narrowLoad 0 0 0 (2 ^ 64) 2 false [], .narrowStore 0 0 (2 ^ 64) 2 0 [], .repairForce 0 .wst 1024, .dmaPost 0 0 (2 ^ 48)] :
        List Instr), wellFormed c = false := by
  decide +kernel

theorem test_wf_operands_more :
    ∀ c ∈ ([.windowOpenRequest 8 0 (0, 0) 0 0 0 0, .windowOpenRequest 0 512 (0, 0) 0 0 0 0,
      .windowOpenRequest 0 0 (63, 3) (2 ^ 48) 0 0 0, .windowOpenRequest 0 0 (0, 0) 0 32 0 0,
      .windowOpenRequest 0 0 (0, 0) 0 0 8 0, .windowOpenRequest 0 0 (0, 0) 0 0 0 65536, .stepDeadline 0 65536, .stepAbort 0 65536,
      .save 0 0 0 (2 ^ 48), .restore 0 0 0 (2 ^ 48), .cohortWrite 0 false 512, .portTrained 4 [4], .laneSilence 0 [34],
      .laneUncorrLimit 4 4 0, .laneMarginLow 4 4 0, .laneMarginLow 0 0 256, .forceSub 4 4, .adaptRequest 4 4 0 true,
      .adaptRequest 0 0 16 true, .linkRetryTimeout (.port 4) 4, .linkRetryTimeout .ctrl 4, .admitModule 8 1, .admitModule 0 (2 ^ 32),
      .formStart 256, .hbmTempRead 0 256 false, .faultAck 512 0, .faultAck 0 (2 ^ 32), .faultInject 4096 0 0 0 0, .faultInject 0 4 0 0 0,
      .faultInject 0 0 256 0 0, .faultInject 0 0 0 256 0, .faultInject 0 0 0 0 (2 ^ 32), .fuseAdvance 256, .fuseRevokeSlot 256,
      .epcTableValidate 0 0 16 0, .epcTableValidate 0 0 8 65536, .revokeNotify 8 0 0 0, .revokeNotify 0 512 0 0, .revokeNotify 0 0 0 (2 ^ 48),
      .packetRefusal 0 0 (2 ^ 15) 0, .packetRefusal 0 0 0 (2 ^ 24), .i3cDynamicAddress 128] : List Instr), wellFormed c = false := by
  decide +kernel

end Sys2Proof.Tests
end

section
/-! ### Memory, flash and firmware stay in canonical form (O58)

Most operations leave the three byte memories alone (`held_` lemmas); the few that write them keep their form (`wf_`
lemmas, over the model's own `Mem.wf_write`, `Mem.wf_set` and `Mem.wf_clear`). The step lemma puts them together. -/

namespace Sys2Proof.Machine

/-- The byte memories of the module that are kept in canonical form: memory, the flash and the firmware memory. -/
structure Held where
  mem : List Host.Cell
  flash : List Host.Cell
  firmware : List Host.Cell

/-- What a state holds in its byte memories. -/
def State.held (s : State) : Held := ⟨s.mem, s.sec.flash, s.sec.firmware⟩

@[simp] theorem State.held_mk (pe re me po la rp cx co di dm rs fc ro ws ac ib ix ci ti ml pw se mg fu fr) :
    (State.mk pe re me po la rp cx co di dm rs fc ro ws ac ib ix ci ti ml pw se mg fu fr).held = ⟨me, se.flash, se.firmware⟩ := (rfl)

@[simp] theorem State.held_eta (s : State) : (⟨s.mem, s.sec.flash, s.sec.firmware⟩ : Held) = s.held := (rfl)

@[simp] theorem held_ite (c : Prop) [Decidable c] (s t : State) :
    (if c then s else t).held = if c then s.held else t.held := apply_ite _ _ _ _

@[simp] theorem held_foldl {α : Type} {f : State → α → State} (hf : ∀ s a, (f s a).held = s.held) (l : List α) (s : State) :
    (l.foldl f s).held = s.held := by
  induction l generalizing s with
  | nil => rfl
  | cons a l ih => exact (ih _).trans (hf s a)

@[simp] theorem held_foldr {α : Type} {f : α → State → State} (hf : ∀ s a, (f a s).held = s.held) (l : List α) (s : State) :
    (l.foldr f s).held = s.held := by
  induction l with
  | nil => rfl
  | cons a l ih => exact (hf _ a).trans ih

/-! #### Ops -/

@[simp] theorem held_setReg (s : State) (r : Reg) (w : Word) : (State.setReg s r w).held = s.held := by simp [State.setReg]

@[simp] theorem held_setFld (s : State) (r : Reg) (f : Fld) (v : Nat) : (State.setFld s r f v).held = s.held := by simp [State.setFld]

@[simp] theorem held_addFld (s : State) (r : Reg) (f : Fld) (n : Nat) : (State.addFld s r f n).held = s.held := by simp [State.addFld]

@[simp] theorem held_setCtx (s : State) (d : Die) (q : CoreId) (x : SlotId) (c : Ctx) :
    (State.setCtx s d q x c).held = s.held := by simp [State.setCtx]

@[simp] theorem held_setCore (s : State) (d : Die) (q : CoreId) (c : Core) :
    (State.setCore s d q c).held = s.held := by simp [State.setCore]

@[simp] theorem held_setDie (s : State) (d : Die) (x : DieSt) : (State.setDie s d x).held = s.held := by simp [State.setDie]

@[simp] theorem held_setDma (s : State) (d : Die) (c : Cluster) (x : Dma) : (State.setDma s d c x).held = s.held := by simp [State.setDma]

@[simp] theorem held_raise (s : State) (r : Report) : (State.raise s r).held = s.held := by simp [State.raise]

@[simp] theorem held_burn (s : State) (n : Nat) : (State.burn s n).held = s.held := by simp [State.burn]

@[simp] theorem held_calPassed (s : State) (f u : Nat) : (State.calPassed s f u).held = s.held := by simp [State.calPassed]

/-! #### Ecc -/

@[simp] theorem held_noteCorrected (s : State) (d : Die) (st : Store) (w : Nat) :
    (noteCorrected s d st w).held = s.held := by simp [noteCorrected]

@[simp] theorem held_noteUncorrectable (s : State) (d : Die) (st : Store) (w kind : Nat) :
    (noteUncorrectable s d st w kind).held = s.held := by simp [noteUncorrectable]

@[simp] theorem held_addUpset (s : State) (w : Nat) (u : Upset) : (addUpset s w u).held = s.held := by simp [addUpset]

/-! #### Engine -/

@[simp] theorem held_engReject (s : State) (d : Die) (q : CoreId) (w : EngWord) (cause : Nat) :
    (engReject s d q w cause).held = s.held := by simp [engReject]

@[simp] theorem held_slideBeat (d : Die) (q : CoreId) (f : EngFields) (s : State) : (slideBeat d q f s).held = s.held := by
  fun_cases slideBeat <;> simp

@[simp] theorem held_retireWord (s : State) (d : Die) (q : CoreId) : (retireWord s d q).held = s.held := by simp [retireWord]

@[simp] theorem held_dropRejected (d : Die) (q : CoreId) (x : List EngWord) (s : State) : (dropRejected d q x s).1.held = s.held := by
  fun_induction dropRejected <;> simp [*]

/-! #### Stores -/

@[simp] theorem held_stageDone (s : State) (d : Die) (q : CoreId) (req : Option Nat) : (stageDone s d q req).held = s.held := by
  unfold stageDone
  split <;> simp

@[simp] theorem held_deliver (s : State) (a : Access) : (deliver s a).held = s.held := by
  unfold deliver
  split <;> simp

@[simp] theorem held_rmwWriteback (d : Die) (i : Nat) (s : State) : (rmwWriteback d i s).held = s.held := by
  unfold rmwWriteback
  split <;> simp

@[simp] theorem held_useSlot (s : State) (d : Die) (key cls : Nat) : (useSlot s d key cls).held = s.held := by simp [useSlot]

@[simp] theorem held_scrubWriteback (d : Die) (s : State) : (scrubWriteback d s).held = s.held := by
  unfold scrubWriteback
  split <;> simp

@[simp] theorem held_drainEntryWrite (d : Die) (q : CoreId) (i : Nat) (s : State) : (drainEntryWrite d q i s).held = s.held := by
  simp only [drainEntryWrite]
  (repeat' split) <;> simp

@[simp] theorem held_combineEntryWrite (d : Die) (q : CoreId) (s : State) : (combineEntryWrite d q s).held = s.held := by
  simp only [combineEntryWrite]
  (repeat' split) <;> simp

@[simp] theorem held_abandonBist (s : State) (d : Die) : (abandonBist s d).held = s.held := by simp [abandonBist]

@[simp] theorem held_clearDone (d : Die) (s : State) : (clearDone d s).held = s.held := by simp [clearDone]

@[simp] theorem held_clearStoreCounts (d : Die) (st : Store) (s : State) : (clearStoreCounts d st s).held = s.held := by
  unfold clearStoreCounts
  split <;> simp

@[simp] theorem held_noteRepair (s : State) (d : Die) (bank row : Nat) : (noteRepair s d bank row).held = s.held := by simp [noteRepair]

@[simp] theorem held_repairRow (s : State) (d : Die) (bank row source : Nat) : (repairRow s d bank row source).held = s.held := by
  unfold repairRow
  split <;> simp

@[simp] theorem held_setBistLine (s : State) (d : Die) (i : Nat) (l : BistLine) :
    (setBistLine s d i l).held = s.held := by simp [setBistLine]

@[simp] theorem held_bistFinish (s : State) (d : Die) : (bistFinish s d).held = s.held := by simp [bistFinish]

@[simp] theorem held_bistStart (d : Die) (s : State) : (bistStart d s).held = s.held := by simp [bistStart]

@[simp] theorem held_restoreLine (s : State) (a : Nat) : (restoreLine s a).held = s.held := by simp [restoreLine]

@[simp] theorem held_bistMarch (d : Die) (i : Nat) (differs : Bool) (s : State) : (bistMarch d i differs s).held = s.held := by
  simp only [bistMarch]
  split <;> simp

@[simp] theorem held_bistRestore (d : Die) (i : Nat) (s : State) : (bistRestore d i s).held = s.held := by
  simp only [bistRestore]
  (repeat' split) <;> simp

/-! #### Context -/

@[simp] theorem held_stopFault (s : State) (d : Die) (q : CoreId) (x : SlotId) (cause : Nat) (src : Source) (addr : Nat) :
    (stopFault s d q x cause src addr).held = s.held := by simp [stopFault]

@[simp] theorem held_stopXlate (s : State) (d : Die) (q : CoreId) (x : SlotId) (addr : Nat) :
    (stopXlate s d q x addr).held = s.held := by simp [stopXlate]

@[simp] theorem held_stopIllegal (s : State) (d : Die) (q : CoreId) (x : SlotId) :
    (stopIllegal s d q x).held = s.held := by simp [stopIllegal]

@[simp] theorem held_bump (s : State) (d : Die) : (State.bump s d).held = s.held := by simp [State.bump]

@[simp] theorem held_finish (s : State) (d : Die) (q : CoreId) (x : SlotId) : (finish s d q x).held = s.held := by simp [finish]

@[simp] theorem held_advance (s : State) (d : Die) (q : CoreId) (x : SlotId) : (advance s d q x).held = s.held := by simp [advance]

@[simp] theorem held_park (s : State) (d : Die) (q : CoreId) (x : SlotId) (w : WaitCond) (stall : Nat) :
    (park s d q x w stall).held = s.held := by simp [park]

@[simp] theorem held_chargeStall (s : State) (d : Die) (q : CoreId) (x : SlotId) : (chargeStall s d q x).held = s.held := by
  simp only [chargeStall]
  (repeat' split) <;> simp

@[simp] theorem held_parkFull (s : State) (d : Die) (q : CoreId) (x : SlotId) (which stall : Nat) :
    (parkFull s d q x which stall).held = s.held := by simp [parkFull]

@[simp] theorem held_waitEffect (s : State) (d : Die) (q : CoreId) (x : SlotId) (w : WaitCond) : (waitEffect s d q x w).held = s.held := by
  unfold waitEffect
  split <;> simp

@[simp] theorem held_contextReady (d : Die) (q : CoreId) (x : SlotId) (s : State) : (contextReady d q x s).held = s.held := by
  simp only [contextReady]
  split <;> simp

@[simp] theorem held_issueWait (s : State) (d : Die) (q : CoreId) (x : SlotId) (w : WaitCond) :
    (issueWait s d q x w).held = s.held := by simp [issueWait]

theorem held_startSlot (d : Die) (q : CoreId) (x : SlotId) (s : State) : ∀ t ∈ startSlot d q x s, t.held = s.held := by simp [startSlot]

theorem held_stopSlot (d : Die) (q : CoreId) (x : SlotId) (s : State) : ∀ t ∈ stopSlot d q x s, t.held = s.held := by simp [stopSlot]

@[simp] theorem held_stopTakesEffect (d : Die) (q : CoreId) (x : SlotId) (s : State) :
    (stopTakesEffect d q x s).held = s.held := by simp [stopTakesEffect]

theorem held_saveSlot (d : Die) (q : CoreId) (x : SlotId) (a : Nat) (s : State) :
    ∀ t ∈ saveSlot d q x a s, t.held = s.held := by simp [saveSlot]

theorem held_restoreSlot (d : Die) (q : CoreId) (x : SlotId) (a : Nat) (s : State) :
    ∀ t ∈ restoreSlot d q x a s, t.held = s.held := by simp [restoreSlot]

theorem held_discardSlot (d : Die) (q : CoreId) (x : SlotId) (s : State) :
    ∀ t ∈ discardSlot d q x s, t.held = s.held := by simp [discardSlot]

theorem held_ctxCommand (d : Die) (q : CoreId) (w : Word) (s : State) : ∀ t ∈ ctxCommand d q w s, t.held = s.held := by
  simp only [ctxCommand]
  split
  · exact held_startSlot _ _ _ _
  · exact held_stopSlot _ _ _ _
  · exact held_saveSlot _ _ _ _ _
  · exact held_restoreSlot _ _ _ _ _
  · exact held_discardSlot _ _ _ _
  · simp

/-! #### Expander -/

@[simp] theorem held_expanderError (s : State) (d : Die) (q : CoreId) (cause : Nat) :
    (expanderError s d q cause).held = s.held := by simp [expanderError]

@[simp] theorem held_expanderAcc (s : State) (d : Die) (k : AccKind) (a n : Nat) (data : List (Byte × Bool)) (dest : AccDest) :
    (expanderAcc s d k a n data dest).held = s.held := by simp [expanderAcc]

@[simp] theorem held_deliverExpanded (s : State) (d : Die) (q : CoreId) (i : Nat) (stage : Bool) (psoff : Nat) (k : TileKind)
    (x : Expanded) : (deliverExpanded s d q i stage psoff k x).held = s.held := by simp [deliverExpanded]

@[simp] theorem held_expandBlock (s : State) (d : Die) (q : CoreId) (i : Nat) (stored : List (Byte × Bool)) (stage : Bool)
    (psoff e : Nat) (k : TileKind) : (expandBlock s d q i stored stage psoff e k).held = s.held := by simp [expandBlock]

@[simp] theorem held_readNext (s : State) (d : Die) (q : CoreId) (i a : Nat) (st : Bool) (ps e : Nat) (k : TileKind) (want : Nat)
    (data : List (Byte × Bool)) : (readNext s d q i a st ps e k want data).held = s.held := by simp [readNext]

@[simp] theorem held_expanderStart (d : Die) (q : CoreId) (s : State) : (expanderStart d q s).held = s.held := by
  fun_cases expanderStart <;> simp

/-! #### Feed -/

@[simp] theorem held_feedReject (s : State) (d : Die) (q : CoreId) (x : SlotId) (addr : Nat) :
    (feedReject s d q x addr).held = s.held := by simp [feedReject]

@[simp] theorem held_afeedIssue (d : Die) (q : CoreId) (s : State) : (afeedIssue d q s).held = s.held := by
  simp only [afeedIssue]
  split <;> simp

@[simp] theorem held_queueTile (s : State) (d : Die) (q : CoreId) (x : SlotId) (r : TileReq) :
    (queueTile s d q x r).held = s.held := by simp [queueTile]

@[simp] theorem held_queueBus (s : State) (d : Die) (q : CoreId) (x : SlotId) (r : BusReq) :
    (queueBus s d q x r).held = s.held := by simp [queueBus]

@[simp] theorem held_setReq (s : State) (d : Die) (i : Nat) (r : BusReq) : (setReq s d i r).held = s.held := by simp [setReq]

@[simp] theorem held_dropReq (s : State) (d : Die) (i : Nat) : (dropReq s d i).held = s.held := by simp [dropReq]

@[simp] theorem held_eachSub (s : State) (d : Die) (r : BusReq) (f : Core → Core) : (eachSub s d r f).held = s.held := by simp [eachSub]

@[simp] theorem held_doneErr (s : State) (d : Die) (r : BusReq) (a : Nat) : (doneErr s d r a).held = s.held := by simp [doneErr]

@[simp] theorem held_endPasses (s : State) (d : Die) (r : BusReq) : (endPasses s d r).held = s.held := by
  simp only [endPasses]
  (repeat' split) <;> simp

@[simp] theorem held_endWithout (s : State) (d : Die) (r : BusReq) : (endWithout s d r).held = s.held := by
  fun_cases endWithout <;> simp

@[simp] theorem held_busLookup (d : Die) (i : Nat) (s : State) : (busLookup d i s).held = s.held := by
  unfold busLookup
  split <;> simp

@[simp] theorem held_mcastTimeout (d : Die) (i : Nat) (s : State) : (mcastTimeout d i s).held = s.held := by
  unfold mcastTimeout
  split <;> simp

@[simp] theorem held_applyPlan (s : State) (d : Die) (i : Nat) (r : BusReq) (p : BusPlan) :
    (applyPlan s d i r p).held = s.held := by simp [applyPlan]

@[simp] theorem held_takeLine (s : State) (d : Die) (q : CoreId) (r : BusReq) (bytes : List (Byte × Bool)) (beat : Nat) :
    (takeLine s d q r bytes beat).held = s.held := by simp [takeLine]

@[simp] theorem held_giveLine (s : State) (d : Die) (i : Nat) (r : BusReq) (lane : Nat) (bytes : List (Byte × Bool)) (beat : Nat) :
    (giveLine s d i r lane bytes beat).held = s.held := by simp [giveLine]

@[simp] theorem held_busZero (d : Die) (i : Nat) (r : BusReq) (s : State) : (busZero d i r s).held = s.held := by simp [busZero]

@[simp] theorem held_putTransfer (s : State) (d : Die) (q : CoreId) (t : Transfer) (c : Core) :
    (putTransfer s d q t c).held = s.held := by simp [putTransfer]

/-! #### Steps -/

@[simp] theorem held_writeClosed (d : Die) (x : List (Nat × Word × Word)) (n : Nat) (s : State) : (writeClosed d x n s).held = s.held := by
  fun_induction writeClosed <;> simp [*]

@[simp] theorem held_recordStep (s : State) (d : Die) (t : Step) (status : Nat) :
    (recordStep s d t status).held = s.held := by simp [recordStep]

@[simp] theorem held_stepMisuse (s : State) (d : Die) (q : CoreId) (x : SlotId) (id : Nat) :
    (stepMisuse s d q x id).held = s.held := by simp [stepMisuse]

@[simp] theorem held_stepArrival (d : Die) (i : Nat) (s : State) : (stepArrival d i s).held = s.held := by
  simp only [stepArrival]
  (repeat' split) <;> simp

@[simp] theorem held_lateStep (d : Die) (t : Step) (s : State) : (lateStep d t s).held = s.held := by
  unfold lateStep
  split <;> simp

@[simp] theorem held_stepDeadline (d : Die) (id : Nat) (s : State) : (stepDeadline d id s).held = s.held := by
  unfold stepDeadline
  split <;> simp

@[simp] theorem held_closeBeat (s : State) (d : Die) : (closeBeat s d).held = s.held := by simp [closeBeat]

theorem held_abortStep (d : Die) (id : Nat) (s : State) : ∀ t ∈ abortStep d id s, t.held = s.held := by simp [abortStep]

@[simp] theorem held_stepReplica (s : State) (d : Die) (n : Nat) : (stepReplica s d n).held = s.held := by simp [stepReplica]

/-! #### Sync -/

@[simp] theorem held_syncFault (s : State) (d : Die) (code phys : Nat) (src : Source) (ctx : Option CtxRef) (unit : Nat) :
    (syncFault s d code phys src ctx unit).held = s.held := by simp [syncFault]

@[simp] theorem held_ctrAdd (s : State) (d : Die) (n amt : Nat) : (ctrAdd s d n amt).held = s.held := by simp [ctrAdd]

@[simp] theorem held_syncMisuse (s : State) (d : Die) (phys : Nat) (ctx : Option CtxRef) (unit : Nat) :
    (syncMisuse s d phys ctx unit).held = s.held := by simp [syncMisuse]

@[simp] theorem held_toBridge (s : State) (d : Die) (p : SigPacket) (id : XferId) : (toBridge s d p id).held = s.held := by simp [toBridge]

@[simp] theorem held_sendSig (s : State) (d : Die) (route ring pos win addr : Nat) (p : SigPacket) (xfer : Nat) :
    (sendSig s d route ring pos win addr p xfer).held = s.held := by simp [sendSig]

@[simp] theorem held_departSignal (s : State) (d : Die) (q : CoreId) (e : SigEntry) : (departSignal s d q e).held = s.held := by
  unfold departSignal
  split <;> simp

@[simp] theorem held_signalDepart (d : Die) (q : CoreId) (s : State) : (signalDepart d q s).held = s.held := by
  unfold signalDepart
  split <;> simp

@[simp] theorem held_applySignal (s : State) (d : Die) (p : SigPacket) : (applySignal s d p).held = s.held := by simp [applySignal]

theorem held_takeBridge (s : State) (d : Die) (f : SigPacket → Bool) : ∀ r ∈ takeBridge s d f, r.2.held = s.held := by
  simp only [takeBridge]
  split <;> simp

@[simp] theorem held_signalPacket (d : Die) (s : State) : (signalPacket d s).held = s.held := by
  unfold signalPacket
  split
  · rfl
  · next t e =>
    have ht : t.held = s.held := held_takeBridge _ _ _ _ e
    simp [ht]

@[simp] theorem held_fencedApply (d : Die) (i : Nat) (s : State) : (fencedApply d i s).held = s.held := by
  simp only [fencedApply]
  split <;> simp

@[simp] theorem held_countPacket (s : State) (d : Die) (id : XferId) (n : Nat) :
    (countPacket s d id n).held = s.held := by simp [countPacket]

@[simp] theorem held_waitMisuse (s : State) (d : Die) (q : CoreId) (x : SlotId) (vid phys pd : Nat) :
    (waitMisuse s d q x vid phys pd).held = s.held := by simp [waitMisuse]

@[simp] theorem held_waitTimeout (d : Die) (q : CoreId) (x : SlotId) (s : State) : (waitTimeout d q x s).held = s.held := by
  simp only [waitTimeout]
  split <;> simp

@[simp] theorem held_consume (s : State) (d : Die) (phys inc : Nat) (ctx : Option CtxRef) (unit : Nat) :
    (consume s d phys inc ctx unit).held = s.held := by simp [consume]

@[simp] theorem held_judgeConsumes (s : State) (d : Die) : (judgeConsumes s d).held = s.held := by simp [judgeConsumes]

@[simp] theorem held_takeReads (s : State) (d : Die) : (takeReads s d).held = s.held := by simp [takeReads]

@[simp] theorem held_barMisuse (s : State) (d : Die) (b : Fin 64) : (barMisuse s d b).held = s.held := by simp [barMisuse]

@[simp] theorem held_releaseDie (s : State) (d : Die) (b : Fin 64) : (releaseDie s d b).held = s.held := by simp [releaseDie]

@[simp] theorem held_endStep (s : State) : (endStep s).held = s.held := by simp [endStep]

@[simp] theorem held_backwardDue (s : State) : (backwardDue s).held = s.held := by simp [backwardDue]

@[simp] theorem held_waveReleased (s : State) (b : Fin 64) : (waveReleased s b).held = s.held := by
  fun_cases waveReleased <;> simp

@[simp] theorem held_releaseModule (s : State) (b : Fin 64) : (releaseModule s b).held = s.held := by simp [releaseModule]

@[simp] theorem held_releaseSegment (s : State) (b : Fin 64) : (releaseSegment s b).held = s.held := by simp [releaseSegment]

@[simp] theorem held_releaseRing (s : State) (b : Fin 64) : (releaseRing s b).held = s.held := by simp [releaseRing]

@[simp] theorem held_ringArrive (s : State) (b : Fin 64) (g : Nat) : (ringArrive s b g).held = s.held := by simp [ringArrive]

@[simp] theorem held_segComplete (s : State) (b : Fin 64) : (segComplete s b).held = s.held := by simp [segComplete]

@[simp] theorem held_segArrive (s : State) (b : Fin 64) (p : Nat) : (segArrive s b p).held = s.held := by simp [segArrive]

@[simp] theorem held_moduleComplete (s : State) (b : Fin 64) : (moduleComplete s b).held = s.held := by simp [moduleComplete]

@[simp] theorem held_moduleArrive (s : State) (b : Fin 64) (d : Nat) : (moduleArrive s b d).held = s.held := by simp [moduleArrive]

@[simp] theorem held_dieComplete (s : State) (d : Die) (b : Fin 64) : (dieComplete s d b).held = s.held := by simp [dieComplete]

@[simp] theorem held_dieUpward (s : State) (d : Die) (b : Fin 64) : (dieUpward s d b).held = s.held := by simp [dieUpward]

@[simp] theorem held_barsDue (s : State) (d : Die) : (barsDue s d).held = s.held := by simp [barsDue]

@[simp] theorem held_dropDue (s : State) (d : Die) (b : Fin 64) : (dropDue s d b).held = s.held := by simp [dropDue]

@[simp] theorem held_barArrive (s : State) (d : Die) (b : Fin 64) (q : CoreId) (x : SlotId) :
    (barArrive s d b q x).held = s.held := by simp [barArrive]

@[simp] theorem held_barrierArrival (d : Die) (i : Nat) (s : State) : (barrierArrival d i s).held = s.held := by
  unfold barrierArrival
  split <;> simp

@[simp] theorem held_barrierArrivalPacket (s : State) : (barrierArrivalPacket s).held = s.held := by
  unfold barrierArrivalPacket
  split
  · rfl
  · next t e =>
    have ht : t.held = s.held := held_takeBridge _ _ _ _ e
    simp [ht]

@[simp] theorem held_barrierReleasePacket (d : Die) (s : State) : (barrierReleasePacket d s).held = s.held := by
  unfold barrierReleasePacket
  split
  · rfl
  · next t e =>
    have ht : t.held = s.held := held_takeBridge _ _ _ _ e
    simp [ht]

@[simp] theorem held_armObject (s : State) (d : Die) (b : Fin 64) (w : Word) : (armObject s d b w).held = s.held := by simp [armObject]

@[simp] theorem held_disarmObject (s : State) (d : Die) (b : Fin 64) : (disarmObject s d b).held = s.held := by simp [disarmObject]

@[simp] theorem held_breakBarriers (s : State) : (breakBarriers s).held = s.held := by simp [breakBarriers]

@[simp] theorem held_syncClear (s : State) (d : Die) : (syncClear s d).held = s.held := by simp [syncClear]

@[simp] theorem held_departAll (d : Die) (q : CoreId) (n : Nat) (s : State) : (departAll d q n s).held = s.held := by
  fun_induction departAll <;> simp [*]

@[simp] theorem held_takePackets (d : Die) (n : Nat) (s : State) : (takePackets d n s).held = s.held := by
  induction n generalizing s with
  | zero => rfl
  | succ n ih => simp [takePackets, ih]

@[simp] theorem held_applyHeld (s : State) (d : Die) : (applyHeld s d).held = s.held := by simp [applyHeld]

@[simp] theorem held_arriveAll (s : State) (d : Die) : (arriveAll s d).held = s.held := by simp [arriveAll]

@[simp] theorem held_endWaits (s : State) (d : Die) : (endWaits s d).held = s.held := by
  simp only [endWaits]
  refine held_foldl (fun s e => ?_) _ _
  split <;> simp

@[simp] theorem held_syncBeat (s : State) (d : Die) : (syncBeat s d).held = s.held := by simp [syncBeat]

/-! #### Tier -/

@[simp] theorem held_damageStep (s : State) : (damageStep s).held = s.held := by simp [damageStep]

@[simp] theorem held_retireStack (s : State) (n cause : Nat) : (retireStack s n cause).held = s.held := by simp [retireStack]

@[simp] theorem held_triggerRetire (s : State) (n cause : Nat) : (triggerRetire s n cause).held = s.held := by simp [triggerRetire]

@[simp] theorem held_losePackage (s : State) (j : Nat) : (losePackage s j).held = s.held := by simp [losePackage]

@[simp] theorem held_noteEvent (s : State) (target : Nat) : (noteEvent s target).1.held = s.held := by simp [noteEvent]

@[simp] theorem held_linkEvent (s : State) (k : Nat) (ce : Bool) : (linkEvent s k ce).held = s.held := by simp [linkEvent]

@[simp] theorem held_noteRequest (s : State) (a : Nat) : (noteRequest s a).held = s.held := by
  unfold noteRequest
  split <;> simp

@[simp] theorem held_countStack (s : State) (n : Nat) (ce : Bool) : (countStack s n ce).held = s.held := by simp [countStack]

/-! #### Desc -/

@[simp] theorem held_pushAccess (s : State) (d : Die) (k : AccKind) (a n : Nat) (data : List (Byte × Bool)) (dest : AccDest) :
    (pushAccess s d k a n data dest).held = s.held := by simp [pushAccess]

@[simp] theorem held_pushPost (s : State) (d : Die) (c : Cluster) (a : Nat) (q : Option CoreId) (x : Option Ctx) :
    (pushPost s d c a q x).held = s.held := by simp [pushPost]

theorem held_postPrivileged (d : Die) (c : Cluster) (a : Nat) (s : State) :
    ∀ t ∈ postPrivileged d c a s, t.held = s.held := by simp [postPrivileged]

@[simp] theorem held_fillPost (s : State) (d : Die) (c : Cluster) (stamp : Nat) (data : List (Byte × Bool)) :
    (fillPost s d c stamp data).held = s.held := by simp [fillPost]

@[simp] theorem held_descError (s : State) (d : Die) (c : Cluster) (addr cause : Nat) :
    (descError s d c addr cause).held = s.held := by simp [descError]

/-! #### Dma -/

@[simp] theorem held_addTxn (s : State) (d : Die) (t : Txn) : (addTxn s d t).held = s.held := by simp [addTxn]

@[simp] theorem held_dmaPiece (s : State) (d : Die) (c : Cluster) (number a n : Nat) (k : AccKind) (data : List (Byte × Bool))
    (into : Option (Nat × AccKind)) : (dmaPiece s d c number a n k data into).held = s.held := by simp [dmaPiece]

@[simp] theorem held_onRunning (s : State) (d : Die) (c : Cluster) (number : Nat) (f : Running → Running) :
    (onRunning s d c number f).held = s.held := by simp [onRunning]

@[simp] theorem held_meetPoison (s : State) (d : Die) (c : Cluster) (number : Nat) :
    (meetPoison s d c number).held = s.held := by simp [meetPoison]

@[simp] theorem held_dmaWrite (s : State) (d : Die) (c : Cluster) (number a : Nat) (k : AccKind) (data : List (Byte × Bool)) :
    (dmaWrite s d c number a k data).held = s.held := by simp [dmaWrite]

@[simp] theorem held_dmaRead (s : State) (d : Die) (c : Cluster) (number a n : Nat) (into : Option (Nat × AccKind)) :
    (dmaRead s d c number a n into).held = s.held := by simp [dmaRead]

@[simp] theorem held_nextStretch (s : State) (d : Die) (c : Cluster) (number : Nat) : (nextStretch s d c number).held = s.held := by
  unfold nextStretch
  split <;> simp

@[simp] theorem held_moveBytes (s : State) (d : Die) (c : Cluster) (number : Nat) (p : Post) (tbl : List Nat) :
    (moveBytes s d c number p tbl).held = s.held := by
  fun_cases moveBytes <;> simp

@[simp] theorem held_closeWindow (s : State) (w : Fin 64) : (closeWindow s w).held = s.held := by simp [closeWindow]

@[simp] theorem held_closeUsed (s : State) (p : Post) : (closeUsed s p).held = s.held := by simp [closeUsed]

@[simp] theorem held_dropDesc (s : State) (d : Die) (c : Cluster) (r : Running) : (dropDesc s d c r).held = s.held := by simp [dropDesc]

@[simp] theorem held_abortDesc (s : State) (d : Die) (c : Cluster) (number cause : Nat) : (abortDesc s d c number cause).held = s.held := by
  unfold abortDesc
  split <;> simp

@[simp] theorem held_judgeTable (s : State) (d : Die) (c : Cluster) (r : Running) (tbl : Option (List Nat)) :
    (judgeTable s d c r tbl).held = s.held := by
  unfold judgeTable
  split <;> simp

@[simp] theorem held_gotTable (s : State) (d : Die) (c : Cluster) (r : Running) (got : List (Byte × Bool)) :
    (gotTable s d c r got).held = s.held := by simp [gotTable]

@[simp] theorem held_placeBlock (s : State) (d : Die) (c : Cluster) (r : Running) (blk : List (Byte × Bool)) :
    (placeBlock s d c r blk).held = s.held := by simp [placeBlock]

@[simp] theorem held_gotStretch (s : State) (d : Die) (c : Cluster) (r : Running) (got : List (Byte × Bool)) :
    (gotStretch s d c r got).held = s.held := by simp [gotStretch]

@[simp] theorem held_dmaGot (s : State) (d : Die) (c : Cluster) (number : Nat) (into : Option (Nat × AccKind)) (data : List (Byte × Bool)) :
    (dmaGot s d c number into data).held = s.held := by
  unfold dmaGot
  split <;> simp

@[simp] theorem held_startHead (d : Die) (c : Cluster) (mine : Nat → Bool) (s : State) : (startHead d c mine s).held = s.held := by
  simp only [startHead]
  (repeat' split) <;> simp

@[simp] theorem held_postSignal (s : State) (d : Die) (c : Cluster) (r : Running) : (postSignal s d c r).held = s.held := by
  fun_cases postSignal <;> simp

@[simp] theorem held_descComplete (d : Die) (c : Cluster) (i : Nat) (s : State) : (descComplete d c i s).held = s.held := by
  simp only [descComplete]
  split <;> simp

@[simp] theorem held_setTxn (s : State) (d : Die) (i : Nat) (t : Txn) : (setTxn s d i t).held = s.held := by simp [setTxn]

@[simp] theorem held_noteRemotePoison (s : State) (d : Die) (c : Cluster) (number : Nat) :
    (noteRemotePoison s d c number).held = s.held := by
  unfold noteRemotePoison
  split <;> simp

@[simp] theorem held_sendTxn (s : State) (d : Die) (i : Nat) (t : Txn) : (sendTxn s d i t).held = s.held := by
  simp only [sendTxn]
  (repeat' split) <;> simp

@[simp] theorem held_txnIssue (d : Die) (i : Nat) (s : State) : (txnIssue d i s).held = s.held := by
  fun_cases txnIssue <;> simp

@[simp] theorem held_landRead (s : State) (d : Die) (t : Txn) (data : List (Byte × Bool)) : (landRead s d t data).held = s.held := by
  unfold landRead
  split <;> simp

@[simp] theorem held_txnBack (s : State) (d : Die) (stamp : Nat) (data : List (Byte × Bool)) :
    (txnBack s d stamp data).held = s.held := by simp [txnBack]

@[simp] theorem held_countBridge (s : State) (d : Die) (t : Txn) : (countBridge s d t).held = s.held := by
  unfold countBridge
  split <;> simp

@[simp] theorem held_dropWindowTxns (s : State) (w : Fin 64) (cause : Nat) : (dropWindowTxns s w cause).held = s.held := by
  simp only [dropWindowTxns]
  refine held_foldl (fun s d => ?_) _ _
  rw [held_foldl fun s t => by split <;> simp]
  simp

@[simp] theorem held_loseWindow (s : State) (w : Fin 64) : (loseWindow s w).held = s.held := by simp [loseWindow]

@[simp] theorem held_loseWindows (s : State) (f : Fin 64 → Bool) : (loseWindows s f).held = s.held := by simp [loseWindows]

@[simp] theorem held_refuseWindow (s : State) (w : Fin 64) : (refuseWindow s w).held = s.held := by simp [refuseWindow]

@[simp] theorem held_openWindow (s : State) (w : Fin 64) (a : Word) : (openWindow s w a).held = s.held := by simp [openWindow]

theorem held_writeWindowA (w : Fin 64) (v : Word) (s : State) : ∀ t ∈ writeWindowA w v s, t.held = s.held := by
  fun_cases writeWindowA <;> simp

theorem held_writeWindowB (w : Fin 64) (v : Word) (s : State) : ∀ t ∈ writeWindowB w v s, t.held = s.held := by simp [writeWindowB]

@[simp] theorem held_openReply (w : Fin 64) (accepted : Bool) (s : State) : (openReply w accepted s).held = s.held := by simp [openReply]

@[simp] theorem held_openTimeout (w : Fin 64) (s : State) : (openTimeout w s).held = s.held := by simp [openTimeout]

@[simp] theorem held_revokeNotify (ring pos : Nat) (w : Fin 64) (base : Nat) (s : State) :
    (revokeNotify ring pos w base s).held = s.held := by simp [revokeNotify]

@[simp] theorem held_refuseDesc (s : State) (d : Die) (c : Cluster) (xfer : Nat) : (refuseDesc s d c xfer).held = s.held := by
  unfold refuseDesc
  split <;> simp

@[simp] theorem held_refuseScalar (s : State) (d : Die) (w : Fin 64) (pkt : Nat) : (refuseScalar s d w pkt).held = s.held := by
  simp only [refuseScalar]
  (repeat' split) <;> simp

@[simp] theorem held_packetRefusal (d : Die) (w : Fin 64) (xfer pkt : Nat) (s : State) :
    (packetRefusal d w xfer pkt s).held = s.held := by simp [packetRefusal]

@[simp] theorem held_revokeImport (s : State) (i : Fin 16) : (revokeImport s i).held = s.held := by simp [revokeImport]

theorem held_writeImportA (i : Fin 16) (v : Word) (s : State) : ∀ t ∈ writeImportA i v s, t.held = s.held := by simp [writeImportA]

theorem held_writeImportB (i : Fin 16) (v : Word) (s : State) : ∀ t ∈ writeImportB i v s, t.held = s.held := by simp [writeImportB]

@[simp] theorem held_openRequest (p : RemotePkt) (s : State) : (openRequest p s).held = s.held := by
  unfold openRequest
  split <;> simp

@[simp] theorem held_accessBack (s : State) (d : Die) (a : Access) : (accessBack s d a).held = s.held := by
  fun_cases accessBack <;> simp

@[simp] theorem held_returnAccess (d : Die) (i : Nat) (s : State) : (returnAccess d i s).held = s.held := by
  unfold returnAccess
  split <;> simp

/-! #### Link -/

@[simp] theorem held_setPort (s : State) (p : Port) (x : PortSt) : (State.setPort s p x).held = s.held := by simp [State.setPort]

@[simp] theorem held_setStream (s : State) (x : StreamId) (t : StreamSt) :
    (State.setStream s x t).held = s.held := by simp [State.setStream]

@[simp] theorem held_setLane (s : State) (p : Port) (l st : Nat) : (setLane s p l st).held = s.held := by simp [setLane]

@[simp] theorem held_portFault (s : State) (src : Source) (p : Port) (detail : Nat) :
    (portFault s src p detail).held = s.held := by simp [portFault]

@[simp] theorem held_setTb (s : State) (st : Nat) : (setTb s st).held = s.held := by simp [setTb]

@[simp] theorem held_upstreamLost (s : State) : (upstreamLost s).held = s.held := by simp [upstreamLost]

@[simp] theorem held_upstreamServes (s : State) (p : Port) : (upstreamServes s p).held = s.held := by simp [upstreamServes]

@[simp] theorem held_forwardStep (s : State) (n : Nat) : (forwardStep s n).held = s.held := by simp [forwardStep]

@[simp] theorem held_failPort (s : State) (p : Port) (cause : Nat) (bypassed : Bool) :
    (failPort s p cause bypassed).held = s.held := by simp [failPort]

@[simp] theorem held_loseLane (s : State) (p : Port) (phys : Nat) : (loseLane s p phys).held = s.held := by
  simp only [loseLane]
  (repeat' split) <;> simp

@[simp] theorem held_sendFrame (s : State) (p : Port) (f : Frame) : (sendFrame s p f).held = s.held := by simp [sendFrame]

@[simp] theorem held_sendLink (s : State) (p : Port) (code : Nat) (w0 w1 w2 : Word) :
    (sendLink s p code w0 w1 w2).held = s.held := by simp [sendLink]

@[simp] theorem held_sendId (s : State) (p : Port) : (sendId s p).held = s.held := by simp [sendId]

@[simp] theorem held_sendIds (s : State) : (sendIds s).held = s.held := by simp [sendIds]

@[simp] theorem held_sendPartAnn (s : State) (p : Port) : (sendPartAnn s p).held = s.held := by simp [sendPartAnn]

@[simp] theorem held_sendNoteWay (s : State) (east : Bool) (code : Nat) (w0 w1 w2 : Word) :
    (sendNoteWay s east code w0 w1 w2).held = s.held := by simp [sendNoteWay]

@[simp] theorem held_sendNote (s : State) (code : Nat) (w0 w1 w2 : Word) : (sendNote s code w0 w1 w2).held = s.held := by simp [sendNote]

@[simp] theorem held_resendFrom (s : State) (p : Port) (lane from_ : Nat) :
    (resendFrom s p lane from_).held = s.held := by simp [resendFrom]

@[simp] theorem held_oweCredit (s : State) (p : Port) (e : Nat) : (oweCredit s p e).held = s.held := by simp [oweCredit]

@[simp] theorem held_startSubst (s : State) (p : Port) (logical : Nat) (hard : Bool) : (startSubst s p logical hard).held = s.held := by
  unfold startSubst
  split <;> simp

@[simp] theorem held_nextSubst (s : State) (p : Port) : (nextSubst s p).held = s.held := by
  simp only [nextSubst]
  split <;> simp

@[simp] theorem held_ackFrames (s : State) (p : Port) (lane lack : Nat) : (ackFrames s p lane lack).held = s.held := by simp [ackFrames]

@[simp] theorem held_gainCredits (s : State) (p : Port) (e n : Nat) : (gainCredits s p e n).held = s.held := by simp [gainCredits]

@[simp] theorem held_switchMap (s : State) (p : Port) (b : Subst) (lseq : Nat) : (switchMap s p b lseq).held = s.held := by simp [switchMap]

@[simp] theorem held_rxLane (s : State) (h : RxHead) : (rxLane s h).2.held = s.held := by
  unfold rxLane
  split
  · split <;> simp
  · rfl

@[simp] theorem held_sendNak (s : State) (p : Port) (phys lane : Nat) : (sendNak s p phys lane).held = s.held := by simp [sendNak]

/-- The state that a frame's arrival leaves. -/
def Taken.state : Taken → State
  | .no s => s
  | .yes s _ => s

@[simp] theorem Taken.state_no (s : State) : (Taken.no s).state = s := rfl
@[simp] theorem Taken.state_yes (s : State) (l : Option Nat) : (Taken.yes s l).state = s := rfl
@[simp] theorem Taken.state_ite (c : Prop) [Decidable c] (a b : Taken) :
    (if c then a else b).state = if c then a.state else b.state := apply_ite _ _ _ _

theorem held_receive (s : State) (h : RxHead) (idle : Bool) : (receive s h idle).state.held = s.held := by
  simp only [receive]
  split
  · rfl
  · split
    · split <;> simp
    · split
      · simp
      · split
        · simp
        · split
          · split <;> simp
          · simp

theorem held_of_receive_no {s t : State} {h : RxHead} {idle : Bool} (e : receive s h idle = .no t) : t.held = s.held := by
  simpa [e] using held_receive s h idle

theorem held_of_receive_yes {s t : State} {h : RxHead} {idle : Bool} {l : Option Nat} (e : receive s h idle = .yes t l) :
    t.held = s.held := by
  simpa [e] using held_receive s h idle

@[simp] theorem held_passFrame (s : State) (h : RxHead) (e : Nat) (body : FrameBody) : (passFrame s h e body).held = s.held := by
  simp only [passFrame]
  split <;> simp

/-! #### Uplink -/

@[simp] theorem held_sendUp (s : State) (typ rtag : Nat) (body : List Byte) : (sendUp s typ rtag body).held = s.held := by simp [sendUp]

@[simp] theorem held_requestBlocks (s : State) (r : BlockReq) : (requestBlocks s r).held = s.held := by simp [requestBlocks]

@[simp] theorem held_sendSeqEnd (s : State) (id reason count : Nat) : (sendSeqEnd s id reason count).held = s.held := by simp [sendSeqEnd]

@[simp] theorem held_loseSeqs (s : State) (f : Seq → Bool) : (loseSeqs s f).held = s.held := by simp [loseSeqs]

@[simp] theorem held_setCohort (s : State) (c : Fin 8) (st : Nat) : (setCohort s c st).held = s.held := by simp [setCohort]

@[simp] theorem held_holdCohort (s : State) (c : Fin 8) : (holdCohort s c).held = s.held := by simp [holdCohort]

@[simp] theorem held_holdCohorts (s : State) : (holdCohorts s).held = s.held := by simp [holdCohorts]

/-! #### Ctrl -/

@[simp] theorem held_setCtrl (s : State) (x : CtrlSt) : (State.setCtrl s x).held = s.held := by simp [State.setCtrl]

@[simp] theorem held_ctrlBegin (s : State) : (ctrlBegin s).held = s.held := by simp [ctrlBegin]

@[simp] theorem held_ctrlTake (s : State) (f : CtrlHead) : (ctrlTake s f).2.held = s.held := by
  simp only [ctrlTake]
  (repeat' split) <;> simp

@[simp] theorem held_rebuildMsg (s : State) (f : CtrlHead) (hello : Bool) : (rebuildMsg s f hello).2.held = s.held := by
  simp only [rebuildMsg]
  (repeat' split) <;> simp

@[simp] theorem held_takeTurn (s : State) (tag : Nat) : (takeTurn s tag).held = s.held := by simp [takeTurn]

theorem held_dueMessage (s : State) : ∀ r ∈ dueMessage s, r.2.held = s.held := by
  fun_cases dueMessage <;> simp

@[simp] theorem held_ctrlTransmit (s : State) : (ctrlTransmit s).held = s.held := by
  fun_cases ctrlTransmit <;> simp

@[simp] theorem held_ctrlIdle (f : CtrlHead) (s : State) : (ctrlIdle f s).held = s.held := by simp [ctrlIdle]

@[simp] theorem held_ctrlNak (f : CtrlHead) (w0 : Word) (s : State) : (ctrlNak f w0 s).held = s.held := by simp [ctrlNak]

@[simp] theorem held_ctrlRetry (lane : Nat) (s : State) : (ctrlRetry lane s).held = s.held := by
  simp only [ctrlRetry]
  split <;> simp

/-! #### Circ -/

@[simp] theorem held_handOn (s : State) (x : StreamId) (n : Nat) : (handOn s x n).held = s.held := by
  induction n generalizing s with
  | zero => rfl
  | succ n ih =>
    simp only [handOn]
    split <;> simp [ih]

@[simp] theorem held_rebuildFrame (s : State) (p : Port) (e : Nat) (x : StreamId) (q sub : Nat) (eot : Bool) (bytes : List Byte) :
    (rebuildFrame s p e x q sub eot bytes).held = s.held := by simp [rebuildFrame]

@[simp] theorem held_blockFrame (h : RxHead) (sot eot : Bool) (q sub : Nat) (bytes : List Byte) (s : State) :
    (blockFrame h sot eot q sub bytes s).held = s.held := by
  unfold blockFrame
  split
  · next e => exact held_of_receive_no e
  · next e =>
    have hr := held_of_receive_yes e
    split
    · simp [hr]
    · split <;> simp [hr]

@[simp] theorem held_waveTaken (s : State) (x : StreamId) : (waveTaken s x).2.held = s.held := by
  simp only [waveTaken]
  (repeat' split) <;> simp

@[simp] theorem held_waveHead (s : State) (x : StreamId) (taken : Bool) : (waveHead s x taken).held = s.held := by simp [waveHead]

@[simp] theorem held_fixPasses (s : State) (x : StreamId) (l : Nat) : (fixPasses s x l).held = s.held := by
  simp only [fixPasses]
  split <;> simp

@[simp] theorem held_headTimes (s : State) (x : StreamId) (l : Nat) : (headTimes s x l).held = s.held := by
  simp only [headTimes]
  (repeat' split) <;> simp

theorem held_landOn (s : State) (d : Die) (x : StreamId) (b : Blk) (copy : Bool) : ∀ t ∈ landOn s d x b copy, t.held = s.held := by
  simp only [landOn]
  (repeat' split) <;> simp

theorem held_nextBlock (s : State) (x : StreamId) : ∀ r ∈ nextBlock s x, r.2.held = s.held := by
  simp only [nextBlock]
  (repeat' split) <;> simp

@[simp] theorem held_askAgain (s : State) (x : StreamId) : (askAgain s x).held = s.held := by simp [askAgain]

@[simp] theorem held_tickNote (s : State) : (tickNote s).held = s.held := by simp [tickNote]

@[simp] theorem held_gather (s : State) (x : StreamId) (first hi : Nat) : (gather s x first hi).held = s.held := by simp [gather]

@[simp] theorem held_openGap (s : State) (x : StreamId) (hi : Nat) : (openGap s x hi).held = s.held := by
  simp only [openGap]
  split <;> simp

@[simp] theorem held_endRefill (s : State) (x : StreamId) : (endRefill s x).held = s.held := by
  simp only [endRefill]
  (repeat' split) <;> simp

@[simp] theorem held_landLayer (s : State) (x : StreamId) (q : Nat) (h : Header) : (landLayer s x q h).held = s.held := by simp [landLayer]

@[simp] theorem held_noteGradient (s : State) (q : Nat) (h : Header) : (noteGradient s q h).held = s.held := by simp [noteGradient]

@[simp] theorem held_setRun (s : State) (x : StreamId) (d : Die) : (setRun s x d).held = s.held := by
  simp only [setRun]
  split <;> simp

@[simp] theorem held_landingStart (x : StreamId) (s : State) : (landingStart x s).held = s.held := by
  simp only [landingStart]
  split
  · rfl
  · split
    · simp
    · next b t e =>
      have ht : t.held = s.held := by simpa using held_nextBlock _ _ _ e
      split
      · simp
      · next u eu =>
        obtain ⟨v, hv, hu⟩ := Option.bind_eq_some_iff.mp eu
        have hv' : v.held = t.held := held_landOn _ _ _ _ _ _ hv
        have hu' : u.held = v.held := by
          split at hu
          · exact held_landOn _ _ _ _ _ _ hu
          · rw [Option.some.inj hu]
        simp [hu', hv', ht]

@[simp] theorem held_markLanded (s : State) (x : StreamId) (w : WinEntry) : (markLanded s x w).held = s.held := by simp [markLanded]

@[simp] theorem held_spliceProgress (s : State) : (spliceProgress s).held = s.held := by
  unfold spliceProgress
  split <;> simp

@[simp] theorem held_blockForwarded (x : StreamId) (s : State) : (blockForwarded x s).held = s.held := by
  unfold blockForwarded
  split <;> simp

@[simp] theorem held_periodRefresh (s : State) : (periodRefresh s).held = s.held := by
  simp only [periodRefresh]
  split <;> simp

/-! #### Port -/

theorem held_blockFrameOut (s : State) (x : StreamId) : ∀ r ∈ blockFrameOut s x, r.2.held = s.held := by
  unfold blockFrameOut
  split <;> simp

@[simp] theorem held_payCredits (s : State) (p : Port) : (payCredits s p).held = s.held := by
  simp only [payCredits]
  split <;> simp

@[simp] theorem held_putOnLane (s : State) (p : Port) (lane : Nat) (f : Frame) : (putOnLane s p lane f).held = s.held := by
  unfold putOnLane
  split <;> simp

@[simp] theorem held_portUp (s : State) (p : Port) : (portUp s p).held = s.held := by simp [portUp]

@[simp] theorem held_flushDone (s : State) : (flushDone s).held = s.held := by simp [flushDone]

@[simp] theorem held_frameTransmit (p : Port) (e : Fin 4) (s : State) : (frameTransmit p e s).held = s.held := by
  simp only [frameTransmit]
  split
  · rfl
  · split
    · simp
    · split
      · split <;> simp
      · split
        · simp
        · split
          · simp
          · next f t e =>
            have ht : t.held = s.held := by
              split at e
              · cases e
              · obtain ⟨g, -, hg⟩ := Option.map_eq_some_iff.mp e
                cases hg; simp
              · obtain ⟨g, -, hg⟩ := Option.map_eq_some_iff.mp e
                cases hg; simp
              · obtain ⟨g, hg', hg⟩ := Option.map_eq_some_iff.mp e
                cases hg; exact held_blockFrameOut _ _ _ hg'
            simp [ht]

@[simp] theorem held_idle (h : RxHead) (s : State) : (idle h s).held = s.held := by
  unfold idle
  split
  · next e => exact held_of_receive_no e
  · next e => exact held_of_receive_yes e

@[simp] theorem held_loseArc (s : State) : (loseArc s).held = s.held := by simp [loseArc]

@[simp] theorem held_leaveUpstream (s : State) (q : Nat) : (leaveUpstream s q).held = s.held := by simp [leaveUpstream]

@[simp] theorem held_positionLost (s : State) (q : Nat) : (positionLost s q).held = s.held := by simp [positionLost]

@[simp] theorem held_owedFor (s : State) (l : List Frame) : (owedFor s l).held = s.held := by
  refine held_foldl (fun s f => ?_) _ _
  split <;> simp

@[simp] theorem held_endHalfSent (s : State) (near : Port) (hi : Assoc Nat Nat) : (endHalfSent s near hi).held = s.held := by
  refine held_foldl (fun s x => ?_) _ _
  split <;> simp

@[simp] theorem held_discardHeld (s : State) (near : Port) : (discardHeld s near).held = s.held := by simp [discardHeld]

@[simp] theorem held_moveFrames (s : State) (near skip : Port) : (moveFrames s near skip).held = s.held := by simp [moveFrames]

@[simp] theorem held_sendBounds (s : State) (near skip : Port) (q : Nat) (hi : Assoc Nat Nat) :
    (sendBounds s near skip q hi).held = s.held := by
  refine held_foldl (fun s e => ?_) _ _
  dsimp only
  split <;> simp

@[simp] theorem held_sendForeign (s : State) (arc : Nat) (w0 : Word) : (sendForeign s arc w0).held = s.held := by
  refine held_foldl (fun s east => ?_) _ _
  dsimp only
  split <;> simp

@[simp] theorem held_tellForeign (s : State) (near skip : Port) (own : Option Nat) (cut : Bool) (q : Nat) :
    (tellForeign s near skip own cut q).held = s.held := by simp [tellForeign]

@[simp] theorem held_startSkip (s : State) (east : Bool) : (startSkip s east).held = s.held := by
  simp only [startSkip, held_ite, held_tickNote, held_setFld, held_tellForeign, held_sendNote, held_loseArc, held_positionLost,
    held_moveFrames, held_sendBounds, held_endHalfSent, ite_self]

@[simp] theorem held_failPortBypass (s : State) (p : Port) (cause : Nat) :
    (failPortBypass s p cause).held = s.held := by simp [failPortBypass]

@[simp] theorem held_portSignal (p : Port) (s : State) : (portSignal p s).held = s.held := by simp [portSignal]

@[simp] theorem held_portTrained (p : Port) (spares : List Nat) (s : State) :
    (portTrained p spares s).held = s.held := by simp [portTrained]

@[simp] theorem held_portTrainTimeout (p : Port) (s : State) : (portTrainTimeout p s).held = s.held := by simp [portTrainTimeout]

@[simp] theorem held_portDown (s : State) (p : Port) : (portDown s p).held = s.held := by simp [portDown]

@[simp] theorem held_formFail (s : State) (cause : Nat) : (formFail s cause).held = s.held := by simp [formFail]

@[simp] theorem held_standIn (s : State) (p : Port) : (standIn s p).held = s.held := by simp [standIn]

@[simp] theorem held_peerPlace (s : State) (p : Port) : (peerPlace s p).held = s.held := by simp [peerPlace]

@[simp] theorem held_idFrame (h : RxHead) (w0 w2 : Word) (s : State) : (idFrame h w0 w2 s).held = s.held := by
  unfold idFrame
  split
  · next e => exact held_of_receive_no e
  · next e =>
    have hr := held_of_receive_yes e
    simp [hr]

@[simp] theorem held_laneSilent (s : State) (p : Port) (l : Nat) : (laneSilent s p l).held = s.held := by
  unfold laneSilent
  split <;> simp

@[simp] theorem held_laneSilence (p : Port) (lanes : List Nat) (s : State) : (laneSilence p lanes s).held = s.held := by simp [laneSilence]

@[simp] theorem held_softTrigger (s : State) (p : Port) (l : Nat) : (softTrigger s p l).held = s.held := by simp [softTrigger]

@[simp] theorem held_substFrame (h : RxHead) (w0 : Word) (s : State) : (substFrame h w0 s).held = s.held := by
  unfold substFrame
  split
  · next e => exact held_of_receive_no e
  · next e =>
    have hr := held_of_receive_yes e
    simp [hr]

@[simp] theorem held_substDone (h : RxHead) (w0 : Word) (s : State) : (substDone h w0 s).held = s.held := by
  unfold substDone
  split
  · next e => exact held_of_receive_no e
  · next e =>
    have hr := held_of_receive_yes e
    simp [hr]

@[simp] theorem held_adaptFrame (h : RxHead) (w0 : Word) (s : State) : (adaptFrame h w0 s).held = s.held := by
  unfold adaptFrame
  split
  · next e => exact held_of_receive_no e
  · next e =>
    have hr := held_of_receive_yes e
    simp [hr]

@[simp] theorem held_adaptRequest (p : Port) (l idx : Nat) (up : Bool) (s : State) :
    (adaptRequest p l idx up s).held = s.held := by simp [adaptRequest]

@[simp] theorem held_nakFrame (h : RxHead) (w0 : Word) (s : State) : (nakFrame h w0 s).held = s.held := by
  unfold nakFrame
  split
  · next e => exact held_of_receive_no e
  · next e =>
    have hr := held_of_receive_yes e
    simp [hr]

@[simp] theorem held_partAnn (h : RxHead) (w0 w1 : Word) (s : State) : (partAnn h w0 w1 s).held = s.held := by
  unfold partAnn
  split
  · next e => exact held_of_receive_no e
  · next e =>
    have hr := held_of_receive_yes e
    simp [hr]

@[simp] theorem held_retryTimeout (p : Port) (lane : Nat) (s : State) : (retryTimeout p lane s).held = s.held := by
  simp only [retryTimeout]
  split <;> simp

@[simp] theorem held_tsSend (s : State) : (tsSend s).held = s.held := by simp [tsSend]

@[simp] theorem held_upstreamHeard (s : State) : (upstreamHeard s).held = s.held := by simp [upstreamHeard]

@[simp] theorem held_applyOffset (s : State) (o : Int) : (applyOffset s o).held = s.held := by
  simp only [applyOffset]
  split <;> simp

@[simp] theorem held_tsFrame (h : RxHead) (w0 w1 w2 : Word) (s : State) : (tsFrame h w0 w1 w2 s).held = s.held := by
  unfold tsFrame
  split
  · next e => exact held_of_receive_no e
  · next e =>
    have hr := held_of_receive_yes e
    simp [hr]

@[simp] theorem held_tbLock (s : State) : (tbLock s).held = s.held := by simp [tbLock]

@[simp] theorem held_tbTimeout (s : State) : (tbTimeout s).held = s.held := by simp [tbTimeout]

@[simp] theorem held_writeTbConf (v : Word) (s : State) : (writeTbConf v s).held = s.held := by simp [writeTbConf]

theorem held_writeTbSet (v : Word) (s : State) : ∀ t ∈ writeTbSet v s, t.held = s.held := by simp [writeTbSet]

/-! #### Break -/

@[simp] theorem held_stopSlots (s : State) (d : Die) : (stopSlots s d).held = s.held := by simp [stopSlots]

@[simp] theorem held_abandonBus (s : State) (d : Die) : (abandonBus s d).held = s.held := by simp [abandonBus]

@[simp] theorem held_scheduleBreak (s : State) : (scheduleBreak s).held = s.held := by simp [scheduleBreak]

@[simp] theorem held_beginPass (s : State) : (beginPass s).held = s.held := by simp [beginPass]

@[simp] theorem held_leaveRing (s : State) (hubIntact : Bool) : (leaveRing s hubIntact).held = s.held := by simp [leaveRing]

/-! #### Ring -/

theorem held_writeAdmit (v : Word) (s : State) : ∀ t ∈ writeAdmit v s, t.held = s.held := by
  simp only [writeAdmit]
  (repeat' split) <;> simp

theorem held_formOnward (s : State) (c segs : Nat) : ∀ t ∈ formOnward s c segs, t.held = s.held := by
  unfold formOnward
  split <;> simp

@[simp] theorem held_takePosition (s : State) (c : Nat) : (takePosition s c).held = s.held := by simp [takePosition]

theorem held_writeForm (v : Word) (s : State) : ∀ t ∈ writeForm v s, t.held = s.held := by
  simp only [writeForm]
  split
  · simp
  · split
    · next t e =>
      have ht := held_formOnward _ _ _ _ e
      simpa using ht
    · simp

@[simp] theorem held_formFrame (h : RxHead) (w0 : Word) (s : State) : (formFrame h w0 s).held = s.held := by
  unfold formFrame
  split
  · next e => exact held_of_receive_no e
  · next e =>
    have hr := held_of_receive_yes e
    dsimp only
    split
    · simp [hr]
    · split
      · exact hr
      · split
        · simp [hr]
        · split
          · next t e => simpa [hr] using held_formOnward _ _ _ _ e
          · simp [hr]

@[simp] theorem held_formTimeout (s : State) : (formTimeout s).held = s.held := by simp [formTimeout]

@[simp] theorem held_landOwned (s : State) : (landOwned s).held = s.held := by simp [landOwned]

@[simp] theorem held_startSplice (s : State) : (startSplice s).held = s.held := by simp [startSplice]

@[simp] theorem held_countMembers (s : State) : (countMembers s).held = s.held := by simp [countMembers]

@[simp] theorem held_startCirculation (s : State) : (startCirculation s).held = s.held := by simp [startCirculation]

theorem held_writeRingConf (v : Word) (s : State) : ∀ t ∈ writeRingConf v s, t.held = s.held := by
  fun_cases writeRingConf <;> simp

theorem held_writeArc (v : Word) (s : State) : ∀ t ∈ writeArc v s, t.held = s.held := by simp [writeArc]

theorem held_writePart (r : Reg) (p : Port) (locked : Bool) (v : Word) (s : State) :
    ∀ t ∈ writePart r p locked v s, t.held = s.held := by simp [writePart]

theorem held_writeWindow (v : Word) (s : State) : ∀ t ∈ writeWindow v s, t.held = s.held := by
  simp only [writeWindow]
  split <;> simp

theorem held_writeCohort (c : Fin 8) (v : Word) (s : State) : ∀ t ∈ writeCohort c v s, t.held = s.held := by simp [writeCohort]

theorem held_writeOwn (r : Fin 16) (v : Word) (s : State) : ∀ t ∈ writeOwn r v s, t.held = s.held := by
  simp only [writeOwn]
  (repeat' split) <;> simp

theorem held_writeBypass (v : Word) (s : State) : ∀ t ∈ writeBypass v s, t.held = s.held := by
  unfold writeBypass
  split <;> simp

@[simp] theorem held_restoreSwitch (east : Bool) (s : State) : (restoreSwitch east s).held = s.held := by simp [restoreSwitch]

theorem held_noteFrame (h : RxHead) (code origin number : Nat) (w0 w1 w2 : Word) {act : State → State} (s : State)
    {other : State → State} (hact : ∀ t, (act t).held = t.held) (hother : ∀ t, (other t).held = t.held) :
    (noteFrame h code origin number w0 w1 w2 act s other).held = s.held := by
  unfold noteFrame
  split
  · next e => exact held_of_receive_no e
  · next e =>
    have hr := held_of_receive_yes e
    split
    · simp [hr]
    · split <;> simp [hr, hact, hother]

@[simp] theorem held_awaitBound (s : State) (x : StreamId) : (awaitBound s x).held = s.held := by simp [awaitBound]

@[simp] theorem held_boundPast (s : State) (near : Port) (q : Nat) : (boundPast s near q).held = s.held := by simp [boundPast]

@[simp] theorem held_passBypass (s : State) (q kind : Nat) : (passBypass s q kind).held = s.held := by simp [passBypass]

@[simp] theorem held_actBypass (s : State) (q kind : Nat) : (actBypass s q kind).held = s.held := by simp [actBypass]

@[simp] theorem held_bypassNote (h : RxHead) (w0 : Word) (s : State) :
    (bypassNote h w0 s).held = s.held := held_noteFrame _ _ _ _ _ _ _ _ (fun _ => held_actBypass ..) (fun _ => held_passBypass ..)

@[simp] theorem held_actRestore (s : State) (q : Nat) : (actRestore s q).held = s.held := by simp [actRestore]

@[simp] theorem held_restoreNote (h : RxHead) (w0 : Word) (s : State) :
    (restoreNote h w0 s).held = s.held := held_noteFrame _ _ _ _ _ _ _ _ (fun _ => held_actRestore ..) (fun _ => rfl)

@[simp] theorem held_actSplice (s : State) (q : Nat) : (actSplice s q).held = s.held := by simp [actSplice]

@[simp] theorem held_spliceNote (h : RxHead) (w0 : Word) (s : State) :
    (spliceNote h w0 s).held = s.held := held_noteFrame _ _ _ _ _ _ _ _ (fun _ => held_actSplice ..) (fun _ => rfl)

@[simp] theorem held_actSpliced (s : State) (ranges : Nat) : (actSpliced s ranges).held = s.held := by simp [actSpliced]

@[simp] theorem held_splicedNote (h : RxHead) (w0 : Word) (s : State) :
    (splicedNote h w0 s).held = s.held := held_noteFrame _ _ _ _ _ _ _ _ (fun _ => held_actSpliced ..) (fun _ => rfl)

theorem held_writeSplice (v : Word) (s : State) : ∀ t ∈ writeSplice v s, t.held = s.held := by
  fun_cases writeSplice <;> simp

@[simp] theorem held_gapBound (h : RxHead) (w0 : Word) (s : State) : (gapBound h w0 s).held = s.held := by
  unfold gapBound
  split
  · next e => exact held_of_receive_no e
  · next e =>
    have hr := held_of_receive_yes e
    split
    · simp [hr]
    · split <;> simp [hr]

@[simp] theorem held_actGapReq (s : State) (w0 w1 w2 : Word) : (actGapReq s w0 w1 w2).held = s.held := by simp [actGapReq]

@[simp] theorem held_gapReq (h : RxHead) (w0 w1 w2 : Word) (s : State) :
    (gapReq h w0 w1 w2 s).held = s.held := held_noteFrame _ _ _ _ _ _ _ _ (fun _ => held_actGapReq ..) (fun _ => rfl)

@[simp] theorem held_startReload (s : State) : (startReload s).held = s.held := by simp [startReload]

@[simp] theorem held_actGapDone (s : State) (pos number : Nat) : (actGapDone s pos number).held = s.held := by simp [actGapDone]

@[simp] theorem held_gapDone (h : RxHead) (w0 w1 : Word) (s : State) :
    (gapDone h w0 w1 s).held = s.held := held_noteFrame _ _ _ _ _ _ _ _ (fun _ => held_actGapDone ..) (fun _ => rfl)

@[simp] theorem held_reinjTimeout (s : State) : (reinjTimeout s).held = s.held := by simp [reinjTimeout]

@[simp] theorem held_stagePart (s : State) (a n : Nat) : (stagePart s a n).held = s.held := by simp [stagePart]

@[simp] theorem held_stageLoaded (s : State) (q : Nat) : (stageLoaded s q).held = s.held := by simp [stageLoaded]

theorem held_writeReinjCtrl (v : Word) (s : State) : ∀ t ∈ writeReinjCtrl v s, t.held = s.held := by
  simp only [writeReinjCtrl]
  split <;> simp

/-! #### Hbm -/

@[simp] theorem held_beginStep (s : State) (t : Nat) : (beginStep s t).held = s.held := by simp [beginStep]

@[simp] theorem held_retrainStart (t : Nat) (s : State) : (retrainStart t s).held = s.held := by simp [retrainStart]

@[simp] theorem held_retrainForced (t : Nat) (s : State) : (retrainForced t s).held = s.held := by simp [retrainForced]

@[simp] theorem held_retrainEnd (t : Nat) (lock : Bool) (s : State) : (retrainEnd t lock s).held = s.held := by simp [retrainEnd]

@[simp] theorem held_tempRead (n temp : Nat) (crit : Bool) (s : State) : (tempRead n temp crit s).held = s.held := by simp [tempRead]

theorem held_writeStackCmd (n : Nat) (v : Word) (s : State) : ∀ t ∈ writeStackCmd n v s, t.held = s.held := by
  unfold writeStackCmd
  split <;> simp

@[simp] theorem held_stackRetire (s : State) (n : Nat) : (stackRetire s n).held = s.held := by simp [stackRetire]

@[simp] theorem held_stackRetired (n : Nat) (s : State) : (stackRetired n s).held = s.held := by simp [stackRetired]

/-! #### Service -/

@[simp] theorem held_setReady (s : State) (i : Nat) (b : Bool) : (setReady s i b).held = s.held := by simp [setReady]

@[simp] theorem held_endSession (s : State) : (endSession s).held = s.held := by simp [endSession]

@[simp] theorem held_loseLink (s : State) (st : Nat) : (loseLink s st).held = s.held := by simp [loseLink]

@[simp] theorem held_lightDetect (s : State) : (lightDetect s).held = s.held := by simp [lightDetect]

@[simp] theorem held_ctrlLinked (s : State) : (ctrlLinked s).held = s.held := by simp [ctrlLinked]

@[simp] theorem held_hostFault (s : State) (src : Source) (detail : Nat) : (hostFault s src detail).held = s.held := by simp [hostFault]

@[simp] theorem held_sendTokens (s : State) (resend : Bool) (ts : List LogTok) :
    (sendTokens s resend ts).held = s.held := by simp [sendTokens]

@[simp] theorem held_setSeq (s : State) (id : Nat) (f : Seq → Option Seq) : (setSeq s id f).held = s.held := by simp [setSeq]

@[simp] theorem held_endSeq (s : State) (q : Seq) (reason : Nat) : (endSeq s q reason).held = s.held := by simp [endSeq]

@[simp] theorem held_freeEnded (s : State) (c : Fin 8) : (freeEnded s c).held = s.held := by simp [freeEnded]

@[simp] theorem held_nextChunks (s : State) (c : Fin 8) : (nextChunks s c).held = s.held := by simp [nextChunks]

@[simp] theorem held_admitRsp (s : State) (rtag id status : Nat) : (admitRsp s rtag id status).held = s.held := by simp [admitRsp]

@[simp] theorem held_queueSeq (s : State) (q : Seq) : (queueSeq s q).1.held = s.held := by
  fun_cases queueSeq <;> simp

@[simp] theorem held_judgePrompt (s : State) (b : List Byte) : (judgePrompt s b).1.held = s.held := by
  fun_cases judgePrompt
  case case6 => exact held_setSeq _ (headField b 0 4) fun _ => none
  case case13 | case16 => exact held_queueSeq _ _
  all_goals rfl

@[simp] theorem held_ackEntry (s : State) (e : Nat × Nat) : (ackEntry s e).held = s.held := by simp [ackEntry]

@[simp] theorem held_evictCancel (id : Nat) (s : State) : (evictCancel id s).held = s.held := by
  fun_cases evictCancel <;> simp

@[simp] theorem held_evictPark (id : Nat) (s : State) : (evictPark id s).held = s.held := by simp [evictPark]

@[simp] theorem held_sampleRow (s : State) (q : Seq) (poisoned : Bool) (logits : List Nat) :
    (sampleRow s q poisoned logits).1.held = s.held := by
  simp only [sampleRow]
  (repeat' split) <;> simp

@[simp] theorem held_sampleRows (rows : List (Nat × Bool × List Nat)) (l : List Seq) (s : State) (ts : List LogTok)
    (es : List (Nat × Nat)) : (sampleRows rows l s ts es).1.held = s.held := by
  induction l generalizing s ts es with
  | nil => rfl
  | cons q l ih =>
    unfold sampleRows
    split <;> simp [ih]

@[simp] theorem held_judgeInterval (s : State) (c : Fin 8) : (judgeInterval s c).held = s.held := by
  unfold judgeInterval
  split <;> simp

@[simp] theorem held_sendRecord (s : State) (ws : List Word) : (sendRecord s ws).held = s.held := by simp [sendRecord]

@[simp] theorem held_beginSession (s : State) (session rtag : Nat) : (beginSession s session rtag).held = s.held := by simp [beginSession]

@[simp] theorem held_hello (h : MsgHead) (s : State) : (hello h s).held = s.held := by simp [hello]

@[simp] theorem held_setJob (job vocab : Nat) (s : State) : (setJob job vocab s).held = s.held := by simp [setJob]

@[simp] theorem held_answerReqs (s : State) (a : Nat) (data : List Byte) : (answerReqs s a data).held = s.held := by simp [answerReqs]

@[simp] theorem held_dumpReq (mask rtag : Nat) (s : State) : (dumpReq mask rtag s).held = s.held := by simp [dumpReq]

/-! #### Fcu -/

theorem held_storeRecord (s : State) (ws : List Word) : ∀ t ∈ storeRecord s ws, t.held = s.held := by simp [storeRecord]

@[simp] theorem held_drivePins (s : State) (a b : Nat) : (drivePins s a b).held = s.held := by simp [drivePins]

@[simp] theorem held_trapCtx (s : State) (c : CtxRef) : (trapCtx s c).held = s.held := by simp [trapCtx]

@[simp] theorem held_dropDies (s : State) : (dropDies s).held = s.held := by simp [dropDies]

@[simp] theorem held_beginBlockReset (s : State) (b : Block) (d : Die) : (beginBlockReset s b d).held = s.held := by simp [beginBlockReset]

@[simp] theorem held_react (s : State) (r : Report) (a : Applied) : (react s r a).held = s.held := by
  simp only [react, held_ite, held_drivePins, held_dropDies, held_leaveRing, State.held_mk, State.held_eta, ite_self]
  split
  · simp only [held_ite, held_beginBlockReset, ite_self]
    split <;> simp
  · split <;> simp

@[simp] theorem held_takeReport (s : State) (r : Report) (time : Nat) (drop : Bool) : (takeReport s r time drop).held = s.held := by
  simp only [takeReport]
  split
  · next t e =>
    split at e
    · cases e
    · simpa using held_storeRecord _ _ _ e
  · simp

@[simp] theorem held_holdReport (s : State) (r : Report) : (holdReport s r).held = s.held := by simp [holdReport]

@[simp] theorem held_receiveReport (s : State) (r : Report) (bad : Bool) : (receiveReport s r bad).held = s.held := by simp [receiveReport]

@[simp] theorem held_faultReport (given : Option Report) (bad : Bool) (s : State) : (faultReport given bad s).held = s.held := by
  fun_cases faultReport <;> simp

@[simp] theorem held_startFcu (s : State) : (startFcu s).held = s.held := by simp [startFcu]

@[simp] theorem held_ackLog (s : State) (f : LogEntry → Bool) : (ackLog s f).held = s.held := by simp [ackLog]

@[simp] theorem held_advanceAcked (s : State) (k : FaultClass) : (advanceAcked s k).held = s.held := by
  simp only [advanceAcked]
  split <;> simp

@[simp] theorem held_ackClass (s : State) (seq : Nat) (k : FaultClass) : (ackClass s seq k).held = s.held := by simp [ackClass]

@[simp] theorem held_writeAck (s : State) (classes seq : Nat) : (writeAck s classes seq).held = s.held := by
  fun_cases writeAck
  simp

@[simp] theorem held_handlerDone (s : State) : (handlerDone s).held = s.held := by
  unfold handlerDone
  split <;> simp

theorem held_writePin (s : State) (release : Bool) : ∀ t ∈ writePin s release, t.held = s.held := by
  unfold writePin
  split <;> simp

@[simp] theorem held_pinSense (a b : Bool) (s : State) : (pinSense a b s).held = s.held := by simp [pinSense]

@[simp] theorem held_heartbeat (d : Die) (s : State) : (heartbeat d s).held = s.held := by simp [heartbeat]

@[simp] theorem held_heartbeatTimeout (d : Die) (s : State) : (heartbeatTimeout d s).held = s.held := by simp [heartbeatTimeout]

theorem held_writeInject (s : State) (id die unit block detail : Nat) : ∀ t ∈ writeInject s id die unit block detail, t.held = s.held := by
  unfold writeInject
  split <;> simp

theorem held_writeFcuCtrl (s : State) (hold : Nat) (resume clear : Bool) :
    ∀ t ∈ writeFcuCtrl s hold resume clear, t.held = s.held := by simp [writeFcuCtrl]

@[simp] theorem held_resetRegs (s : State) (b : Block) (d : Die) : (resetRegs s b d).held = s.held := by simp [resetRegs]

@[simp] theorem held_mapCores (s : State) (d : Die) (f : Core → Core) : (mapCores s d f).held = s.held := by simp [mapCores]

@[simp] theorem held_emptySlots (s : State) (d : Die) : (emptySlots s d).held = s.held := by simp [emptySlots]

@[simp] theorem held_blockReset (s : State) (b : Block) (d : Die) : (blockReset s b d).held = s.held := by
  unfold blockReset
  split <;> simp

@[simp] theorem held_interruptBlow (s : State) : (interruptBlow s).held = s.held := by
  simp only [interruptBlow]
  (repeat' split) <;> simp

/-! #### Power -/

@[simp] theorem held_raiseOnce (s : State) (k : Nat) (r : Report) : (raiseOnce s k r).held = s.held := by simp [raiseOnce]

@[simp] theorem held_endCondition (s : State) (k : Nat) : (endCondition s k).held = s.held := by simp [endCondition]

@[simp] theorem held_judgeRate (s : State) (d : Die) : (judgeRate s d).held = s.held := by simp [judgeRate]

@[simp] theorem held_takeCal (s : State) (d : Die) (v : Nat) : (takeCal s d v).held = s.held := by simp [takeCal]

@[simp] theorem held_setCal (s : State) (d : Die) (v : Nat) : (setCal s d v).held = s.held := by simp [setCal]

@[simp] theorem held_lowerCal (s : State) (d : Die) : (lowerCal s d).held = s.held := by simp [lowerCal]

@[simp] theorem held_applyPoint (s : State) (d : Die) : (applyPoint s d).held = s.held := by simp [applyPoint]

@[simp] theorem held_applyPoints (s : State) : (applyPoints s).held = s.held := by simp [applyPoints]

theorem held_writeSetMv (s : State) (d : Die) (mv : Nat) : ∀ t ∈ writeSetMv s d mv, t.held = s.held := by
  unfold writeSetMv
  split <;> simp

@[simp] theorem held_inputRange_ (s : State) : (inputRange_ s).held = s.held := by
  unfold inputRange_
  split <;> simp

@[simp] theorem held_settleStage (s : State) (k : Fin 9) : (settleStage s k).held = s.held := by simp [settleStage]

@[simp] theorem held_phaseLoss (k : Fin 9) (i : Nat) (s : State) : (phaseLoss k i s).held = s.held := by simp [phaseLoss]

@[simp] theorem held_powerMeasure (vin iin pin : Nat) (s : State) : (powerMeasure vin iin pin s).held = s.held := by simp [powerMeasure]

@[simp] theorem held_capDown (s : State) : (capDown s).held = s.held := by simp [capDown]

@[simp] theorem held_capUp (s : State) : (capUp s).held = s.held := by
  unfold capUp
  split <;> simp

@[simp] theorem held_capFloor (s : State) : (capFloor s).held = s.held := by
  unfold capFloor
  split <;> simp

@[simp] theorem held_judgeHigh (s : State) (g t : Nat) : (judgeHigh s g t).held = s.held := by simp [judgeHigh]

@[simp] theorem held_thermalRead (t0 t1 th : Int) (s : State) : (thermalRead t0 t1 th s).held = s.held := by simp [thermalRead]

@[simp] theorem held_thermDown (s : State) : (thermDown s).held = s.held := by simp [thermDown]

@[simp] theorem held_thermUp (s : State) : (thermUp s).held = s.held := by
  unfold thermUp
  split <;> simp

@[simp] theorem held_coolantRead (inlet outlet : Int) (s : State) : (coolantRead inlet outlet s).held = s.held := by simp [coolantRead]

@[simp] theorem held_coolantOut (s : State) : (coolantOut s).held = s.held := by
  unfold coolantOut
  split <;> simp

@[simp] theorem held_railSettled (d : Die) (s : State) : (railSettled d s).held = s.held := by
  unfold railSettled
  split <;> simp

@[simp] theorem held_noteMove (s : State) (f : Nat) (big : Bool) : (noteMove s f big).held = s.held := by simp [noteMove]

@[simp] theorem held_calTick (d : Die) (pred : Nat) (big : Bool) (s : State) : (calTick d pred big s).held = s.held := by simp [calTick]

@[simp] theorem held_rateEnd (d : Die) (s : State) : (rateEnd d s).held = s.held := by simp [rateEnd]

@[simp] theorem held_setUncal (s : State) (f : Nat) (b : Bool) : (setUncal s f b).held = s.held := by
  unfold setUncal
  split <;> simp

@[simp] theorem held_setCalState (s : State) (f st : Nat) : (setCalState s f st).held = s.held := by
  unfold setCalState
  split <;> simp

@[simp] theorem held_loadCal (s : State) (f : Nat) : (loadCal s f).held = s.held := by
  unfold loadCal
  split <;> simp

@[simp] theorem held_killCal (s : State) (f : Nat) : (killCal s f).held = s.held := by simp [killCal]

theorem held_writeCalCmd (s : State) (cmd f : Nat) : ∀ t ∈ writeCalCmd s cmd f, t.held = s.held := by
  simp only [writeCalCmd]
  (repeat' split) <;> simp

@[simp] theorem held_calSaveDone (payload : List Byte) (s : State) : (calSaveDone payload s).held = s.held := by
  unfold calSaveDone
  split <;> simp

@[simp] theorem held_calEraseDone (s : State) : (calEraseDone s).held = s.held := by
  unfold calEraseDone
  split <;> simp

@[simp] theorem held_refclkLoss (s : State) : (refclkLoss s).held = s.held := by simp [refclkLoss]

@[simp] theorem held_endPhase (s : State) (k : Nat) : (endPhase s k).held = s.held := by simp [endPhase]

@[simp] theorem held_loadRepair (s : State) (d : Die) (bank row source : Nat) : (loadRepair s d bank row source).held = s.held := by
  unfold loadRepair
  split <;> simp

@[simp] theorem held_loadRepairs (s : State) : (loadRepairs s).held = s.held := by
  simp only [loadRepairs]
  rw [held_foldl fun s r => by split <;> [rfl; split <;> simp]]
  simp

@[simp] theorem held_powerOn (s : State) : (powerOn s).held = s.held := by simp [powerOn]

@[simp] theorem held_ctrlPhase (linked : Bool) (s : State) : (ctrlPhase linked s).held = s.held := by simp [ctrlPhase]

@[simp] theorem held_lpdPhase (bad : List Nat) (s : State) : (lpdPhase bad s).held = s.held := by simp [lpdPhase]

@[simp] theorem held_trainStack (s : State) (n : Nat) (ok : Bool) : (trainStack s n ok).held = s.held := by simp [trainStack]

@[simp] theorem held_hbmPhase (bad : List Nat) (s : State) : (hbmPhase bad s).held = s.held := by simp [hbmPhase]

@[simp] theorem held_servicePhase (s : State) : (servicePhase s).held = s.held := by simp [servicePhase]

@[simp] theorem held_ringPhase (ports : List (Port × List Nat)) (s : State) : (ringPhase ports s).held = s.held := by simp [ringPhase]

/-! #### Security -/

@[simp] theorem held_setHash (s : State) (r : Fin 4 → Reg) (v : Nat) : (setHash s r v).held = s.held := by simp [setHash]

@[simp] theorem held_completePair (s : State) : (completePair s).held = s.held := by
  unfold completePair
  split <;> simp

@[simp] theorem held_romPhase (bad : Bool) (straps : Nat) (s : State) : (romPhase bad straps s).held = s.held := by simp [romPhase]

@[simp] theorem held_rejectImage (s : State) (cause : Nat) : (rejectImage s cause).held = s.held := by simp [rejectImage]

@[simp] theorem held_startImage (s : State) (src : Nat) (rd : Nat → Nat → List Byte) :
    (startImage s src rd).held = s.held := by simp [startImage]

@[simp] theorem held_imageReq (s : State) : (imageReq s).held = s.held := by simp [imageReq]

@[simp] theorem held_imageCommit (total : Nat) (s : State) : (imageCommit total s).held = s.held := by simp [imageCommit]

theorem mem_startImage (s : State) (src : Nat) (rd : Nat → Nat → List Byte) : (startImage s src rd).mem = s.mem :=
  congrArg Held.mem (held_startImage s src rd)


@[simp] theorem held_verifyDone (s : State) : (verifyDone s).held = s.held := by
  unfold verifyDone
  split
  · rfl
  · simp only []
    split <;> split <;> simp [mem_startImage]

@[simp] theorem held_imageAbort (s : State) : (imageAbort s).held = s.held := by simp [imageAbort]

theorem held_writeFuseCmd (s : State) (op arg : Nat) : ∀ t ∈ writeFuseCmd s op arg, t.held = s.held := by
  simp only [writeFuseCmd]
  (repeat' split) <;> simp

@[simp] theorem held_blowDone (s : State) : (blowDone s).held = s.held := by
  unfold blowDone
  split <;> simp

theorem held_writeAttGo (s : State) : ∀ t ∈ writeAttGo s, t.held = s.held := by simp [writeAttGo]

@[simp] theorem held_attest (s : State) : (attest s).held = s.held := by simp [attest]

@[simp] theorem held_repairRecord (s : State) : (repairRecord s).held = s.held := by
  unfold repairRecord
  split <;> simp

@[simp] theorem held_startReclaim (s : State) : (startReclaim s).held = s.held := by simp [startReclaim]

@[simp] theorem held_reclaimDone (s : State) : (reclaimDone s).held = s.held := by simp [reclaimDone]

/-! #### RegWrite -/

@[simp] theorem held_store (s : State) (r : Reg) (v : Word) : (store s r v).held = s.held := by simp [store]

theorem held_writeGrade (s : State) (v : Word) : ∀ t ∈ writeGrade s v, t.held = s.held := by
  simp only [writeGrade]
  split <;> simp

@[simp] theorem held_writeEngCtrl (s : State) (d : Die) (v : Word) : (writeEngCtrl s d v).held = s.held := by simp [writeEngCtrl]

theorem held_writeCoreCtrl (s : State) (d : Die) (q : CoreId) (v : Word) :
    ∀ t ∈ writeCoreCtrl s d q v, t.held = s.held := by simp [writeCoreCtrl]

@[simp] theorem held_writeScvCtrl (s : State) (d : Die) (v : Word) : (writeScvCtrl s d v).held = s.held := by simp [writeScvCtrl]

theorem held_writeStoreCtrl (s : State) (d : Die) (v : Word) : ∀ t ∈ writeStoreCtrl s d v, t.held = s.held := by simp [writeStoreCtrl]

theorem held_writeRepairSel (s : State) (r : Reg) (st : Store) (v : Word) :
    ∀ t ∈ writeRepairSel s r st v, t.held = s.held := by simp [writeRepairSel]

theorem held_writeRepairEntry (s : State) (d : Die) (st : Store) (v : Word) : ∀ t ∈ writeRepairEntry s d st v, t.held = s.held := by
  fun_cases writeRepairEntry <;> simp

@[simp] theorem held_writeFdxCtrl (s : State) (d : Die) (v : Word) : (writeFdxCtrl s d v).held = s.held := by simp [writeFdxCtrl]

theorem held_writeEpcTag (s : State) (d : Die) (t : Fin 16) (v : Word) : ∀ u ∈ writeEpcTag s d t v, u.held = s.held := by
  fun_cases writeEpcTag <;> simp

@[simp] theorem held_writeDmaCtrl (s : State) (d : Die) (v : Word) : (writeDmaCtrl s d v).held = s.held := by simp [writeDmaCtrl]

theorem held_writeReserve (s : State) (d : Die) (r : Reg) (v : Word) : ∀ t ∈ writeReserve s d r v, t.held = s.held := by simp [writeReserve]

theorem held_writeCtr (s : State) (d : Die) (n : Fin 8192) (v : Word) : ∀ t ∈ writeCtr s d n v, t.held = s.held := by simp [writeCtr]

theorem held_writeSyncCtrl (s : State) (d : Die) (v : Word) : ∀ t ∈ writeSyncCtrl s d v, t.held = s.held := by simp [writeSyncCtrl]

theorem held_writeXl (s : State) (d : Die) (v : Word) : ∀ t ∈ writeXl s d v, t.held = s.held := by simp [writeXl]

theorem held_writeBarMask (s : State) (r : Reg) (b : Fin 64) (d : Die) (v : Word) :
    ∀ t ∈ writeBarMask s r b d v, t.held = s.held := by simp [writeBarMask]

theorem held_writeBarB (s : State) (d : Die) (b : Fin 64) (v : Word) : ∀ t ∈ writeBarB s d b v, t.held = s.held := by
  simp only [writeBarB]
  (repeat' split) <;> simp

@[simp] theorem held_writePortCtrl (s : State) (p : Port) (v : Word) : (writePortCtrl s p v).held = s.held := by simp [writePortCtrl]

theorem held_forceSub (s : State) (p : Port) (l : Nat) (v : Word) : ∀ t ∈ forceSub s p l v, t.held = s.held := by
  unfold forceSub
  split <;> simp

@[simp] theorem held_writeHbmCtrl (s : State) (d : Die) (v : Word) : (writeHbmCtrl s d v).held = s.held := by simp [writeHbmCtrl]

@[simp] theorem held_writeLpdCtrl (s : State) (v : Word) : (writeLpdCtrl s v).held = s.held := by simp [writeLpdCtrl]

theorem held_writeRetrain (s : State) (r : Reg) (v : Word) : ∀ t ∈ writeRetrain s r v, t.held = s.held := by
  unfold writeRetrain
  split <;> simp

theorem held_writeRegion (s : State) (r : Reg) (v : Word) : ∀ t ∈ writeRegion s r v, t.held = s.held := by simp [writeRegion]

theorem held_writeStaging (s : State) (v : Word) : ∀ t ∈ writeStaging s v, t.held = s.held := by
  unfold writeStaging
  split
  · simp
  · exact held_writeReinjCtrl _ _

@[simp] theorem held_writeMldCtrl (s : State) (v : Word) : (writeMldCtrl s v).held = s.held := by simp [writeMldCtrl]

theorem held_writeMldLink (s : State) (v : Word) : ∀ t ∈ writeMldLink s v, t.held = s.held := by simp [writeMldLink]

theorem held_writeSvcCtrl (s : State) (v : Word) : ∀ t ∈ writeSvcCtrl s v, t.held = s.held := by
  unfold writeSvcCtrl
  split <;> simp

@[simp] theorem held_writePtcCtrl (s : State) (v : Word) : (writePtcCtrl s v).held = s.held := by simp [writePtcCtrl]

@[simp] theorem held_accessFault (s : State) (w : Writer) (src : Source) (b : Block) (die a : Nat) :
    (accessFault s w src b die a).held = s.held := by
  unfold accessFault
  split <;> simp

@[simp] theorem held_unlockRecord (s : State) (w : Writer) (r : Reg) (before : Bool) :
    (unlockRecord s w r before).held = s.held := by simp [unlockRecord]

@[simp] theorem held_readRegBy (s : State) (w : Writer) (r : Reg) : (readRegBy s w r).1.held = s.held := by
  simp only [readRegBy]
  (repeat' split) <;> simp

@[simp] theorem held_answerAccess (s : State) (h : HeldAccess) (e : AccessEnd) (v : Word) : (answerAccess s h e v).held = s.held := by
  simp only [answerAccess]
  (repeat' split) <;> simp

@[simp] theorem held_holdAccess (s : State) (h : HeldAccess) : (holdAccess s h).held = s.held := by simp [holdAccess]

/-! #### Mgmt -/

@[simp] theorem held_targetReply (s : State) (acked : Bool) (bs : List Byte) :
    (targetReply s acked bs).held = s.held := by simp [targetReply]

@[simp] theorem held_tapLoad (s : State) (i : TapInstr) : (tapLoad s i).held = s.held := by simp [tapLoad]

/-! #### Remote -/

@[simp] theorem held_replyTo (s : State) (port : Port) (p : RemotePkt) (status op : Nat) (data : List Byte) :
    (replyTo s port p status op data).held = s.held := by simp [replyTo]

@[simp] theorem held_countRemote (s : State) (port : Port) (p : RemotePkt) : (countRemote s port p).held = s.held := by simp [countRemote]

@[simp] theorem held_refusePacket (s : State) (port : Port) (p : RemotePkt) (src : Option Source) (op : Nat) (eot : Bool) :
    (refusePacket s port p src op eot).held = s.held := by
  unfold refusePacket
  split <;> simp

@[simp] theorem held_landStore (s : State) (d : Die) (port : Port) (p : RemotePkt) (eot : Bool) (k : AccKind) (n : Nat)
    (data : List (Byte × Bool)) : (landStore s d port p eot k n data).held = s.held := by simp [landStore]

@[simp] theorem held_wrote (s : State) (port : Port) (p : RemotePkt) (eot : Bool) : (wrote s port p eot).held = s.held := by simp [wrote]

@[simp] theorem held_replyRead (s : State) (port : Port) (p : RemotePkt) (data : List (Byte × Bool)) :
    (replyRead s port p data).held = s.held := by simp [replyRead]

@[simp] theorem held_remoteBack (s : State) (d : Die) (a : Access) : (remoteBack s d a).held = s.held := by
  simp only [remoteBack]
  (repeat' split) <;> simp

@[simp] theorem held_landRrsp (s : State) (p : RemotePkt) : (landRrsp s p).held = s.held := by
  fun_cases landRrsp <;> simp

@[simp] theorem held_landSig (s : State) (h : RxHead) (p : RemotePkt) : (landSig s h p).held = s.held := by
  unfold landSig
  split <;> simp

/-! #### Scalar -/

@[simp] theorem held_rejectNarrow (s : State) (d : Die) (q : CoreId) (x : SlotId) (rd : Option (Fin 32)) (src : Source) (a : Nat) :
    (rejectNarrow s d q x rd src a).held = s.held := by
  unfold rejectNarrow
  split <;> simp

@[simp] theorem held_coreTxn (s : State) (d : Die) (k : AccKind) (m n : Nat) (data : List (Byte × Bool)) (dest : AccDest) :
    (coreTxn s d k m n data dest).held = s.held := by simp [coreTxn]

@[simp] theorem held_storeAcc (s : State) (d : Die) (k : AccKind) (m n : Nat) (data : List (Byte × Bool)) (dest : AccDest) (portB : Bool) :
    (storeAcc s d k m n data dest portB).held = s.held := by simp [storeAcc]

@[simp] theorem held_issueLoad (s : State) (d : Die) (q : CoreId) (x : SlotId) (rd : Fin 32) (m n : Nat) (sx : Bool) :
    (issueLoad s d q x rd m n sx).held = s.held := by simp [issueLoad]

@[simp] theorem held_combineWrite (s : State) (d : Die) (q : CoreId) (x : SlotId) (a : Nat) (data : List (Byte × Bool)) :
    (combineWrite s d q x a data).held = s.held := by
  simp only [combineWrite]
  split <;> simp

@[simp] theorem held_issueStore (s : State) (d : Die) (q : CoreId) (x : SlotId) (m : Nat) (data : List (Byte × Bool)) :
    (issueStore s d q x m data).held = s.held := by simp [issueStore]

@[simp] theorem held_setVector (s : State) (d : Die) (q : CoreId) (v : Fin 32) (r : ActRow) :
    (setVector s d q v r).held = s.held := by simp [setVector]

theorem held_withVectors (s : State) (d : Die) (q : CoreId) (x : SlotId) (vs : List (Fin 32)) {k : State → State}
    (hk : ∀ t, (k t).held = t.held) : (withVectors s d q x vs k).held = s.held := by
  unfold withVectors
  split <;> simp [hk]

@[simp] theorem held_vectorRead (s : State) (d : Die) (q : CoreId) (x : SlotId) (c : Ctx) (vd : Fin 32) (addr n : Nat) :
    (vectorRead s d q x c vd addr n).held = s.held := by
  simp only [vectorRead]
  (repeat' split) <;> simp

@[simp] theorem held_vectorWrite (s : State) (d : Die) (q : CoreId) (x : SlotId) (c : Ctx) (vs : Fin 32) (addr n : Nat) (elem : ElemType) :
    (vectorWrite s d q x c vs addr n elem).held = s.held := by
  fun_cases vectorWrite <;> simp

/-! #### Words -/

@[simp] theorem held_scalarEffect (d : Die) (q : CoreId) (op : ScalarOp) (srcs : List (Fin 32)) (x : SlotId) (c : Ctx) (s : State) :
    (scalarEffect d q op srcs x c s).held = s.held := by
  unfold scalarEffect
  split
  · simp
  · simp
  · exact held_withVectors _ _ _ _ _ fun t => by simp
  · exact held_withVectors _ _ _ _ _ fun t => held_vectorRead ..
  · exact held_withVectors _ _ _ _ _ fun t => held_vectorWrite ..
  · exact held_withVectors _ _ _ _ _ fun t => by simp
  · split <;> simp
  · simp

/-! #### Beat -/

theorem held_overCores (s : State) (d : Die) {f : CoreId → State → State} (hf : ∀ q t, (f q t).held = t.held) :
    (overCores s d f).held = s.held := by
  refine held_foldl (fun s e => ?_) _ _
  exact hf e.1.2 s

@[simp] theorem held_chargeWaits (s : State) (d : Die) : (chargeWaits s d).held = s.held := by
  refine held_foldl (fun s e => ?_) _ _
  split <;> simp

@[simp] theorem held_chargePorts (s : State) (d : Die) : (chargePorts s d).held = s.held := by
  refine held_foldl (fun s a => ?_) _ _
  split <;> simp

@[simp] theorem held_countFrozen (s : State) (d : Die) (q : CoreId) (k : FreezeCause) : (countFrozen s d q k).held = s.held := by
  simp only [countFrozen]
  (repeat' split) <;> simp

@[simp] theorem held_countSteps (s : State) (d : Die) (q : CoreId) : (countSteps s d q).held = s.held := by simp [countSteps]

@[simp] theorem held_countFreezes (s : State) (d : Die) : (countFreezes s d).held = s.held := by
  refine held_overCores _ _ fun q t => ?_
  dsimp only
  split <;> simp

@[simp] theorem held_chargeQueues (s : State) (d : Die) : (chargeQueues s d).held = s.held := by simp [chargeQueues]

@[simp] theorem held_feedExpanders (s : State) (d : Die) :
    (feedExpanders s d).held = s.held := held_overCores _ _ fun _ _ => held_setCore ..

@[simp] theorem held_takePrios (s : State) (d : Die) : (takePrios s d).held = s.held := by simp [takePrios]

@[simp] theorem held_nextBeat (s : State) (d : Die) : (nextBeat s d).held = s.held := by
  simp only [nextBeat]
  split <;> simp

/-! #### Tick -/

@[simp] theorem held_trimRate (s : State) : (trimRate s).held = s.held := by
  unfold trimRate
  split <;> simp

@[simp] theorem held_tickTime (s : State) : (tickTime s).held = s.held := by simp [tickTime]

@[simp] theorem held_tickRail (s : State) (d : Die) : (tickRail s d).held = s.held := by simp [tickRail]

/-! #### Operations that write the memories -/

/-- The three memories are in canonical form. -/
def Held.Wf (m : Held) : Prop := Mem.wf m.mem = true ∧ Mem.wf m.flash = true ∧ Mem.wf m.firmware = true

theorem canonical_iff (s : State) : Canonical s ↔ s.held.Wf := Iff.rfl

@[simp] theorem Held.wf_ite (c : Prop) [Decidable c] (m n : Held) : (if c then m else n).Wf ↔ if c then m.Wf else n.Wf := by split <;> rfl

/-- A memory in canonical form in the place of `mem`. -/
theorem Held.Wf.mem {m : Held} (hm : m.Wf) {x : List Host.Cell} (hx : Mem.wf x = true) : Held.Wf { m with mem := x } := ⟨hx, hm.2⟩

theorem wf_foldl {α : Type} {f : State → α → State} (hf : ∀ s a, s.held.Wf → (f s a).held.Wf) (l : List α) {s : State} (hs : s.held.Wf) :
    (l.foldl f s).held.Wf := by
  induction l generalizing s with
  | nil => exact hs
  | cons a l ih => exact ih (hf s a hs)

theorem Mem.wf_foldl {α : Type} {f : List Host.Cell → α → List Host.Cell}
    (hf : ∀ m a, Mem.wf m = true → Mem.wf (f m a) = true) (l : List α) {m : List Host.Cell} (hm : Mem.wf m = true) : Mem.wf (l.foldl f m) = true := by
  induction l generalizing m with
  | nil => exact hm
  | cons a l ih => exact ih (hf m a hm)

/-! #### Ops -/

theorem wf_lpdOnes {m : List Host.Cell} (hm : Mem.wf m = true) (a : Nat) (bs : List (Byte × Bool)) :
    Mem.wf (State.lpdOnes m a bs) = true := by
  refine Mem.wf_foldl (fun m i hm => ?_) _ hm
  dsimp only
  split
  · exact Mem.wf_write _ hm _
  · exact hm

@[simp] theorem wf_poke (s : State) (a : Nat) (bs : List (Byte × Bool)) (hs : s.held.Wf) : (State.poke s a bs).held.Wf := ⟨by
  unfold State.poke
  split
  · exact wf_lpdOnes (Mem.wf_write _ hs.1 a) a bs
  · exact Mem.wf_write _ hs.1 a, hs.2⟩

@[simp] theorem wf_pokeClean (s : State) (a : Nat) (bs : List Byte) (hs : s.held.Wf) : (State.pokeClean s a bs).held.Wf := by
  simp [State.pokeClean, hs]

/-! #### Ecc -/

@[simp] theorem wf_leaveErrors (s : State) (st : Store) (u : Upset) (o : EccOutcome) (w : Nat) (hs : s.held.Wf) :
    (leaveErrors s st u o w).held.Wf := by
  refine ⟨Mem.wf_foldl (fun m i hm => ?_) _ hs.1, hs.2⟩
  dsimp only
  split
  · exact hm
  · exact Mem.wf_set hm _ _

@[simp] theorem wf_readWord (s : State) (d : Die) (st : Store) (w : Nat) (hs : s.held.Wf) : (readWord s d st w).held.Wf := by
  simp only [readWord]
  (repeat' split) <;> simp [hs]

@[simp] theorem wf_readStore (s : State) (a n : Nat) (hs : s.held.Wf) : (readStore s a n).held.Wf := by
  unfold readStore
  split
  · exact hs
  · exact wf_foldl (fun t i ht => wf_readWord _ _ _ _ ht) _ hs

/-! #### Engine -/

@[simp] theorem wf_drainRow (s : State) (d : Die) (q : CoreId) (f : EngFields) (r : Nat) (slots : List (Fin 4 × AccSlot × Bool))
    (hs : s.held.Wf) : (drainRow s d q f r slots).held.Wf := by
  simp only [drainRow]
  split
  · exact hs
  · refine wf_foldl (fun t p ht => ?_) _ (by simp [hs])
    split <;> simp [ht]

@[simp] theorem wf_stepRow (s : State) (d : Die) (q : CoreId) (op : EngOp) (f : EngFields) (r : Nat) (hs : s.held.Wf) :
    (stepRow s d q op f r).held.Wf := by
  simp only [stepRow]
  split <;> simp [hs]

@[simp] theorem wf_stepTopk (s : State) (d : Die) (q : CoreId) (f : EngFields) (hs : s.held.Wf) : (stepTopk s d q f).held.Wf := by
  unfold stepTopk
  dsimp only
  split
  · exact hs
  · refine wf_foldl (fun t e ht => ?_) _ (by simp [hs])
    split <;> simp [ht]

@[simp] theorem wf_stepOne (s : State) (d : Die) (q : CoreId) (op : EngOp) (f : EngFields) (r : Nat) (hs : s.held.Wf) :
    (stepOne s d q op f r).held.Wf := by
  simp only [stepOne]
  (repeat' split) <;> simp [hs]

@[simp] theorem wf_runRows (d : Die) (q : CoreId) (op : EngOp) (f : EngFields) (n n1 : Nat) (s : State) (hs : s.held.Wf) :
    (runRows d q op f n n1 s).held.Wf := by
  fun_induction runRows with
  | case1 => simp [hs]
  | case2 => simp [hs]
  | case3 n r s _ ih => exact ih (by simp [hs])

@[simp] theorem wf_runWord (s : State) (d : Die) (q : CoreId) (op : EngOp) (f : EngFields) (hs : s.held.Wf) :
    (runWord s d q op f).held.Wf := by
  simp [runWord, hs]

@[simp] theorem wf_issueEngine (op : EngOp) (d : Die) (q : CoreId) (s : State) (hs : s.held.Wf) : (issueEngine op d q s).held.Wf := by
  simp only [issueEngine]
  (repeat' split) <;> simp [hs]

/-! #### Stores -/

@[simp] theorem wf_readHalf (s : State) (k : AccKind) (a n : Nat) (hs : s.held.Wf) : (readHalf s k a n).held.Wf := by
  unfold readHalf
  split <;> simp [hs]

@[simp] theorem wf_writeEffect (s : State) (k : AccKind) (a : Nat) (data : List (Byte × Bool)) (hs : s.held.Wf) :
    (writeEffect s k a data).held.Wf := by
  simp [writeEffect, hs]

@[simp] theorem wf_applyEffects (s : State) (d : Die) (hs : s.held.Wf) : (applyEffects s d).held.Wf :=
  wf_foldl (fun _ e ht => wf_writeEffect _ e.kind e.addr e.data ht) _ (by simp [hs])

@[simp] theorem wf_serveIn (s : State) (d : Die) (i : Nat) (a : Access) (c : Nat) (hs : s.held.Wf) : (serveIn s d i a c).held.Wf := by
  unfold serveIn
  split <;> simp [hs]

@[simp] theorem wf_serveAccess (d : Die) (i : Nat) (u : Upset) (s : State) (hs : s.held.Wf) : (serveAccess d i u s).held.Wf := by
  fun_cases serveAccess <;> simp [hs]

@[simp] theorem wf_zeroStores (s : State) (d : Die) (hs : s.held.Wf) : (zeroStores s d).held.Wf := ⟨Mem.wf_clear hs.1 _ _, hs.2⟩

@[simp] theorem wf_startClear (d : Die) (s : State) (hs : s.held.Wf) : (startClear d s).held.Wf := by
  simp [startClear, hs]

@[simp] theorem wf_saveLine (s : State) (a : Nat) (u : Upset) (hs : s.held.Wf) : (saveLine s a u).held.Wf := by
  simp [saveLine, hs]

@[simp] theorem wf_bistSave (d : Die) (i : Nat) (u : Upset) (s : State) (hs : s.held.Wf) : (bistSave d i u s).held.Wf := by
  simp only [bistSave]
  (repeat' split) <;> simp [hs]

/-! #### Context -/

theorem wf_withIssue (s : State) (d : Die) (q : CoreId) (srcs : List (Fin 32)) {k : SlotId → Ctx → State → State}
    (hk : ∀ x c t, t.held.Wf → (k x c t).held.Wf) (hs : s.held.Wf) : (withIssue s d q srcs k).held.Wf := by
  unfold withIssue
  split
  · exact hs
  · dsimp only
    split
    · simp [hs]
    · next a e =>
      have ha := wf_readStore s a 4 hs
      split
      · simp [ha]
      · split
        · simp [ha]
        · exact hk _ _ _ ha

@[simp] theorem wf_saveDone (d : Die) (q : CoreId) (x : SlotId) (s : State) (hs : s.held.Wf) : (saveDone d q x s).held.Wf := by
  simp [saveDone, hs]

@[simp] theorem wf_restoreDone (d : Die) (q : CoreId) (x : SlotId) (s : State) (hs : s.held.Wf) : (restoreDone d q x s).held.Wf := by
  simp only [restoreDone]
  (repeat' split) <;> simp [hs]

/-! #### Feed -/

@[simp] theorem wf_busLine (d : Die) (i : Nat) (r : BusReq) (w : WinEntry) (lane : Nat) (s : State) (hs : s.held.Wf) :
    (busLine d i r w lane s).held.Wf := by
  simp [busLine, hs]

@[simp] theorem wf_busServe (d : Die) (i : Nat) (s : State) (hs : s.held.Wf) : (busServe d i s).held.Wf := by
  simp only [busServe]
  (repeat' split) <;> simp [hs]

@[simp] theorem wf_gaccLine (d : Die) (i : Nat) (s : State) (hs : s.held.Wf) : (gaccLine d i s).held.Wf := by
  simp only [gaccLine]
  (repeat' split) <;> simp [hs]

@[simp] theorem wf_tileRead (s : State) (d : Die) (q : CoreId) (hs : s.held.Wf) : (tileRead s d q).held.Wf := by
  simp only [tileRead]
  split <;> simp [hs]

@[simp] theorem wf_tileTransfer (d : Die) (q : CoreId) (s : State) (hs : s.held.Wf) : (tileTransfer d q s).held.Wf := by
  unfold tileTransfer
  split <;> simp [hs]

/-! #### Tier -/

@[simp] theorem wf_readHbmWord (s : State) (n w : Nat) (hs : s.held.Wf) : (readHbmWord s n w).held.Wf := by
  simp only [readHbmWord]
  (repeat' split) <;> simp [hs]

@[simp] theorem wf_readAt (s : State) (a n : Nat) (hs : s.held.Wf) : (readAt s a n).held.Wf := by
  unfold readAt
  split
  · exact wf_foldl (fun t i ht => wf_readHbmWord _ _ _ ht) _ hs
  · simp [hs]
  · exact hs

@[simp] theorem wf_readEnds (s : State) (a n : Nat) (hs : s.held.Wf) : (readEnds s a n).held.Wf := by
  simp [readEnds, hs]

@[simp] theorem wf_writeAt (s : State) (a : Nat) (k : AccKind) (data : List (Byte × Bool)) (hs : s.held.Wf) :
    (writeAt s a k data).held.Wf := by
  fun_cases writeAt <;> simp [hs]

/-! #### Dma -/

@[simp] theorem wf_txnEffect (s : State) (d : Die) (t : Txn) (hs : s.held.Wf) : (txnEffect s d t).held.Wf := by
  simp only [txnEffect]
  (repeat' split) <;> simp [hs]

@[simp] theorem wf_txnComplete (d : Die) (i : Nat) (u : Upset) (s : State) (hs : s.held.Wf) : (txnComplete d i u s).held.Wf := by
  simp only [txnComplete]
  (repeat' split) <;> simp [hs]

/-! #### Circ -/

@[simp] theorem wf_writeCopy (s : State) (a : Nat) (bytes : List Byte) (hs : s.held.Wf) : (writeCopy s a bytes).held.Wf := by
  simp [writeCopy, hs]

@[simp] theorem wf_ownerCheck (s : State) (d : Die) (x : StreamId) (w : WinEntry) (bytes : List Byte) (hs : s.held.Wf) :
    (ownerCheck s d x w bytes).1.held.Wf := by
  unfold ownerCheck
  split
  · exact hs
  · split
    · simp only []
      split
      · split <;> simp [hs]
      · simp [hs]
    · split
      · exact hs
      · simp only []
        split
        · split <;> simp [hs]
        · split
          · exact hs
          · split <;> simp [hs]

@[simp] theorem wf_blockResident (d : Die) (i : Nat) (s : State) (hs : s.held.Wf) : (blockResident d i s).held.Wf := by
  unfold blockResident
  split <;> simp [hs]

@[simp] theorem wf_gradientApply (d : Die) (i : Nat) (block : List Byte) (opt : List (Nat × List Byte)) (s : State) (hs : s.held.Wf) :
    (gradientApply d i block opt s).held.Wf := by
  unfold gradientApply
  split
  · exact hs
  · split
    · exact hs
    · split
      · exact hs
      · simp only []
        split
        · simp [hs]
        · split
          · simp [hs]
          · refine wf_foldl (fun t d' ht => by simp [ht]) _ ?_
            simp
            refine wf_writeCopy _ _ _ ?_
            simp
            refine wf_foldl (fun t o ht => ?_) _ (by simp [hs])
            split <;> simp [ht]

/-! #### Service -/

@[simp] theorem wf_copyPage (s : State) (src dst : Nat) (hs : s.held.Wf) : (copyPage s src dst).held.Wf :=
  ⟨Mem.wf_foldl (fun _ c hm => Mem.wf_set hm c.1 c.2) _ (Mem.wf_clear hs.1 _ _), hs.2⟩

@[simp] theorem wf_copyPages (s : State) (l : List (Nat × Nat)) (hs : s.held.Wf) : (copyPages s l).1.held.Wf := by
  induction l generalizing s with
  | nil => exact hs
  | cons p l ih =>
    simp only [copyPages]
    split
    · exact ih _ (by simp [hs])
    · simp [hs]

@[simp] theorem wf_parkSeq (s : State) (q : Seq) (hs : s.held.Wf) : (parkSeq s q).held.Wf := by
  simp [parkSeq, hs]

@[simp] theorem wf_applyRequests (s : State) (c : Fin 8) (hs : s.held.Wf) : (applyRequests s c).held.Wf := by
  refine wf_foldl (fun t q ht => ?_) _ hs
  split
  · exact ht
  · split
    · simp [ht]
    · split <;> simp [ht]

@[simp] theorem wf_admitSeq (s : State) (c : Fin 8) (q : Seq) (n k : Nat) (hs : s.held.Wf) : (admitSeq s c q n k).held.Wf := by
  simp [admitSeq, hs]

@[simp] theorem wf_admitRows (s : State) (c : Fin 8) (l : List Seq) (hs : s.held.Wf) : (admitRows s c l).held.Wf := by
  fun_induction admitRows with
  | case1 => exact hs
  | case2 => exact hs
  | case3 => exact hs
  | case4 s q l k rows _ n _ ih => exact ih (by simp [hs])

@[simp] theorem wf_cohortMoment (s : State) (c : Fin 8) (hs : s.held.Wf) : (cohortMoment s c).held.Wf := by
  simp [cohortMoment, hs]

@[simp] theorem wf_enterWait (s : State) (c : Fin 8) (hs : s.held.Wf) : (enterWait s c).held.Wf := by
  simp [enterWait, hs]

@[simp] theorem wf_admitFree (s : State) (hs : s.held.Wf) : (admitFree s).held.Wf := by
  unfold admitFree
  split
  · refine wf_foldl (fun t c ht => ?_) _ hs
    split <;> simp [ht]
  · exact hs

@[simp] theorem wf_prompt (b : List Byte) (rtag : Nat) (s : State) (hs : s.held.Wf) : (prompt b rtag s).held.Wf := by
  simp [prompt, hs]

@[simp] theorem wf_sampleComplete (c : Fin 8) (rows : List (Nat × Bool × List Nat)) (s : State) (hs : s.held.Wf) :
    (sampleComplete c rows s).held.Wf := by
  simp only [sampleComplete]
  split
  · exact hs
  · refine wf_enterWait _ _ ?_
    rw [held_judgeInterval]
    refine wf_foldl (fun t e ht => ?_) _ (by simp [hs])
    split <;> simp [ht]

@[simp] theorem wf_leaveStream (s : State) (x : StreamId) (cs : List (Fin 8)) (hs : s.held.Wf) : (leaveStream s x cs).held.Wf := by
  refine wf_foldl (fun t c ht => ?_) _ hs
  split
  · simp [ht]
  · split
    · split <;> simp [ht]
    · exact ht

@[simp] theorem wf_layerRetire (x : StreamId) (s : State) (hs : s.held.Wf) : (layerRetire x s).held.Wf := by
  simp only [layerRetire]
  split <;> simp [hs]

@[simp] theorem wf_load (addr : Word) (data : List Byte) (s : State) (hs : s.held.Wf) : (load addr data s).held.Wf := by
  simp [load, hs]

/-! #### Fcu -/

@[simp] theorem wf_moduleReset (s : State) (keep : Bool) (hs : s.held.Wf) : (moduleReset s keep).held.Wf :=
  ⟨rfl, (show (interruptBlow s).held.Wf by simp [hs]).2.1, rfl⟩

@[simp] theorem wf_resetHoldExpiry (s : State) (hs : s.held.Wf) : (resetHoldExpiry s).held.Wf := by
  simp [resetHoldExpiry, hs]

@[simp] theorem wf_resetN (s : State) (hs : s.held.Wf) : (resetN s).held.Wf := by
  simp [resetN, hs]

@[simp] theorem wf_powerOff (s : State) (hs : s.held.Wf) : (powerOff s).held.Wf :=
  ⟨rfl, (show (interruptBlow s).held.Wf by simp [hs]).2.1, rfl⟩

/-! #### Power -/

@[simp] theorem wf_initDie (s : State) (d : Die) (hs : s.held.Wf) : (initDie s d).held.Wf := by
  simp only [initDie, State.held_mk, State.held_eta, held_setDie, held_setReady, held_heartbeat, held_setFld]
  exact wf_zeroStores _ _ hs

@[simp] theorem wf_diePhase (bad : List Die) (s : State) (hs : s.held.Wf) : (diePhase bad s).held.Wf := by
  unfold diePhase
  split
  · rw [held_endPhase, held_setReady]
    refine wf_foldl (fun t d ht => ?_) _ hs
    dsimp only
    split
    · simp [ht]
    · exact wf_initDie _ _ (by simp [ht])
  · exact hs

theorem wf_loadFirmware {s : State} (hs : s.held.Wf) (bs : List Byte) :
    (State.held { s with sec := { s.sec with firmware := Mem.write [] 0 bs } }).Wf :=
  ⟨hs.1, hs.2.1, Mem.wf_write bs (rfl : Mem.wf [] = true) 0⟩

/-! #### Security -/

@[simp] theorem wf_imagePhase (s : State) (hs : s.held.Wf) : (imagePhase s).held.Wf := by
  fun_cases imagePhase
  case case1 cause s₁ _ n s₂ =>
    rw [held_endPhase]
    exact wf_loadFirmware (by simp [s₂, s₁, hs]) _
  case case2 cause s₁ _ s₂ =>
    have h₂ : s₂.held.Wf := by simp [s₂, s₁, hs]
    rw [held_endPhase]
    exact ⟨h₂.1, h₂.2.1, rfl⟩
  case case3 => exact hs

@[simp] theorem wf_eraseSectors (s : State) (off n : Nat) (hs : s.held.Wf) : (eraseSectors s off n).held.Wf := by
  refine wf_foldl (fun t i ht => ?_) _ hs
  dsimp only
  split
  · exact ht
  · exact ⟨ht.1, Mem.wf_clear ht.2.1 _ _, ht.2.2⟩

theorem wf_writeFirmware {s : State} (hs : s.held.Wf) (off : Nat) (data : List Byte) :
    (State.held { s with sec := { s.sec with firmware := Mem.write s.sec.firmware off data } }).Wf :=
  ⟨hs.1, hs.2.1, Mem.wf_write _ hs.2.2 off⟩

theorem wf_writeFlash {s : State} (hs : s.held.Wf) (off : Nat) (data : List Byte) :
    (State.held { s with sec := { s.sec with flash := Mem.write s.sec.flash off data } }).Wf :=
  ⟨hs.1, Mem.wf_write _ hs.2.1 off, hs.2.2⟩

theorem wf_cond (c : Prop) [Decidable c] {s t : State} (hs : s.held.Wf) (ht : t.held.Wf) : (if c then s else t).held.Wf := by
  split
  · exact hs
  · exact ht

@[simp] theorem wf_imageData (off : Nat) (data : List Byte) (s : State) (hs : s.held.Wf) : (imageData off data s).held.Wf := by
  dsimp only [imageData]
  refine wf_cond _ ?_ (wf_cond _ (wf_writeFirmware ?_ _ _) (wf_writeFlash (wf_eraseSectors _ _ _ ?_) _ _)) <;> simp [hs]

/-! #### RegWrite -/

theorem wf_writeStoreBlockCtrl (s : State) (d : Die) (st : Store) (v : Word) (hs : s.held.Wf) :
    ∀ t ∈ writeStoreBlockCtrl s d st v, t.held.Wf := by
  simp [writeStoreBlockCtrl, hs]

theorem wf_none : ∀ t ∈ (none : Option State), t.held.Wf := by simp

theorem wf_some {s : State} (hs : s.held.Wf) : ∀ t ∈ some s, t.held.Wf := by simp [hs]

theorem wf_ite (c : Prop) [Decidable c] {o p : Option State} (ho : ∀ t ∈ o, t.held.Wf) (hp : ∀ t ∈ p, t.held.Wf) :
    ∀ t ∈ if c then o else p, t.held.Wf := by
  split
  · exact ho
  · exact hp

theorem wf_of_held {s : State} {o : Option State} (ho : ∀ t ∈ o, t.held = s.held) (hs : s.held.Wf) : ∀ t ∈ o, t.held.Wf :=
  fun t ht => by rw [ho t ht]; exact hs

theorem wf_ownWrite (s : State) (r : Reg) (v : Word) (hs : s.held.Wf) : ∀ t ∈ ownWrite s r v, t.held.Wf := by
  cases r with
  | engGradeMask => exact wf_of_held (held_writeGrade _ _) hs
  | scvCoreCtrl => exact wf_of_held (held_writeCoreCtrl _ _ _ _) hs
  | scvCtxCmd => exact wf_of_held (held_ctxCommand _ _ _ _) hs
  | scvSchedCtrl | wstBistCtrl | fdxMcastCtrl | fdxEpcLen | circLinkCtrl | circStreamLen | hbmRetireCtrl | fcuReact | ptcCap
    | ptcThermCtrl => exact wf_ite _ wf_none (wf_some (by simp [hs]))
  | scvStepAbort => exact wf_of_held (held_abortStep _ _ _) hs
  | wstStoreCtrl => exact wf_of_held (held_writeStoreCtrl _ _ _) hs
  | wstCtrl d => exact wf_writeStoreBlockCtrl s d .wst v hs
  | astCtrl d => exact wf_writeStoreBlockCtrl s d .ast v hs
  | pstCtrl d => exact wf_writeStoreBlockCtrl s d .pst v hs
  | wstRepairSel | astRepairSel | pstRepairSel => exact wf_of_held (held_writeRepairSel _ _ _ _) hs
  | wstRepairEntry | astRepairEntry | pstRepairEntry => exact wf_of_held (held_writeRepairEntry _ _ _ _) hs
  | fdxEpcTag => exact wf_of_held (held_writeEpcTag _ _ _ _) hs
  | dmaPost => exact wf_of_held (held_postPrivileged _ _ _ _) hs
  | dmaTxnRes | dmaTxnCore => exact wf_of_held (held_writeReserve _ _ _ _) hs
  | dmaRwinA => exact wf_of_held (held_writeWindowA _ _ _) hs
  | dmaRwinB => exact wf_of_held (held_writeWindowB _ _ _) hs
  | dmaRimpA => exact wf_of_held (held_writeImportA _ _ _) hs
  | dmaRimpB => exact wf_of_held (held_writeImportB _ _ _) hs
  | syncCtr => exact wf_of_held (held_writeCtr _ _ _ _) hs
  | syncCtrl => exact wf_of_held (held_writeSyncCtrl _ _ _) hs
  | syncCrdMap | syncCrdFb => exact wf_ite _ (wf_some (by simp [hs])) wf_none
  | syncXlEntry => exact wf_of_held (held_writeXl _ _ _) hs
  | syncBarA => exact wf_of_held (held_writeBarMask _ _ _ _ _) hs
  | syncBarB => exact wf_of_held (held_writeBarB _ _ _ _) hs
  | circRingConf => exact wf_of_held (held_writeRingConf _ _) hs
  | circWindow => exact wf_of_held (held_writeWindow _ _) hs
  | circArc => exact wf_of_held (held_writeArc _ _) hs
  | circPartE | circPartW | circPartSe | circPartSw => exact wf_of_held (held_writePart _ _ _ _ _) hs
  | circCohort => exact wf_of_held (held_writeCohort _ _ _) hs
  | circAdmit => exact wf_of_held (held_writeAdmit _ _) hs
  | circForm => exact wf_of_held (held_writeForm _ _) hs
  | circBypass => exact wf_of_held (held_writeBypass _ _) hs
  | circSplice => exact wf_of_held (held_writeSplice _ _) hs
  | circReinjCtrl => exact wf_of_held (held_writeStaging _ _) hs
  | circOwn => exact wf_of_held (held_writeOwn _ _ _) hs
  | circLaneB => exact wf_of_held (held_forceSub _ _ _ _) hs
  | hbmRetrainCtrl | lpdRetrainCtrl => exact wf_of_held (held_writeRetrain _ _ _) hs
  | hbmStackCmd => exact wf_of_held (held_writeStackCmd _ _ _) hs
  | lpdBack | lpdOpt | lpdPark => exact wf_of_held (held_writeRegion _ _ _) hs
  | mldLinkCtrl => exact wf_of_held (held_writeMldLink _ _) hs
  | mldSvcCtrl => exact wf_of_held (held_writeSvcCtrl _ _) hs
  | fcuCtrl =>
    intro t ht
    obtain ⟨u, hu, rfl⟩ := Option.map_eq_some_iff.mp ht
    simp [held_writeFcuCtrl _ _ _ _ _ hu, hs]
  | fcuPin => exact wf_of_held (held_writePin _ _) hs
  | fcuInject => exact wf_of_held (held_writeInject _ _ _ _ _ _) hs
  | ptcDieV => exact wf_of_held (held_writeSetMv _ _ _) hs
  | ptcTbSet => exact wf_of_held (held_writeTbSet _ _) hs
  | ptcCalCmd => exact wf_of_held (held_writeCalCmd _ _ _) hs
  | secFuseCmd => exact wf_of_held (held_writeFuseCmd _ _ _) hs
  | secAttCmd => exact wf_ite _ (wf_of_held (held_writeAttGo _) hs) (wf_some (by simp [hs]))
  | _ => exact wf_some (by simp [hs])

@[simp] theorem wf_writeReg (s : State) (w : Writer) (r : Reg) (v : Word) (hs : s.held.Wf) : (writeReg s w r v).1.held.Wf := by
  unfold writeReg
  split
  · simp [hs]
  · split
    · simp [hs]
    · simp only []
      split
      · simp [hs]
      · split
        · simp [hs]
        · next t e => simp [wf_ownWrite _ _ _ hs _ e]

@[simp] theorem wf_makeAccess (s : State) (h : HeldAccess) (r : Reg) (hs : s.held.Wf) : (makeAccess s h r).held.Wf := by
  unfold makeAccess
  split <;> simp [hs]

@[simp] theorem wf_regAccess (s : State) (h : HeldAccess) (a : Word) (hs : s.held.Wf) : (regAccess s h a).held.Wf := by
  fun_cases regAccess <;> simp [hs]

@[simp] theorem wf_privWrite (s : State) (r : Reg) (v : Word) (hs : s.held.Wf) : (privWrite s r v).held.Wf := by
  simp [privWrite, hs]

@[simp] theorem wf_resetComplete (b : Block) (d : Die) (s : State) (hs : s.held.Wf) : (resetComplete b d s).held.Wf := by
  unfold resetComplete
  split
  · refine wf_foldl (fun t h ht => ?_) _ (by simp [hs])
    split <;> simp [ht]
  · exact hs

/-! #### Ctrl -/

theorem wf_overLink (again : MsgHead → Instr) (h : MsgHead) (hello : Bool) {act : State → State} (hact : ∀ t, t.held.Wf → (act t).held.Wf)
    {s : State} (hs : s.held.Wf) : (overLink again h hello act s).held.Wf := by
  unfold overLink
  split
  · exact hact s hs
  · simp only []
    split
    · simp [hs]
    · split
      · simp [hs]
      · split
        · exact hact _ (by simp [hs])
        · split
          · exact hact _ (by simp [hs])
          · simp [hs]

/-! #### Service -/

theorem wf_judgeMessage (h : MsgHead) (roles : List Nat) {f : State → State} (hf : ∀ t, t.held.Wf → (f t).held.Wf)
    {s : State} (hs : s.held.Wf) : (judgeMessage h roles f s).held.Wf := by
  unfold judgeMessage
  split
  · exact hs
  · split
    · simp [hs]
    · split
      · simp [hs]
      · split
        · exact hf s hs
        · simp [hs]

theorem wf_onMessage (again : MsgHead → Instr) (h : MsgHead) (roles : List Nat) {f : State → State}
    (hf : ∀ t, t.held.Wf → (f t).held.Wf) {s : State} (hs : s.held.Wf) : (onMessage again h roles f s).held.Wf :=
  wf_overLink _ _ _ (fun _ ht => wf_judgeMessage _ _ hf ht) hs

/-! #### RegWrite -/

@[simp] theorem wf_regMessage (h : MsgHead) (a : Word) (v : Option Word) (s : State) (hs : s.held.Wf) : (regMessage h a v s).held.Wf :=
  wf_onMessage _ h _ (fun _ ht => wf_regAccess _ _ _ ht) hs

/-! #### Commands -/

@[simp] theorem wf_setFields (s : State) (r : Reg) (fs : List (Fld × Nat)) (hs : s.held.Wf) : (setFields s r fs).held.Wf := by
  simp [setFields, hs]

@[simp] theorem wf_clearCounts (s : State) (r : Reg) (hs : s.held.Wf) : (clearCounts s r).held.Wf := by
  simp [clearCounts, hs]

@[simp] theorem wf_slotCommand (s : State) (d : Die) (q : CoreId) (x : SlotId) (cmd addr : Nat) (hs : s.held.Wf) :
    (slotCommand s d q x cmd addr).held.Wf := by
  simp [slotCommand, hs]

/-! #### Remote -/

@[simp] theorem wf_stageFrame (s : State) (h : RxHead) (p : RemotePkt) (hs : s.held.Wf) : (stageFrame s h p).held.Wf := by
  simp [stageFrame, hs]

@[simp] theorem wf_landWrite (s : State) (h : RxHead) (p : RemotePkt) (eot : Bool) (hs : s.held.Wf) : (landWrite s h p eot).held.Wf := by
  simp only [landWrite]
  split <;> simp [hs]

@[simp] theorem wf_landRrd (s : State) (h : RxHead) (p : RemotePkt) (hs : s.held.Wf) : (landRrd s h p).held.Wf := by
  simp only [landRrd]
  split <;> simp [hs]

@[simp] theorem wf_landPacket (s : State) (h : RxHead) (p : RemotePkt) (eot : Bool) (hs : s.held.Wf) : (landPacket s h p eot).held.Wf := by
  unfold landPacket
  split <;> simp [hs]

@[simp] theorem wf_flushHeld (s : State) (hs : s.held.Wf) : (flushHeld s).held.Wf := by
  unfold flushHeld
  split
  · exact hs
  · exact wf_foldl (fun t e ht => by simp [ht]) _ (by simp [hs])

@[simp] theorem wf_remoteFrame (h : RxHead) (headOk eot : Bool) (p : RemotePkt) (s : State) (hs : s.held.Wf) :
    (remoteFrame h headOk eot p s).held.Wf := by
  unfold remoteFrame
  split
  · next e => rwa [held_of_receive_no e]
  · next e =>
    have hr := held_of_receive_yes e
    split
    · simp [hr, hs]
    · split
      · simp [hr, hs]
      · split <;> simp [hr, hs]

/-! #### Scalar -/

@[simp] theorem wf_ctxRegAccess (s : State) (d : Die) (q : CoreId) (x : SlotId) (m n : Nat) (value : Option Word)
    (rd : Option (Fin 32)) (hs : s.held.Wf) : (ctxRegAccess s d q x m n value rd).held.Wf := by
  simp [ctxRegAccess, hs]

/-! #### Beat -/

@[simp] theorem wf_dieBeat (d : Die) (s : State) (hs : s.held.Wf) : (dieBeat d s).held.Wf := by
  simp [dieBeat, hs]

@[simp] theorem wf_dieBeats (d : Die) (n : Nat) (s : State) (hs : s.held.Wf) : (dieBeats d n s).held.Wf := by
  induction n generalizing s with
  | zero => exact hs
  | succ n ih => exact ih _ (by simp [hs])

/-! #### Tick -/

@[simp] theorem wf_tickDie (s : State) (d : Die) (hs : s.held.Wf) : (tickDie s d).held.Wf := by
  simp [tickDie, hs]

@[simp] theorem wf_tick (s : State) (hs : s.held.Wf) : (tick s).held.Wf := by
  simp only [tick]
  split
  · exact hs
  · refine wf_flushHeld _ (wf_tickDie _ _ (wf_tickDie _ _ ?_))
    simp [hs]

/-! #### Commands and steps -/

/-- The command answers no state but one whose memories are in canonical form. -/
def NextWf (r : Res) : Prop := ∀ t, r = .next t → t.held.Wf

theorem wf_next {t : State} (ht : t.held.Wf) : NextWf (.next t) := fun u e => by cases e; exact ht

theorem wf_issue {s : State} (hs : s.held.Wf) {d : Die} {q : CoreId} {srcs : List (Fin 32)} {k : SlotId → Ctx → State → State}
    (hk : ∀ x c t, t.held.Wf → (k x c t).held.Wf) : NextWf (.next (withIssue s d q srcs k)) := wf_next (wf_withIssue _ _ _ _ hk hs)

theorem wf_execBeats (d : Die) (q : CoreId) (sD : Fin 32) {s : State} (hs : s.held.Wf) :
    NextWf (execBeats d q sD s) := wf_issue hs fun x c t ht => by simp [ht]

theorem wf_execTime (d : Die) (q : CoreId) (sD : Fin 32) {s : State} (hs : s.held.Wf) :
    NextWf (execTime d q sD s) := wf_issue hs fun x c t ht => by simp [ht]

theorem wf_execBwait (d : Die) (q : CoreId) (sA : Fin 32) {s : State} (hs : s.held.Wf) :
    NextWf (execBwait d q sA s) := wf_issue hs fun x c t ht => by simp [ht]

theorem wf_execTwait (d : Die) (q : CoreId) (sA : Fin 32) {s : State} (hs : s.held.Wf) :
    NextWf (execTwait d q sA s) := wf_issue hs fun x c t ht => by simp [ht]

theorem wf_execEissue (d : Die) (q : CoreId) (sA : Fin 32) {s : State} (hs : s.held.Wf) :
    NextWf (execEissue d q sA s) := wf_issue hs fun x c t ht => by simp [ht]

theorem wf_execEfence (d : Die) (q : CoreId) {s : State} (hs : s.held.Wf) :
    NextWf (execEfence d q s) := wf_issue hs fun x c t ht => by simp [ht]

theorem wf_execEstat (d : Die) (q : CoreId) (sD : Fin 32) {s : State} (hs : s.held.Wf) :
    NextWf (execEstat d q sD s) := wf_issue hs fun x c t ht => by simp [ht]

theorem wf_execPflush (d : Die) (q : CoreId) {s : State} (hs : s.held.Wf) :
    NextWf (execPflush d q s) := wf_issue hs fun x c t ht => by simp [ht]

theorem wf_execBranch (d : Die) (q : CoreId) (taken : Bool) (target : Nat) {s : State} (hs : s.held.Wf) :
    NextWf (execBranch d q taken target s) := wf_issue hs fun x c t ht => by simp [ht]

theorem wf_execAfeed (d : Die) (q : CoreId) (sA sB : Fin 32) {s : State} (hs : s.held.Wf) : NextWf (execAfeed d q sA sB s) := by
  refine wf_issue hs fun x c t ht => ?_
  dsimp only
  split <;> simp [ht]

theorem wf_execWtord (d : Die) (q : CoreId) (sA : Fin 32) {s : State} (hs : s.held.Wf) :
    NextWf (execWtord d q sA s) := wf_issue hs fun x c t ht => by simp [ht]

theorem wf_execTfeed (d : Die) (q : CoreId) (sA : Fin 32) {s : State} (hs : s.held.Wf) : NextWf (execTfeed d q sA s) := by
  refine wf_issue hs fun x c t ht => ?_
  dsimp only
  split <;> simp [ht]

theorem wf_execXpand (d : Die) (q : CoreId) (sA sB : Fin 32) {s : State} (hs : s.held.Wf) : NextWf (execXpand d q sA sB s) := by
  refine wf_issue hs fun x c t ht => ?_
  dsimp only
  split <;> simp [ht]

theorem wf_execMcast (d : Die) (q : CoreId) (sA sB : Fin 32) {s : State} (hs : s.held.Wf) :
    NextWf (execMcast d q sA sB s) := wf_issue hs fun x c t ht => by simp [ht]

theorem wf_execGacc (d : Die) (q : CoreId) (sA sB : Fin 32) {s : State} (hs : s.held.Wf) :
    NextWf (execGacc d q sA sB s) := wf_issue hs fun x c t ht => by simp [ht]

theorem wf_execStep (d : Die) (q : CoreId) (sA sB : Fin 32) {s : State} (hs : s.held.Wf) : NextWf (execStep d q sA sB s) := by
  refine wf_issue hs fun x c t ht => ?_
  dsimp only
  split <;> simp [ht]

theorem wf_execStepend (d : Die) (q : CoreId) (sA : Fin 32) {s : State} (hs : s.held.Wf) :
    NextWf (execStepend d q sA s) := wf_issue hs fun x c t ht => by simp [ht]

theorem wf_execSignal (d : Die) (q : CoreId) (sA : Fin 32) {s : State} (hs : s.held.Wf) : NextWf (execSignal d q sA s) := by
  refine wf_issue hs fun x c t ht => ?_
  dsimp only
  split <;> simp [ht]

theorem wf_execWait (d : Die) (q : CoreId) (sA sB : Fin 32) (pD : Fin 8) {s : State} (hs : s.held.Wf) :
    NextWf (execWait d q sA sB pD s) := by
  refine wf_issue hs fun x c t ht => ?_
  dsimp only
  split <;> simp [ht]

theorem wf_execConsume (d : Die) (q : CoreId) (sA : Fin 32) {s : State} (hs : s.held.Wf) : NextWf (execConsume d q sA s) := by
  refine wf_issue hs fun x c t ht => ?_
  dsimp only
  split <;> simp [ht]

theorem wf_execCread (d : Die) (q : CoreId) (sD sA : Fin 32) {s : State} (hs : s.held.Wf) : NextWf (execCread d q sD sA s) := by
  refine wf_issue hs fun x c t ht => ?_
  dsimp only
  split <;> simp [ht]

theorem wf_execBarrive (d : Die) (q : CoreId) (sA : Fin 32) {s : State} (hs : s.held.Wf) : NextWf (execBarrive d q sA s) := by
  refine wf_issue hs fun x c t ht => ?_
  dsimp only
  split <;> simp [ht]

theorem wf_execDpost (d : Die) (q : CoreId) (sA : Fin 32) {s : State} (hs : s.held.Wf) : NextWf (execDpost d q sA s) := by
  refine wf_issue hs fun x c t ht => ?_
  dsimp only
  split <;> simp [ht]

theorem wf_execDstat (d : Die) (q : CoreId) (sD : Fin 32) {s : State} (hs : s.held.Wf) :
    NextWf (execDstat d q sD s) := wf_issue hs fun x c t ht => by simp [ht]

theorem wf_execNarrowLoad (d : Die) (q : CoreId) (rd : Fin 32) (addr : Nat) (lg : Fin 4) (sx : Bool) (srcs : List (Fin 32))
    {s : State} (hs : s.held.Wf) : NextWf (execNarrowLoad d q rd addr lg sx srcs s) := by
  refine wf_issue hs fun x c t ht => ?_
  dsimp only
  split
  · simp [ht]
  · split
    · simp [ht]
    · split <;> simp [ht]

theorem wf_execNarrowStore (d : Die) (q : CoreId) (addr : Nat) (lg : Fin 4) (v : Word) (srcs : List (Fin 32)) {s : State} (hs : s.held.Wf) :
    NextWf (execNarrowStore d q addr lg v srcs s) := by
  refine wf_issue hs fun x c t ht => ?_
  dsimp only
  split
  · simp [ht]
  · split
    · simp [ht]
    · split <;> simp [ht]

theorem wf_some_next {r : Res} (hr : NextWf r) : ∀ r' ∈ some r, NextWf r' := by simpa using hr

theorem wf_wordEffect (d : Die) (q : CoreId) (w : Half) {s : State} (hs : s.held.Wf) : ∀ r ∈ wordEffect d q w s, NextWf r := by
  unfold wordEffect
  split
  · exact wf_some_next (wf_execEissue _ _ _ hs)
  · exact wf_some_next (wf_execEfence _ _ hs)
  · exact wf_some_next (wf_execEstat _ _ _ hs)
  · exact wf_some_next (wf_execAfeed _ _ _ _ hs)
  · exact wf_some_next (wf_execWtord _ _ _ hs)
  · exact wf_some_next (wf_execMcast _ _ _ _ hs)
  · exact wf_some_next (wf_execGacc _ _ _ _ hs)
  · exact wf_some_next (wf_execPflush _ _ hs)
  · exact wf_some_next (wf_execXpand _ _ _ _ hs)
  · exact wf_some_next (wf_execTfeed _ _ _ hs)
  · exact wf_some_next (wf_execBeats _ _ _ hs)
  · exact wf_some_next (wf_execTime _ _ _ hs)
  · exact wf_some_next (wf_execBwait _ _ _ hs)
  · exact wf_some_next (wf_execTwait _ _ _ hs)
  · exact wf_some_next (wf_execDpost _ _ _ hs)
  · exact wf_some_next (wf_execDstat _ _ _ hs)
  · exact wf_some_next (wf_execStep _ _ _ _ hs)
  · exact wf_some_next (wf_execStepend _ _ _ hs)
  · exact wf_some_next (wf_execSignal _ _ _ hs)
  · exact wf_some_next (wf_execWait _ _ _ _ _ hs)
  · exact wf_some_next (wf_execConsume _ _ _ hs)
  · exact wf_some_next (wf_execCread _ _ _ _ hs)
  · exact wf_some_next (wf_execBarrive _ _ _ hs)
  · simp

theorem wf_execScalarOp (d : Die) (q : CoreId) (op : ScalarOp) (srcs : List (Fin 32)) {s : State} (hs : s.held.Wf) :
    NextWf (execScalarOp d q op srcs s) := by
  have other : NextWf (.next (withIssue s d q srcs fun x c t => scalarEffect d q op srcs x c t)) :=
    wf_issue hs fun x c t ht => by simp [ht]
  unfold execScalarOp
  split
  · split
    · exact other
    · cases e : wordEffect d q _ s with
      | none => exact other
      | some r => exact wf_wordEffect _ _ _ hs r e
  · exact other

theorem wf_exec (c : Instr) {s : State} (hs : s.held.Wf) : NextWf (exec c s) := by
  cases c with
  | scalarOp => exact wf_execScalarOp _ _ _ _ hs
  | branch => exact wf_execBranch _ _ _ _ hs
  | narrowLoad => exact wf_execNarrowLoad _ _ _ _ _ _ _ hs
  | narrowStore => exact wf_execNarrowStore _ _ _ _ _ _ hs
  | pflush => exact wf_execPflush _ _ hs
  | eissue => exact wf_execEissue _ _ _ hs
  | efence => exact wf_execEfence _ _ hs
  | estat => exact wf_execEstat _ _ _ hs
  | afeed => exact wf_execAfeed _ _ _ _ hs
  | wtord => exact wf_execWtord _ _ _ hs
  | mcast => exact wf_execMcast _ _ _ _ hs
  | gacc => exact wf_execGacc _ _ _ _ hs
  | xpand => exact wf_execXpand _ _ _ _ hs
  | tfeed => exact wf_execTfeed _ _ _ hs
  | dpost => exact wf_execDpost _ _ _ hs
  | dstat => exact wf_execDstat _ _ _ hs
  | beats => exact wf_execBeats _ _ _ hs
  | time => exact wf_execTime _ _ _ hs
  | bwait => exact wf_execBwait _ _ _ hs
  | twait => exact wf_execTwait _ _ _ hs
  | step => exact wf_execStep _ _ _ _ hs
  | stepend => exact wf_execStepend _ _ _ hs
  | signal => exact wf_execSignal _ _ _ hs
  | wait => exact wf_execWait _ _ _ _ _ hs
  | consume => exact wf_execConsume _ _ _ hs
  | cread => exact wf_execCread _ _ _ _ hs
  | barrive => exact wf_execBarrive _ _ _ hs
  | hello => exact wf_next (wf_overLink _ _ _ (fun t ht => by simp [ht]) hs)
  | ack => exact wf_next (wf_onMessage _ _ _ (fun t ht => by split <;> simp [ht]) hs)
  | job | load | prompt | evictCancel | evictPark | dumpReq | imageData | imageCommit | imageAbort =>
    exact wf_next (wf_onMessage _ _ _ (fun t ht => by simp [ht]) hs)
  | storeReadReturn | frameTransmit | linkRetryTimeout | idle | nak => exact wf_next (by split <;> simp [hs])
  | _ => exact wf_next (by simp [hs])

theorem wf_step {s : State} (hs : s.held.Wf) : NextWf (step s) := by
  unfold step
  split
  · exact wf_exec _ hs
  · split
    · next c t e =>
      have ht : t.held = s.held := held_dueMessage _ _ e
      exact wf_exec _ (by rwa [ht])
    · exact wf_next (wf_tick _ hs)

/-- Settles O58: the canonical form is an invariant of the three memories alone, and every command keeps it. -/
theorem everyStepKeepsCanonicalMemory : Obligations.EveryStepKeepsCanonicalMemory := by
  intro s t hs e
  exact wf_step ((canonical_iff s).mp hs) t e

end Sys2Proof.Machine
end

section
namespace Sys2Proof.Machine

/-! ### The register map (O59) -/

/-- The register of a block at an offset of a die's half: the decoder of the block. -/
def Reg.ofBlock : Block → Die → Nat → Option Reg
  | .mod => Reg.ofMod | .eng => Reg.ofEng | .scv => Reg.ofScv | .wst => Reg.ofWst | .ast => Reg.ofAst | .pst => Reg.ofPst
  | .fdx => Reg.ofFdx | .dma => Reg.ofDma | .sync => Reg.ofSync | .circ => Reg.ofCirc | .hbm => Reg.ofHbm | .lpd => Reg.ofLpd
  | .mld => Reg.ofMld | .fcu => Reg.ofFcu | .ptc => Reg.ofPtc | .sec => Reg.ofSec

theorem Block.num_lt (b : Block) : b.num < 16 := by cases b <;> decide

theorem Block.ofNum_num (b : Block) : Block.ofNum b.num = some b := by cases b <;> rfl

theorem blockBase_eq (b : Block) (d : Die) (off : Nat) :
    blockBase b.num d.val + off = 0xFE00000000 + (b.num * 0x1000000 + (d.val * 0x800000 + off)) := by
  simp only [blockBase, Nat.add_assoc]

/-- The three parts of an address in a block's range: the block, the die and the offset. -/
theorem blockBase_parts (b : Block) (d : Die) {off : Nat} (ho : off < 0x800000) :
    (blockBase b.num d.val + off - 0xFE00000000) / 0x1000000 = b.num ∧
    (blockBase b.num d.val + off - 0xFE00000000) / 0x800000 % 2 = d.val ∧
    (blockBase b.num d.val + off - 0xFE00000000) % 0x800000 = off := by
  rw [blockBase_eq, Nat.add_sub_cancel_left]
  omega

theorem ofAddr_blockBase (b : Block) (d : Die) {off : Nat} (ho : off < 0x800000) :
    Reg.ofAddr (blockBase b.num d.val + off) = Reg.ofBlock b d off := by
  obtain ⟨hb, hd, hoff⟩ := blockBase_parts b d ho
  have hrange : ¬(blockBase b.num d.val + off < 0xFE00000000 ∨ 0xFF00000000 ≤ blockBase b.num d.val + off) := by
    have := b.num_lt
    rw [blockBase_eq]
    omega
  unfold Reg.ofAddr
  rw [if_neg hrange]
  simp only [hb, hd, hoff]
  cases b <;> rfl

/-! #### Offsets in arrays of registers -/

@[simp] theorem only_hit (o : Nat) (r : Reg) : only o o r = some r := if_pos rfl

@[simp] theorem only_miss {off o : Nat} (h : off ≠ o) (r : Reg) : only off o r = none := if_neg h

@[simp] theorem slotOf_hit {stride n : Nat} (hs : 0 < stride) (base : Nat) (i : Fin n) : slotOf (base + i.val * stride) base stride n = some i := by
  simp [slotOf, Nat.mul_div_cancel _ hs]

@[simp] theorem slotOf_hit_zero {stride n : Nat} (hs : 0 < stride) (i : Fin n) : slotOf (i.val * stride) 0 stride n = some i := by
  simpa using slotOf_hit hs 0 i

@[simp] theorem slotOf_miss {off base stride n : Nat} (h : off < base ∨ (off - base) % stride ≠ 0 ∨ n ≤ (off - base) / stride) :
    slotOf off base stride n = none :=
  dif_neg (by omega)

@[simp] theorem slotOf2_hit {st1 st2 n1 n2 : Nat} (h1 : n2 * st2 ≤ st1) (h2 : 0 < st2) (base : Nat) (i : Fin n1) (j : Fin n2) :
    slotOf2 (base + i.val * st1 + j.val * st2) base st1 n1 st2 n2 = some (i, j) := by
  have hlt : j.val * st2 < st1 := Nat.lt_of_lt_of_le (Nat.mul_lt_mul_of_pos_right j.isLt h2) h1
  have hoff : base + i.val * st1 + j.val * st2 - base = j.val * st2 + i.val * st1 := by omega
  have hdiv : (j.val * st2 + i.val * st1) / st1 = i.val := by
    rw [Nat.add_mul_div_right _ _ (by omega), Nat.div_eq_of_lt hlt, Nat.zero_add]
  have hmod : (j.val * st2 + i.val * st1) % st1 = j.val * st2 := by
    rw [Nat.add_mul_mod_self_right, Nat.mod_eq_of_lt hlt]
  have hle : base ≤ base + i.val * st1 + j.val * st2 := by omega
  simp [slotOf2, hoff, hdiv, hmod, hle, Nat.mul_div_cancel _ h2]

@[simp] theorem slotOf2_miss {off base st1 n1 st2 n2 : Nat} (h : off < base ∨ n1 ≤ (off - base) / st1 ∨ (off - base) % st1 % st2 ≠ 0
    ∨ n2 ≤ (off - base) % st1 / st2) : slotOf2 off base st1 n1 st2 n2 = none :=
  dif_neg (by omega)

theorem FaultClass.code_lt (k : FaultClass) : k.code < 16 := by cases k <;> decide

theorem FaultClass.ofCode_code (k : FaultClass) : FaultClass.ofCode k.code = some k := by cases k <;> rfl

theorem Source.id_lt (src : Source) : src.id < 4096 := by cases src <;> decide

theorem Source.ofId_id (src : Source) : Source.ofId src.id = some src := by cases src <;> rfl

/-- Where a register must stand: an aligned address of its block's range that leads back to it. -/
def Reg.Located (r : Reg) : Prop :=
  Reg.ofAddr r.addr = some r ∧ r.addr % 8 = 0 ∧ 0xFE00000000 ≤ r.addr ∧ r.addr < 0xFF00000000
    ∧ Block.ofNum ((r.addr - 0xFE00000000) / 0x1000000) = some r.block

/-- A register stands at its address when its block's decoder finds it at the address's offset. -/
theorem located {r : Reg} (d : Die) {off : Nat} (hr : r.addr = blockBase r.block.num d.val + off) (ho : off < 0x800000) (ha : off % 8 = 0)
    (hf : Reg.ofBlock r.block d off = some r) : r.Located := by
  have hb := (blockBase_parts r.block d ho).1
  have hn := r.block.num_lt
  refine ⟨?_, ?_, ?_, ?_, ?_⟩ <;> rw [hr]
  · rw [ofAddr_blockBase _ _ ho, hf]
  · rw [blockBase_eq]; omega
  · rw [blockBase_eq]; omega
  · rw [blockBase_eq]; omega
  · rw [hb, Block.ofNum_num]

/-- `located` for a register of an array. -/
theorem located_array {r : Reg} (d : Die) {base k : Nat} (hr : r.addr = blockBase r.block.num d.val + base + k)
    (ho : base + k < 0x800000) (ha : (base + k) % 8 = 0) (hf : Reg.ofBlock r.block d (base + k) = some r) : r.Located :=
  located d (hr.trans (Nat.add_assoc ..)) ho ha hf

/-- `located` for a register of an array of arrays. -/
theorem located_array2 {r : Reg} (d : Die) {base k l : Nat} (hr : r.addr = blockBase r.block.num d.val + base + k + l)
    (ho : base + k + l < 0x800000) (ha : (base + k + l) % 8 = 0) (hf : Reg.ofBlock r.block d (base + k + l) = some r) : r.Located :=
  located d (by rw [hr]; simp only [Nat.add_assoc]) ho ha hf

theorem located_mod {r : Reg} (hb : r.block = .mod) : r.Located := by
  cases r with
  | modIdent | modTopology =>
    exact located 0 rfl (by omega) (by omega) (by simp (disch := omega) [Reg.ofBlock, Reg.block, Reg.ofMod])
  | _ => cases hb

theorem located_eng {r : Reg} (hb : r.block = .eng) : r.Located := by
  cases r with
  | engCoreStatus d | engFreezeDry d | engFreezeTile d | engFreezeDrain d | engRetired d | engRejectWord d =>
    exact located_array d rfl (by omega) (by omega) (by simp (disch := omega) [Reg.ofBlock, Reg.block, Reg.ofEng])
  | engCtrl d | engFusedLo d | engFusedHi d | engCoreMap d =>
    exact located d rfl (by omega) (by omega) (by simp (disch := omega) [Reg.ofBlock, Reg.block, Reg.ofEng])
  | engGradeMask =>
    exact located 0 rfl (by omega) (by omega) (by simp (disch := omega) [Reg.ofBlock, Reg.block, Reg.ofEng])
  | _ => cases hb

theorem located_scv {r : Reg} (hb : r.block = .scv) : r.Located := by
  cases r with
  | scvCoreCtrl d | scvIssueStall d | scvCtxCmd d | scvStepLogA d | scvStepLogB d =>
    exact located_array d rfl (by omega) (by omega) (by simp (disch := omega) [Reg.ofBlock, Reg.block, Reg.ofScv])
  | scvCtx d | scvCtxPc d =>
    exact located_array2 d rfl (by omega) (by omega) (by simp (disch := omega) [Reg.ofBlock, Reg.block, Reg.ofScv])
  | scvCtrl d | scvBeat d | scvTime d | scvRate d | scvSchedCtrl d | scvStepStatus d | scvStepAbort d =>
    exact located d rfl (by omega) (by omega) (by simp (disch := omega) [Reg.ofBlock, Reg.block, Reg.ofScv])
  | _ => cases hb

theorem located_wst {r : Reg} (hb : r.block = .wst) : r.Located := by
  cases r with
  | wstStoreCtrl d | wstCtrl d | wstErrCount d | wstErrAddr d | wstRepairSel d | wstRepairEntry d | wstRepairStatus d
   | wstJobTag d | wstBistCtrl d | wstBistStatus d | wstNarrowStall d =>
    exact located d rfl (by omega) (by omega) (by simp (disch := omega) [Reg.ofBlock, Reg.block, Reg.ofWst])
  | _ => cases hb

theorem located_ast {r : Reg} (hb : r.block = .ast) : r.Located := by
  cases r with
  | astCtrl d | astErrCount d | astErrAddr d | astRepairSel d | astRepairEntry d | astRepairStatus d =>
    exact located d rfl (by omega) (by omega) (by simp (disch := omega) [Reg.ofBlock, Reg.block, Reg.ofAst])
  | _ => cases hb

theorem located_pst {r : Reg} (hb : r.block = .pst) : r.Located := by
  cases r with
  | pstCtrl d | pstErrCount d | pstErrAddr d | pstRepairSel d | pstRepairEntry d | pstRepairStatus d =>
    exact located d rfl (by omega) (by omega) (by simp (disch := omega) [Reg.ofBlock, Reg.block, Reg.ofPst])
  | _ => cases hb

theorem located_fdx {r : Reg} (hb : r.block = .fdx) : r.Located := by
  cases r with
  | fdxFeedStatus d | fdxPortHold d | fdxFeedStall d | fdxExpStatus d | fdxExpBlocks d | fdxExpBehind d | fdxEpcTag d =>
    exact located_array d rfl (by omega) (by omega) (by simp (disch := omega) [Reg.ofBlock, Reg.block, Reg.ofFdx])
  | fdxCtrl d | fdxCompCtrl d | fdxLowratio d | fdxMcastCtrl d | fdxMcastStatus d | fdxMcastWait d =>
    exact located d rfl (by omega) (by omega) (by simp (disch := omega) [Reg.ofBlock, Reg.block, Reg.ofFdx])
  | fdxEpcLen d =>
    exact located_array2 d rfl (by omega) (by omega) (by simp (disch := omega) [Reg.ofBlock, Reg.block, Reg.ofFdx])
  | _ => cases hb

theorem located_dma {r : Reg} (hb : r.block = .dma) : r.Located := by
  cases r with
  | dmaQstatus d | dmaErrDesc d | dmaDoneCount d | dmaPost d | dmaTxnRes d =>
    exact located_array d rfl (by omega) (by omega) (by simp (disch := omega) [Reg.ofBlock, Reg.block, Reg.ofDma])
  | dmaCtrl d | dmaTxnCore d | dmaTxnStatus d =>
    exact located d rfl (by omega) (by omega) (by simp (disch := omega) [Reg.ofBlock, Reg.block, Reg.ofDma])
  | dmaRwinA | dmaRwinB | dmaRimpA | dmaRimpB =>
    exact located_array 0 rfl (by omega) (by omega) (by simp (disch := omega) [Reg.ofBlock, Reg.block, Reg.ofDma])
  | _ => cases hb

theorem located_sync {r : Reg} (hb : r.block = .sync) : r.Located := by
  cases r with
  | syncCtr d | syncCrdMap d | syncCrdFb d | syncBarA d | syncBarB d =>
    exact located_array d rfl (by omega) (by omega) (by simp (disch := omega) [Reg.ofBlock, Reg.block, Reg.ofSync])
  | syncCtrl d | syncStatus d | syncXlSel d | syncXlEntry d =>
    exact located d rfl (by omega) (by omega) (by simp (disch := omega) [Reg.ofBlock, Reg.block, Reg.ofSync])
  | syncBarC | syncBarD =>
    exact located_array 0 rfl (by omega) (by omega) (by simp (disch := omega) [Reg.ofBlock, Reg.block, Reg.ofSync])
  | _ => cases hb

theorem located_circ {r : Reg} (hb : r.block = .circ) (hp : presentReg r = true) : r.Located := by
  cases r with
  | circRingConf | circPosition | circPeriodTarget | circPhase | circWindow | circArc | circUpdate | circCtrl | circPartE
   | circPartW | circStatus | circPartSe | circPartSw | circLinkCtrl | circAdmit | circForm | circBypass | circSplice
   | circReinjA | circReinjB | circReinjCtrl | circStreamLen =>
    exact located 0 rfl (by omega) (by omega) (by simp (disch := omega) [Reg.ofBlock, Reg.block, Reg.ofCirc])
  | circCohort | circPortCtrl | circPortStatus | circPortPeer | circPortEpoch | circOwn =>
    exact located_array 0 rfl (by omega) (by omega) (by simp (disch := omega) [Reg.ofBlock, Reg.block, Reg.ofCirc])
  | circLaneA p l =>
    have hl : l.val < lanesOf p := of_decide_eq_true hp
    exact located_array2 0 rfl (by omega) (by omega) (by simp (disch := omega) [Reg.ofBlock, Reg.block, Reg.ofCirc, hl])
  | circLaneB p l =>
    have hl : l.val < lanesOf p := of_decide_eq_true hp
    exact located_array2 0 rfl (by omega) (by omega) (by simp (disch := omega) [Reg.ofBlock, Reg.block, Reg.ofCirc, hl])
  | _ => cases hb

theorem located_hbm {r : Reg} (hb : r.block = .hbm) : r.Located := by
  cases r with
  | hbmCtrl d | hbmRetrainCtrl d | hbmRetireCtrl d =>
    exact located d rfl (by omega) (by omega) (by simp (disch := omega) [Reg.ofBlock, Reg.block, Reg.ofHbm])
  | hbmStackStatus d | hbmStackErr d | hbmStackCmd d =>
    exact located_array d rfl (by omega) (by omega) (by simp (disch := omega) [Reg.ofBlock, Reg.block, Reg.ofHbm])
  | _ => cases hb

theorem located_lpd {r : Reg} (hb : r.block = .lpd) : r.Located := by
  cases r with
  | lpdCtrl | lpdRetrainCtrl | lpdBack | lpdOpt | lpdPark =>
    exact located 0 rfl (by omega) (by omega) (by simp (disch := omega) [Reg.ofBlock, Reg.block, Reg.ofLpd])
  | lpdChStatus =>
    exact located_array 0 rfl (by omega) (by omega) (by simp (disch := omega) [Reg.ofBlock, Reg.block, Reg.ofLpd])
  | _ => cases hb

theorem located_mld {r : Reg} (hb : r.block = .mld) : r.Located := by
  cases r with
  | mldCtrl | mldLinkCtrl | mldLinkStatus | mldSvcCtrl | mldSvcStatus | mldSvcCounts =>
    exact located 0 rfl (by omega) (by omega) (by simp (disch := omega) [Reg.ofBlock, Reg.block, Reg.ofMld])
  | _ => cases hb

theorem located_fcu {r : Reg} (hb : r.block = .fcu) : r.Located := by
  cases r with
  | fcuCtrl | fcuStatus | fcuAck | fcuPin | fcuInject | fcuLogSel =>
    exact located 0 rfl (by omega) (by omega) (by simp (disch := omega) [Reg.ofBlock, Reg.block, Reg.ofFcu])
  | fcuLogData =>
    exact located_array 0 rfl (by omega) (by omega) (by simp (disch := omega) [Reg.ofBlock, Reg.block, Reg.ofFcu])
  | fcuClass k =>
    have hlt := k.code_lt
    have hit := slotOf_hit (by decide : 0 < 8) 0x100 ⟨k.code, hlt⟩
    exact located_array 0 rfl (by omega) (by omega) (by simp (disch := omega) [Reg.ofBlock, Reg.block, Reg.ofFcu, hit, FaultClass.ofCode_code])
  | fcuReact src =>
    have hlt := src.id_lt
    have hit := slotOf_hit (by decide : 0 < 8) 0x10000 ⟨src.id, hlt⟩
    exact located_array 0 rfl (by omega) (by omega) (by simp (disch := omega) [Reg.ofBlock, Reg.block, Reg.ofFcu, hit, Source.ofId_id])
  | fcuCount src =>
    have hlt := src.id_lt
    have hit := slotOf_hit (by decide : 0 < 8) 0x20000 ⟨src.id, hlt⟩
    exact located_array 0 rfl (by omega) (by omega) (by simp (disch := omega) [Reg.ofBlock, Reg.block, Reg.ofFcu, hit, Source.ofId_id])
  | _ => cases hb

theorem located_ptc {r : Reg} (hb : r.block = .ptc) : r.Located := by
  cases r with
  | ptcCtrl | ptcReady | ptcInput | ptcCap | ptcTherm | ptcThermCtrl | ptcTbTime | ptcTbConf | ptcTbSet | ptcTbStatus
   | ptcCalCmd | ptcCalStatus =>
    exact located 0 rfl (by omega) (by omega) (by simp (disch := omega) [Reg.ofBlock, Reg.block, Reg.ofPtc])
  | ptcDieV | ptcStage | ptcCalFunc =>
    exact located_array 0 rfl (by omega) (by omega) (by simp (disch := omega) [Reg.ofBlock, Reg.block, Reg.ofPtc])
  | _ => cases hb

theorem located_sec {r : Reg} (hb : r.block = .sec) : r.Located := by
  cases r with
  | secCtrl | secStatus | secFuseCmd | secAttCmd | secUpdStatus | secRecCtrl | secRecStatus =>
    exact located 0 rfl (by omega) (by omega) (by simp (disch := omega) [Reg.ofBlock, Reg.block, Reg.ofSec])
  | secIdHash | secImageDigest | secNonce =>
    exact located_array 0 rfl (by omega) (by omega) (by simp (disch := omega) [Reg.ofBlock, Reg.block, Reg.ofSec])
  | _ => cases hb

/-- Settles O59: block by block, every constructor's address is found by the block's decoder. -/
theorem registersHaveTheirAddresses : Obligations.RegistersHaveTheirAddresses := by
  intro r hp
  cases hb : r.block with
  | mod => exact hb ▸ located_mod hb
  | eng => exact hb ▸ located_eng hb
  | scv => exact hb ▸ located_scv hb
  | wst => exact hb ▸ located_wst hb
  | ast => exact hb ▸ located_ast hb
  | pst => exact hb ▸ located_pst hb
  | fdx => exact hb ▸ located_fdx hb
  | dma => exact hb ▸ located_dma hb
  | sync => exact hb ▸ located_sync hb
  | circ => exact hb ▸ located_circ hb hp
  | hbm => exact hb ▸ located_hbm hb
  | lpd => exact hb ▸ located_lpd hb
  | mld => exact hb ▸ located_mld hb
  | fcu => exact hb ▸ located_fcu hb
  | ptc => exact hb ▸ located_ptc hb
  | sec => exact hb ▸ located_sec hb

end Sys2Proof.Machine
end

section
namespace Sys2Proof.Machine

/-! ### Fields of registers (R18) -/

/-- Two fields that share no bit. -/
def Fld.Apart (f g : Fld) : Prop := g.hi < f.lo ∨ f.hi < g.lo

theorem Fld.Apart.symm {f g : Fld} (h : f.Apart g) : g.Apart f := Or.symm h

/-- Whether fields lie in a word and share no bit. -/
def fieldsFit : List Fld → Bool
  | [] => true
  | f :: l => decide (f.lo ≤ f.hi ∧ f.hi < 64) && l.all (fun g => decide (g.hi < f.lo ∨ f.hi < g.lo)) && fieldsFit l

theorem fieldsFit_cons {f : Fld} {l : List Fld} :
    fieldsFit (f :: l) = true ↔ f.hi < 64 ∧ f.lo ≤ f.hi ∧ (∀ g ∈ l, f.Apart g) ∧ fieldsFit l = true := by
  simp [fieldsFit, Fld.Apart]
  tauto

theorem fit_of_fieldsFit {l : List Fld} (hl : fieldsFit l = true) {f : Fld} (hf : f ∈ l) : f.hi < 64 := by
  induction l with
  | nil => cases hf
  | cons g l ih =>
    obtain ⟨hg, -, -, hl⟩ := fieldsFit_cons.mp hl
    rcases List.mem_cons.mp hf with rfl | hf
    · exact hg
    · exact ih hl hf

theorem apart_of_fieldsFit {l : List Fld} (hl : fieldsFit l = true) {f g : Fld} (hf : f ∈ l) (hg : g ∈ l) (hne : f ≠ g) : f.Apart g := by
  induction l with
  | nil => cases hf
  | cons h l ih =>
    obtain ⟨-, -, hh, hl⟩ := fieldsFit_cons.mp hl
    rcases List.mem_cons.mp hf with rfl | hf' <;> rcases List.mem_cons.mp hg with rfl | hg'
    · exact absurd rfl hne
    · exact hh _ hg'
    · exact (hh _ hf').symm
    · exact ih hl hf' hg'

/-- The fields of every register lie in its word and share no bit. -/
theorem Reg.fieldsFit (r : Reg) : fieldsFit r.fields = true := by
  cases r with
  | syncCrdMap _ w | syncCrdFb _ w => simp only [Reg.fields]; split <;> rfl
  | syncBarB d _ => simp only [Reg.fields]; split <;> rfl
  | _ => rfl

theorem Reg.field_fit {r : Reg} {f : Fld} (hf : f ∈ r.fields) : f.hi < 64 := fit_of_fieldsFit r.fieldsFit hf

theorem Reg.fields_apart {r : Reg} {f g : Fld} (hf : f ∈ r.fields) (hg : g ∈ r.fields) (hne : f ≠ g) : f.Apart g :=
  apart_of_fieldsFit r.fieldsFit hf hg hne

/-! ### Masks of fields -/

/-- Bit i of a word lies in a field. -/
def Fld.holds (f : Fld) (i : Nat) : Bool := decide (i < 64) && (decide (f.lo ≤ i) && decide (i - f.lo < f.hi + 1 - f.lo))

/-- The bits of the fields of a list that meet p; `woMask`, `rwMask` and `viewMask` are such masks. -/
def maskWhere (p : Fld → Prop) [DecidablePred p] (l : List Fld) (m : Word) : Word :=
  l.foldl (fun m f => if p f then m ||| maskOf f.hi f.lo else m) m

theorem woMask_eq (r : Reg) : woMask r = maskWhere (·.access = .wo) r.fields 0 := rfl

theorem rwMask_eq (r : Reg) : rwMask r = maskWhere (·.access = .rw) r.fields 0 := rfl

theorem viewMask_eq (r : Reg) (priv : Bool) : viewMask r priv = maskWhere (fun f => f.access ≠ .wo ∧ (priv ∨ f.view = .u)) r.fields 0 := rfl

section
variable (p : Fld → Prop) [DecidablePred p]

theorem getLsbD_maskWhere (l : List Fld) (m : Word) (i : Nat) :
    (maskWhere p l m).getLsbD i = (m.getLsbD i || l.any fun f => decide (p f) && f.holds i) := by
  induction l generalizing m with
  | nil => simp [maskWhere]
  | cons f l ih =>
    show (maskWhere p l (if p f then m ||| maskOf f.hi f.lo else m)).getLsbD i = _
    rw [ih]
    split <;> simp_all [getLsbD_maskOf, Fld.holds, Bool.or_assoc]

/-- Within a field of the list, the mask is the field or nothing. -/
theorem getLsbD_maskWhere_field {l : List Fld} (hl : fieldsFit l = true) {f : Fld} (hf : f ∈ l) {i : Nat} (hi : f.holds i = true) :
    (maskWhere p l 0).getLsbD i = decide (p f) := by
  rw [getLsbD_maskWhere, Bool.eq_iff_iff]
  simp only [BitVec.ofNat_eq_ofNat, BitVec.getLsbD_zero, Bool.false_or, List.any_eq_true, Bool.and_eq_true, decide_eq_true_eq]
  refine ⟨fun ⟨g, hg, hp, hgi⟩ => ?_, fun hp => ⟨f, hf, hp, hi⟩⟩
  by_cases hne : f = g
  · rwa [hne]
  · have hap := apart_of_fieldsFit hl hf hg hne
    simp only [Fld.holds, Bool.and_eq_true, decide_eq_true_eq] at hi hgi
    unfold Fld.Apart at hap
    omega

theorem Fld.holds_add {f : Fld} (hf : f.hi < 64) {i : Nat} (hi : i < f.hi + 1 - f.lo) : f.holds (f.lo + i) = true := by
  simp only [Fld.holds, Bool.and_eq_true, decide_eq_true_eq]
  omega

/-- A field under a mask of fields: kept where the mask takes the field. -/
theorem bitsOf_and_maskWhere {l : List Fld} (hl : fieldsFit l = true) {f : Fld} (hf : f ∈ l) (w : Word) :
    bitsOf (w &&& maskWhere p l 0) f.hi f.lo = if p f then bitsOf w f.hi f.lo else 0 := by
  apply Nat.eq_of_testBit_eq
  intro i
  rw [testBit_bitsOf]
  by_cases hi : i < f.hi + 1 - f.lo
  · rw [BitVec.getLsbD_and, getLsbD_maskWhere_field p hl hf (Fld.holds_add (fit_of_fieldsFit hl hf) hi)]
    split <;> simp_all [testBit_bitsOf]
  · split <;> simp [hi, testBit_bitsOf]

/-- A field outside a mask of fields: kept where the mask leaves the field out. -/
theorem bitsOf_and_not_maskWhere {l : List Fld} (hl : fieldsFit l = true) {f : Fld} (hf : f ∈ l) (w : Word) :
    bitsOf (w &&& ~~~(maskWhere p l 0)) f.hi f.lo = if p f then 0 else bitsOf w f.hi f.lo := by
  apply Nat.eq_of_testBit_eq
  intro i
  rw [testBit_bitsOf]
  by_cases hi : i < f.hi + 1 - f.lo
  · have hh := Fld.holds_add (fit_of_fieldsFit hl hf) hi
    have h64 : f.lo + i < 64 := by simp only [Fld.holds, Bool.and_eq_true, decide_eq_true_eq] at hh; omega
    rw [BitVec.getLsbD_and, BitVec.getLsbD_not, getLsbD_maskWhere_field p hl hf hh]
    split <;> simp_all [testBit_bitsOf]
  · split <;> simp [hi, testBit_bitsOf]

end

theorem bitsOf_and_rwMask {r : Reg} {f : Fld} (hf : f ∈ r.fields) (w : Word) :
    bitsOf (w &&& rwMask r) f.hi f.lo = if f.access = .rw then bitsOf w f.hi f.lo else 0 := bitsOf_and_maskWhere _ r.fieldsFit hf w

theorem bitsOf_and_not_woMask {r : Reg} {f : Fld} (hf : f ∈ r.fields) (w : Word) :
    bitsOf (w &&& ~~~(woMask r)) f.hi f.lo = if f.access = .wo then 0 else bitsOf w f.hi f.lo :=
  bitsOf_and_not_maskWhere _ r.fieldsFit hf w

theorem bitsOf_and_viewMask {r : Reg} {f : Fld} (hf : f ∈ r.fields) (w : Word) (hwo : f.access ≠ .wo) :
    bitsOf (w &&& viewMask r true) f.hi f.lo = bitsOf w f.hi f.lo := by
  rw [viewMask_eq, bitsOf_and_maskWhere _ r.fieldsFit hf, if_pos ⟨hwo, Or.inl rfl⟩]

/-! ### What a privileged write makes of a word (R18) -/

/-- The word after one field of a privileged write. -/
def mergeField (v w : Word) (f : Fld) : Word :=
  match f.access with
  | .ro => w
  | .rw | .wo => putBits w f.hi f.lo (bitsOf v f.hi f.lo)
  | .w1c => w &&& ~~~(v &&& maskOf f.hi f.lo)

theorem mergeWord_priv (r : Reg) (old v : Word) : mergeWord r old v true = r.fields.foldl (mergeField v) old := by
  simp only [mergeWord, true_or, if_true]
  rfl

theorem bitsOf_mergeField_apart (v w : Word) {f g : Fld} (h : f.Apart g) : bitsOf (mergeField v w f) g.hi g.lo = bitsOf w g.hi g.lo := by
  unfold mergeField
  split
  · rfl
  · exact bitsOf_putBits_apart _ _ _ _ _ _ h
  · exact bitsOf_putBits_apart _ _ _ _ _ _ h
  · apply Nat.eq_of_testBit_eq
    intro i
    rw [testBit_bitsOf, testBit_bitsOf, BitVec.getLsbD_and, BitVec.getLsbD_not, BitVec.getLsbD_and, getLsbD_maskOf]
    by_cases hi : i < g.hi + 1 - g.lo
    · have hm : ¬(f.lo ≤ g.lo + i ∧ g.lo + i - f.lo < f.hi + 1 - f.lo) := by unfold Fld.Apart at h; omega
      rw [← Bool.decide_and, decide_eq_false hm]
      by_cases h64 : g.lo + i < 64
      · simp [h64]
      · simp [BitVec.getLsbD_of_ge w (g.lo + i) (by omega)]
    · simp [hi]

theorem bitsOf_foldl_mergeField_apart (v : Word) {l : List Fld} {g : Fld} (h : ∀ f ∈ l, f.Apart g) (w : Word) :
    bitsOf (l.foldl (mergeField v) w) g.hi g.lo = bitsOf w g.hi g.lo := by
  induction l generalizing w with
  | nil => rfl
  | cons f l ih =>
    obtain ⟨hf, hl⟩ := List.forall_mem_cons.mp h
    rw [List.foldl_cons, ih hl, bitsOf_mergeField_apart v w hf]

/-- A field of the merged word is what its own turn makes of it. -/
theorem bitsOf_foldl_mergeField (v : Word) {l : List Fld} (hl : fieldsFit l = true) {g : Fld} (hg : g ∈ l) (w : Word) :
    ∃ u, bitsOf u g.hi g.lo = bitsOf w g.hi g.lo ∧ bitsOf (l.foldl (mergeField v) w) g.hi g.lo = bitsOf (mergeField v u g) g.hi g.lo := by
  induction l generalizing w with
  | nil => cases hg
  | cons f l ih =>
    obtain ⟨-, -, hf, hl⟩ := fieldsFit_cons.mp hl
    rcases List.mem_cons.mp hg with rfl | hg
    · exact ⟨w, rfl, bitsOf_foldl_mergeField_apart v (fun x hx => (hf x hx).symm) _⟩
    · obtain ⟨u, hu, he⟩ := ih hl hg (mergeField v w f)
      exact ⟨u, hu.trans (bitsOf_mergeField_apart v w (hf g hg)), he⟩

theorem bitsOf_mod (w : Word) (hi lo : Nat) : bitsOf w hi lo % 2 ^ (hi + 1 - lo) = bitsOf w hi lo := Nat.mod_eq_of_lt (bitsOf_lt w hi lo)

theorem bitsOf_mergeWord_written {r : Reg} {f : Fld} (hf : f ∈ r.fields) (ha : f.access = .rw ∨ f.access = .wo) (old v : Word) :
    bitsOf (mergeWord r old v true) f.hi f.lo = bitsOf v f.hi f.lo := by
  obtain ⟨u, -, he⟩ := bitsOf_foldl_mergeField v r.fieldsFit hf old
  rw [mergeWord_priv, he]
  rcases ha with ha | ha <;> simp only [mergeField, ha] <;> rw [bitsOf_putBits_same _ _ _ _ (Reg.field_fit hf), bitsOf_mod]

theorem bitsOf_mergeWord_ro {r : Reg} {f : Fld} (hf : f ∈ r.fields) (ha : f.access = .ro) (old v : Word) :
    bitsOf (mergeWord r old v true) f.hi f.lo = bitsOf old f.hi f.lo := by
  obtain ⟨u, hu, he⟩ := bitsOf_foldl_mergeField v r.fieldsFit hf old
  rw [mergeWord_priv, he]
  simp only [mergeField, ha, hu]

theorem bitsOf_mergeWord_w1c {r : Reg} {f : Fld} (hf : f ∈ r.fields) (ha : f.access = .w1c) (old : Word) {v : Word}
    (hv : bitsOf v f.hi f.lo = 0) : bitsOf (mergeWord r old v true) f.hi f.lo = bitsOf old f.hi f.lo := by
  obtain ⟨u, hu, he⟩ := bitsOf_foldl_mergeField v r.fieldsFit hf old
  rw [mergeWord_priv, he, ← hu]
  simp only [mergeField, ha]
  apply Nat.eq_of_testBit_eq
  intro i
  rw [testBit_bitsOf, testBit_bitsOf, BitVec.getLsbD_and, BitVec.getLsbD_not, BitVec.getLsbD_and]
  by_cases hi : i < f.hi + 1 - f.lo
  · have h0 : v.getLsbD (f.lo + i) = false := by
      have h := testBit_bitsOf v f.hi f.lo i
      rw [hv, Nat.zero_testBit, decide_eq_true hi, Bool.true_and] at h
      exact h.symm
    rw [h0]
    by_cases h64 : f.lo + i < 64
    · simp [h64]
    · simp [BitVec.getLsbD_of_ge u (f.lo + i) (by omega)]
  · simp [hi]

end Sys2Proof.Machine
end

section
namespace Sys2Proof.Machine

/-! ### Addresses of accesses (R498, R614) -/

theorem bitsOf_high_eq_zero (a : Word) : bitsOf a 63 48 = 0 ↔ a.toNat < 2 ^ 48 := by
  have := a.isLt
  unfold bitsOf
  omega

theorem ofAddr_range {n : Nat} {r : Reg} (h : Reg.ofAddr n = some r) : 0xFE00000000 ≤ n ∧ n < 0xFF00000000 := by
  by_contra hn
  rw [Reg.ofAddr, if_pos (by omega)] at h
  cases h

theorem addr_aligned (r : Reg) : r.addr % 8 = 0 := by
  have hbase : blockBase 9 0 % 8 = 0 := rfl
  cases r with
  | circLaneA p l =>
    change (blockBase 9 0 + 0x2000 + p.val * 0x400 + l.val * 0x10) % 8 = 0
    omega
  | circLaneB p l =>
    change (blockBase 9 0 + 0x2008 + p.val * 0x400 + l.val * 0x10) % 8 = 0
    omega
  | _ => exact (registersHaveTheirAddresses _ rfl).2.1

theorem findReg_high {a : Word} (h : bitsOf a 63 48 ≠ 0) : findReg a = .error (.addressHigh, .mod, 2) := by
  simp only [findReg, if_pos h]

theorem findReg_shape {a : Word} (h : bitsOf a 63 48 = 0) (h8 : a.toNat % 8 ≠ 0) : ∃ b die, findReg a = .error (.accessShape, b, die) := by
  simp only [findReg, h, ne_eq, not_true, if_false, if_pos h8]
  exact ⟨_, _, rfl⟩

theorem findReg_none {a : Word} (h : bitsOf a 63 48 = 0) (h8 : a.toNat % 8 = 0) (hn : Reg.ofAddr a.toNat = none) :
    ∃ b die, findReg a = .error (.windowViolation, b, die) := by
  simp only [findReg, h, h8, hn, ne_eq, not_true, if_false]
  exact ⟨_, _, rfl⟩

theorem findReg_ok {a : Word} {r : Reg} (ha : a.toNat = r.addr) (hr : Reg.ofAddr r.addr = some r) : findReg a = .ok r := by
  obtain ⟨-, hlt⟩ := ofAddr_range hr
  have hhigh : bitsOf a 63 48 = 0 := (bitsOf_high_eq_zero a).mpr (by omega)
  simp only [findReg, hhigh, ha, addr_aligned r, hr, ne_eq, not_true, if_false]

/-! ### One access (R498 to R500) -/

/-- The writers of the two views of REGISTER_WRITE, whose faults name no context (R498). -/
def Writer.plain (w : Writer) : Prop := w = .mgmt ∨ w = .job

theorem accessFault_plain {w : Writer} (hw : w.plain) (s : State) (src : Source) (b : Block) (die a : Nat) :
    accessFault s w src b die a = s.raise (Report.plain src die 0 b a) := by
  rcases hw with rfl | rfl <;> rfl

theorem answerAccess_plain {w : Writer} (hw : w.plain) (s : State) (n : Nat) (v : Option Word) (e : AccessEnd) (x : Word) :
    answerAccess s ⟨w, n, v, none, none⟩ e x = s := by
  rcases hw with rfl | rfl <;> rfl

section
variable {s : State} {a : Word} (v : Word) {w : Writer} (hw : w.plain) (hon : s.pow.off = false)
include hon

theorem registerWrite_held {r : Reg} (h : findReg a = .ok r) (hb : inBlockReset s r = true) :
    exec (.registerWrite w a v) s = .next (holdAccess s ⟨w, a.toNat % 2 ^ 48, some v, none, none⟩) := by
  show Host.Outcome.next (regAccess s _ a) = _
  simp only [regAccess, hon, h, hb]
  rfl

include hw

theorem registerWrite_bad_address {src : Source} {b : Block} {die : Nat} (h : findReg a = .error (src, b, die)) :
    exec (.registerWrite w a v) s = .next (s.raise (Report.plain src die 0 b (a.toNat % 2 ^ 48))) := by
  show Host.Outcome.next (regAccess s _ a) = _
  simp only [regAccess, hon, h, answerAccess_plain hw, accessFault_plain hw]
  rfl

theorem registerWrite_ok {r : Reg} (h : findReg a = .ok r) (hb : inBlockReset s r = false) :
    exec (.registerWrite w a v) s = .next (writeReg s w r v).1 := by
  show Host.Outcome.next (regAccess s _ a) = _
  simp only [regAccess, hon, h, hb, makeAccess, answerAccess_plain hw]
  rfl

end

theorem privWrite_ready {s : State} {r : Reg} (h : WriteReady s r) (v : Word) : privWrite s r v = (writeReg s .mgmt r v).1 := by
  obtain ⟨hon, hb, -⟩ := h
  simp only [privWrite, hon, hb, makeAccess, answerAccess_plain (.inl rfl)]
  rfl

/-- The word that a privileged write of v hands to a register's own rule (R18). -/
def writtenWord (s : State) (r : Reg) (v : Word) : Word := mergeWord r (writeBase s r &&& ~~~(woMask r)) v true

/-- Whether a privileged write of v would change an expert field (R499). -/
def writesExpert (s : State) (r : Reg) (v : Word) : Bool := expertChange r (writeBase s r &&& ~~~(woMask r)) (writtenWord s r v)

theorem writeReg_not_ready {s : State} {r : Reg} (h : regReady s r = false) {w : Writer} (hw : w.plain) (v : Word) :
    (writeReg s w r v).1 = s.raise (Report.plain .windowViolation r.dieCode 0 r.block r.addr) := by
  simp only [writeReg, h, if_true, accessFault_plain hw]

theorem writeReg_hidden {s : State} {r : Reg} (h : regReady s r = true) (hu : r.hasU = false) (v : Word) :
    (writeReg s .job r v).1 = s.raise (Report.plain .view r.dieCode 0 r.block r.addr) := by
  simp only [writeReg, h, hu, Writer.priv, Bool.true_eq_false, and_self, if_true, if_false, accessFault_plain (.inr rfl)]

theorem writeReg_mgmt {s : State} {r : Reg} (h : regReady s r = true) (v : Word) :
    writeReg s .mgmt r v =
      if writesExpert s r v = true ∧ unlockedFor s r = false then (s.raise (rejected r), .rule)
      else match ownWrite s r (writtenWord s r v) with
        | none => (s.raise (rejected r), .rule)
        | some t => (unlockRecord t .mgmt r (unlockedFor s r), .done) := by
  simp only [writeReg, h, Writer.priv, Bool.true_eq_false, false_and, if_false, accessFault_plain (.inl rfl)]
  rfl

theorem writeReg_locked {s : State} {r : Reg} (h : regReady s r = true) {v : Word} (he : writesExpert s r v = true)
    (hu : unlockedFor s r = false) : (writeReg s .mgmt r v).1 = s.raise (rejected r) := by
  rw [writeReg_mgmt h, if_pos ⟨he, hu⟩]

theorem writeReg_refused {s : State} {r : Reg} (h : regReady s r = true) {v : Word} (ho : ownWrite s r (writtenWord s r v) = none) :
    (writeReg s .mgmt r v).1 = s.raise (rejected r) := by
  rw [writeReg_mgmt h, ho]
  split <;> rfl

theorem writeReg_done {s t : State} {r : Reg} (h : regReady s r = true) {v : Word}
    (he : unlockedFor s r = false → writesExpert s r v = false) (ho : ownWrite s r (writtenWord s r v) = some t) :
    (writeReg s .mgmt r v).1 = unlockRecord t .mgmt r (unlockedFor s r) := by
  have hn : ¬(writesExpert s r v = true ∧ unlockedFor s r = false) := fun ⟨h1, h2⟩ => by rw [he h2] at h1; cases h1
  rw [writeReg_mgmt h, if_neg hn, ho]

/-! #### The fields of the word that is written -/

section
variable {r : Reg} {f : Fld} (hf : f ∈ r.fields) (s : State) (v : Word)
include hf

theorem bitsOf_writtenWord_rw (ha : f.access = .rw) : bitsOf (writtenWord s r v) f.hi f.lo = bitsOf v f.hi f.lo :=
  bitsOf_mergeWord_written hf (.inl ha) _ v

theorem bitsOf_writtenWord_wo (ha : f.access = .wo) : bitsOf (writtenWord s r v) f.hi f.lo = bitsOf v f.hi f.lo :=
  bitsOf_mergeWord_written hf (.inr ha) _ v

theorem bitsOf_writtenWord_ro (ha : f.access = .ro) : bitsOf (writtenWord s r v) f.hi f.lo = bitsOf (writeBase s r) f.hi f.lo := by
  rw [writtenWord, bitsOf_mergeWord_ro hf ha, bitsOf_and_not_woMask hf, if_neg (by rw [ha]; decide)]

theorem bitsOf_writtenWord_w1c (ha : f.access = .w1c) (hv : bitsOf v f.hi f.lo = 0) :
    bitsOf (writtenWord s r v) f.hi f.lo = bitsOf (writeBase s r) f.hi f.lo := by
  rw [writtenWord, bitsOf_mergeWord_w1c hf ha _ hv, bitsOf_and_not_woMask hf, if_neg (by rw [ha]; decide)]

end

theorem writesExpert_eq_true {s : State} {r : Reg} {v : Word} {f : Fld} (hf : f ∈ r.fields) (hl : f.level = .expert) (ha : f.access = .rw)
    (hv : bitsOf v f.hi f.lo ≠ bitsOf (writeBase s r) f.hi f.lo) : writesExpert s r v = true := by
  have hwo : f.access ≠ .wo := by rw [ha]; decide
  refine List.any_eq_true.mpr ⟨f, hf, ?_⟩
  simpa [hl, hwo, bitsOf_writtenWord_rw hf s v ha, bitsOf_and_not_woMask hf] using hv

theorem writesExpert_eq_false {s : State} {r : Reg} {v : Word} (h : ∀ f ∈ r.fields, f.level = .expert →
    bitsOf (writtenWord s r v) f.hi f.lo = if f.access = .wo then 0 else bitsOf (writeBase s r) f.hi f.lo) : writesExpert s r v = false := by
  refine List.any_eq_false.mpr fun f hf => ?_
  have h := h f hf
  cases hl : f.level with
  | basic => simp
  | expert =>
    rw [h hl, bitsOf_and_not_woMask hf]
    split <;> simp

/-! #### The register after its write -/

/-- The register has taken the word, and nothing else of registers, stores, dies and reports has changed. -/
structure Took (s t : State) (r : Reg) (v : Word) : Prop where
  fld : ∀ f ∈ r.fields, f.access ≠ .wo → t.fld r f = bitsOf v f.hi f.lo
  regs : RegsKept [r] s t
  stores : StoresKept s t
  dies : DiesKept s t
  reports : Raises s t []

theorem regsKept_store (s : State) (r : Reg) (v : Word) : RegsKept [r] s (store s r v) :=
  fun _ hk => State.reg_setReg_ne _ _ (by simpa using hk)

theorem fld_store (s : State) {r : Reg} (v : Word) {f : Fld} (hf : f ∈ r.fields) (ha : f.access ≠ .wo) :
    (store s r v).fld r f = bitsOf v f.hi f.lo := by
  rw [State.fld, store, State.reg_setReg_same, bitsOf_and_not_woMask hf, if_neg ha]

theorem took_store (s : State) (r : Reg) (v : Word) : Took s (store s r v) r v where
  fld _ hf ha := fld_store s v hf ha
  regs := regsKept_store s r v
  stores := ⟨rfl, rfl, rfl, rfl⟩
  dies := ⟨rfl, rfl, rfl, rfl⟩
  reports := by simp [Raises, store]

/-- Only a CTRL register, whose EXPERT_UNLOCK it holds, leaves a record (R500). -/
theorem unlockRecord_other {r : Reg} (h : r.unlock ≠ some r) (t : State) (w : Writer) (before : Bool) : unlockRecord t w r before = t := by
  simp only [unlockRecord, h, false_and, if_false]

end Sys2Proof.Machine
end

section
namespace Sys2Proof.Machine

/-! ### Register writes (R498 to R500, R518, R571) -/

/-- A register that is written as it stands: no rule of its own, no expert, write-only or W1C field. -/
structure Reg.Plain (s : State) (r : Reg) : Prop where
  own : ∀ v, ownWrite s r v = some (store s r v)
  base : writeBase s r = s.reg r
  unlock : r.unlock ≠ some r
  fields : (r.fields.all fun f => f.level == .basic && (f.access == .ro || f.access == .rw)) = true
  present : presentReg r = true

theorem Reg.Plain.field {s : State} {r : Reg} (h : r.Plain s) {f : Fld} (hf : f ∈ r.fields) :
    f.level = .basic ∧ (f.access = .ro ∨ f.access = .rw) := by
  simpa using List.all_eq_true.mp h.fields f hf

theorem writeReg_plain {s : State} {r : Reg} (hp : r.Plain s) (h : regReady s r = true) (v : Word) :
    (writeReg s .mgmt r v).1 = store s r (writtenWord s r v) := by
  have hx : writesExpert s r v = false :=
    writesExpert_eq_false fun f hf hl => absurd ((hp.field hf).1.symm.trans hl) (by decide)
  rw [writeReg_done h (fun _ => hx) (hp.own _), unlockRecord_other hp.unlock]

theorem registerWrite_plain {s : State} {r : Reg} (hp : r.Plain s) (h : WriteReady s r) {a : Word} (ha : a.toNat = r.addr) (v : Word) :
    Runs (.registerWrite .mgmt a v) s fun t =>
      (∀ f ∈ r.fields, t.fld r f = if f.access = .rw then bitsOf v f.hi f.lo else s.fld r f)
        ∧ RegsKept [r] s t ∧ Raises s t [] ∧ StoresKept s t ∧ DiesKept s t := by
  obtain ⟨hon, hb, hready⟩ := h
  have hfound := findReg_ok ha (registersHaveTheirAddresses r hp.present).1
  have took := took_store s r (writtenWord s r v)
  refine ⟨_, registerWrite_ok v (.inl rfl) hon hfound hb, ?_⟩
  rw [writeReg_plain hp hready]
  refine ⟨fun f hf => ?_, took.regs, took.reports, took.stores, took.dies⟩
  rcases (hp.field hf).2 with ha | ha
  · rw [took.fld f hf (by rw [ha]; decide), bitsOf_writtenWord_ro hf s v ha, hp.base, ha]
    rfl
  · rw [took.fld f hf (by rw [ha]; decide), bitsOf_writtenWord_rw hf s v ha, if_pos ha]

/-- The registers of the statement are plain. -/
theorem plain_of_listed (s : State) (d : Die) (q : CoreId) : ∀ r ∈ ([.modIdent, .modTopology, .circPeriodTarget, .circPhase, .ptcReady,
    .ptcTbTime, .scvBeat d, .scvTime d, .engRetired d q, .fdxExpBlocks d q, .wstJobTag d, .syncStatus d, .mldLinkStatus, .dmaDoneCount d 0,
    .secUpdStatus] : List Reg), r.Plain s := by
  simp only [List.forall_mem_cons, List.not_mem_nil, false_implies, implies_true, and_true]
  refine ⟨?_, ?_, ?_, ?_, ?_, ?_, ?_, ?_, ?_, ?_, ?_, ?_, ?_, ?_, ?_⟩ <;>
    exact ⟨fun _ => rfl, rfl, by simp [Reg.unlock, Reg.block], rfl, rfl⟩

theorem plainWriter_of_mem {w : Writer} (hw : w ∈ ([.mgmt, .job] : List Writer)) : w.plain := by simpa [Writer.plain] using hw

theorem registerWrite_judges_address {s : State} (hon : s.pow.off = false) (a v : Word) {w : Writer} (hw : w.plain) :
    (bitsOf a 63 48 ≠ 0 → exec (.registerWrite w a v) s = .next (s.raise (Report.plain .addressHigh 2 0 .mod (a.toNat % 2 ^ 48)))) ∧
    (bitsOf a 63 48 = 0 → a.toNat % 8 ≠ 0 → ∃ b die,
      exec (.registerWrite w a v) s = .next (s.raise (Report.plain .accessShape die 0 b a.toNat))) ∧
    (bitsOf a 63 48 = 0 → a.toNat % 8 = 0 → Reg.ofAddr a.toNat = none → ∃ b die,
      exec (.registerWrite w a v) s = .next (s.raise (Report.plain .windowViolation die 0 b a.toNat))) := by
  have low (h : bitsOf a 63 48 = 0) : a.toNat % 2 ^ 48 = a.toNat := Nat.mod_eq_of_lt ((bitsOf_high_eq_zero a).mp h)
  refine ⟨fun h => registerWrite_bad_address v hw hon (findReg_high h), fun h h8 => ?_, fun h h8 hn => ?_⟩
  · obtain ⟨b, die, hf⟩ := findReg_shape h h8
    exact ⟨b, die, by rw [registerWrite_bad_address v hw hon hf, low h]⟩
  · obtain ⟨b, die, hf⟩ := findReg_none h h8 hn
    exact ⟨b, die, by rw [registerWrite_bad_address v hw hon hf, low h]⟩

theorem registerWritesRule : RegisterWritesRule := by
  intro s a v hon
  refine ⟨fun w hw => registerWrite_judges_address hon a v (plainWriter_of_mem hw), fun r ha hr => ?_,
    fun d q r hr ha h => registerWrite_plain (plain_of_listed s d q r hr) h ha v⟩
  have hfound := findReg_ok ha hr
  refine ⟨fun hb => ⟨_, registerWrite_held v hon hfound hb, ?_⟩, fun hb => ⟨fun hready w hw => ?_, fun hready hu => ?_, ?_⟩⟩
  · have := (ofAddr_range hr).2
    rw [holdAccess, ha, Nat.mod_eq_of_lt (by omega)]
  · have hw := plainWriter_of_mem hw
    rw [registerWrite_ok v hw hon hfound hb, writeReg_not_ready hready hw]
  · rw [registerWrite_ok v (.inr rfl) hon hfound hb, writeReg_hidden hready hu]
  · intro hready hlocked f hf hl hacc hv
    exact (registerWrite_ok v (.inl rfl) hon hfound hb).trans
      (congrArg _ (writeReg_locked hready (writesExpert_eq_true hf hl hacc hv) hlocked))

end Sys2Proof.Machine
end

section
namespace Sys2Proof.Machine

/-! ### Writes of one field (R18) -/

/-- The word that `setFields` writes to set one field. -/
def fieldWord (s : State) (r : Reg) (f : Fld) (x : Nat) : Word := putBits (writeBase s r &&& rwMask r) f.hi f.lo x

/-- The word that reaches the register's own rule when `setFields` sets one field. -/
def fieldWritten (s : State) (r : Reg) (f : Fld) (x : Nat) : Word := writtenWord s r (fieldWord s r f x)

section
variable (s : State) {r : Reg} {f g : Fld} (x : Nat) (hf : f ∈ r.fields)
include hf

theorem bitsOf_fieldWord_other (hg : g ∈ r.fields) (hne : g ≠ f) :
    bitsOf (fieldWord s r f x) g.hi g.lo = if g.access = .rw then bitsOf (writeBase s r) g.hi g.lo else 0 := by
  rw [fieldWord, bitsOf_putBits_apart _ _ _ _ _ _ (Reg.fields_apart hf hg hne.symm), bitsOf_and_rwMask hg]

/-- Every other field but a write-only one keeps its value. -/
theorem bitsOf_fieldWritten_kept (hg : g ∈ r.fields) (hne : g ≠ f) (hwo : g.access ≠ .wo) :
    bitsOf (fieldWritten s r f x) g.hi g.lo = bitsOf (writeBase s r) g.hi g.lo := by
  have hv := bitsOf_fieldWord_other s x hf hg hne
  cases ha : g.access with
  | wo => exact absurd ha hwo
  | ro => exact bitsOf_writtenWord_ro hg s _ ha
  | rw => rw [fieldWritten, bitsOf_writtenWord_rw hg s _ ha, hv, if_pos ha]
  | w1c => exact bitsOf_writtenWord_w1c hg s _ ha (by rw [hv, if_neg (by rw [ha]; decide)])

variable (hrw : f.access = .rw)
include hrw

theorem bitsOf_fieldWritten_same : bitsOf (fieldWritten s r f x) f.hi f.lo = x % 2 ^ (f.hi + 1 - f.lo) := by
  rw [fieldWritten, bitsOf_writtenWord_rw hf s _ hrw, fieldWord, bitsOf_putBits_same _ _ _ _ (Reg.field_fit hf)]

/-- A write-only field is written 0. -/
theorem bitsOf_fieldWritten_wo (hg : g ∈ r.fields) (hwo : g.access = .wo) : bitsOf (fieldWritten s r f x) g.hi g.lo = 0 := by
  have hne : g ≠ f := fun h => by rw [h, hrw] at hwo; cases hwo
  rw [fieldWritten, bitsOf_writtenWord_wo hg s _ hwo, bitsOf_fieldWord_other s x hf hg hne, if_neg (by rw [hwo]; decide)]

theorem writesExpert_fieldWord (hb : f.level = .basic) : writesExpert s r (fieldWord s r f x) = false := by
  refine writesExpert_eq_false fun g hg hl => ?_
  have hne : g ≠ f := fun h => by rw [h, hb] at hl; cases hl
  split
  · exact bitsOf_fieldWritten_wo s x hf hrw hg ‹_›
  · exact bitsOf_fieldWritten_kept s x hf hg hne ‹_›

/-- A command that sets a basic field, or any field of an unlocked block, does what the register's own rule says. -/
theorem setFields_done (h : WriteReady s r) (he : f.level = .basic ∨ unlockedFor s r = true) {t : State}
    (ho : ownWrite s r (fieldWritten s r f x) = some t) : setFields s r [(f, x)] = unlockRecord t .mgmt r (unlockedFor s r) := by
  refine (privWrite_ready h _).trans (writeReg_done h.2.2 (fun hl => ?_) ho)
  rcases he with hb | hu
  · exact writesExpert_fieldWord s x hf hrw hb
  · rw [hu] at hl; cases hl

end

theorem setFields_refused {s : State} {r : Reg} {f : Fld} {x : Nat} (h : WriteReady s r)
    (ho : ownWrite s r (fieldWritten s r f x) = none) : setFields s r [(f, x)] = s.raise (rejected r) :=
  (privWrite_ready h _).trans (writeReg_refused h.2.2 ho)

/-! ### EXPERT_UNLOCK (R499, R500) -/

/-- The EXPERT_UNLOCK field, the same in every CTRL register. -/
def unlockFld : Fld := ⟨0, 0, .p, .basic, .rw⟩

theorem unlockFld_mem {b : Block} (hb : b ≠ .mod) (d : Die) : unlockFld ∈ (unlockReg b d).fields := by
  cases b with
  | mod => exact absurd rfl hb
  | _ => exact List.mem_of_getLast? rfl

theorem unlock_unlockReg {b : Block} (hb : b ≠ .mod) (d : Die) : (unlockReg b d).unlock = some (unlockReg b d) := by
  cases b with
  | mod => exact absurd rfl hb
  | _ => rfl

theorem block_unlockReg (b : Block) (d : Die) : (unlockReg b d).block = b := by cases b <;> rfl

theorem writeBase_unlockReg (b : Block) (d : Die) (s : State) : writeBase s (unlockReg b d) = s.reg (unlockReg b d) := by cases b <;> rfl

theorem unlockReg_ne_other {b : Block} (hb : b ≠ .mod) (d : Die) : unlockReg b d ≠ .mldLinkStatus ∧ unlockReg b d ≠ .ptcTbTime := by
  cases b <;> exact ⟨nofun, nofun⟩

theorem took_fcuCtrl (s : State) {v : Word} :
    Took s ((s.setFld .fcuCtrl F.fcuCtrl_RESET_HOLD_US (bitsOf v 47 32)).setFld .fcuCtrl F.fcuCtrl_EXPERT_UNLOCK (bitsOf v 0 0)) .fcuCtrl v where
  fld f hf ha := by
    simp only [Reg.fields, List.mem_cons, List.not_mem_nil, or_false] at hf
    rcases hf with rfl | rfl | rfl | rfl
    · rw [State.fld_setFld_apart _ _ _ _ _ (by decide), State.fld_setFld_same _ _ _ _ (by decide)]
      exact bitsOf_mod v 47 32
    · exact absurd rfl ha
    · exact absurd rfl ha
    · rw [State.fld_setFld_same _ _ _ _ (by decide)]
      exact bitsOf_mod v 0 0
  regs k hk := by
    have hk : k ≠ .fcuCtrl := by simpa using hk
    rw [State.reg_setFld_ne _ _ _ hk, State.reg_setFld_ne _ _ _ hk]
  stores := ⟨rfl, rfl, rfl, rfl⟩
  dies := ⟨rfl, rfl, rfl, rfl⟩
  reports := by simp [Raises]

/-- A CTRL register takes a word that asks for nothing else: its write-only fields are 0. -/
theorem ownWrite_unlockReg {b : Block} (hb : b ≠ .mod) (d : Die) (s : State) {v : Word}
    (hwo : ∀ f ∈ (unlockReg b d).fields, f.access = .wo → bitsOf v f.hi f.lo = 0) (hhold : b = .fcu → 100 ≤ bitsOf v 47 32) :
    ∃ t, ownWrite s (unlockReg b d) v = some t ∧ Took s t (unlockReg b d) v := by
  have stored (h : ownWrite s (unlockReg b d) v = some (store s (unlockReg b d) v)) :
      ∃ t, ownWrite s (unlockReg b d) v = some t ∧ Took s t (unlockReg b d) v := ⟨_, h, took_store s _ v⟩
  cases b with
  | mod => exact absurd rfl hb
  | circ | sec => exact stored rfl
  | eng =>
    have h1 : bitsOf v 1 1 = 0 := hwo F.engCtrl_CLR_COUNTS (by simp [unlockReg, Reg.fields]) rfl
    exact stored (show some (writeEngCtrl s d v) = _ by simp [unlockReg, writeEngCtrl, h1])
  | scv =>
    have h1 : bitsOf v 1 1 = 0 := hwo F.scvCtrl_CLR_COUNTS (by simp [unlockReg, Reg.fields]) rfl
    exact stored (show some (writeScvCtrl s d v) = _ by simp [unlockReg, writeScvCtrl, h1])
  | wst =>
    have h1 : bitsOf v 1 1 = 0 := hwo F.wstCtrl_CLR_COUNTS (by simp [unlockReg, Reg.fields]) rfl
    have h2 : bitsOf v 2 2 = 0 := hwo F.wstCtrl_CLEAR (by simp [unlockReg, Reg.fields]) rfl
    exact stored (show writeStoreBlockCtrl s d .wst v = _ by simp [unlockReg, writeStoreBlockCtrl, h1, h2])
  | ast =>
    have h1 : bitsOf v 1 1 = 0 := hwo F.astCtrl_CLR_COUNTS (by simp [unlockReg, Reg.fields]) rfl
    exact stored (show writeStoreBlockCtrl s d .ast v = _ by simp [unlockReg, writeStoreBlockCtrl, h1])
  | pst =>
    have h1 : bitsOf v 1 1 = 0 := hwo F.pstCtrl_CLR_COUNTS (by simp [unlockReg, Reg.fields]) rfl
    exact stored (show writeStoreBlockCtrl s d .pst v = _ by simp [unlockReg, writeStoreBlockCtrl, h1])
  | fdx =>
    have h1 : bitsOf v 1 1 = 0 := hwo F.fdxCtrl_CLR_COUNTS (by simp [unlockReg, Reg.fields]) rfl
    exact stored (show some (writeFdxCtrl s d v) = _ by simp [unlockReg, writeFdxCtrl, h1])
  | dma =>
    have h1 : bitsOf v 1 1 = 0 := hwo F.dmaCtrl_CLR_COUNTS (by simp [unlockReg, Reg.fields]) rfl
    exact stored (show some (writeDmaCtrl s d v) = _ by simp [unlockReg, writeDmaCtrl, h1])
  | sync =>
    have h1 : bitsOf v 1 1 = 0 := hwo F.syncCtrl_CLR_COUNTS (by simp [unlockReg, Reg.fields]) rfl
    have h2 : bitsOf v 2 2 = 0 := hwo F.syncCtrl_CLEAR (by simp [unlockReg, Reg.fields]) rfl
    exact stored (show writeSyncCtrl s d v = _ by simp [unlockReg, writeSyncCtrl, h1, h2])
  | hbm =>
    have h1 : bitsOf v 1 1 = 0 := hwo F.hbmCtrl_CLR_COUNTS (by simp [unlockReg, Reg.fields]) rfl
    exact stored (show some (writeHbmCtrl s d v) = _ by simp [unlockReg, writeHbmCtrl, h1])
  | lpd =>
    have h1 : bitsOf v 1 1 = 0 := hwo F.lpdCtrl_CLR_COUNTS (by simp [unlockReg, Reg.fields]) rfl
    exact stored (show some (writeLpdCtrl s v) = _ by simp [unlockReg, writeLpdCtrl, h1])
  | mld =>
    have h1 : bitsOf v 1 1 = 0 := hwo F.mldCtrl_CLR_COUNTS (by simp [unlockReg, Reg.fields]) rfl
    exact stored (show some (writeMldCtrl s v) = _ by simp [unlockReg, writeMldCtrl, h1])
  | ptc =>
    have h1 : bitsOf v 1 1 = 0 := hwo F.ptcCtrl_CLR_COUNTS (by simp [unlockReg, Reg.fields]) rfl
    exact stored (show some (writePtcCtrl s v) = _ by simp [unlockReg, writePtcCtrl, h1])
  | fcu =>
    have h1 : bitsOf v 1 1 = 0 := hwo F.fcuCtrl_CLR_COUNTS (by simp [unlockReg, Reg.fields]) rfl
    have h2 : bitsOf v 2 2 = 0 := hwo F.fcuCtrl_RESUME (by simp [unlockReg, Reg.fields]) rfl
    have hh : ¬bitsOf v 47 32 < 100 := Nat.not_lt.mpr (hhold rfl)
    exact ⟨_, show (writeFcuCtrl s (bitsOf v 47 32) (bitsOf v 2 2 == 1) (bitsOf v 1 1 == 1)).map _ = _ by
      simp only [writeFcuCtrl, h1, h2, hh]; rfl, took_fcuCtrl s⟩

theorem reg_unlockRecord (t : State) (w : Writer) (r : Reg) (before : Bool) (k : Reg) : (unlockRecord t w r before).reg k = t.reg k := by
  simp only [unlockRecord]
  split <;> rfl

theorem storesKept_unlockRecord {s t : State} (h : StoresKept s t) (w : Writer) (r : Reg) (before : Bool) :
    StoresKept s (unlockRecord t w r before) := by
  simp only [unlockRecord]
  split <;> exact h

theorem diesKept_unlockRecord {s t : State} (h : DiesKept s t) (w : Writer) (r : Reg) (before : Bool) :
    DiesKept s (unlockRecord t w r before) := by
  simp only [unlockRecord]
  split <;> exact h

/-- The record of R500, as it stands in the reports. -/
theorem raises_unlockRecord {s t : State} {r : Reg} (hr : r.unlock = some r) (hset : bitsOf (t.reg r) 0 0 = 1) (h : Raises s t [])
    (hnow : t.now = s.now) (hsession : t.fld .mldLinkStatus F.mldLinkStatus_SESSION = s.fld .mldLinkStatus F.mldLinkStatus_SESSION) :
    Raises s (unlockRecord t .mgmt r (unlockedFor s r)) (if bitsOf (s.reg r) 0 0 = 1 then [] else
      [{ Report.plain .expertUnlock r.dieCode 0 r.block r.addr with tag := s.fld .mldLinkStatus F.mldLinkStatus_SESSION }]) := by
  have hu : unlockedFor s r = (bitsOf (s.reg r) 0 0 == 1) := by simp only [unlockedFor, hr]
  have hrep : t.reports = s.reports := by simpa [Raises] using h
  by_cases hb : bitsOf (s.reg r) 0 0 = 1
  · simp [Raises, unlockRecord, hu, hb, hrep]
  · simp [Raises, unlockRecord, hu, hb, hr, hset, hrep, hsession, stamped]
    exact hnow

/-- EXPERT_UNLOCK of a block but MOD is set, nothing else of its register changes, and a change from 0 to 1 is recorded. -/
theorem expertUnlock_runs {s : State} {b : Block} (hb : b ≠ .mod) (d : Die)
    (hhold : b = .fcu → 100 ≤ s.fld .fcuCtrl F.fcuCtrl_RESET_HOLD_US) (h : WriteReady s (unlockReg b d)) :
    Runs (.expertUnlock b d) s fun t => bitsOf (t.reg (unlockReg b d)) 0 0 = 1
      ∧ (∀ f ∈ (unlockReg b d).fields, f.access ≠ .wo → f.lo ≠ 0 → t.fld (unlockReg b d) f = s.fld (unlockReg b d) f)
      ∧ RegsKept [unlockReg b d] s t ∧ StoresKept s t ∧ DiesKept s t
      ∧ Raises s t (if bitsOf (s.reg (unlockReg b d)) 0 0 = 1 then [] else
          [{ Report.plain .expertUnlock (unlockReg b d).dieCode 0 b (unlockReg b d).addr with
             tag := s.fld .mldLinkStatus F.mldLinkStatus_SESSION }]) := by
  have hmem := unlockFld_mem hb d
  have kept (f : Fld) (hf : f ∈ (unlockReg b d).fields) (hwo : f.access ≠ .wo) (hne : f ≠ unlockFld) :
      bitsOf (fieldWritten s (unlockReg b d) unlockFld 1) f.hi f.lo = s.fld (unlockReg b d) f := by
    rw [bitsOf_fieldWritten_kept s 1 hmem hf hne hwo, writeBase_unlockReg]
    rfl
  obtain ⟨t, hown, took⟩ := ownWrite_unlockReg hb d s (fun f hf hwo => bitsOf_fieldWritten_wo s 1 hmem rfl hf hwo) (fun hfcu => by
    subst hfcu
    exact (hhold rfl).trans_eq (kept F.fcuCtrl_RESET_HOLD_US (by simp [unlockReg, Reg.fields]) (by decide) (by decide)).symm)
  obtain ⟨hsession, htime⟩ := unlockReg_ne_other hb d
  have hset : bitsOf (t.reg (unlockReg b d)) 0 0 = 1 :=
    (took.fld _ hmem (by decide)).trans (bitsOf_fieldWritten_same s 1 hmem rfl)
  have hrec := raises_unlockRecord (unlock_unlockReg hb d) hset took.reports
    (congrArg BitVec.toNat (took.regs .ptcTbTime (by simpa using htime.symm)))
    (congrArg (bitsOf · _ _) (took.regs .mldLinkStatus (by simpa using hsession.symm)))
  rw [block_unlockReg] at hrec
  refine ⟨_, congrArg Host.Outcome.next (setFields_done s 1 hmem rfl h (.inl rfl) hown), ?_, fun f hf hwo hlo => ?_, fun k hk => ?_,
    storesKept_unlockRecord took.stores .., diesKept_unlockRecord took.dies .., hrec⟩
  · rw [reg_unlockRecord, hset]
  · rw [State.fld, reg_unlockRecord]
    exact (took.fld f hf hwo).trans (kept f hf hwo fun he => hlo (by rw [he]; rfl))
  · rw [reg_unlockRecord, took.regs k hk]

theorem writtenWord_modIdent (s : State) (v : Word) : writtenWord s .modIdent v = s.reg .modIdent &&& ~~~(woMask .modIdent) := rfl

theorem and_not_woMask_modIdent (w : Word) : w &&& ~~~(woMask .modIdent) = w := by
  have h : ~~~(woMask .modIdent) = BitVec.allOnes 64 := by decide
  rw [h, BitVec.and_allOnes]

/-- MOD has no EXPERT_UNLOCK: the write leaves its identity as it is. -/
theorem expertUnlock_mod_runs {s : State} (d : Die) (h : WriteReady s .modIdent) : Runs (.expertUnlock .mod d) s fun t =>
    t.reg .modIdent = s.reg .modIdent ∧ RegsKept [] s t ∧ Raises s t [] ∧ StoresKept s t ∧ DiesKept s t := by
  have hp : Reg.Plain s .modIdent := plain_of_listed s 0 0 _ List.mem_cons_self
  have hrun : exec (.expertUnlock .mod d) s = .next (store s .modIdent (s.reg .modIdent)) := by
    refine congrArg Host.Outcome.next ((privWrite_ready h _).trans ((writeReg_plain hp h.2.2 _).trans ?_))
    rw [writtenWord_modIdent, and_not_woMask_modIdent]
  have took := took_store s .modIdent (s.reg .modIdent)
  have hsame : (store s .modIdent (s.reg .modIdent)).reg .modIdent = s.reg .modIdent := by
    rw [store, State.reg_setReg_same, and_not_woMask_modIdent]
  refine ⟨_, hrun, hsame, fun k _ => ?_, took.reports, took.stores, took.dies⟩
  by_cases hk : k = .modIdent
  · rw [hk, hsame]
  · exact took.regs k (by simpa using hk)

end Sys2Proof.Machine
end

section
namespace Sys2Proof.Machine

/-! ### The grade mask (R140) -/

theorem gradeEngines_le (g : Nat) : gradeEngines g ≤ 128 := by
  unfold gradeEngines
  split <;> decide

/-- The sum of the powers of two that are chosen below k fits in k bits. -/
theorem foldl_two_pow_lt (p : Nat → Prop) [DecidablePred p] (k : Nat) :
    (List.range k).foldl (fun w i => if p i then w + 2 ^ i else w) 0 < 2 ^ k := by
  induction k with
  | zero => exact Nat.one_pos
  | succ k ih =>
    rw [List.range_succ, List.foldl_append, pow_succ]
    simp only [List.foldl_cons, List.foldl_nil]
    split <;> omega

theorem bitsOf_identity (s : State) : bitsOf (identity s) 3 0 = s.presentedGrade % 16 := by
  unfold identity bitsOf
  rw [BitVec.toNat_ofNat]
  omega

theorem engines_of_topology {n up chans : Nat} (hn : n ≤ 128) (hup : up < 2 ^ 8) (hch : chans < 2 ^ 16) :
    (n * 2 ^ 40 + n * 2 ^ 32 + up * 2 ^ 16 + chans) % 2 ^ 64 / 2 ^ 40 % 2 ^ 8 = n := by
  have hword : n * 2 ^ 40 + n * 2 ^ 32 + up * 2 ^ 16 + chans < 2 ^ 64 := by omega
  have hdiv : (n * 2 ^ 40 + n * 2 ^ 32 + up * 2 ^ 16 + chans) / 2 ^ 40 = n := by omega
  have hbyte : n < 2 ^ 8 := by omega
  rw [Nat.mod_eq_of_lt hword, hdiv, Nat.mod_eq_of_lt hbyte]

theorem bitsOf_topology (s : State) : bitsOf (topology s) 47 40 = gradeEngines s.presentedGrade := by
  unfold topology bitsOf
  rw [BitVec.toNat_ofNat]
  exact engines_of_topology (gradeEngines_le _) (foldl_two_pow_lt _ 8) (foldl_two_pow_lt _ 16)

theorem bitsOf_readReg_modIdent (s : State) : bitsOf (readReg s .modIdent true) 3 0 = s.presentedGrade % 16 :=
  have hmem : F.modIdent_GRADE_PRESENTED ∈ Reg.modIdent.fields := by simp [Reg.fields]
  (bitsOf_and_viewMask hmem _ (by decide)).trans (bitsOf_identity s)

theorem bitsOf_readReg_modTopology (s : State) : bitsOf (readReg s .modTopology true) 47 40 = gradeEngines s.presentedGrade :=
  have hmem : F.modTopology_ENG_D1 ∈ Reg.modTopology.fields := by simp [Reg.fields]
  (bitsOf_and_viewMask hmem _ (by decide)).trans (bitsOf_topology s)

theorem grade_mem : F.engGradeMask_GRADE ∈ Reg.engGradeMask.fields := by simp [Reg.fields]

theorem presentedGrade_store (s : State) (v : Word) : (store s .engGradeMask v).presentedGrade = bitsOf v 3 0 := by
  have h : (store s .engGradeMask v).regs.find .engGradeMask = some (v &&& ~~~(woMask .engGradeMask)) := Assoc.find_put_same _ _ _
  rw [State.presentedGrade, h]
  exact bitsOf_and_not_woMask grade_mem v

/-- What a written grade must meet (R140). -/
def GradeMayBe (s : State) (g : Nat) : Prop :=
  1 ≤ g ∧ g ≤ 3 ∧ gradeEngines g ≤ gradeEngines s.fuses.grade ∧ s.fld .circRingConf F.circRingConf_ENABLE = 0 ∧ queuesEmpty s = true

theorem ownWrite_grade {s : State} {v : Word} (h : GradeMayBe s (bitsOf v 3 0)) :
    ownWrite s .engGradeMask v = some (store s .engGradeMask v) := if_pos h

theorem ownWrite_grade_refused {s : State} {v : Word} (h : ¬GradeMayBe s (bitsOf v 3 0)) : ownWrite s .engGradeMask v = none := if_neg h

theorem bitsOf_fieldWritten_grade (s : State) (g : Nat) : bitsOf (fieldWritten s .engGradeMask F.engGradeMask_GRADE g) 3 0 = g % 16 :=
  bitsOf_fieldWritten_same s g grade_mem rfl

theorem gradeMaskWrite_runs {s : State} (h : WriteOpen s .engGradeMask) {g : Nat} (hg : GradeMayBe s g) :
    Runs (.gradeMaskWrite g) s fun t => t.presentedGrade = g ∧ RegsKept [.engGradeMask] s t
      ∧ bitsOf (readReg t .modIdent true) 3 0 = g ∧ bitsOf (readReg t .modTopology true) 47 40 = gradeEngines g
      ∧ Raises s t [] ∧ StoresKept s t ∧ DiesKept s t := by
  have hlt : g % 16 = g := Nat.mod_eq_of_lt (by have := hg.2.1; omega)
  have hbits := (bitsOf_fieldWritten_grade s g).trans hlt
  have hmay : GradeMayBe s (bitsOf (fieldWritten s .engGradeMask F.engGradeMask_GRADE g) 3 0) := by rwa [hbits]
  have hrun := setFields_done s g grade_mem rfl h.1 (.inr h.2) (ownWrite_grade hmay)
  rw [unlockRecord_other (by simp [Reg.unlock, Reg.block])] at hrun
  have took := took_store s .engGradeMask (fieldWritten s .engGradeMask F.engGradeMask_GRADE g)
  have hgrade := (presentedGrade_store s (fieldWritten s .engGradeMask F.engGradeMask_GRADE g)).trans hbits
  exact ⟨_, congrArg Host.Outcome.next hrun, hgrade, took.regs, by rw [bitsOf_readReg_modIdent, hgrade, hlt],
    by rw [bitsOf_readReg_modTopology, hgrade], took.reports, took.stores, took.dies⟩

theorem gradeMaskWrite_rejects {s : State} (h : WriteReady s .engGradeMask) {g : Nat} (hg : ¬GradeMayBe s (g % 16)) :
    Rejects (.gradeMaskWrite g) s .engGradeMask :=
  congrArg Host.Outcome.next (setFields_refused h (ownWrite_grade_refused (by rwa [bitsOf_fieldWritten_grade])))

/-! ### CORE_CTRL (R148) -/

section
variable {s : State} {d : Die} {q : CoreId}

theorem ownWrite_coreCtrl {v : Word} (h : bitsOf v 7 4 = s.fld (.scvCoreCtrl d q) F.scvCoreCtrl_QLIMIT
      ∨ (1 ≤ bitsOf v 7 4 ∧ bitsOf v 7 4 ≤ 8 ∧ (s.core d q).issueQ = [])) :
    ownWrite s (.scvCoreCtrl d q) v = some (store s (.scvCoreCtrl d q) v) := by
  refine if_neg fun ⟨hne, hbad⟩ => ?_
  rcases h with h | ⟨h1, h8, hq⟩
  · exact hne h
  · rcases hbad with h0 | h9 | hn
    · omega
    · omega
    · exact hn hq

theorem ownWrite_coreCtrl_refused {v : Word} (hne : bitsOf v 7 4 ≠ s.fld (.scvCoreCtrl d q) F.scvCoreCtrl_QLIMIT)
    (h : bitsOf v 7 4 = 0 ∨ 8 < bitsOf v 7 4 ∨ (s.core d q).issueQ ≠ []) : ownWrite s (.scvCoreCtrl d q) v = none := if_pos ⟨hne, h⟩

/-- A write of one field of CORE_CTRL that its rule takes: the field is set, and every other field keeps its value. -/
theorem coreCtrl_runs {c : Instr} {f : Fld} {x : Nat} (hc : exec c s = .next (setFields s (.scvCoreCtrl d q) [(f, x)]))
    (hf : f ∈ (Reg.scvCoreCtrl d q).fields) (hrw : f.access = .rw) (hx : x < 2 ^ (f.hi + 1 - f.lo)) (h : WriteReady s (.scvCoreCtrl d q))
    (he : f.level = .basic ∨ unlockedFor s (.scvCoreCtrl d q) = true)
    (hown : ownWrite s (.scvCoreCtrl d q) (fieldWritten s (.scvCoreCtrl d q) f x)
      = some (store s (.scvCoreCtrl d q) (fieldWritten s (.scvCoreCtrl d q) f x))) :
    Runs c s fun t => t.fld (.scvCoreCtrl d q) f = x
      ∧ (∀ g ∈ (Reg.scvCoreCtrl d q).fields, g ≠ f → g.access ≠ .wo → t.fld (.scvCoreCtrl d q) g = s.fld (.scvCoreCtrl d q) g)
      ∧ RegsKept [.scvCoreCtrl d q] s t ∧ Raises s t [] ∧ StoresKept s t ∧ DiesKept s t := by
  have took := took_store s (.scvCoreCtrl d q) (fieldWritten s (.scvCoreCtrl d q) f x)
  have hrun := setFields_done s x hf hrw h he hown
  rw [unlockRecord_other (by simp [Reg.unlock, Reg.block])] at hrun
  refine ⟨_, hc.trans (congrArg Host.Outcome.next hrun), ?_, fun g hg hne hwo => ?_, took.regs, took.reports, took.stores, took.dies⟩
  · rw [took.fld f hf (by rw [hrw]; decide), bitsOf_fieldWritten_same s x hf hrw, Nat.mod_eq_of_lt hx]
  · rw [took.fld g hg hwo, bitsOf_fieldWritten_kept s x hf hg hne hwo]
    rfl

theorem run_mem (d : Die) (q : CoreId) : F.scvCoreCtrl_RUN ∈ (Reg.scvCoreCtrl d q).fields := by simp [Reg.fields]

theorem qlimit_mem (d : Die) (q : CoreId) : F.scvCoreCtrl_QLIMIT ∈ (Reg.scvCoreCtrl d q).fields := by simp [Reg.fields]

/-- CORE_RUN and CORE_HALT. -/
theorem coreRun_runs {c : Instr} {x : Nat} (hc : exec c s = .next (setFields s (.scvCoreCtrl d q) [(F.scvCoreCtrl_RUN, x)]))
    (hx : x < 2) (h : WriteReady s (.scvCoreCtrl d q)) : Runs c s fun t => t.fld (.scvCoreCtrl d q) F.scvCoreCtrl_RUN = x
      ∧ t.fld (.scvCoreCtrl d q) F.scvCoreCtrl_QLIMIT = s.fld (.scvCoreCtrl d q) F.scvCoreCtrl_QLIMIT
      ∧ RegsKept [.scvCoreCtrl d q] s t ∧ Raises s t [] ∧ StoresKept s t ∧ DiesKept s t := by
  have hq := bitsOf_fieldWritten_kept s x (run_mem d q) (qlimit_mem d q) (by decide) (by decide)
  obtain ⟨t, he, hrun, hkept, hrest⟩ := coreCtrl_runs hc (run_mem d q) rfl hx h (.inl rfl) (ownWrite_coreCtrl (.inl hq))
  exact ⟨t, he, hrun, hkept _ (qlimit_mem d q) (by decide) (by decide), hrest⟩

theorem bitsOf_fieldWritten_qlimit (s : State) (d : Die) (q : CoreId) {n : Nat} (hn : n < 16) :
    bitsOf (fieldWritten s (.scvCoreCtrl d q) F.scvCoreCtrl_QLIMIT n) 7 4 = n :=
  (bitsOf_fieldWritten_same s n (qlimit_mem d q) rfl).trans (Nat.mod_eq_of_lt hn)

theorem qlimitWrite_runs {n : Nat} (h : WriteReady s (.scvCoreCtrl d q)) (hu : unlockedFor s (.scvCoreCtrl d q) = true) (h1 : 1 ≤ n)
    (h8 : n ≤ 8) (hq : (s.core d q).issueQ = []) : Runs (.qlimitWrite d q n) s fun t =>
      t.fld (.scvCoreCtrl d q) F.scvCoreCtrl_QLIMIT = n
      ∧ t.fld (.scvCoreCtrl d q) F.scvCoreCtrl_RUN = s.fld (.scvCoreCtrl d q) F.scvCoreCtrl_RUN
      ∧ RegsKept [.scvCoreCtrl d q] s t ∧ Raises s t [] ∧ StoresKept s t ∧ DiesKept s t := by
  have hbits := bitsOf_fieldWritten_qlimit s d q (show n < 16 by omega)
  have hc : exec (.qlimitWrite d q n) s = .next (setFields s (.scvCoreCtrl d q) [(F.scvCoreCtrl_QLIMIT, n)]) := rfl
  obtain ⟨t, he, hlim, hkept, hrest⟩ := coreCtrl_runs hc (qlimit_mem d q) rfl (show n < 16 by omega) h (.inr hu)
    (ownWrite_coreCtrl (.inr (by rw [hbits]; exact ⟨h1, h8, hq⟩)))
  exact ⟨t, he, hlim, hkept _ (run_mem d q) (by decide) (by decide), hrest⟩

theorem qlimitWrite_rejects {n : Nat} (h : WriteReady s (.scvCoreCtrl d q)) (hn : n < 16)
    (hne : n ≠ s.fld (.scvCoreCtrl d q) F.scvCoreCtrl_QLIMIT) (hbad : n = 0 ∨ 8 < n ∨ (s.core d q).issueQ ≠ []) :
    Rejects (.qlimitWrite d q n) s (.scvCoreCtrl d q) := by
  have hbits := bitsOf_fieldWritten_qlimit s d q hn
  exact congrArg Host.Outcome.next (setFields_refused h (ownWrite_coreCtrl_refused (by rwa [hbits]) (by rwa [hbits])))

end

theorem unlocksAndCoresRule : UnlocksAndCoresRule := by
  intro s d q
  refine ⟨fun b hb hhold h => expertUnlock_runs hb d hhold h, fun h => expertUnlock_mod_runs d h, fun g h => ⟨?_, fun hbad => ?_⟩,
    fun h => ⟨coreRun_runs rfl (by decide) h, coreRun_runs rfl (by decide) h, ?_, ?_⟩⟩
  · exact fun h1 h3 hfused hen hq => gradeMaskWrite_runs h ⟨h1, h3, hfused, hen, hq⟩
  · refine gradeMaskWrite_rejects h.1 fun ⟨h1, h3, hfused, hen, hq⟩ => ?_
    rcases hbad with rfl | ⟨h3', h16⟩ | ⟨h1', h3', hlt⟩ | hen' | hq'
    · omega
    · omega
    · rw [Nat.mod_eq_of_lt (by omega)] at hfused
      omega
    · omega
    · rw [hq] at hq'; cases hq'
  · exact fun n hn hu h1 h8 hq => qlimitWrite_runs h hu h1 h8 hq
  · exact fun n hn hne hbad => qlimitWrite_rejects h hn hne hbad

/-- Settles O46: every write goes through `writeReg`, and the register's own rule takes a word whose fields are known. -/
theorem registerAccess : Obligations.RegisterAccess := ⟨unlocksAndCoresRule, registerWritesRule⟩

end Sys2Proof.Machine
end

section
/-! ### Streams in the state -/

namespace Sys2Proof.Machine.State

variable (s : State) (x : StreamId) (t : StreamSt)

@[simp] theorem setStream_regs : (s.setStream x t).regs = s.regs := rfl
@[simp] theorem setStream_mem : (s.setStream x t).mem = s.mem := rfl
@[simp] theorem setStream_poison : (s.setStream x t).poison = s.poison := rfl
@[simp] theorem setStream_latent : (s.setStream x t).latent = s.latent := rfl
@[simp] theorem setStream_repairs : (s.setStream x t).repairs = s.repairs := rfl
@[simp] theorem setStream_dies : (s.setStream x t).dies = s.dies := rfl
@[simp] theorem setStream_ctxs : (s.setStream x t).ctxs = s.ctxs := rfl
@[simp] theorem setStream_cores : (s.setStream x t).cores = s.cores := rfl
@[simp] theorem setStream_dmas : (s.setStream x t).dmas = s.dmas := rfl
@[simp] theorem setStream_reports : (s.setStream x t).reports = s.reports := rfl
@[simp] theorem reg_setStream (r : Reg) : (s.setStream x t).reg r = s.reg r := rfl
@[simp] theorem fld_setStream (r : Reg) (f : Fld) : (s.setStream x t).fld r f = s.fld r f := rfl
@[simp] theorem die_setStream (d : Die) : (s.setStream x t).die d = s.die d := rfl
@[simp] theorem now_setStream : (s.setStream x t).now = s.now := rfl
@[simp] theorem stream_setFld (r : Reg) (f : Fld) (v : Nat) : (s.setFld r f v).stream x = s.stream x := rfl

@[simp] theorem stream_setStream_same : (s.setStream x t).stream x = t := by simp [stream, setStream]

end Sys2Proof.Machine.State

/-! ### Bytes written by the hub -/

namespace Sys2Proof.Machine

theorem Mem.read_write {m : List Host.Cell} (hw : Mem.wf m = true) (a : Nat) (bs : List Byte) :
    Mem.read (Mem.write m a bs) a bs.length = bs := by
  induction bs generalizing m a with
  | nil => rfl
  | cons b bs ih =>
    have hfirst : Mem.get (Mem.write m a (b :: bs)) a = b := by simp [Mem.get_write _ hw]
    exact congrArg₂ _ hfirst (ih (Mem.wf_set hw a b) (a + 1))

theorem memKeptBut_write {s t : State} {a : Nat} {bs : List Byte} (hw : Mem.wf s.mem = true) (h : t.mem = Mem.write s.mem a bs) :
    MemKeptBut a bs.length s t := fun x hx => by rw [h, Mem.get_write _ hw, if_neg hx]

theorem lpdOnes_clean (m : List Host.Cell) (a : Nat) (bs : List Byte) : State.lpdOnes m a (bs.map (·, false)) = m := by
  have hclean : ∀ w, ((bs.map (·, false)).zipIdx.any fun b => b.1.2 && decide ((a + b.2) / 32 * 32 = w)) = false := fun w => by
    refine List.any_eq_false.mpr fun b hb => ?_
    have hmem := List.fst_mem_of_mem_zipIdx hb
    obtain ⟨c, -, hc⟩ := List.mem_map.mp hmem
    simp [← hc]
  simp only [State.lpdOnes, hclean, Bool.false_eq_true, if_false]
  exact List.foldl_fixed _

@[simp] theorem pokeClean_mem (s : State) (a : Nat) (bs : List Byte) : (s.pokeClean a bs).mem = Mem.write s.mem a bs := by
  have hbytes : (bs.map (·, false)).map (fun b => b.1) = bs := by rw [List.map_map]; exact List.map_id bs
  simp only [State.pokeClean, State.poke, hbytes, lpdOnes_clean]
  split <;> rfl

theorem writeCopy_done {s : State} {a : Nat} (hfits : slotFits s a = true) (hserves : tierServes s a 16448 = true) (bytes : List Byte) :
    writeCopy s a bytes = s.pokeClean a bytes := by simp only [writeCopy, hfits, hserves, if_true]

/-! ### What only registers decide -/

section
variable {s t : State} (h : t.regs = s.regs)
include h

theorem reg_of_regs (r : Reg) : t.reg r = s.reg r := by simp only [State.reg, h]

theorem fld_of_regs (r : Reg) (f : Fld) : t.fld r f = s.fld r f := by simp only [State.fld, reg_of_regs h]

theorem backSlot_of_regs (r : Fin 16) (k : Nat) : backSlot t r k = backSlot s r k := by
  simp only [backSlot, ownEntry, lpdRegion, reg_of_regs h]
  rfl

theorem slotFits_of_regs (a : Nat) : slotFits t a = slotFits s a := by
  simp only [slotFits, lpdRegion, reg_of_regs h]
  rfl

theorem tierServes_of_regs (a n : Nat) : tierServes t a n = tierServes s a n := by
  simp only [tierServes, stackState, fld_of_regs h]
  rfl

end

@[simp] theorem backSlot_circ (s : State) (c : Circ) (r : Fin 16) (k : Nat) : backSlot { s with circ := c } r k = backSlot s r k :=
  backSlot_of_regs rfl r k

@[simp] theorem regs_writeCopy (s : State) (a : Nat) (bytes : List Byte) : (writeCopy s a bytes).regs = s.regs := by
  simp only [writeCopy]
  (repeat' split) <;> rfl

@[simp] theorem backSlot_writeCopy (s : State) (a : Nat) (bytes : List Byte) (r : Fin 16) (k : Nat) :
    backSlot (writeCopy s a bytes) r k = backSlot s r k := backSlot_of_regs (regs_writeCopy s a bytes) r k

@[simp] theorem backSlot_setStream (s : State) (x : StreamId) (t : StreamSt) (r : Fin 16) (k : Nat) :
    backSlot (s.setStream x t) r k = backSlot s r k := backSlot_of_regs rfl r k

@[simp] theorem backSlot_setDie (s : State) (d : Die) (y : DieSt) (r : Fin 16) (k : Nat) :
    backSlot (s.setDie d y) r k = backSlot s r k := backSlot_of_regs rfl r k

end Sys2Proof.Machine
end

section
namespace Sys2Proof.Machine

/-! ### The period (R42) -/

theorem periodRefresh_waits {s : State} (h : (s.stream 0).circuit = none) : exec .periodRefresh s = .next s := by
  show Host.Outcome.next (periodRefresh s) = _
  simp only [periodRefresh, h]

theorem periodRefresh_measured {s : State} {p : Nat} (h : (s.stream 0).circuit = some p) :
    periodRefresh s = ((s.setStream 0 { s.stream 0 with circuit := none }).setFld .circPhase F.circPhase_PERIOD_NS (p % 2 ^ 32)).setFld
      .circStatus F.circStatus_PERIOD_SHORT (if s.fld .circPeriodTarget F.circPeriodTarget_NS ≠ 0
        ∧ s.fld .circPeriodTarget F.circPeriodTarget_NS * 1000 < p % 2 ^ 32 * 999 then 1 else 0) := by
  simp only [periodRefresh, h]

theorem periodRefresh_runs {s : State} {p : Nat} (h : (s.stream 0).circuit = some p) : Runs .periodRefresh s fun t =>
    t.fld .circPhase F.circPhase_PERIOD_NS = p % 2 ^ 32
      ∧ t.fld .circPhase F.circPhase_OFFSET_NS = s.fld .circPhase F.circPhase_OFFSET_NS ∧ (t.stream 0).circuit = none
      ∧ (t.fld .circStatus F.circStatus_PERIOD_SHORT = 1 ↔ s.fld .circPeriodTarget F.circPeriodTarget_NS ≠ 0
          ∧ s.fld .circPeriodTarget F.circPeriodTarget_NS * 1000 < p % 2 ^ 32 * 999)
      ∧ RegsKept [.circPhase, .circStatus] s t ∧ Raises s t [] ∧ StoresKept s t ∧ DiesKept s t := by
  refine ⟨_, congrArg Host.Outcome.next (periodRefresh_measured h), ?_, ?_, by simp, ?_, fun r hr => ?_, by simp [Raises],
    ⟨rfl, rfl, rfl, rfl⟩, ⟨rfl, rfl, rfl, rfl⟩⟩
  · rw [State.fld_setFld_ne _ _ _ _ (by decide), State.fld_setFld_same _ _ _ _ (by decide)]
    exact Nat.mod_mod _ _
  · rw [State.fld_setFld_ne _ _ _ _ (by decide), State.fld_setFld_apart _ _ _ _ _ (by decide), State.fld_setStream]
  · rw [State.fld_setFld_same _ _ _ _ (by decide)]
    split <;> simp_all [F.circStatus_PERIOD_SHORT]
  · obtain ⟨hphase, hstatus⟩ : r ≠ .circPhase ∧ r ≠ .circStatus := by simpa using hr
    rw [State.reg_setFld_ne _ _ _ hstatus, State.reg_setFld_ne _ _ _ hphase, State.reg_setStream]

/-! ### The circulating update (R72, R74, R534) -/

section
variable {s : State} {d : Die} {i : Nat} {w : WinEntry}

/-- The gradient block at entry i of a die taken off its stream. -/
def takeGradient (s : State) (d : Die) (i : Nat) (w : WinEntry) : State :=
  (s.setDie d { s.die d with window := (s.die d).window.eraseIdx i }).setStream 1
    { s.stream 1 with order := (s.stream 1).order.filter fun o => o ≠ (d, w.addr) }

@[simp] theorem window_takeGradient (s : State) (d : Die) (i : Nat) (w : WinEntry) :
    ((takeGradient s d i w).die d).window = (s.die d).window.eraseIdx i := by simp [takeGradient]

/-- The state with a gradient block taken off its stream and the new version written to its backing slot (R72). -/
def writeVersion (s : State) (d : Die) (i : Nat) (w : WinEntry) (a : Nat) (block : List Byte) : State :=
  writeCopy (takeGradient { s with circ := { s.circ with grads := s.circ.grads.drop_ w.sseq } } d i w) a block

theorem writeVersion_writes {s : State} {a : Nat} (hfits : slotFits s a = true) (hserves : tierServes s a 16448 = true) (d : Die) (i : Nat)
    (w : WinEntry) (block : List Byte) : (writeVersion s d i w a block).regs = s.regs
      ∧ (writeVersion s d i w a block).mem = Mem.write s.mem a block ∧ (writeVersion s d i w a block).reports = s.reports
      ∧ ((writeVersion s d i w a block).die d).window = (s.die d).window.eraseIdx i := by
  unfold writeVersion
  generalize hu : takeGradient _ d i w = u
  have hregs : u.regs = s.regs := by rw [← hu]; rfl
  rw [writeCopy_done ((slotFits_of_regs hregs _).trans hfits) ((tierServes_of_regs hregs _ _).trans hserves), pokeClean_mem, ← hu]
  exact ⟨rfl, rfl, rfl, window_takeGradient _ d i w⟩

/-- An entry holds the West copy of a gradient's block that has not been sent on (R72). -/
def isWestCopy (w v : WinEntry) : Bool := !v.skip && !v.grad && v.west && v.id == w.id && v.sent == 0

/-- The copies that are still to take the new version (R72): the East one, and the West one where it does not stand here. -/
def copiesDue (s : State) (w : WinEntry) (a : Nat) : List (StreamId × Nat × Nat) :=
  (0, w.id, a) :: (if ((s.die 0).window ++ (s.die 1).window).any (fun v => isWestCopy w v) then [] else [(1, w.id, a)])

/-- The new version put in the place of the West copy that stands here, the others noted as due (R72). -/
def replaceCopies (s : State) (w : WinEntry) (a : Nat) (block : List Byte) : State :=
  (List.finRange 2).foldl (fun s e => s.setDie e { s.die e with window := (s.die e).window.map (fun v => if (isWestCopy w v) then { v with header := block } else v) })
    { s with circ := { s.circ with due := s.circ.due ++ copiesDue s w a } }

theorem replaceCopies_keeps (s : State) (w : WinEntry) (a : Nat) (block : List Byte) : (replaceCopies s w a block).regs = s.regs
    ∧ (replaceCopies s w a block).mem = s.mem ∧ (replaceCopies s w a block).reports = s.reports
    ∧ (replaceCopies s w a block).circ.due = s.circ.due ++ copiesDue s w a := ⟨rfl, rfl, rfl, rfl⟩

theorem window_length_replaceCopies (s : State) (w : WinEntry) (a : Nat) (block : List Byte) (d : Die) :
    ((replaceCopies s w a block).die d).window.length = (s.die d).window.length := by
  show (((State.setDie _ 0 _).setDie 1 _).die d).window.length = _
  match d with
  | 0 => rw [State.die_setDie_ne _ _ (by decide), State.die_setDie_same]; exact List.length_map _
  | 1 => rw [State.die_setDie_same, State.die_setDie_ne _ _ (by decide)]; exact List.length_map _

theorem gradientApply_ignores (hw : (s.die d).window[i]? = some w) (block : List Byte) (opt : List (Nat × List Byte))
    (h : w.skip = true ∨ w.grad = false ∨ w.sealed_ = false ∨ w.state = .landing ∨ ownerOf s 1 w.sseq = none) :
    exec (.gradientApply d i block opt) s = .next s := by
  show Host.Outcome.next (gradientApply d i block opt s) = _
  by_cases hkind : w.skip = true ∨ w.grad = false ∨ w.sealed_ = false ∨ w.state = .landing
  · simp only [gradientApply, hw, hkind, if_true]
  · have howner : ownerOf s 1 w.sseq = none := by tauto
    simp only [gradientApply, hw, hkind, howner, if_false]

section
variable {r : Fin 16} {k : Nat} (hw : (s.die d).window[i]? = some w) (hskip : w.skip = false) (hgrad : w.grad = true)
  (hsealed : w.sealed_ = true) (hstate : w.state ≠ .landing) (howner : ownerOf s 1 w.sseq = some (r, k))
include hw hskip hgrad hsealed hstate howner

theorem gradientApply_poisoned (block : List Byte) (opt : List (Nat × List Byte)) (hbad : w.failed = true ∨ s.poisonedIn w.addr w.plain = true) :
    exec (.gradientApply d i block opt) s
      = .next (damageStep ((takeGradient s d i w).raise (Report.plain .gradPoison d.val 0 .circ w.addr))) := by
  show Host.Outcome.next (gradientApply d i block opt s) = _
  simp only [gradientApply, hw, hskip, hgrad, hsealed, hstate, howner, hbad, Bool.false_eq_true, Bool.true_eq_false, or_self, if_true, if_false]
  rfl

theorem gradientApply_drops (block : List Byte) (opt : List (Nat × List Byte)) (hgood : w.failed = false) (hclean : s.poisonedIn w.addr w.plain = false)
    (hdrop : s.fld .circUpdate F.circUpdate_DAMAGED = 1 ∨ s.circ.grads.at_ 0 w.sseq ≠ 2) :
    exec (.gradientApply d i block opt) s = .next (takeGradient s d i w) := by
  show Host.Outcome.next (gradientApply d i block opt s) = _
  simp only [gradientApply, hw, hskip, hgrad, hsealed, hstate, howner, hgood, hclean, hdrop, Bool.false_eq_true, Bool.true_eq_false, or_self,
    if_true, if_false]
  rfl

/-- The new version is written to its backing slot and put in the place of the copies that circulate (R72). -/
theorem gradientApply_applies (block : List Byte) (hgood : w.failed = false) (hclean : s.poisonedIn w.addr w.plain = false)
    (hdamaged : s.fld .circUpdate F.circUpdate_DAMAGED = 0) (hround : s.circ.grads.at_ 0 w.sseq = 2) :
    exec (.gradientApply d i block []) s
      = .next (replaceCopies (writeVersion s d i w (backSlot s r k) block) w (backSlot s r k) block) := by
  show Host.Outcome.next (gradientApply d i block [] s) = _
  simp only [gradientApply, hw, hskip, hgrad, hsealed, hstate, howner, hgood, hclean, hdamaged, hround, Bool.false_eq_true, Bool.true_eq_false,
    or_self, if_false, ne_eq, not_true_eq_false, zero_ne_one, List.foldl_nil, replaceCopies, copiesDue, isWestCopy, writeVersion,
    takeGradient, backSlot_circ, backSlot_writeCopy, backSlot_setStream, backSlot_setDie]
  rfl

end

end

/-! #### What a damaged step leaves as it is (R74) -/

theorem damageStep_keeps (s : State) : (damageStep s).dies = s.dies ∧ (damageStep s).reports = s.reports ∧ StoresKept s (damageStep s) := by
  simp only [damageStep]
  (repeat' split) <;> exact ⟨rfl, rfl, rfl, rfl, rfl, rfl⟩

theorem damageStep_damages {s : State} (hmode : updateMode s = true) (hon : s.fld .circRingConf F.circRingConf_ENABLE = 1)
    (hwave : s.circ.wave ≠ 0) : (damageStep s).fld .circUpdate F.circUpdate_DAMAGED = 1 ∧ (damageStep s).circ.wave = 0 := by
  have hruns : stepRuns s = true := by simp [stepRuns, hwave]
  simp only [damageStep, hmode, hon, hruns, hwave, and_self, false_and, if_true, if_false, and_true]
  exact State.fld_setFld_same _ _ _ 1 (by decide)

/-! #### The statement's cases -/

section
variable {s : State} {d : Die} {i : Nat} {w : WinEntry} {r : Fin 16} {k : Nat} (hw : (s.die d).window[i]? = some w) (hskip : w.skip = false)
  (hgrad : w.grad = true) (hsealed : w.sealed_ = true) (hstate : w.state ≠ .landing) (howner : ownerOf s 1 w.sseq = some (r, k))
include hw hskip hgrad hsealed hstate howner

theorem gradientApply_poisoned_runs (block : List Byte) (opt : List (Nat × List Byte))
    (hbad : w.failed = true ∨ s.poisonedIn w.addr w.plain = true) : Runs (.gradientApply d i block opt) s fun t =>
      (t.die d).window = (s.die d).window.eraseIdx i ∧ Raises s t [Report.plain .gradPoison d.val 0 .circ w.addr] ∧ StoresKept s t
        ∧ (updateMode s = true → s.fld .circRingConf F.circRingConf_ENABLE = 1 → s.circ.wave ≠ 0 →
            t.fld .circUpdate F.circUpdate_DAMAGED = 1) := by
  obtain ⟨hdies, hreports, hstores⟩ := damageStep_keeps ((takeGradient s d i w).raise (Report.plain .gradPoison d.val 0 .circ w.addr))
  refine ⟨_, gradientApply_poisoned hw hskip hgrad hsealed hstate howner block opt hbad, ?_, hreports, hstores, fun hmode hon hwave => ?_⟩
  · rw [State.die, hdies]
    exact window_takeGradient s d i w
  · exact (damageStep_damages (s := (takeGradient s d i w).raise _) hmode hon hwave).1

theorem gradientApply_drops_runs (block : List Byte) (opt : List (Nat × List Byte)) (hgood : w.failed = false)
    (hclean : s.poisonedIn w.addr w.plain = false) (hdrop : s.fld .circUpdate F.circUpdate_DAMAGED = 1 ∨ s.circ.grads.at_ 0 w.sseq ≠ 2) :
    Runs (.gradientApply d i block opt) s fun t => (t.die d).window = (s.die d).window.eraseIdx i
      ∧ t.regs = s.regs ∧ Raises s t [] ∧ StoresKept s t :=
  ⟨_, gradientApply_drops hw hskip hgrad hsealed hstate howner block opt hgood hclean hdrop, window_takeGradient s d i w, rfl,
    by simp [Raises, takeGradient], ⟨rfl, rfl, rfl, rfl⟩⟩

theorem gradientApply_applies_runs (block : List Byte) (hgood : w.failed = false) (hclean : s.poisonedIn w.addr w.plain = false)
    (hdamaged : s.fld .circUpdate F.circUpdate_DAMAGED = 0) (hround : s.circ.grads.at_ 0 w.sseq = 2)
    (hfits : slotFits s (backSlot s r k) = true) (hserves : tierServes s (backSlot s r k) 16448 = true) (hmem : Mem.wf s.mem = true) :
    Runs (.gradientApply d i block []) s fun t => (t.die d).window.length = (s.die d).window.length - 1
      ∧ Mem.read t.mem (backSlot s r k) block.length = block ∧ MemKeptBut (backSlot s r k) block.length s t
      ∧ (0, w.id, backSlot s r k) ∈ t.circ.due ∧ t.regs = s.regs ∧ Raises s t [] := by
  have hlen : i < (s.die d).window.length := (List.getElem?_eq_some_iff.mp hw).1
  obtain ⟨hregs, hcells, hreports, hwindow⟩ := writeVersion_writes hfits hserves d i w block
  obtain ⟨kregs, kmem, kreports, kdue⟩ := replaceCopies_keeps (writeVersion s d i w (backSlot s r k) block) w (backSlot s r k) block
  have hmem' := kmem.trans hcells
  refine ⟨_, gradientApply_applies hw hskip hgrad hsealed hstate howner block hgood hclean hdamaged hround, ?_, ?_, ?_, ?_, kregs.trans hregs, ?_⟩
  · rw [window_length_replaceCopies, hwindow, List.length_eraseIdx_of_lt hlen]
  · rw [hmem', Mem.read_write hmem]
  · exact memKeptBut_write hmem hmem'
  · rw [kdue]
    exact List.mem_append_right _ List.mem_cons_self
  · rw [Raises, kreports, hreports, List.map_nil, List.append_nil]

end

/-- Settles O49: PERIOD_REFRESH writes two fields, and GRADIENT_APPLY takes one of four ways by the entry, its poison and the step. -/
theorem periodAndUpdate : Obligations.PeriodAndUpdate := by
  intro s
  refine ⟨periodRefresh_waits, fun p => periodRefresh_runs, fun d i block opt w hw => ⟨gradientApply_ignores hw block opt, ?_⟩⟩
  intro r k hskip hgrad hsealed hstate howner
  exact ⟨gradientApply_poisoned_runs hw hskip hgrad hsealed hstate howner block opt,
    gradientApply_drops_runs hw hskip hgrad hsealed hstate howner block opt,
    gradientApply_applies_runs hw hskip hgrad hsealed hstate howner block⟩

end Sys2Proof.Machine
end

section
namespace Sys2Proof.Machine

/-! ### What the service's work on sequences leaves as it is (R46, R47, R482, R494)

Sampling and admission copy pages through the error protection of the memories, end sequences and move rows. None of it takes
a token from the commit log or a message from the uplink, and a step that is over stays over. -/

/-- A register that the service's work on sequences does not touch: a cohort's, and the counts of the service. -/
def Reg.served : Reg → Bool
  | .circCohort _ | .mldSvcCounts => true
  | _ => false

/-- The cohorts, the counts and the commit log stand; messages are only added; a step that is over stays over. -/
structure Serves (s t : State) : Prop where
  regs : ∀ r : Reg, r.served = true → t.reg r = s.reg r
  log : t.mld.log = s.mld.log
  sent : s.mld.sent <+: t.mld.sent
  wave : s.circ.wave = 0 → t.circ.wave = 0

theorem Serves.refl (s : State) : Serves s s := ⟨fun _ _ => rfl, rfl, List.prefix_rfl, id⟩

theorem Serves.trans {s t u : State} (h : Serves s t) (k : Serves t u) : Serves s u where
  regs r hr := (k.regs r hr).trans (h.regs r hr)
  log := k.log.trans h.log
  sent := h.sent.trans k.sent
  wave := k.wave ∘ h.wave

theorem Serves.foldl {α : Type} {f : State → α → State} (hf : ∀ s a, Serves s (f s a)) (l : List α) (s : State) : Serves s (l.foldl f s) := by
  induction l generalizing s with
  | nil => exact .refl s
  | cons a l ih => exact (hf s a).trans (ih _)

theorem Serves.ite {s t u : State} (p : Prop) [Decidable p] (ht : Serves s t) (hu : Serves s u) : Serves s (if p then t else u) := by
  split
  · exact ht
  · exact hu

theorem Serves.sentMono {s t : State} (h : Serves s t) {typ rtag : Nat} {body : List Byte} (hs : Sent s typ rtag body) : Sent t typ rtag body := by
  obtain ⟨m, hm, hrest⟩ := hs
  exact ⟨m, h.sent.subset hm, hrest⟩

theorem Serves.cohort {s t : State} (h : Serves s t) (c : Fin 8) : cohortState t c = cohortState s c := by
  simp only [cohortState, State.fld, h.regs (.circCohort c) rfl]

/-- A change outside the registers, the uplink and the waves. -/
theorem serves_of_eq {s t : State} (hr : t.regs = s.regs) (hm : t.mld = s.mld) (hc : t.circ = s.circ) : Serves s t :=
  ⟨fun r _ => reg_of_regs hr r, by rw [hm], by rw [hm], by rw [hc]; exact id⟩

/-- What serves a state serves one that differs outside the registers, the uplink and the waves. -/
theorem Serves.from_eq {s t u : State} (k : Serves t u) (hr : t.regs = s.regs) (hm : t.mld = s.mld) (hc : t.circ = s.circ) : Serves s u :=
  (serves_of_eq hr hm hc).trans k

theorem serves_setReg (s : State) {r : Reg} (w : Word) (hr : r.served = false) : Serves s (s.setReg r w) where
  regs k hk := State.reg_setReg_ne s w fun h => by rw [h, hr] at hk; cases hk
  log := rfl
  sent := List.prefix_rfl
  wave := id

theorem serves_setFld (s : State) {r : Reg} (f : Fld) (v : Nat) (hr : r.served = false) : Serves s (s.setFld r f v) := serves_setReg s _ hr

theorem serves_addFld (s : State) {r : Reg} (f : Fld) (n : Nat) (hr : r.served = false) : Serves s (s.addFld r f n) := serves_setReg s _ hr

/-! #### Reads through the error protection (R223 to R226, R446, R452) -/

theorem serves_damageStep (s : State) : Serves s (damageStep s) := by
  simp only [damageStep]
  refine .ite _ ?_ (.refl s)
  have hburn : Serves s (if s.circ.wave = 0 ∧ ¬isFirst s = true then s.burn 1 else s) := .ite _ (serves_of_eq rfl rfl rfl) (.refl s)
  refine .ite _ (hburn.trans ⟨fun r hr => ?_, rfl, List.prefix_rfl, fun _ => rfl⟩) hburn
  exact State.reg_setReg_ne _ _ fun h => by rw [h] at hr; cases hr

theorem serves_retireStack (s : State) (n cause : Nat) : Serves s (retireStack s n cause) :=
  .ite _ ((serves_setFld s _ _ rfl).trans ((serves_setFld _ _ _ rfl).trans
    ((serves_damageStep _).from_eq rfl rfl rfl))) (.refl s)

theorem serves_triggerRetire (s : State) (n cause : Nat) : Serves s (triggerRetire s n cause) :=
  .ite _ (serves_retireStack s n cause) (.ite _ ((serves_setFld s _ _ rfl).trans (serves_of_eq rfl rfl rfl)) (.refl s))

theorem serves_countStack (s : State) (n : Nat) (ce : Bool) : Serves s (countStack s n ce) := by
  refine .ite _ (serves_addFld s _ _ rfl) ?_
  have hnoted : Serves s (noteEvent (s.addFld (stackErr n) F.hbmStackErr_UE 1) n).1 :=
    (serves_addFld s _ _ rfl).trans (serves_of_eq rfl rfl rfl)
  exact .ite _ (hnoted.trans (serves_triggerRetire _ n 1)) hnoted

theorem serves_readHbmWord (s : State) (n w : Nat) : Serves s (readHbmWord s n w) := by
  simp only [readHbmWord]
  split
  · exact .refl s
  · split
    · exact serves_of_eq rfl rfl rfl
    · exact serves_of_eq rfl rfl rfl
    · exact (serves_countStack _ n true).from_eq rfl rfl rfl
    · exact (serves_countStack s n false).trans (serves_of_eq rfl rfl rfl)
    · exact (serves_countStack s n false).trans (serves_of_eq rfl rfl rfl)

theorem served_errCountReg (d : Die) (st : Store) : (errCountReg d st).served = false := by cases st <;> rfl

theorem served_errAddrReg (d : Die) (st : Store) : (errAddrReg d st).served = false := by cases st <;> rfl

theorem serves_noteCorrected (s : State) (d : Die) (st : Store) (w : Nat) : Serves s (noteCorrected s d st w) :=
  (serves_addFld s _ _ (served_errCountReg d st)).trans
    ((serves_setReg _ _ (served_errAddrReg d st)).trans (serves_of_eq rfl rfl rfl))

theorem serves_noteUncorrectable (s : State) (d : Die) (st : Store) (w kind : Nat) : Serves s (noteUncorrectable s d st w kind) :=
  (serves_addFld s _ _ (served_errCountReg d st)).trans
    ((serves_setReg _ _ (served_errAddrReg d st)).trans (serves_of_eq rfl rfl rfl))

theorem serves_readWord (s : State) (d : Die) (st : Store) (w : Nat) : Serves s (readWord s d st w) := by
  simp only [readWord]
  split
  · exact .refl s
  · refine .ite _ (.refl s) ?_
    split
    · exact serves_of_eq rfl rfl rfl
    · exact serves_of_eq rfl rfl rfl
    · exact (serves_noteCorrected _ d st w).from_eq rfl rfl rfl
    · exact serves_noteUncorrectable s d st w 2
    · exact serves_noteUncorrectable s d st w 3

theorem serves_readStore (s : State) (a n : Nat) : Serves s (readStore s a n) := by
  unfold readStore
  split
  · exact .refl s
  · exact .foldl (fun t i => serves_readWord t _ _ _) _ s

theorem serves_readAt (s : State) (a n : Nat) : Serves s (readAt s a n) := by
  unfold readAt
  split
  · exact .foldl (fun t i => serves_readHbmWord t _ _) _ s
  · exact serves_readStore s _ n
  · exact .refl s

/-! #### Sequences that end, are parked or are admitted (R460, R461, R481, R482) -/

theorem serves_setSeq (s : State) (id : Nat) (f : Seq → Option Seq) : Serves s (setSeq s id f) :=
  ⟨fun _ _ => rfl, rfl, List.prefix_rfl, fun h => h⟩

theorem serves_sendUp (s : State) (typ rtag : Nat) (body : List Byte) : Serves s (sendUp s typ rtag body) :=
  .ite _ ⟨fun _ _ => rfl, rfl, List.prefix_append _ _, id⟩ (.refl s)

theorem serves_sendSeqEnd (s : State) (id reason count : Nat) : Serves s (sendSeqEnd s id reason count) :=
  .ite _ (serves_sendUp s _ _ _) ⟨fun _ _ => rfl, rfl, List.prefix_rfl, fun h => h⟩

theorem serves_endSeq (s : State) (q : Seq) (reason : Nat) : Serves s (endSeq s q reason) :=
  (serves_sendSeqEnd s _ _ _).trans (serves_setSeq _ _ _)

theorem serves_copyPages (s : State) (l : List (Nat × Nat)) : Serves s (copyPages s l).1 := by
  induction l generalizing s with
  | nil => exact .refl s
  | cons p l ih =>
    simp only [copyPages]
    split
    · exact (serves_readAt s _ _).trans ((ih _).from_eq rfl rfl rfl)
    · exact serves_readAt s _ _

theorem serves_parkSeq (s : State) (q : Seq) : Serves s (parkSeq s q) :=
  .ite _ (.refl s) (.ite _ ((serves_copyPages s _).trans ((serves_setSeq _ _ _).trans (serves_sendSeqEnd _ _ _ _)))
    ((serves_copyPages s _).trans ((serves_sendSeqEnd _ _ _ _).trans (serves_setSeq _ _ _))))

theorem serves_applyRequests (s : State) (c : Fin 8) : Serves s (applyRequests s c) :=
  .foldl (fun t q => .ite _ (.refl t) (.ite _ (serves_endSeq t q 4) (.ite _ (serves_parkSeq t q) (.refl t)))) _ s

theorem serves_freeEnded (s : State) (c : Fin 8) : Serves s (freeEnded s c) := ⟨fun _ _ => rfl, rfl, List.prefix_rfl, id⟩

theorem serves_nextChunks (s : State) (c : Fin 8) : Serves s (nextChunks s c) := ⟨fun _ _ => rfl, rfl, List.prefix_rfl, id⟩

theorem serves_admitSeq (s : State) (c : Fin 8) (q : Seq) (n k : Nat) : Serves s (admitSeq s c q n k) := by
  have hburn : Serves s (s.burn 2) := serves_of_eq rfl rfl rfl
  refine .ite _ (.ite _ ?_ ?_) (hburn.trans (serves_setSeq _ _ _))
  · exact hburn.trans ((serves_copyPages _ _).trans (serves_setSeq _ _ _))
  · exact hburn.trans ((serves_copyPages _ _).trans ((serves_sendSeqEnd _ _ _ _).trans (serves_setSeq _ _ _)))

theorem serves_admitRows (s : State) (c : Fin 8) (l : List Seq) : Serves s (admitRows s c l) := by
  induction l generalizing s with
  | nil => exact .refl s
  | cons q l ih =>
    refine .ite _ (.refl s) ?_
    split
    · exact .refl s
    · exact (serves_admitSeq s c q _ _).trans (ih _)

/-! #### A cohort's moment (R47, R482) -/

/-- The sequences of a cohort once its requests are applied, its ended ones have left and queued ones have come (R482). -/
def rowsGiven (s : State) (c : Fin 8) : State :=
  let s := nextChunks (freeEnded (applyRequests s c) c) c
  if s.fld .mldSvcCtrl F.mldSvcCtrl_ADMIT = 1 ∧ s.fld .fcuStatus F.fcuStatus_OFF_RING = 0 then
    admitRows s c (s.mld.seqs.filter fun q => q.st = .queued) else s

/-- ROWS of a cohort written, and the cohort moved between FREE and WAIT_E by them (R47). -/
def writeRows (s : State) (c : Fin 8) : State :=
  let n := rowsOf s c
  let s := s.setFld (.circCohort c) F.circCohort_ROWS n
  if cohortState s c = 0 ∧ n ≠ 0 ∧ 32 ≤ s.fld (.circCohort c) F.circCohort_ROWS_MAX then setCohort s c 1
  else if cohortState s c = 1 ∧ n = 0 then setCohort s c 0
  else s

theorem cohortMoment_eq (s : State) (c : Fin 8) : cohortMoment s c = writeRows (rowsGiven s c) c := rfl

theorem serves_rowsGiven_of_applied (s : State) (c : Fin 8) : Serves (applyRequests s c) (rowsGiven s c) := by
  have hsettled : Serves (applyRequests s c) (nextChunks (freeEnded (applyRequests s c) c) c) := (serves_freeEnded _ c).trans (serves_nextChunks _ c)
  exact .ite _ (hsettled.trans (serves_admitRows _ c _)) hsettled

theorem serves_rowsGiven (s : State) (c : Fin 8) : Serves s (rowsGiven s c) := (serves_applyRequests s c).trans (serves_rowsGiven_of_applied s c)

theorem cohortState_setCohort (s : State) (c : Fin 8) {n : Nat} (hn : n < 8) : cohortState (setCohort s c n) c = n :=
  (State.fld_setFld_same s _ _ n (by decide)).trans (Nat.mod_eq_of_lt hn)

theorem storesKept_trans {s t u : State} (h : StoresKept s t) (k : StoresKept t u) : StoresKept s u := by
  obtain ⟨hmem, hpoison, hlatent, hrepairs⟩ := h
  obtain ⟨kmem, kpoison, klatent, krepairs⟩ := k
  exact ⟨kmem.trans hmem, kpoison.trans hpoison, klatent.trans hlatent, krepairs.trans hrepairs⟩

theorem diesKept_trans {s t u : State} (h : DiesKept s t) (k : DiesKept t u) : DiesKept s u := by
  obtain ⟨hctxs, hcores, hdies, hdmas⟩ := h
  obtain ⟨kctxs, kcores, kdies, kdmas⟩ := k
  exact ⟨kctxs.trans hctxs, kcores.trans hcores, kdies.trans hdies, kdmas.trans hdmas⟩

/-- Nothing but the cohort's own register, and the times kept of it, is written. -/
structure OnlyCohort (c : Fin 8) (s t : State) : Prop where
  regs : RegsKept [.circCohort c] s t
  mld : t.mld = s.mld
  wave : t.circ.wave = s.circ.wave
  streams : t.circ.streams = s.circ.streams
  reports : t.reports = s.reports
  stores : StoresKept s t
  dies : DiesKept s t

theorem OnlyCohort.refl (c : Fin 8) (s : State) : OnlyCohort c s s := ⟨fun _ _ => rfl, rfl, rfl, rfl, rfl, ⟨rfl, rfl, rfl, rfl⟩, ⟨rfl, rfl, rfl, rfl⟩⟩

theorem onlyCohort_setFld (c : Fin 8) (s : State) (f : Fld) (v : Nat) : OnlyCohort c s (s.setFld (.circCohort c) f v) :=
  ⟨fun _ hr => State.reg_setFld_ne s f v (by simpa using hr), rfl, rfl, rfl, rfl, ⟨rfl, rfl, rfl, rfl⟩, ⟨rfl, rfl, rfl, rfl⟩⟩

theorem onlyCohort_setCohort (c : Fin 8) (s : State) (n : Nat) : OnlyCohort c s (setCohort s c n) :=
  ⟨fun _ hr => State.reg_setFld_ne s _ n (by simpa using hr), rfl, rfl, rfl, rfl, ⟨rfl, rfl, rfl, rfl⟩, ⟨rfl, rfl, rfl, rfl⟩⟩

theorem OnlyCohort.trans {c : Fin 8} {s t u : State} (h : OnlyCohort c s t) (k : OnlyCohort c t u) : OnlyCohort c s u :=
  ⟨fun r hr => (k.regs r hr).trans (h.regs r hr), k.mld.trans h.mld, k.wave.trans h.wave, k.streams.trans h.streams,
    k.reports.trans h.reports, storesKept_trans h.stores k.stores, diesKept_trans h.dies k.dies⟩

theorem OnlyCohort.ite {c : Fin 8} {s t u : State} (p : Prop) [Decidable p] (ht : OnlyCohort c s t) (hu : OnlyCohort c s u) :
    OnlyCohort c s (if p then t else u) := by
  split
  · exact ht
  · exact hu

theorem onlyCohort_writeRows (s : State) (c : Fin 8) : OnlyCohort c s (writeRows s c) :=
  have hrows := onlyCohort_setFld c s F.circCohort_ROWS (rowsOf s c)
  .ite _ (hrows.trans (onlyCohort_setCohort c _ 1)) (.ite _ (hrows.trans (onlyCohort_setCohort c _ 0)) hrows)

theorem cohortState_writeFld (s : State) (c : Fin 8) {f : Fld} (v : Nat) (h : f.hi < 61) : cohortState (s.setFld (.circCohort c) f v) c = cohortState s c :=
  State.fld_setFld_apart s _ f F.circCohort_STATE v (.inr h)

/-- A cohort in WAIT_E stays there with rows, and is FREE without. -/
theorem cohortState_writeRows {s : State} {c : Fin 8} (h : cohortState s c = 1) :
    cohortState (writeRows s c) c = 1 ∨ cohortState (writeRows s c) c = 0 := by
  have hrows : cohortState (s.setFld (.circCohort c) F.circCohort_ROWS (rowsOf s c)) c = 1 := (cohortState_writeFld s c _ (by decide)).trans h
  simp only [writeRows, hrows, one_ne_zero, false_and, if_false, true_and]
  split
  · exact .inr (cohortState_setCohort _ c (by decide))
  · exact .inl hrows

/-- What stands once a cohort has entered WAIT_E. -/
structure Entered (c : Fin 8) (s t : State) : Prop where
  cohort : cohortState t c = 1 ∨ cohortState t c = 0
  counts : t.reg .mldSvcCounts = s.reg .mldSvcCounts
  log : t.mld.log = s.mld.log
  sent : s.mld.sent <+: t.mld.sent
  wave : s.circ.wave = 0 → t.circ.wave = 0

theorem enterWait_entered (s : State) (c : Fin 8) : Entered c s (enterWait s c) := by
  have hset := onlyCohort_setCohort c s 1
  have hgiven := serves_rowsGiven (setCohort s c 1) c
  have hrows := onlyCohort_writeRows (rowsGiven (setCohort s c 1) c) c
  rw [enterWait, cohortMoment_eq]
  exact {
    cohort := cohortState_writeRows ((hgiven.cohort c).trans (cohortState_setCohort s c (by decide)))
    counts := (hrows.regs _ (by simp)).trans ((hgiven.regs _ rfl).trans (hset.regs _ (by simp)))
    log := by rw [hrows.mld, hgiven.log, hset.mld]
    sent := by rw [hrows.mld, ← hset.mld]; exact hgiven.sent
    wave := fun h => hrows.wave.trans (hgiven.wave (hset.wave.trans h)) }

theorem Entered.sentMono {c : Fin 8} {s t : State} (h : Entered c s t) {typ rtag : Nat} {body : List Byte} (hs : Sent s typ rtag body) :
    Sent t typ rtag body := by
  obtain ⟨m, hm, hrest⟩ := hs
  exact ⟨m, h.sent.subset hm, hrest⟩

end Sys2Proof.Machine
end

section
namespace Sys2Proof.Machine

/-! ### Sampling (R47, R487 to R495) -/

theorem sent_sendUp {s : State} (h : linkState s = 3) (typ rtag : Nat) (body : List Byte) : Sent (sendUp s typ rtag body) typ rtag body :=
  ⟨⟨typ, rtag, s.fld .mldLinkStatus F.mldLinkStatus_SESSION, s.mld.nextUp, body⟩, by
    rw [sendUp, if_pos (show s.fld .mldLinkStatus F.mldLinkStatus_STATE = 3 from h)]
    exact List.mem_append_right _ List.mem_cons_self, rfl, rfl, rfl⟩

theorem serves_sendTokens (s : State) (resend : Bool) (ts : List LogTok) : Serves s (sendTokens s resend ts) :=
  .foldl (fun t _ => serves_sendUp t _ _ _) _ s

@[simp] theorem sendTokens_nil (s : State) (resend : Bool) : sendTokens s resend [] = s := rfl

@[simp] theorem sendTokens_one (s : State) (resend : Bool) (t : LogTok) : sendTokens s resend [t] = sendUp s 0x82 0 (tokenBytes t resend) := by
  simp [sendTokens]

theorem serves_judgeInterval (s : State) (c : Fin 8) : Serves s (judgeInterval s c) := by
  simp only [judgeInterval]
  split
  · split
    · exact (serves_addFld s (r := .circStatus) _ 1 rfl).trans ⟨fun _ _ => rfl, rfl, List.prefix_rfl, id⟩
    · exact ⟨fun _ _ => rfl, rfl, List.prefix_rfl, id⟩
  · exact ⟨fun _ _ => rfl, rfl, List.prefix_rfl, id⟩

/-- A sequence changed in place is found as it has become. -/
theorem seqOf_setSeq {s : State} {id : Nat} {q : Seq} (h : seqOf s id = some q) {f : Seq → Seq} (hf : ∀ p, (f p).id = p.id) :
    seqOf (setSeq s id fun p => some (f p)) id = some (f q) := by
  simp only [seqOf, setSeq] at h ⊢
  generalize s.mld.seqs = l at h
  induction l with
  | nil => cases h
  | cons p l ih =>
    by_cases hp : p.id = id
    · have hq : p = q := by simpa [hp] using h
      simp [hp, hf, ← hq]
    · have hl := ih (by simpa [hp] using h)
      simpa [hp] using hl

@[simp] theorem fresh_setSeq (s : State) (id : Nat) (f : Seq → Option Seq) : (setSeq s id f).fresh = s.fresh := rfl

/-- The count of samples that came late (R495). -/
def noteLate (s : State) (c : Fin 8) : State :=
  if s.circ.entered.at_ 0 c + s.fld .mldSvcCtrl F.mldSvcCtrl_SAMPLE_BUDGET_US * 1000 < s.now then
    s.addFld .mldSvcCounts F.mldSvcCounts_SAMPLE_OVER 1 else s

/-- Late or not, only SAMPLE_OVER is counted. -/
structure NotedLate (s t : State) : Prop where
  regs : RegsKept [.mldSvcCounts] s t
  lagged : t.fld .mldSvcCounts F.mldSvcCounts_LAGGED = s.fld .mldSvcCounts F.mldSvcCounts_LAGGED
  mld : t.mld = s.mld
  fresh : t.fresh = s.fresh

theorem noteLate_noted (s : State) (c : Fin 8) : NotedLate s (noteLate s c) := by
  unfold noteLate
  split
  · exact ⟨fun r hr => State.reg_addFld_ne s _ 1 (by simpa using hr), State.fld_addFld_apart s _ _ _ 1 (by decide), rfl, rfl⟩
  · exact ⟨fun _ _ => rfl, rfl, rfl, rfl⟩

/-- The sequences that have ended with a draw (R490, R492). -/
def endDrawn (s : State) (es : List (Nat × Nat)) : State :=
  es.foldl (fun s e => match seqOf s e.1 with | some q => endSeq s q e.2 | none => s) s

theorem serves_endDrawn (s : State) (es : List (Nat × Nat)) : Serves s (endDrawn s es) := by
  refine .foldl (fun t e => ?_) _ s
  split
  · exact serves_endSeq t _ _
  · exact .refl t

section
variable {s : State} {c : Fin 8} {rows : List (Nat × Bool × List Nat)}

theorem sampleComplete_other (h : cohortState s c ≠ 5) : exec (.sampleComplete c rows) s = .next s := by
  show Host.Outcome.next (sampleComplete c rows s) = _
  simp only [sampleComplete, h, ne_eq, not_false_eq_true, true_or, if_true]

theorem sampleComplete_missing {q : Seq} (hq : q ∈ s.mld.seqs) (hc : q.cohort = some c) (hd : q.draws = true) (hr : ∀ r ∈ rows, r.1 ≠ q.id) :
    exec (.sampleComplete c rows) s = .next s := by
  have hmissing : ((s.mld.seqs.filter fun q => q.cohort = some c ∧ q.draws).any fun q => !rows.any fun r => r.1 = q.id) = true :=
    List.any_eq_true.mpr ⟨q, by simp [hq, hc, hd], by simpa using hr⟩
  show Host.Outcome.next (sampleComplete c rows s) = _
  simp only [sampleComplete, hmissing, or_true, if_true]

/-- A cohort with one row that draws: the row is sampled, its token sent, its sequence ended if that is due, and the cohort
goes to WAIT_E. -/
theorem sampleComplete_one {q : Seq} (h5 : cohortState s c = 5) (hmine : s.mld.seqs.filter (fun q => q.cohort = some c ∧ q.draws) = [q])
    (bad : Bool) (logits : List Nat) :
    let o := sampleRow (noteLate s c) q bad logits
    exec (.sampleComplete c [(q.id, bad, logits)]) s = .next (enterWait (judgeInterval
      (endDrawn (sendTokens o.1 false o.2.1.toList) (o.2.2.map fun why => (q.id, why)).toList) c) c) := by
  have hall : ([q].any fun p => ! [(q.id, bad, logits)].any fun r => decide (r.1 = p.id)) = false := by simp
  have hfind : [(q.id, bad, logits)].find? (fun r => decide (r.1 = q.id)) = some (q.id, bad, logits) := by simp
  show Host.Outcome.next (sampleComplete c _ s) = _
  simp only [sampleComplete, h5, hmine, hall, sampleRows, hfind, ne_eq, not_true_eq_false, Bool.false_eq_true, or_self, if_false, List.nil_append]
  rfl

end

/-! #### What one row comes to -/

section
variable {s : State} {q : Seq}

/-- The row's sequence decodes, one row a time (R481). -/
def decoding (s : State) (q : Seq) : State := setSeq s q.id fun q => some { q with st := .decode, rows := 1 }

theorem sampleRow_lags (bad : Bool) (logits : List Nat)
    (h : s.fld .mldSvcCtrl F.mldSvcCtrl_COMMIT_LAG ≤ (logOf s q.id).length ∨ 16384 ≤ s.mld.log.length) :
    sampleRow s q bad logits = ((decoding s q).addFld .mldSvcCounts F.mldSvcCounts_LAGGED 1, none, none) := if_pos h

theorem sampleRow_poisoned (logits : List Nat) (hlag : (logOf s q.id).length < s.fld .mldSvcCtrl F.mldSvcCtrl_COMMIT_LAG)
    (hlog : s.mld.log.length < 16384) : sampleRow s q true logits = (decoding s q, none, some 7) := by
  have hroom : ¬(s.fld .mldSvcCtrl F.mldSvcCtrl_COMMIT_LAG ≤ (logOf s q.id).length ∨ 16384 ≤ s.mld.log.length) := by omega
  exact (if_neg hroom).trans (if_pos rfl)

/-- Without a grammar every token is allowed; the drawn one joins the commit log. -/
theorem sampleRow_draws {logits : List Nat} {tok : Nat} (hlag : (logOf s q.id).length < s.fld .mldSvcCtrl F.mldSvcCtrl_COMMIT_LAG)
    (hlog : s.mld.log.length < 16384) (hg : q.grammar = false)
    (hsel : selectToken (paramsOf q.head) q.toks q.count (Config.freeNat s.fresh) (fun _ => true) logits = some tok) :
    let why := stopReason (paramsOf q.head) (q.gen ++ [tok])
    let t : LogTok := ⟨q.id, q.count, tok, why.isSome⟩
    ∃ u, sampleRow s q false logits = (u, some t, why) ∧ u.regs = s.regs ∧ u.mld.log = s.mld.log ++ [t] := by
  have hroom : ¬(s.fld .mldSvcCtrl F.mldSvcCtrl_COMMIT_LAG ≤ (logOf s q.id).length ∨ 16384 ≤ s.mld.log.length) := by omega
  have hrow : sampleRow s q false logits = _ := (if_neg hroom).trans (if_neg Bool.false_ne_true)
  simp only [hg, Bool.not_false, Bool.true_or, Bool.false_eq_true, false_and, if_false, fresh_setSeq, hsel] at hrow
  exact ⟨_, hrow, rfl, rfl⟩

end

end Sys2Proof.Machine
end

section
namespace Sys2Proof.Machine

/-! #### A sample of a cohort with one row that draws (R487 to R495) -/

theorem fld_of_reg {s t : State} {r : Reg} (h : t.reg r = s.reg r) (f : Fld) : t.fld r f = s.fld r f := by rw [State.fld, State.fld, h]

theorem NotedLate.fld {t : State} (h : NotedLate s t) {r : Reg} (hr : r ≠ .mldSvcCounts) (f : Fld) : t.fld r f = s.fld r f :=
  fld_of_reg (h.regs r (by simpa using hr)) f

theorem logOf_noteLate (s : State) (c : Fin 8) (id : Nat) : logOf (noteLate s c) id = logOf s id := by
  rw [logOf, logOf, (noteLate_noted s c).mld]

theorem endDrawn_nil (s : State) : endDrawn s [] = s := rfl

theorem log_decoding (s : State) (q : Seq) : (decoding s q).mld.log = s.mld.log := rfl

theorem fld_decoding (s : State) (q : Seq) (r : Reg) (f : Fld) : (decoding s q).fld r f = s.fld r f := rfl

theorem log_addFld (s : State) (r : Reg) (f : Fld) (n : Nat) : (s.addFld r f n).mld.log = s.mld.log := rfl

theorem sent_sendSeqEnd {s : State} (h : linkState s = 3) (id reason count : Nat) :
    Sent (sendSeqEnd s id reason count) 0x83 0 (seqEndBody id reason count) := by
  rw [sendSeqEnd, if_pos (show s.fld .mldLinkStatus F.mldLinkStatus_STATE = 3 from h)]
  exact sent_sendUp h _ _ _

section
variable {s : State} {c : Fin 8} {q : Seq} (h5 : cohortState s c = 5)
  (hmine : s.mld.seqs.filter (fun q => q.cohort = some c ∧ q.draws) = [q]) (logits : List Nat)
include h5 hmine

/-- A row whose log is too far ahead draws none and is counted (R487). -/
theorem sampleComplete_lags (bad : Bool)
    (h : s.fld .mldSvcCtrl F.mldSvcCtrl_COMMIT_LAG ≤ (logOf s q.id).length ∨ 16384 ≤ s.mld.log.length) :
    Runs (.sampleComplete c [(q.id, bad, logits)]) s fun t => t.mld.log = s.mld.log
      ∧ t.fld .mldSvcCounts F.mldSvcCounts_LAGGED = min (s.fld .mldSvcCounts F.mldSvcCounts_LAGGED + 1) (2 ^ 32 - 1)
      ∧ (cohortState t c = 1 ∨ cohortState t c = 0) := by
  have hn := noteLate_noted s c
  have hrow := sampleRow_lags (s := noteLate s c) (q := q) bad logits (by
    rwa [hn.fld (by decide), logOf_noteLate, hn.mld])
  refine ⟨_, sampleComplete_one h5 hmine bad logits, ?_⟩
  simp only [hrow, Option.toList_none, Option.map_none, sendTokens_nil, endDrawn_nil]
  have hj := serves_judgeInterval ((decoding (noteLate s c) q).addFld .mldSvcCounts F.mldSvcCounts_LAGGED 1) c
  have he := enterWait_entered (judgeInterval ((decoding (noteLate s c) q).addFld .mldSvcCounts F.mldSvcCounts_LAGGED 1) c) c
  refine ⟨?_, ?_, he.cohort⟩
  · rw [he.log, hj.log, log_addFld, log_decoding, hn.mld]
  · have hcounts := he.counts.trans (hj.regs .mldSvcCounts rfl)
    rw [fld_of_reg hcounts, State.fld_addFld_same _ _ _ _ (by decide), fld_decoding, hn.lagged]
    rfl

/-- A poisoned row ends with POISONED (R493). -/
theorem sampleComplete_poisoned (hseq : seqOf s q.id = some q) (hlag : (logOf s q.id).length < s.fld .mldSvcCtrl F.mldSvcCtrl_COMMIT_LAG)
    (hlog : s.mld.log.length < 16384) :
    Runs (.sampleComplete c [(q.id, true, logits)]) s fun t => t.mld.log = s.mld.log
      ∧ (cohortState t c = 1 ∨ cohortState t c = 0) ∧ (linkState s = 3 → Sent t 0x83 0 (seqEndBody q.id 7 q.count)) := by
  have hn := noteLate_noted s c
  have hrow := sampleRow_poisoned (s := noteLate s c) (q := q) logits (by rwa [hn.fld (by decide), logOf_noteLate]) (by rwa [hn.mld])
  refine ⟨_, sampleComplete_one h5 hmine true logits, ?_⟩
  simp only [hrow, Option.toList_none, Option.toList_some, Option.map_some, sendTokens_nil]
  have hd := serves_endDrawn (decoding (noteLate s c) q) [(q.id, 7)]
  have hj := serves_judgeInterval (endDrawn (decoding (noteLate s c) q) [(q.id, 7)]) c
  have he := enterWait_entered (judgeInterval (endDrawn (decoding (noteLate s c) q) [(q.id, 7)]) c) c
  refine ⟨?_, he.cohort, fun hup => he.sentMono (hj.sentMono ?_)⟩
  · rw [he.log, hj.log, hd.log, log_decoding, hn.mld]
  · have hq : seqOf (decoding (noteLate s c) q) q.id = some { q with st := .decode, rows := 1 } :=
      seqOf_setSeq (by rw [seqOf, hn.mld]; exact hseq) (by intro p; rfl)
    have hlink : linkState (decoding (noteLate s c) q) = 3 := (hn.fld (by decide) _).trans hup
    have hend : endDrawn (decoding (noteLate s c) q) [(q.id, 7)] = endSeq (decoding (noteLate s c) q) { q with st := .decode, rows := 1 } 7 := by
      simp [endDrawn, hq]
    rw [hend]
    exact (serves_setSeq _ _ _).sentMono (sent_sendSeqEnd hlink q.id 7 q.count)

/-- The drawn token goes to the commit log and, in a session, to the control node (R487, R494). -/
theorem sampleComplete_draws {tok : Nat} (hlag : (logOf s q.id).length < s.fld .mldSvcCtrl F.mldSvcCtrl_COMMIT_LAG)
    (hlog : s.mld.log.length < 16384) (hg : q.grammar = false)
    (hsel : selectToken (paramsOf q.head) q.toks q.count (Config.freeNat s.fresh) (fun _ => true) logits = some tok) :
    Runs (.sampleComplete c [(q.id, false, logits)]) s fun t =>
      t.mld.log = s.mld.log ++ [⟨q.id, q.count, tok, (stopReason (paramsOf q.head) (q.gen ++ [tok])).isSome⟩]
        ∧ (cohortState t c = 1 ∨ cohortState t c = 0)
        ∧ (linkState s = 3 → Sent t 0x82 0
            (tokenBytes ⟨q.id, q.count, tok, (stopReason (paramsOf q.head) (q.gen ++ [tok])).isSome⟩ false)) := by
  have hn := noteLate_noted s c
  obtain ⟨u, hrow, hregs, hulog⟩ := sampleRow_draws (s := noteLate s c) (q := q) (logits := logits) (tok := tok)
    (by rwa [hn.fld (by decide), logOf_noteLate]) (by rwa [hn.mld]) hg (by rwa [hn.fresh])
  refine ⟨_, sampleComplete_one h5 hmine false logits, ?_⟩
  rw [hrow]
  simp only [Option.toList_some, sendTokens_one]
  generalize hts : (⟨q.id, q.count, tok, (stopReason (paramsOf q.head) (q.gen ++ [tok])).isSome⟩ : LogTok) = tk at hulog ⊢
  generalize hes : (Option.map (fun why => (q.id, why)) (stopReason (paramsOf q.head) (q.gen ++ [tok]))).toList = es
  have hrest : Serves (sendUp u 0x82 0 (tokenBytes tk false)) (judgeInterval (endDrawn (sendUp u 0x82 0 (tokenBytes tk false)) es) c) :=
    (serves_endDrawn _ es).trans (serves_judgeInterval _ c)
  have he := enterWait_entered (judgeInterval (endDrawn (sendUp u 0x82 0 (tokenBytes tk false)) es) c) c
  refine ⟨?_, he.cohort, fun hup => he.sentMono (hrest.sentMono (sent_sendUp ?_ _ _ _))⟩
  · rw [he.log, hrest.log, (serves_sendUp u _ _ _).log, hulog, hn.mld]
  · exact (fld_of_regs hregs _ _).trans ((hn.fld (by decide) _).trans hup)

end

end Sys2Proof.Machine
end

section
namespace Sys2Proof.Machine

/-! ### Admission (R47, R482) -/

/-- A FREE cohort with ROWS_MAX of at least 32. -/
def FreeWithRoom (s : State) (e : Fin 8) : Prop := cohortState s e = 0 ∧ 32 ≤ s.fld (.circCohort e) F.circCohort_ROWS_MAX

/-- The service's look at a cohort. -/
def lookAt (s : State) (e : Fin 8) : State :=
  if cohortState s e = 0 ∧ 32 ≤ s.fld (.circCohort e) F.circCohort_ROWS_MAX then cohortMoment s e else s

theorem admitFree_ready {s : State} (h : s.readyBit 11 = true) : admitFree s = (List.finRange 8).foldl lookAt s := if_pos h

theorem foldl_lookAt_idle {l : List (Fin 8)} {s : State} (h : ∀ e ∈ l, ¬FreeWithRoom s e) : l.foldl lookAt s = s := by
  induction l with
  | nil => rfl
  | cons e l ih =>
    have he : lookAt s e = s := if_neg (h e List.mem_cons_self)
    rw [List.foldl_cons, he]
    exact ih fun e' he' => h e' (List.mem_cons_of_mem _ he')

theorem freeWithRoom_of_kept {c e : Fin 8} {s t : State} (h : RegsKept [.circCohort c] s t) (hne : e ≠ c) : FreeWithRoom t e ↔ FreeWithRoom s e := by
  have hreg : t.reg (.circCohort e) = s.reg (.circCohort e) := h _ (by simpa using hne)
  simp only [FreeWithRoom, cohortState, fld_of_reg hreg]

/-- With one FREE cohort with room, its moment is all that a tick comes to. -/
theorem admitFree_only {s : State} {c : Fin 8} (hready : s.readyBit 11 = true) (honly : OnlyFree s c)
    (hkept : RegsKept [.circCohort c] s (cohortMoment s c)) : admitFree s = cohortMoment s c := by
  obtain ⟨before, after, hsplit⟩ := List.append_of_mem (List.mem_finRange c)
  have hnodup : (before ++ c :: after).Nodup := hsplit ▸ List.nodup_finRange 8
  have hother : ∀ e ∈ before ++ after, e ≠ c := by
    intro e he hec
    subst hec
    exact (List.nodup_middle.mp hnodup).notMem he
  have hbefore : before.foldl lookAt s = s := foldl_lookAt_idle fun e he hfree => hother e (List.mem_append_left _ he) ((honly e).mp hfree)
  have hafter : after.foldl lookAt (cohortMoment s c) = cohortMoment s c := foldl_lookAt_idle fun e he hfree =>
    have hne := hother e (List.mem_append_right _ he)
    hne ((honly e).mp ((freeWithRoom_of_kept hkept hne).mp hfree))
  have hc : lookAt s c = cohortMoment s c := if_pos ((honly c).mpr rfl)
  rw [admitFree_ready hready, hsplit, List.foldl_append, List.foldl_cons, hbefore, hc, hafter]

theorem withSeqs_self {s : State} {l : List Seq} (h : l = s.mld.seqs) : { s with mld := { s.mld with seqs := l } } = s := by subst h; rfl

section
variable {s : State} {c : Fin 8} {q : Seq} (hseqs : s.mld.seqs = [q]) (hcohort : q.cohort = none)
include hseqs hcohort

theorem rowsOf_queued : rowsOf s c = 0 := by simp [rowsOf, hseqs, hcohort]

/-- A queued sequence waits with no cohort: the requests, ends and chunks of a cohort do not concern it. -/
theorem settled_queued : nextChunks (freeEnded (applyRequests s c) c) c = s := by
  have happly : applyRequests s c = s := by simp [applyRequests, hseqs, hcohort]
  have hfree : freeEnded s c = s := withSeqs_self (by simp [hseqs, hcohort])
  have hnext : nextChunks s c = s := withSeqs_self (by simp [hseqs, hcohort])
  rw [happly, hfree, hnext]

theorem rowsGiven_queued (hq : q.st = .queued) (hadmit : s.fld .mldSvcCtrl F.mldSvcCtrl_ADMIT = 1) (hring : s.fld .fcuStatus F.fcuStatus_OFF_RING = 0) :
    rowsGiven s c = admitRows s c [q] := by
  have hlist : s.mld.seqs.filter (fun q => q.st = .queued) = [q] := by simp [hseqs, hq]
  rw [rowsGiven, settled_queued hseqs hcohort, if_pos ⟨hadmit, hring⟩, hlist]

theorem queued_fits {k : Nat} (hmax : k ≤ s.fld (.circCohort c) F.circCohort_ROWS_MAX) (hbal : balanced s c k = true) :
    ¬(s.fld (.circCohort c) F.circCohort_ROWS_MAX < rowsOf s c + k ∨ balanced s c (rowsOf s c + k) = false) := by
  rw [rowsOf_queued hseqs hcohort, Nat.zero_add, hbal]
  simpa using hmax

section
variable {k : Nat} (hun : q.unparking = false) (hk : k = min q.base (s.fld .mldSvcCtrl F.mldSvcCtrl_PREFILL_MAX))
  (hmax : k ≤ s.fld (.circCohort c) F.circCohort_ROWS_MAX) (hbal : balanced s c k = true)
include hun hk hmax hbal

theorem admitRows_home {n : Nat} (hhome : homeStack s q.need = some n) : admitRows s c [q] = admitSeq s c q n k := by
  simp only [admitRows, hun, Bool.false_eq_true, if_false, ← hk, if_neg (queued_fits hseqs hcohort hmax hbal), hhome]

theorem admitRows_no_home (hhome : homeStack s q.need = none) : admitRows s c [q] = s := by
  simp only [admitRows, hun, Bool.false_eq_true, if_false, ← hk, if_neg (queued_fits hseqs hcohort hmax hbal), hhome]

end

end

theorem admitSeq_seqs {s : State} {c : Fin 8} {q : Seq} (hseqs : s.mld.seqs = [q]) (hun : q.unparking = false) (n k : Nat) :
    (admitSeq s c q n k).mld.seqs = [{ q with st := .prefill, cohort := some c, rows := k, done := k, stack := n
                                              pages := (freePages s n).take q.need, gstate := startGrammar (s.burn 2) q }] := by
  simp [admitSeq, hun, setSeq, hseqs]

theorem admitSeq_keeps {s : State} {c : Fin 8} {q : Seq} (hun : q.unparking = false) (n k : Nat) :
    (admitSeq s c q n k).regs = s.regs ∧ StoresKept s (admitSeq s c q n k) ∧ DiesKept s (admitSeq s c q n k) := by
  simp only [admitSeq, hun, Bool.false_eq_true, if_false]
  exact ⟨rfl, ⟨rfl, rfl, rfl, rfl⟩, ⟨rfl, rfl, rfl, rfl⟩⟩

theorem fld_writeRows (s : State) (c : Fin 8) (h : rowsOf s c < 512) : (writeRows s c).fld (.circCohort c) F.circCohort_ROWS = rowsOf s c := by
  have hset (n : Nat) (u : State) : (setCohort u c n).fld (.circCohort c) F.circCohort_ROWS = u.fld (.circCohort c) F.circCohort_ROWS :=
    State.fld_setFld_apart u _ F.circCohort_STATE F.circCohort_ROWS n (.inl (by decide))
  have hrows : (s.setFld (.circCohort c) F.circCohort_ROWS (rowsOf s c)).fld (.circCohort c) F.circCohort_ROWS = rowsOf s c :=
    (State.fld_setFld_same s _ _ _ (by decide)).trans (Nat.mod_eq_of_lt h)
  simp only [writeRows]
  split
  · rw [hset, hrows]
  · split
    · rw [hset, hrows]
    · exact hrows

/-- A FREE cohort with room waits with rows, and stays FREE without (R47). -/
theorem cohortState_writeRows_free {s : State} {c : Fin 8} (h : FreeWithRoom s c) :
    cohortState (writeRows s c) c = if rowsOf s c = 0 then 0 else 1 := by
  obtain ⟨hfree, hroom⟩ := h
  have hstate : cohortState (s.setFld (.circCohort c) F.circCohort_ROWS (rowsOf s c)) c = 0 := (cohortState_writeFld s c _ (by decide)).trans hfree
  have hmax : 32 ≤ (s.setFld (.circCohort c) F.circCohort_ROWS (rowsOf s c)).fld (.circCohort c) F.circCohort_ROWS_MAX := by
    rwa [State.fld_setFld_apart s _ F.circCohort_ROWS F.circCohort_ROWS_MAX _ (by decide)]
  by_cases hz : rowsOf s c = 0
  · rw [hz] at hstate
    simp only [writeRows, hstate, hz, ne_eq, not_true_eq_false, false_and, and_false, if_false, if_true, zero_ne_one]
  · simp only [writeRows, hstate, hz, hmax, ne_eq, not_false_eq_true, and_self, if_true, if_false]
    exact cohortState_setCohort _ c (by decide)

/-! #### The tick with one sequence in the queue -/

section
variable {s : State} {c : Fin 8} {q : Seq} {k : Nat} (hready : s.readyBit 11 = true) (honly : OnlyFree s c)
  (hadmit : s.fld .mldSvcCtrl F.mldSvcCtrl_ADMIT = 1) (hring : s.fld .fcuStatus F.fcuStatus_OFF_RING = 0)
  (hseqs : s.mld.seqs = [q]) (hq : q.st = .queued) (hcohort : q.cohort = none) (hun : q.unparking = false)
  (hk : k = min q.base (s.fld .mldSvcCtrl F.mldSvcCtrl_PREFILL_MAX)) (hmax : k ≤ s.fld (.circCohort c) F.circCohort_ROWS_MAX)
  (hbal : balanced s c k = true)
include hready honly hadmit hring hseqs hq hcohort hun hk hmax hbal

theorem admissionTick_admits (hpos : 0 < k) {n : Nat} (hhome : homeStack s q.need = some n) :
    Runs .admissionTick s fun t => cohortState t c = 1
      ∧ t.fld (.circCohort c) F.circCohort_ROWS = k ∧ RegsKept [.circCohort c] s t ∧ StoresKept s t ∧ DiesKept s t
      ∧ ∃ q', t.mld.seqs = [q'] ∧ q'.id = q.id ∧ q'.st = .prefill ∧ q'.cohort = some c ∧ q'.rows = k ∧ q'.done = k ∧ q'.stack = n
          ∧ q'.pages = (freePages s n).take q.need ∧ q'.toks = q.toks := by
  obtain ⟨hregs, hstores, hdies⟩ := admitSeq_keeps (s := s) (c := c) hun n k
  have hseq := admitSeq_seqs (c := c) hseqs hun n k
  have hmoment : cohortMoment s c = writeRows (admitSeq s c q n k) c := by
    rw [cohortMoment_eq, rowsGiven_queued hseqs hcohort hq hadmit hring, admitRows_home hseqs hcohort hun hk hmax hbal hhome]
  have hrows : rowsOf (admitSeq s c q n k) c = k := by simp [rowsOf, hseq]
  have hlt : k < 512 := hmax.trans_lt (Nat.mod_lt _ (by decide))
  have hfree : FreeWithRoom (admitSeq s c q n k) c := by
    rw [FreeWithRoom, cohortState, fld_of_regs hregs, fld_of_regs hregs]
    exact (honly c).mpr rfl
  have hw := onlyCohort_writeRows (admitSeq s c q n k) c
  have hkept : RegsKept [.circCohort c] s (writeRows (admitSeq s c q n k) c) := fun r hr => (hw.regs r hr).trans (reg_of_regs hregs r)
  refine ⟨_, congrArg Host.Outcome.next ((admitFree_only hready honly (hmoment ▸ hkept)).trans hmoment), ?_, ?_, hkept,
    storesKept_trans hstores hw.stores, diesKept_trans hdies hw.dies, _, (congrArg Mld.seqs hw.mld).trans hseq, rfl, rfl, rfl, rfl, rfl, rfl, rfl, rfl⟩
  · rw [cohortState_writeRows_free hfree, hrows, if_neg hpos.ne']
  · rw [fld_writeRows _ c (by rwa [hrows]), hrows]

theorem admissionTick_no_home (hhome : homeStack s q.need = none) :
    Runs .admissionTick s fun t => cohortState t c = 0 ∧ t.mld.seqs = [q]
      ∧ t.fld (.circCohort c) F.circCohort_ROWS = 0 ∧ RegsKept [.circCohort c] s t ∧ StoresKept s t ∧ DiesKept s t := by
  have hmoment : cohortMoment s c = writeRows s c := by
    rw [cohortMoment_eq, rowsGiven_queued hseqs hcohort hq hadmit hring, admitRows_no_home hseqs hcohort hun hk hmax hbal hhome]
  have hrows : rowsOf s c = 0 := rowsOf_queued hseqs hcohort
  have hw := onlyCohort_writeRows s c
  refine ⟨_, congrArg Host.Outcome.next ((admitFree_only hready honly (hmoment ▸ hw.regs)).trans hmoment), ?_, hw.mld ▸ hseqs, ?_, hw.regs,
    hw.stores, hw.dies⟩
  · rw [cohortState_writeRows_free ((honly c).mpr rfl), hrows, if_pos rfl]
  · rw [fld_writeRows s c (by rw [hrows]; decide), hrows]

end

/-- Settles O50: a draw by the three outcomes of its row, and a tick by the one cohort it looks at. -/
theorem samplingAndAdmission : Obligations.SamplingAndAdmission := by
  intro s c rows q
  refine ⟨sampleComplete_other, sampleComplete_missing, ?_, ?_, ?_, ?_⟩
  · intro h5 hmine hseq logits bad hrows
    subst hrows
    refine ⟨fun hlag hlog => ⟨?_, ?_⟩, sampleComplete_lags h5 hmine logits bad⟩
    · rintro tok rfl hg hsel
      exact sampleComplete_draws h5 hmine logits hlag hlog hg hsel
    · rintro rfl
      exact sampleComplete_poisoned h5 hmine logits hseq hlag hlog
  · intro hready
    exact congrArg Host.Outcome.next (if_neg (by simp [hready]))
  · intro hready hnone
    exact congrArg Host.Outcome.next ((admitFree_ready hready).trans (foldl_lookAt_idle fun e _ hfree => hnone e hfree.1))
  · intro k hready honly hadmit hring hseqs hq hcohort hun hk hpos hmax hbal
    exact ⟨fun n => admissionTick_admits hready honly hadmit hring hseqs hq hcohort hun hk hmax hbal hpos,
      admissionTick_no_home hready honly hadmit hring hseqs hq hcohort hun hk hmax hbal⟩

end Sys2Proof.Machine
end

section
namespace Sys2Proof.Machine

/-! ### A step that ends while a West run retires (R446, R452, R460, R662)

In update mode the cohorts of layer 0's West run enter WAIT_E, where parked sequences leave (R481). A page of theirs is read
through the protection of its stack; an uncorrectable word can retire the stack, and that ends the step of the update. -/

theorem wave_readAt_of_firstWord {s : State} {a n k : Nat} (hplace : placeOf a = .hbm k) (hn : 0 < n)
    (hfirst : (readHbmWord s k (a / 32 * 32)).circ.wave = 0) : (readAt s a n).circ.wave = 0 := by
  obtain ⟨m, hm⟩ : ∃ m, (a % 32 + n + 31) / 32 = m + 1 := ⟨(a % 32 + n + 31) / 32 - 1, by omega⟩
  simp only [readAt, hplace, hm, List.range_succ_eq_map, List.foldl_cons, Nat.mul_zero, Nat.add_zero]
  exact (Serves.foldl (fun t i => serves_readHbmWord t _ _) _ _).wave hfirst

theorem wave_copyPages_cons {s : State} {a b : Nat} (h : (readAt s a 2097152).circ.wave = 0) (l : List (Nat × Nat)) :
    (copyPages s ((a, b) :: l)).1.circ.wave = 0 := by
  simp only [copyPages]
  split
  · exact (serves_copyPages _ l).wave h
  · exact h

/-- A sequence of one page, parked in a free slot. -/
theorem wave_parkSeq_onePage {s : State} {q : Seq} {p k : Nat} {ks : List Nat} (hpages : q.pages = [p]) (hslots : freeSlots s = k :: ks)
    (h : (readAt s (pageAddr q.stack p) 2097152).circ.wave = 0) : (parkSeq s q).circ.wave = 0 := by
  have hcopied := wave_copyPages_cons (b := parkAddr s k) h []
  simp only [parkSeq, hpages, hslots, List.length_singleton, List.take_succ_cons, List.take_zero, lt_self_iff_false, if_false,
    List.zip_cons_cons, List.zip_nil_left, List.map_cons, List.map_nil]
  split
  · exact ((serves_setSeq _ _ _).trans (serves_sendSeqEnd _ _ _ _)).wave hcopied
  · exact ((serves_sendSeqEnd _ _ _ _).trans (serves_setSeq _ _ _)).wave hcopied

theorem applyRequests_parks {s : State} {c : Fin 8} {q : Seq} (hq : s.mld.seqs.filter (fun q => q.cohort = some c) = [q])
    (hst : q.st = .decode) (hcancel : q.cancelReq = false) (hpark : q.parkReq = true) : applyRequests s c = parkSeq s q := by
  simp [applyRequests, hq, hst, hcancel, hpark]

theorem wave_enterWait {s : State} {c : Fin 8} (h : (applyRequests (setCohort s c 1) c).circ.wave = 0) : (enterWait s c).circ.wave = 0 := by
  rw [enterWait, cohortMoment_eq]
  exact (onlyCohort_writeRows _ c).wave.trans ((serves_rowsGiven_of_applied _ c).wave h)

/-- The West run of layer 0 retires in update mode: its cohort goes round again. -/
theorem layerRetire_goesRound {s : State} {r : LayerRun} {c : Fin 8} (hruns : (s.stream 1).runs = [r]) (hdone : runDone s 1 r = true)
    (hmode : updateMode s = true) (hlayer : r.layer = 0) (hcohorts : r.cohorts = [c]) (hc : cohortState s c = 4) :
    layerRetire 1 s = enterWait (s.setStream 1 { s.stream 1 with runs := [] }) c := by
  have hmode' : updateMode (s.setStream 1 { s.stream 1 with runs := [] }) = true := hmode
  have hc' : cohortState (s.setStream 1 { s.stream 1 with runs := [] }) c = 4 := hc
  simp [layerRetire, hruns, hdone, hmode', hlayer, leaveStream, hcohorts, hc']

/-! #### The state -/

/-- A decoding sequence of cohort 0 with one page, page 0 of stack 0, that is to be parked. -/
def parking : Seq :=
  { id := 1, st := .decode, head := [], toks := [], base := 0, cohort := some 0, rows := 1, done := 0, stack := 0, pages := [0], park := []
    committed := 0, gstate := 0, parkReq := true, unparking := false, cancelReq := false, ended := false }

/-- In update mode, the last run of the backward wave has been used. Cohort 0 was on its pass list, and the first word of
its sequence's page holds two symbol errors; one such event retires stack 0. -/
def wornPage : State :=
  let s := (((State.reset.setReg .circRingConf (BitVec.ofNat 64 (2 ^ 30 + 1))).setFld (.circCohort 0) F.circCohort_STATE 4).setReg
    (.hbmRetireCtrl 0) (BitVec.ofNat 64 (2 ^ 8 + 1))).setFld (stackStatus 0) F.hbmStackStatus_STATE 2
  let s := s.setReg .lpdPark (BitVec.ofNat 64 (2 ^ 19 * 2 ^ 36 + 2 * 2 ^ 17))
  let s := s.setStream 1 { s.stream 1 with runs := [⟨1, 0, [0], true⟩] }
  { s with circ := { s.circ with wave := 3 }, mld := { s.mld with seqs := [parking] }, latent := [(0, ⟨[(0, 1), (1, 1)], 0⟩)] }

/-- That state as cohort 0 enters WAIT_E. -/
def wornEntering : State := setCohort (wornPage.setStream 1 { wornPage.stream 1 with runs := [] }) 0 1

/-- The uncorrectable word retires stack 0 and so ends the step. -/
theorem wave_wornEntering_firstWord : (readHbmWord wornEntering 0 0).circ.wave = 0 := by decide +kernel

theorem wave_applyRequests_wornEntering : (applyRequests wornEntering 0).circ.wave = 0 := by
  rw [applyRequests_parks (q := parking) (by decide +kernel) rfl rfl rfl]
  have hpage : pageAddr parking.stack 0 = 0 := rfl
  refine wave_parkSeq_onePage (p := 0) (k := 0) (ks := []) rfl (by decide +kernel) ?_
  rw [hpage]
  exact wave_readAt_of_firstWord (k := 0) rfl (Nat.succ_pos _) wave_wornEntering_firstWord

theorem wave_layerRetire_wornPage : (layerRetire 1 wornPage).circ.wave = 0 := by
  rw [layerRetire_goesRound (r := ⟨1, 0, [0], true⟩) (c := 0) (by decide +kernel) (by decide +kernel) (by decide +kernel) rfl rfl (by decide +kernel)]
  refine wave_enterWait ?_
  rw [← wornEntering]
  exact wave_applyRequests_wornEntering

/-- Refutes O48: in update mode the West run of layer 0 retires, its cohort enters WAIT_E and a sequence of it is parked; the
read of its page meets an uncorrectable word, the stack retires and the step is over, so its wave does not stand. -/
theorem not_cohortsLayersAndEnable : ¬Obligations.CohortsLayersAndEnable := by
  rintro ⟨hretire, -⟩
  obtain ⟨-, hrun⟩ := hretire wornPage 1
  obtain ⟨-, -, -, -, hround⟩ := hrun ⟨1, 0, [0], true⟩ [] (by decide +kernel)
  obtain ⟨t, ht, -, hwave, -⟩ := hround (by decide +kernel) (by decide +kernel) rfl rfl
  have hnext : layerRetire 1 wornPage = t := Host.Outcome.next.inj ht
  rw [← hnext, wave_layerRetire_wornPage] at hwave
  exact absurd hwave (by decide +kernel)

end Sys2Proof.Machine
end

section
namespace Sys2Proof.Machine

/-! ### An owned block that failed, as the stream's counter is at its end (R37, R45, R344)

The block's resident frame counts on the counter of its stream. At 2^48 - 1 the counter saturates, and that is a fault of
its own (R344), raised behind the two of the block. -/

/-- A stored block of 32 zero bytes of layer 3, for die 0. -/
def zeroBlock : List Byte :=
  assemble { id := 500, layer := 3, die := 0, ndie := 1, grad := false, sealed_ := false, colgrp := 0, codec := 0, kind := 15, table := 0,
             ttag := 0, plainLen := 32, compLen := 32, stepTag := 0, bscale := 0, zeros := true, checked := true } (List.replicate 32 0)

/-- That block landing on die 0 from the East stream, its check failed. -/
def failedLanding : WinEntry :=
  { skip := false, id := 500, addr := windowAddr 0 4096, size := 96, gap := 0, use := 0, state := .landing, west := false, sseq := 5, layer := 3
    grad := false, sealed_ := false, plain := 0, failed := true, copy := false, left := 0, header := [], landing := zeroBlock, credits := []
    sent := 0, run := 1 }

/-- OWN 0 holds four blocks of the East stream from SSEQ 5, LPDDR5X is in service, the backing slot of the first holds a good
copy, and the East stream's counter of die 0 stands at 2^48 - 1. -/
def fullCounter : State :=
  let s := ((State.reset.setReg .circRingConf 1).setReg (.circOwn 0) (BitVec.ofNat 64 (2 ^ 63 + 5 * 2 ^ 24 + 4))).setReg .lpdBack
    (BitVec.ofNat 64 (2 ^ 19 * 2 ^ 36 + 16 * 2 ^ 17))
  let s := (s.setFld .circStreamLen F.circStreamLen_NB_E 100).setReg (ctrReg 0 8190) (BitVec.ofNat 64 (2 ^ 48 - 1))
  let s := (List.range 16).foldl (fun s k => s.setFld (chStatus k) F.lpdChStatus_STATE 2) s
  let s := s.setDie 0 { s.die 0 with window := [failedLanding] }
  s.pokeClean (backSlot s 0 0) zeroBlock

theorem copyGood_fullCounter :
    copyGood (fullCounter.poke failedLanding.addr (failedLanding.landing.map (fun b => (b, true)))) (backSlot fullCounter 0 0) = true := by
  decide +kernel

/-- BLOCK_CHECK, COPY_SUBSTITUTED and CTR_SAT. -/
theorem reports_blockResident_fullCounter : (blockResident 0 0 fullCounter).reports.map (·.src) = [.blockCheck, .copySubstituted, .ctrSat] := by
  decide +kernel

/-- Refutes O47: an owned block that failed becomes resident with its good backing copy; its stream's counter saturates, and a
third report stands behind the two that the statement names. -/
theorem not_blocksMove : ¬Obligations.BlocksMove := by
  intro h
  obtain ⟨-, -, -, -, -, hresident, -, -⟩ := h fullCounter 0
  obtain ⟨-, -, howned⟩ := hresident 0 0 failedLanding (by decide +kernel) rfl rfl
  obtain ⟨t, ht, -, hraises⟩ := howned 0 0 rfl rfl rfl (by decide +kernel) (by decide +kernel) rfl (by decide +kernel) (by decide +kernel)
    copyGood_fullCounter
  have hnext : blockResident 0 0 fullCounter = t := Host.Outcome.next.inj ht
  have hsources : t.reports.map (·.src) = [.blockCheck, .copySubstituted] := by
    rw [hraises]
    rfl
  rw [← hnext, reports_blockResident_fullCounter] at hsources
  cases hsources

end Sys2Proof.Machine
end

section
namespace Sys2Proof.Machine

/-! ### MMA.I8 (R113, R118, R120) -/

/-- A finite value that is the integer z, at exponent 0. -/
def Val.IsInt (v : Val) (z : Int) : Prop := ∃ neg m, v = .fin neg m 0 ∧ z = if neg then -(m : Int) else m

theorem Val.isInt_ofInt (z : Int) : (Val.ofInt z).IsInt z := by
  refine ⟨_, _, rfl, ?_⟩
  simp only [decide_eq_true_eq]
  split <;> omega

/-- The exact product of two integers is their product. -/
theorem Val.IsInt.mul {v w : Val} {y z : Int} (hv : v.IsInt y) (hw : w.IsInt z) : (v.mul w).IsInt (y * z) := by
  obtain ⟨a, m, rfl, rfl⟩ := hv
  obtain ⟨b, n, rfl, rfl⟩ := hw
  refine ⟨_, _, rfl, ?_⟩
  cases a <;> cases b <;> simp

theorem Val.IsInt.finite {v : Val} {z : Int} (h : v.IsInt z) : v ≠ .nan ∧ ∀ s, v ≠ .inf s := by
  obtain ⟨_, _, rfl, _⟩ := h
  exact ⟨nofun, nofun⟩

theorem Val.IsInt.exp {v : Val} {z : Int} (h : v.IsInt z) : v.exp = 0 := by
  obtain ⟨_, _, rfl, _⟩ := h
  rfl

theorem Val.IsInt.at_zero {v : Val} {z : Int} (h : v.IsInt z) : v.at_ 0 = z := by
  obtain ⟨_, _, rfl, rfl⟩ := h
  simp [Val.at_]

section
variable {ι : Type} {f : ι → Val} {g : ι → Int}

theorem foldl_min_exp_of_isInt {l : List ι} (h : ∀ i ∈ l, (f i).IsInt (g i)) : (l.map f).foldl (fun a v => min a v.exp) 0 = 0 := by
  induction l with
  | nil => rfl
  | cons i l ih =>
    rw [List.map_cons, List.foldl_cons, (h i List.mem_cons_self).exp, min_self]
    exact ih fun j hj => h j (List.mem_cons_of_mem _ hj)

theorem foldl_at_of_isInt {l : List ι} (h : ∀ i ∈ l, (f i).IsInt (g i)) (a : Int) :
    (l.map f).foldl (fun a v => a + v.at_ 0) a = a + (l.map g).sum := by
  induction l generalizing a with
  | nil => simp
  | cons i l ih =>
    rw [List.map_cons, List.foldl_cons, (h i List.mem_cons_self).at_zero, ih fun j hj => h j (List.mem_cons_of_mem _ hj),
      List.map_cons, List.sum_cons, add_assoc]

/-- The exact sum of integers is their sum (R119). -/
theorem isInt_sum {l : List ι} (h : ∀ i ∈ l, (f i).IsInt (g i)) : (Val.sum (l.map f)).IsInt (l.map g).sum := by
  have hnan : (l.map f).any (fun v => v == .nan) = false :=
    List.any_eq_false.mpr fun v hv => by
      obtain ⟨i, hi, rfl⟩ := List.mem_map.mp hv
      simpa using (h i hi).finite.1
  have hinf (s : Bool) : (l.map f).any (fun v => v == .inf s) = false :=
    List.any_eq_false.mpr fun v hv => by
      obtain ⟨i, hi, rfl⟩ := List.mem_map.mp hv
      simpa using (h i hi).finite.2 s
  simp only [Val.sum, hnan, hinf, foldl_min_exp_of_isInt h, foldl_at_of_isInt h, Bool.false_eq_true, if_false, Bool.and_self, zero_add]
  split
  · exact ⟨_, _, rfl, by simp [*]⟩
  · exact Val.isInt_ofInt _

end

theorem Val.IsInt.toInteger {v : Val} {z : Int} (h : v.IsInt z) : toInteger v = z := by
  obtain ⟨_, _, rfl, rfl⟩ := h
  simp [Machine.toInteger]

/-! #### The dot product of a lane -/

theorem groupResults_mmaI8 (fmt : Nat) (tile row : List Byte) (l : Nat) :
    groupResults .mmaI8 fmt tile row l
      = [Val.sum ((List.range 16).map fun i => (elem8 0 (nthByte tile (16 * l + i))).mul (elem8 (fmt % 2) (nthByte row i)))] := by
  have hcells : List.zipWith (cell .mmaI8) (laneElems .mmaI8 fmt tile l) (rowElems .mmaI8 fmt row)
      = (List.range 16).map fun i => (elem8 0 (nthByte tile (16 * l + i))).mul (elem8 (fmt % 2) (nthByte row i)) := by
    simp only [laneElems, rowElems, lane8, types8, List.zipWith_map, List.zipWith_self]
    rfl
  simp only [groupResults, hcells, groupCount, groupSize, List.range_one, List.map_cons, List.map_nil, Nat.zero_mul, List.drop_zero]
  rw [List.take_of_length_le (by simp)]
  rfl

theorem elem8_isInt_weight (b : Nat) : (elem8 0 b).IsInt (toSigned 8 b) := Val.isInt_ofInt _

theorem elem8_isInt_row {fmt : Nat} (h : fmt < 2) (b : Nat) :
    (elem8 (fmt % 2) b).IsInt (if fmt = 0 then toSigned 8 b else (b : Int)) := by
  obtain rfl | rfl : fmt = 0 ∨ fmt = 1 := by omega
  · exact Val.isInt_ofInt _
  · exact Val.isInt_ofInt _

/-- The one group of a lane row of MMA.I8 is the exact dot product. -/
theorem groupResults_mmaI8_isInt {fmt : Nat} (h : fmt < 2) (tile row : List Byte) (l : Nat) :
    ∃ v, groupResults .mmaI8 fmt tile row l = [v] ∧ v.IsInt (int8Dot fmt tile row l) :=
  ⟨_, groupResults_mmaI8 fmt tile row l, isInt_sum fun _ _ => (elem8_isInt_weight _).mul (elem8_isInt_row h _)⟩

/-! #### Slots held at the bounds of INT32 (R120) -/

theorem satInt32_fst (z : Int) : (satInt32 z).1 = max (-2147483648) (min 2147483647 z) := by
  unfold satInt32
  split
  · show (-2147483648 : Int) = _
    omega
  · split
    · show (2147483647 : Int) = _
      omega
    · show z = _
      omega

theorem satInt32_snd (z : Int) : (satInt32 z).2 = true ↔ z < -2147483648 ∨ 2147483647 < z := by
  unfold satInt32
  split
  · simp [*]
  · split <;> simp <;> omega

/-- A held sum fits the 32 bits of a slot. -/
theorem toInt_ofInt_satInt32 (z : Int) : (BitVec.ofInt 32 (satInt32 z).1).toInt = max (-2147483648) (min 2147483647 z) := by
  rw [satInt32_fst]
  exact BitVec.toInt_ofInt_eq_self (by decide) (by omega) (by omega)

/-- The slot of an integer dot product: the old slot, where it accumulates, and the group's value, held. -/
theorem laneResult_mmaI8 (fmt : Nat) (acc : Bool) (old : Half) {v : Val} {z : Int} (h : v.IsInt z) :
    laneResult .mmaI8 fmt acc old [v]
      = (BitVec.ofInt 32 (satInt32 ((if acc then old.toInt else 0) + z)).1, (satInt32 ((if acc then old.toInt else 0) + z)).2) := by
  cases acc with
  | false => simp [laneResult, EngOp.isInt, h.toInteger]
  | true => simp [laneResult, EngOp.isInt, combineInt, slotInt, h.toInteger]

/-- Settles O32: a lane row of MMA.I8 is one group, whose value is the exact dot product. -/
theorem int8DotProducts : Obligations.Int8DotProducts := by
  intro fmt acc old tile row l hfmt _
  obtain ⟨v, hgroups, hv⟩ := groupResults_mmaI8_isInt hfmt tile row l
  rw [hgroups, laneResult_mmaI8 fmt acc old hv]
  exact ⟨toInt_ofInt_satInt32 _, satInt32_snd _⟩

end Sys2Proof.Machine
end

section
/-! ### Clearing counters (R145, R149, R189, R244, R298, R384, R467, R502, R540, R574) -/

open Sys2Proof Sys2Proof.Machine

namespace Cleared

variable {s t u : State} {c c' : Reg → Fld → Prop}

theorem fields (h : Cleared c s t) {r : Reg} {f : Fld} (hf : f ∈ r.fields) (ha : f.access ≠ .wo) :
    (c r f → t.fld r f = 0) ∧ (¬c r f → t.fld r f = s.fld r f) := h.1 r f hf ha

/-- What is cleared first and what is cleared next are cleared in the end. -/
theorem trans (h : Cleared c s t) (h' : Cleared c' t u) : Cleared (fun r f => c r f ∨ c' r f) s u := by
  refine ⟨fun r f hf ha => ?_, ?_, ?_, ?_⟩
  · have first := h.fields hf ha
    have next := h'.fields hf ha
    by_cases hc' : c' r f
    · exact ⟨fun _ => next.1 hc', fun hn => absurd (.inr hc') hn⟩
    · rw [next.2 hc']
      exact ⟨fun hc => first.1 (hc.resolve_right hc'), fun hn => first.2 fun hc => hn (.inl hc)⟩
  · obtain ⟨-, hr, -⟩ := h
    obtain ⟨-, hr', -⟩ := h'
    simp only [Raises, List.map_nil, List.append_nil] at hr hr' ⊢
    exact hr'.trans hr
  · obtain ⟨-, -, ⟨h1, h2, h3, h4⟩, -⟩ := h
    obtain ⟨-, -, ⟨h1', h2', h3', h4'⟩, -⟩ := h'
    exact ⟨h1'.trans h1, h2'.trans h2, h3'.trans h3, h4'.trans h4⟩
  · obtain ⟨-, -, -, h1, h2, h3, h4⟩ := h
    obtain ⟨-, -, -, h1', h2', h3', h4'⟩ := h'
    exact ⟨h1'.trans h1, h2'.trans h2, h3'.trans h3, h4'.trans h4⟩

theorem congr (h : Cleared c s t) (hc : ∀ r f, c r f ↔ c' r f) : Cleared c' s t := by
  have : c = c' := funext fun r => funext fun f => propext (hc r f)
  exact this ▸ h

/-- A change of one register alone clears what it makes 0 of its fields, and keeps the others. -/
theorem setReg_of {r : Reg} {w : Word} {p : Fld → Prop} (h0 : ∀ f ∈ r.fields, f.access ≠ .wo → p f → bitsOf w f.hi f.lo = 0)
    (hk : ∀ f ∈ r.fields, f.access ≠ .wo → ¬p f → bitsOf w f.hi f.lo = s.fld r f) : Cleared (fun k f => k = r ∧ p f) s (s.setReg r w) := by
  refine ⟨fun k f hf ha => ?_, by simp [Raises], ⟨rfl, rfl, rfl, rfl⟩, ⟨rfl, rfl, rfl, rfl⟩⟩
  by_cases hkr : k = r
  · subst hkr
    rw [State.fld, State.reg_setReg_same]
    exact ⟨fun h => h0 f hf ha h.2, fun h => hk f hf ha fun hp => h ⟨rfl, hp⟩⟩
  · exact ⟨fun h => absurd h.1 hkr, fun _ => State.fld_setReg_ne s w f hkr⟩

theorem bitsOf_zero (hi lo : Nat) : bitsOf 0 hi lo = 0 := by simp [bitsOf]

theorem setReg_zero (s : State) (r : Reg) : Cleared (fun k _ => k = r) s (s.setReg r 0) :=
  (setReg_of (p := fun _ => True) (fun f _ _ _ => bitsOf_zero f.hi f.lo) fun _ _ _ h => absurd trivial h).congr (by simp)

theorem setFld_zero (s : State) {r : Reg} {f : Fld} (hf : f ∈ r.fields) :
    Cleared (fun k g => k = r ∧ g = f) s (s.setFld r f 0) := by
  refine setReg_of (fun g _ _ hg => ?_) fun g hg _ hne => bitsOf_putBits_apart _ _ _ _ _ _ (Reg.fields_apart hf hg (Ne.symm hne))
  rw [hg, bitsOf_putBits_same _ _ _ _ (Reg.field_fit hf), Nat.zero_mod]

theorem foldl {α : Type} {step : State → α → State} {p : α → Reg → Fld → Prop} (h : ∀ s a, Cleared (p a) s (step s a)) (l : List α)
    (s : State) : Cleared (fun r f => ∃ a ∈ l, p a r f) s (l.foldl step s) := by
  induction l generalizing s with
  | nil => exact ⟨fun _ _ _ _ => ⟨by simp, fun _ => rfl⟩, by simp [Raises], ⟨rfl, rfl, rfl, rfl⟩, ⟨rfl, rfl, rfl, rfl⟩⟩
  | cons a l ih => exact ((h s a).trans (ih (step s a))).congr (by simp)

/-- A register that takes the word it holds, after what was cleared elsewhere, adds nothing. -/
theorem then_store {r : Reg} (h : Cleared c s t) {v : Word} (hv : ∀ f ∈ r.fields, f.access ≠ .wo → bitsOf v f.hi f.lo = s.fld r f)
    (hc : ∀ f ∈ r.fields, f.access ≠ .wo → ¬c r f) : Cleared c s (store t r v) := by
  have hstore : Cleared (fun k _ => k = r ∧ False) t (Machine.store t r v) := setReg_of (fun _ _ _ hp => hp.elim) fun f hf ha _ => by
    rw [bitsOf_and_not_woMask hf, if_neg ha, hv f hf ha, (h.fields hf ha).2 (hc f hf ha)]
  exact (h.trans hstore).congr (by simp)

theorem refl (s : State) : Cleared (fun _ _ => False) s s :=
  ⟨fun _ _ _ _ => ⟨False.elim, fun _ => rfl⟩, by simp [Raises], ⟨rfl, rfl, rfl, rfl⟩, ⟨rfl, rfl, rfl, rfl⟩⟩

end Cleared
end

section
namespace Sys2Proof.Machine

/-! #### The write of 1 to CLR_COUNTS -/

/-- The CLR_COUNTS field, the same in every CTRL register that has one. -/
def clearFld : Fld := ⟨1, 1, .p, .basic, .wo⟩

/-- A word that asks a CTRL register to clear its counters, and for nothing else. -/
structure ClearWord (s : State) (r : Reg) (v : Word) : Prop where
  clear : bitsOf v 1 1 = 1
  kept : ∀ f ∈ r.fields, f.access ≠ .wo → bitsOf v f.hi f.lo = s.fld r f
  zero : ∀ f ∈ r.fields, f ≠ clearFld → f.access = .wo → bitsOf v f.hi f.lo = 0

section
variable {s : State} {r : Reg} (hmem : clearFld ∈ r.fields)
include hmem

theorem clearWord_fieldWritten (hbase : writeBase s r = s.reg r) : ClearWord s r (fieldWritten s r clearFld 1) where
  clear := (bitsOf_writtenWord_wo hmem s _ rfl).trans (bitsOf_putBits_same _ _ _ _ (by decide))
  kept f hf ha := by
    rw [bitsOf_fieldWritten_kept s 1 hmem hf (fun h => ha (by rw [h]; rfl)) ha, hbase]
    rfl
  zero f hf hne ha := by
    rw [fieldWritten, bitsOf_writtenWord_wo hf s _ ha, bitsOf_fieldWord_other s 1 hmem hf hne, if_neg (by rw [ha]; decide)]

theorem writesExpert_clearFld : writesExpert s r (fieldWord s r clearFld 1) = false := by
  refine writesExpert_eq_false fun f hf hl => ?_
  have hne : f ≠ clearFld := fun h => by rw [h] at hl; cases hl
  split
  · rw [bitsOf_writtenWord_wo hf s _ ‹_›, bitsOf_fieldWord_other s 1 hmem hf hne, if_neg (by simp [*])]
  · exact bitsOf_fieldWritten_kept s 1 hmem hf hne ‹_›

end

/-- CLR_COUNTS of a CTRL register clears what the register's own rule clears; its EXPERT_UNLOCK stays, so nothing is recorded. -/
theorem clearCounts_runs {i : Instr} {s : State} {r : Reg} {c : Reg → Fld → Prop} (hi : exec i s = .next (clearCounts s r)) (h : WriteReady s r)
    (hfields : clearFld ∈ r.fields ∧ unlockFld ∈ r.fields) (hbase : writeBase s r = s.reg r) (hc : ¬c r unlockFld)
    (hown : ∀ v, ClearWord s r v → ∃ t, ownWrite s r v = some t ∧ Cleared c s t) : Runs i s (Cleared c s) := by
  obtain ⟨hmem, hlock⟩ := hfields
  obtain ⟨t, ht, hclear⟩ := hown _ (clearWord_fieldWritten hmem hbase)
  have hwrite : clearCounts s r = unlockRecord t .mgmt r (unlockedFor s r) :=
    (privWrite_ready h _).trans (writeReg_done h.2.2 (fun _ => writesExpert_clearFld hmem) ht)
  have hkept : bitsOf (t.reg r) 0 0 = bitsOf (s.reg r) 0 0 := (hclear.fields hlock (by decide)).2 hc
  have hrecord : unlockRecord t .mgmt r (unlockedFor s r) = t := by
    refine if_neg fun ⟨hr, hlocked, hset⟩ => ?_
    simp only [unlockedFor, hr, ← hkept, hset] at hlocked
    cases hlocked
  exact ⟨t, by rw [hi, hwrite, hrecord], hclear⟩

/-! #### The blocks -/

theorem clearFld_mem (d : Die) : ∀ r ∈ ([.engCtrl d, .scvCtrl d, .fdxCtrl d, .dmaCtrl d, .wstCtrl d, .astCtrl d, .pstCtrl d, .syncCtrl d,
    .hbmCtrl d, .lpdCtrl, .mldCtrl, .fcuCtrl, .ptcCtrl] : List Reg), clearFld ∈ r.fields ∧ unlockFld ∈ r.fields := by
  decide +revert

section
variable {s : State} {v : Word} (d : Die)

theorem ownWrite_engCtrl_clear (hv : ClearWord s (.engCtrl d) v) : ∃ t, ownWrite s (.engCtrl d) v = some t ∧
    Cleared (fun r _ => ∃ q, r = .engFreezeDry d q ∨ r = .engFreezeTile d q ∨ r = .engFreezeDrain d q ∨ r = .engRetired d q) s t := by
  refine ⟨_, rfl, ?_⟩
  rw [writeEngCtrl, if_pos hv.clear]
  refine Cleared.then_store (Cleared.congr (Cleared.foldl (fun s q => ((((Cleared.setReg_zero s _).trans (Cleared.setReg_zero _ _)).trans
    (Cleared.setReg_zero _ _)).trans (Cleared.setReg_zero _ _))) (List.finRange 32) s) fun r f => ?_) hv.kept (by simp)
  simp [or_assoc]

theorem ownWrite_scvCtrl_clear (hv : ClearWord s (.scvCtrl d) v) : ∃ t, ownWrite s (.scvCtrl d) v = some t ∧
    Cleared (fun r f => (∃ q, r = .scvIssueStall d q)
      ∨ (r = .scvStepStatus d ∧ (f = F.scvStepStatus_LATE ∨ f = F.scvStepStatus_MISUSE))) s t := by
  refine ⟨_, rfl, ?_⟩
  rw [writeScvCtrl, if_pos hv.clear]
  refine Cleared.then_store (Cleared.congr (((Cleared.foldl (fun s q => Cleared.setReg_zero s _) (List.finRange 32) s).trans
    (Cleared.setFld_zero _ (by simp [Reg.fields]))).trans (Cleared.setFld_zero _ (by simp [Reg.fields]))) fun r f => ?_) hv.kept (by simp)
  simp [or_assoc, and_or_left]

theorem ownWrite_fdxCtrl_clear (hv : ClearWord s (.fdxCtrl d) v) : ∃ t, ownWrite s (.fdxCtrl d) v = some t ∧
    Cleared (fun r _ => (∃ q, r = .fdxPortHold d q ∨ r = .fdxFeedStall d q ∨ r = .fdxExpBlocks d q ∨ r = .fdxExpBehind d q)
      ∨ r = .fdxLowratio d ∨ r = .fdxMcastWait d) s t := by
  refine ⟨_, rfl, ?_⟩
  rw [writeFdxCtrl, if_pos hv.clear]
  refine Cleared.then_store (Cleared.congr (((Cleared.foldl (fun s q => ((((Cleared.setReg_zero s _).trans (Cleared.setReg_zero _ _)).trans
    (Cleared.setReg_zero _ _)).trans (Cleared.setReg_zero _ _))) (List.finRange 32) s).trans (Cleared.setReg_zero _ _)).trans
    (Cleared.setReg_zero _ _)) fun r f => ?_) hv.kept (by simp)
  simp [or_assoc]

theorem ownWrite_dmaCtrl_clear (hv : ClearWord s (.dmaCtrl d) v) : ∃ t, ownWrite s (.dmaCtrl d) v = some t ∧
    Cleared (fun r f => (∃ c, r = .dmaDoneCount d c) ∨ (r = .dmaTxnStatus d ∧ f = F.dmaTxnStatus_WAITS)) s t := by
  refine ⟨_, rfl, ?_⟩
  rw [writeDmaCtrl, if_pos hv.clear]
  refine Cleared.then_store (Cleared.congr ((Cleared.foldl (fun s c => Cleared.setReg_zero s _) (List.finRange 8) s).trans
    (Cleared.setFld_zero _ (by simp [Reg.fields]))) fun r f => ?_) hv.kept (by simp)
  simp

/-- The CTRL register of a store block. -/
def storeCtrl (d : Die) : Store → Reg
  | .wst => .wstCtrl d | .ast => .astCtrl d | .pst => .pstCtrl d

/-- CTRL of a store block takes the word and then clears the counters of its store. -/
theorem writeStoreBlockCtrl_clear (st : Store) (h1 : bitsOf v 1 1 = 1) (h2 : st = .wst → bitsOf v 2 2 = 0) :
    writeStoreBlockCtrl s d st v = some (clearStoreCounts d st (store s (storeCtrl d st) v)) := by
  have hclear : ¬(st = .wst ∧ bitsOf v 2 2 = 1) := fun ⟨hst, h⟩ => by rw [h2 hst] at h; cases h
  simp only [writeStoreBlockCtrl, hclear, false_and, if_false, h1, if_true]
  cases st <;> rfl

theorem ownWrite_wstCtrl_clear (hv : ClearWord s (.wstCtrl d) v) : ∃ t, ownWrite s (.wstCtrl d) v = some t ∧
    Cleared (fun r f => r = .wstErrCount d ∨ r = .wstErrAddr d ∨ r = .wstNarrowStall d
      ∨ (r = .wstBistStatus d ∧ f = F.wstBistStatus_OVERRUNS)) s t := by
  refine ⟨_, writeStoreBlockCtrl_clear d .wst hv.clear
    (fun _ => hv.zero F.wstCtrl_CLEAR (by simp [Reg.fields]) (by decide) rfl), ?_⟩
  refine ((((((Cleared.refl s).then_store hv.kept (by simp)).trans (Cleared.setReg_zero _ _)).trans (Cleared.setReg_zero _ _)).trans
    (Cleared.setReg_zero _ _)).trans (Cleared.setFld_zero _ (by simp [Reg.fields]))).congr fun r f => ?_
  simp [or_assoc, errCountReg, errAddrReg]

theorem ownWrite_astCtrl_clear (hv : ClearWord s (.astCtrl d) v) : ∃ t, ownWrite s (.astCtrl d) v = some t ∧
    Cleared (fun r _ => r = .astErrCount d ∨ r = .astErrAddr d) s t := by
  refine ⟨_, writeStoreBlockCtrl_clear d .ast hv.clear nofun, ?_⟩
  refine ((((Cleared.refl s).then_store hv.kept (by simp)).trans (Cleared.setReg_zero _ _)).trans (Cleared.setReg_zero _ _)).congr fun r f => ?_
  simp [errCountReg, errAddrReg]

theorem ownWrite_pstCtrl_clear (hv : ClearWord s (.pstCtrl d) v) : ∃ t, ownWrite s (.pstCtrl d) v = some t ∧
    Cleared (fun r _ => r = .pstErrCount d ∨ r = .pstErrAddr d) s t := by
  refine ⟨_, writeStoreBlockCtrl_clear d .pst hv.clear nofun, ?_⟩
  refine ((((Cleared.refl s).then_store hv.kept (by simp)).trans (Cleared.setReg_zero _ _)).trans (Cleared.setReg_zero _ _)).congr fun r f => ?_
  simp [errCountReg, errAddrReg]

theorem ownWrite_syncCtrl_clear (hv : ClearWord s (.syncCtrl d) v) : ∃ t, ownWrite s (.syncCtrl d) v = some t ∧
    Cleared (fun r f => r = .syncStatus d ∧ (f = F.syncStatus_MISUSE ∨ f = F.syncStatus_UNDER)) s t := by
  have h2 : bitsOf v 2 2 = 0 := hv.zero F.syncCtrl_CLEAR (by simp [Reg.fields]) (by decide) rfl
  refine ⟨_, show writeSyncCtrl s d v = _ by simp only [writeSyncCtrl, h2, hv.clear]; rfl, ?_⟩
  refine ((((Cleared.refl s).then_store hv.kept (by simp)).trans (Cleared.setFld_zero _ (by simp [Reg.fields]))).trans
    (Cleared.setFld_zero _ (by simp [Reg.fields]))).congr fun r f => ?_
  simp [and_or_left]

theorem ownWrite_hbmCtrl_clear (hv : ClearWord s (.hbmCtrl d) v) : ∃ t, ownWrite s (.hbmCtrl d) v = some t ∧
    Cleared (fun r _ => ∃ i, r = .hbmStackErr d i) s t := by
  refine ⟨_, rfl, ?_⟩
  rw [writeHbmCtrl, if_pos hv.clear]
  exact Cleared.then_store ((Cleared.foldl (fun s i => Cleared.setReg_zero s _) (List.finRange 4) s).congr (by simp)) hv.kept (by simp)

/-- The counters of an LPDDR5X channel stand in bits 47:0 of its status. -/
theorem cleared_lpdChStatus (s : State) (k : Fin 16) : Cleared (fun r f => r = .lpdChStatus k ∧ f.hi < 48) s
    (s.setReg (.lpdChStatus k) (putBits (s.reg (.lpdChStatus k)) 47 0 0)) := by
  refine Cleared.setReg_of (fun f _ _ hf => ?_) fun f hf _ hhi => ?_
  · apply Nat.eq_of_testBit_eq
    intro i
    rw [testBit_bitsOf, getLsbD_putBits]
    by_cases hi : i < f.hi + 1 - f.lo
    · rw [if_pos (by omega)]
      simp
    · simp [hi]
  · have : f = F.lpdChStatus_STATE := by
      simp only [Reg.fields, List.mem_cons, List.not_mem_nil, or_false] at hf
      rcases hf with rfl | rfl | rfl | rfl
      · rfl
      all_goals exact absurd (by decide) hhi
    rw [this]
    exact bitsOf_putBits_apart _ _ _ _ _ _ (by decide)

theorem ownWrite_lpdCtrl_clear (hv : ClearWord s .lpdCtrl v) : ∃ t, ownWrite s .lpdCtrl v = some t ∧
    Cleared (fun r f => ∃ k, r = .lpdChStatus k ∧ f.hi < 48) s t := by
  refine ⟨_, rfl, ?_⟩
  rw [writeLpdCtrl, if_pos hv.clear]
  exact Cleared.then_store ((Cleared.foldl cleared_lpdChStatus (List.finRange 16) s).congr (by simp)) hv.kept (by simp)

theorem ownWrite_mldCtrl_clear (hv : ClearWord s .mldCtrl v) : ∃ t, ownWrite s .mldCtrl v = some t ∧
    Cleared (fun r f => r = .mldSvcCounts ∨ (r = .mldLinkStatus ∧ (f = F.mldLinkStatus_RETRIES ∨ f = F.mldLinkStatus_STALE))) s t := by
  refine ⟨_, rfl, ?_⟩
  rw [writeMldCtrl, if_pos hv.clear]
  refine Cleared.then_store (Cleared.congr (((Cleared.setReg_zero s _).trans (Cleared.setFld_zero _ (by simp [Reg.fields]))).trans
    (Cleared.setFld_zero _ (by simp [Reg.fields]))) fun r f => ?_) hv.kept (by simp)
  simp [or_assoc, and_or_left]

theorem ownWrite_ptcCtrl_clear (hv : ClearWord s .ptcCtrl v) : ∃ t, ownWrite s .ptcCtrl v = some t ∧
    Cleared (fun r f => (r = .ptcCap ∧ f = F.ptcCap_EVENTS) ∨ (r = .ptcInput ∧ f = F.ptcInput_PEAK_W)
      ∨ (r = .ptcCalStatus ∧ (f = F.ptcCalStatus_RATE_MISS ∨ f = F.ptcCalStatus_FLOOR_MISS))) s t := by
  refine ⟨_, rfl, ?_⟩
  rw [writePtcCtrl, if_pos hv.clear]
  refine Cleared.then_store (Cleared.congr ((((Cleared.setFld_zero s (by simp [Reg.fields])).trans
    (Cleared.setFld_zero _ (by simp [Reg.fields]))).trans (Cleared.setFld_zero _ (by simp [Reg.fields]))).trans
    (Cleared.setFld_zero _ (by simp [Reg.fields]))) fun r f => ?_) hv.kept (by simp)
  simp [or_assoc, and_or_left]

/-- A field that is put with the value it has stays as it is, and so does every other. -/
theorem cleared_setFld_own {t : State} {r : Reg} {f : Fld} (hf : f ∈ r.fields) {x : Nat} (hx : x = t.fld r f) :
    Cleared (fun _ _ => False) t (t.setFld r f x) := by
  refine (Cleared.setReg_of (r := r) (p := fun _ => False) (fun _ _ _ hp => hp.elim) fun g hg _ _ => ?_).congr (by simp)
  by_cases hgf : g = f
  · rw [hgf, bitsOf_putBits_same _ _ _ _ (Reg.field_fit hf), hx, State.fld, bitsOf_mod]
  · exact bitsOf_putBits_apart _ _ _ _ _ _ (Reg.fields_apart hf hg (Ne.symm hgf))

theorem Source.mem_all (k : Source) : k ∈ Source.all := by cases k <;> decide

/-- FCU.CTRL keeps its hold and its lock, and clears the counts of every source and the count of lost records (R540). -/
theorem ownWrite_fcuCtrl_clear (hv : ClearWord s .fcuCtrl v) (hhold : 100 ≤ s.fld .fcuCtrl F.fcuCtrl_RESET_HOLD_US) :
    ∃ t, ownWrite s .fcuCtrl v = some t ∧
      Cleared (fun r f => (∃ k, r = .fcuCount k ∧ f = F.fcuCount_COUNT) ∨ (r = .fcuStatus ∧ f = F.fcuStatus_LOST)) s t := by
  have h2 : bitsOf v 2 2 = 0 := hv.zero F.fcuCtrl_RESUME (by simp [Reg.fields]) (by decide) rfl
  have hh : bitsOf v 47 32 = s.fld .fcuCtrl F.fcuCtrl_RESET_HOLD_US := hv.kept F.fcuCtrl_RESET_HOLD_US (by simp [Reg.fields]) (by decide)
  have hl : bitsOf v 0 0 = s.fld .fcuCtrl F.fcuCtrl_EXPERT_UNLOCK := hv.kept F.fcuCtrl_EXPERT_UNLOCK (by simp [Reg.fields]) (by decide)
  have hcleared : Cleared (fun r f => (∃ k, r = .fcuCount k ∧ f = F.fcuCount_COUNT) ∨ (r = .fcuStatus ∧ f = F.fcuStatus_LOST)) s
      (Source.all.foldl (fun s k => s.setFld (.fcuCount k) F.fcuCount_COUNT 0)
        ((s.setFld .fcuCtrl F.fcuCtrl_RESET_HOLD_US (bitsOf v 47 32)).setFld .fcuStatus F.fcuStatus_LOST 0)) := by
    refine Cleared.congr (((cleared_setFld_own (by simp [Reg.fields]) hh).trans (Cleared.setFld_zero _ (by simp [Reg.fields]))).trans
      (Cleared.foldl (fun s k => Cleared.setFld_zero s (by simp [Reg.fields])) Source.all _)) fun r f => ?_
    simp only [Source.mem_all, true_and, false_or]
    exact or_comm
  refine ⟨_, show (writeFcuCtrl s (bitsOf v 47 32) (bitsOf v 2 2 == 1) (bitsOf v 1 1 == 1)).map _ = _ by
    simp only [writeFcuCtrl, h2, hv.clear, hh, Nat.not_lt.mpr hhold]; rfl, ?_⟩
  rw [← hh]
  refine (hcleared.trans (cleared_setFld_own (by simp [Reg.fields]) ?_)).congr (by simp)
  rw [hl]
  exact ((hcleared.fields (by simp [Reg.fields]) (by decide)).2 (by simp)).symm

end

/-- Settles O45: each CLR_COUNTS is a write that reaches its CTRL register's own rule, which clears the counters one by one. -/
theorem countersAreCleared : Obligations.CountersAreCleared := by
  intro s d
  refine ⟨fun h => ?_, fun h => ?_, fun h => ?_, fun h => ?_, fun h => ?_, fun h => ?_, fun h => ?_, fun h => ?_, fun h => ?_, fun h => ?_,
    fun h => ?_, fun h hhold => ?_, fun h => ?_⟩
  · exact clearCounts_runs rfl h (clearFld_mem d _ (by simp)) rfl (by simp) fun v => ownWrite_engCtrl_clear d
  · exact clearCounts_runs rfl h (clearFld_mem d _ (by simp)) rfl (by simp) fun v => ownWrite_scvCtrl_clear d
  · exact clearCounts_runs rfl h (clearFld_mem d _ (by simp)) rfl (by simp) fun v => ownWrite_fdxCtrl_clear d
  · exact clearCounts_runs rfl h (clearFld_mem d _ (by simp)) rfl (by simp) fun v => ownWrite_dmaCtrl_clear d
  · exact clearCounts_runs rfl h (clearFld_mem d _ (by simp)) rfl (by simp) fun v => ownWrite_wstCtrl_clear d
  · exact clearCounts_runs rfl h (clearFld_mem d _ (by simp)) rfl (by simp) fun v => ownWrite_astCtrl_clear d
  · exact clearCounts_runs rfl h (clearFld_mem d _ (by simp)) rfl (by simp) fun v => ownWrite_pstCtrl_clear d
  · exact clearCounts_runs rfl h (clearFld_mem d _ (by simp)) rfl (by simp) fun v => ownWrite_syncCtrl_clear d
  · exact clearCounts_runs rfl h (clearFld_mem d _ (by simp)) rfl (by simp) fun v => ownWrite_hbmCtrl_clear d
  · exact clearCounts_runs rfl h (clearFld_mem d _ (by simp)) rfl (by simp) fun v => ownWrite_lpdCtrl_clear
  · exact clearCounts_runs rfl h (clearFld_mem d _ (by simp)) rfl (by simp) fun v => ownWrite_mldCtrl_clear
  · exact clearCounts_runs rfl h (clearFld_mem d _ (by simp)) rfl (by simp) fun v hv => ownWrite_fcuCtrl_clear hv hhold
  · exact clearCounts_runs rfl h (clearFld_mem d _ (by simp)) rfl (by simp) fun v => ownWrite_ptcCtrl_clear

end Sys2Proof.Machine
end

section
/-! ### A place that is written twice -/

namespace Sys2Proof.Machine

theorem Assoc.put_put_same {κ α : Type} [DecidableEq κ] (t : Assoc κ α) (k : κ) (v w : α) : put k w (put k v t) = put k w t := by
  induction t with
  | nil => simp [put]
  | cons p t ih =>
    obtain ⟨j, u⟩ := p
    by_cases h : k = j
    · simp [put, h]
    · simp [put, h, ih]

@[simp] theorem State.setCtx_setCtx (s : State) (d : Die) (q : CoreId) (x : SlotId) (b c : Ctx) :
    (s.setCtx d q x b).setCtx d q x c = s.setCtx d q x c := by simp [State.setCtx, Assoc.put_put_same]

@[simp] theorem State.setCore_setCore (s : State) (d : Die) (q : CoreId) (b c : Core) :
    (s.setCore d q b).setCore d q c = s.setCore d q c := by simp [State.setCore, Assoc.put_put_same]

@[simp] theorem State.setDie_setDie (s : State) (d : Die) (x y : DieSt) : (s.setDie d x).setDie d y = s.setDie d y := by
  simp [State.setDie, Assoc.put_put_same]

end Sys2Proof.Machine
end

section
namespace Sys2Proof.Machine

/-! ### Issue, completion and waits of scalar instructions (R308, R331, R332) -/

section
variable {s t : State} {d : Die} {q : CoreId} {x : SlotId} {srcs : List (Fin 32)}

/-- An instruction that issues takes effect for its slot, on the state as it is. -/
theorem withIssue_of_issues (h : Issues s d q x srcs) (k : SlotId → Ctx → State → State) :
    withIssue s d q srcs k = k x (s.ctx d q x) s := by
  obtain ⟨hissuing, ⟨a, htranslate, hread, hclean⟩, hloads⟩ := h
  have hfind : srcs.find? (fun r => loadPending s d q x r) = none := by
    simpa [List.find?_eq_none] using hloads
  simp only [withIssue, hissuing, htranslate, hread, hclean, hfind, Bool.false_eq_true, if_false]

theorem exec_of_issues {c : Instr} {k : SlotId → Ctx → State → State} (h : Issues s d q x srcs)
    (hc : exec c s = .next (withIssue s d q srcs k)) (hk : k x (s.ctx d q x) s = t) : exec c s = .next t := by
  rw [hc, withIssue_of_issues h, hk]

/-- An instruction that reads fewer registers issues too. -/
theorem issues_nil (h : Issues s d q x srcs) : Issues s d q x [] := ⟨h.1, h.2.1, by simp⟩

theorem otherCtxs_setCtx (s : State) (d : Die) (q : CoreId) (x : SlotId) (c : Ctx) : OtherCtxs d q x s (s.setCtx d q x c) :=
  fun _ _ _ hne => State.ctx_setCtx_ne s c hne

theorem onlyCtx_setCtx (s : State) (d : Die) (q : CoreId) (x : SlotId) (c : Ctx) : OnlyCtx d q x s (s.setCtx d q x c) :=
  ⟨rfl, otherCtxs_setCtx s d q x c⟩

/-- The context slot as an instruction that completes at its issue leaves it. -/
theorem ctx_advance (s : State) (d : Die) (q : CoreId) (x : SlotId) : (advance s d q x).ctx d q x
    = { s.ctx d q x with pc := nextPc s d q x, lastIssue := some (s.die d).stamp, nextAt := s.beat d + 1 } := by
  simp [advance, finish, State.bump, State.nextStamp, nextPc]

theorem core_advance (s : State) (d : Die) (q : CoreId) (x : SlotId) :
    (advance s d q x).core d q = { s.core d q with issuedAt := some (s.beat d) } := by
  simp [advance, finish, State.bump]

theorem core_advance_ne (s : State) {d e : Die} {q p : CoreId} (x : SlotId) (h : (e, p) ≠ (d, q)) :
    (advance s d q x).core e p = s.core e p := State.core_setCore_ne _ _ h

theorem onlyIssued_advance (s : State) (d : Die) (q : CoreId) (x : SlotId) : OnlyIssued d q x s (advance s d q x) := by
  refine ⟨rfl, fun _ _ _ hne => State.ctx_setCtx_ne s _ hne, ⟨by rw [core_advance], by rw [ctx_advance], by rw [ctx_advance]⟩,
    State.die_setDie_same _ d _, fun e he => State.die_setDie_ne _ _ he, core_advance s d q x, fun e p hne => core_advance_ne s x hne⟩

/-- A change of the slot before its instruction completes is a change of the slot. -/
theorem onlyIssued_of_setCtx {c : Ctx} (h : OnlyIssued d q x (s.setCtx d q x c) t) : OnlyIssued d q x s t := by
  obtain ⟨hrest, hctxs, hissued, hdie, hdies, hcore, hcores⟩ := h
  exact ⟨hrest, fun e p y hne => (hctxs e p y hne).trans (State.ctx_setCtx_ne s c hne), hissued, hdie, hdies, hcore, hcores⟩

/-- So is one after it that keeps the order and the beat of issue. -/
theorem onlyIssued_setCtx (h : OnlyIssued d q x s t) {c : Ctx} (hnext : c.nextAt = (t.ctx d q x).nextAt)
    (hlast : c.lastIssue = (t.ctx d q x).lastIssue) : OnlyIssued d q x s (t.setCtx d q x c) := by
  obtain ⟨hrest, hctxs, ⟨hat, hn, hl⟩, hdie, hdies, hcore, hcores⟩ := h
  refine ⟨?_, fun e p y hne => (State.ctx_setCtx_ne t c hne).trans (hctxs e p y hne), ⟨hat, ?_, ?_⟩, hdie, hdies, hcore, hcores⟩
  · rw [hrest]
    rfl
  · rw [State.ctx_setCtx_same, hnext, hn]
  · rw [State.ctx_setCtx_same, hlast, hl]

/-! #### Reads (R133, R291, R309) -/

theorem rd_wr_same (c : Ctx) (r : Fin 32) (v : Word) : (c.wr r v).rd r = v := by simp [Ctx.wr, Ctx.wrMark, Ctx.rd]

theorem otherScalars_wr (c : Ctx) (r : Fin 32) (v : Word) : OtherScalars r c (c.wr r v) :=
  ⟨fun _ hne => Assoc.at_put_ne _ _ _ hne, rfl, rfl, rfl, rfl⟩

/-- An instruction that copies a word into a scalar register. -/
theorem copies_runs {c : Instr} {k : SlotId → Ctx → State → State} {sD : Fin 32} {v : Word} (h : Issues s d q x srcs)
    (hc : exec c s = .next (withIssue s d q srcs k)) (hk : k x (s.ctx d q x) s = advance (s.setCtx d q x ((s.ctx d q x).wr sD v)) d q x) :
    Runs c s fun t => (t.ctx d q x).rd sD = v ∧ (t.ctx d q x).pc = nextPc s d q x
      ∧ OtherScalars sD (s.ctx d q x) (t.ctx d q x) ∧ OnlyIssued d q x s t := by
  refine ⟨_, exec_of_issues h hc hk, ?_, ?_, ?_, onlyIssued_of_setCtx (onlyIssued_advance _ d q x)⟩
  · rw [ctx_advance, State.ctx_setCtx_same]
    exact rd_wr_same _ _ _
  · rw [ctx_advance, nextPc, State.ctx_setCtx_same]
    rfl
  · rw [ctx_advance, State.ctx_setCtx_same]
    exact otherScalars_wr _ _ _

/-! #### Waits (R309, R330, R331) -/

/-- A wait that has no effect but to complete. -/
def WaitCond.plain : WaitCond → Bool
  | .counter _ _ _ _ _ _ | .tileOrder _ => false
  | _ => true

theorem waitEffect_plain {w : WaitCond} (hw : w.plain = true) (s : State) (d : Die) (q : CoreId) (x : SlotId) : waitEffect s d q x w = s := by
  cases w with
  | counter | tileOrder => cases hw
  | _ => rfl

theorem wait_completes {c : Instr} {k : SlotId → Ctx → State → State} {w : WaitCond} (hw : w.plain = true) (h : Issues s d q x srcs)
    (hc : exec c s = .next (withIssue s d q srcs k)) (hk : k x (s.ctx d q x) s = issueWait s d q x w) (hholds : condHolds s d q x w = true) :
    Runs c s fun t => (t.ctx d q x).pc = nextPc s d q x ∧ (t.ctx d q x).st = (s.ctx d q x).st
      ∧ (t.ctx d q x).s = (s.ctx d q x).s ∧ OnlyIssued d q x s t := by
  have hrun : issueWait s d q x w = advance s d q x := by rw [issueWait, if_pos hholds, waitEffect_plain hw]
  refine ⟨_, exec_of_issues h hc (hk.trans hrun), ?_, ?_, ?_, onlyIssued_advance s d q x⟩ <;> rw [ctx_advance]

theorem wait_waits {c : Instr} {k : SlotId → Ctx → State → State} {w : WaitCond} (h : Issues s d q x srcs)
    (hc : exec c s = .next (withIssue s d q srcs k)) (hk : k x (s.ctx d q x) s = issueWait s d q x w) (hfails : condHolds s d q x w = false) :
    Runs c s fun t => (t.ctx d q x).pc = (s.ctx d q x).pc ∧ (t.ctx d q x).st = .wait
      ∧ (t.ctx d q x).waiting = some w ∧ (t.ctx d q x).s = (s.ctx d q x).s ∧ OnlyCtx d q x s t := by
  have hrun : issueWait s d q x w = park s d q x w 0 := by rw [issueWait, if_neg (by simp [hfails])]
  refine ⟨_, exec_of_issues h hc (hk.trans hrun), ?_, ?_, ?_, ?_, onlyCtx_setCtx s d q x _⟩ <;>
    rw [park, State.ctx_setCtx_same]

/-- A wait instruction completes where its condition holds, and otherwise its context waits for it. -/
theorem wait_runs {c : Instr} {k : SlotId → Ctx → State → State} {w : WaitCond} {b : Bool} (hw : w.plain = true) (h : Issues s d q x srcs)
    (hc : exec c s = .next (withIssue s d q srcs k)) (hk : k x (s.ctx d q x) s = issueWait s d q x w) (hb : condHolds s d q x w = b) :
    (b = true → Runs c s fun t => (t.ctx d q x).pc = nextPc s d q x ∧ (t.ctx d q x).st = (s.ctx d q x).st
      ∧ (t.ctx d q x).s = (s.ctx d q x).s ∧ OnlyIssued d q x s t) ∧
    (b = false → Runs c s fun t => (t.ctx d q x).pc = (s.ctx d q x).pc ∧ (t.ctx d q x).st = .wait
      ∧ (t.ctx d q x).waiting = some w ∧ (t.ctx d q x).s = (s.ctx d q x).s ∧ OnlyCtx d q x s t) :=
  ⟨fun h1 => wait_completes hw h hc hk (hb.trans h1), fun h0 => wait_waits h hc hk (hb.trans h0)⟩

end

/-- Settles O19: the four reads are one copy into a register, and the four waits complete or park by their condition. -/
theorem readsAndWaits : Obligations.ReadsAndWaits := by
  intro s d q x sA sD
  refine ⟨fun h => ?_, fun h => ?_⟩
  · simp only [List.forall_mem_cons, List.not_mem_nil, false_implies, implies_true, and_true]
    exact ⟨copies_runs h rfl rfl, copies_runs h rfl rfl, copies_runs h rfl rfl, copies_runs h rfl rfl⟩
  · simp only [List.forall_mem_cons, List.not_mem_nil, false_implies, implies_true, and_true]
    have hfence : condHolds s d q x .efence = !(s.core d q).issueQ.any (fun e => e.slot == x) := rfl
    exact ⟨wait_runs rfl h rfl rfl rfl, wait_runs rfl h rfl rfl rfl, wait_runs rfl (issues_nil h) rfl rfl hfence, wait_runs rfl (issues_nil h) rfl rfl rfl⟩

/-! ### EISSUE and branches (R134, R308) -/

section
variable {s : State} {d : Die} {q : CoreId} {x : SlotId} {sA : Fin 32}

/-- The beat of a stalled context that is not yet charged counts in ISSUE_STALL, and changes nothing of the core (R134). -/
theorem parkFull_issue (s : State) (hfirst : (s.ctx d q x).stalledAt ≠ some (s.beat d)) : parkFull s d q x 0 1
    = (s.setCtx d q x { s.ctx d q x with st := .wait, waiting := some (.queueFull 0), stall := 1, stalledAt := some (s.beat d) }).addFld
        (.scvIssueStall d q) F.scvIssueStall_COUNT 1 := by
  have hne : ¬((park s d q x (.queueFull 0) 1).ctx d q x).stalledAt = some ((park s d q x (.queueFull 0) 1).beat d) := by
    rwa [park, State.ctx_setCtx_same]
  rw [parkFull, chargeStall, if_neg hne]
  simp only [park, State.ctx_setCtx_same, State.beat_setCtx]
  rw [State.setCtx_setCtx]

theorem eissue_pushes (h : Issues s d q x [sA]) (hroom : queueHasRoom s d q 0 = true) : Runs (.eissue d q sA) s fun t =>
    t.core d q = { s.core d q with issueQ := (s.core d q).issueQ ++ [⟨(s.ctx d q x).rd sA, x, (s.die d).stamp, s.beat d⟩],
                                       issuedAt := some (s.beat d) }
      ∧ (t.ctx d q x).pc = nextPc s d q x ∧ (∀ e p, (e, p) ≠ (d, q) → t.core e p = s.core e p) ∧ t.regs = s.regs
      ∧ t.mem = s.mem := by
  refine ⟨_, exec_of_issues h rfl (if_pos hroom), ?_, ?_, fun e p hne => ?_, rfl, rfl⟩
  · rw [core_advance, State.core_setCore_same]
    rfl
  · rw [ctx_advance]
    rfl
  · rw [core_advance_ne _ _ hne, State.core_setCore_ne _ _ hne]

theorem eissue_waits (h : Issues s d q x [sA]) (hfull : queueHasRoom s d q 0 = false) (hfirst : (s.ctx d q x).stalledAt ≠ some (s.beat d)) :
    Runs (.eissue d q sA) s fun t =>
      t.core d q = s.core d q ∧ (t.ctx d q x).st = .wait ∧ (t.ctx d q x).waiting = some (.queueFull 0)
        ∧ (t.ctx d q x).pc = (s.ctx d q x).pc
        ∧ t.fld (.scvIssueStall d q) F.scvIssueStall_COUNT
            = min (s.fld (.scvIssueStall d q) F.scvIssueStall_COUNT + 1)
                (2 ^ (F.scvIssueStall_COUNT.hi + 1 - F.scvIssueStall_COUNT.lo) - 1) := by
  refine ⟨_, exec_of_issues h rfl ((if_neg (by simp [hfull])).trans (parkFull_issue s hfirst)), ?_⟩
  simp only [State.core_addFld, State.core_setCtx, State.ctx_addFld, State.ctx_setCtx_same, true_and]
  exact State.fld_addFld_same _ _ _ _ (by decide)

theorem branch_taken {target : Nat} (h : Issues s d q x []) (ht : target < 2 ^ 48) : Runs (.branch d q true target) s fun t =>
    (t.ctx d q x).pc = target ∧ (t.ctx d q x).st = .wait ∧ (t.ctx d q x).waiting = some (.branch (s.beat d + 8))
      ∧ OnlyIssued d q x s t := by
  let u := (advance s d q x).setCtx d q x { (advance s d q x).ctx d q x with pc := target % 2 ^ 48 }
  have hu : OnlyIssued d q x s u := onlyIssued_setCtx (onlyIssued_advance s d q x) rfl rfl
  refine ⟨park u d q x (.branch (s.beat d + 8)) 0, exec_of_issues h rfl rfl, ?_, ?_, ?_, onlyIssued_setCtx hu rfl rfl⟩ <;>
    rw [park, State.ctx_setCtx_same]
  show (u.ctx d q x).pc = target
  rw [State.ctx_setCtx_same]
  exact Nat.mod_eq_of_lt ht

theorem branch_not_taken {target : Nat} (h : Issues s d q x []) : Runs (.branch d q false target) s fun t =>
    (t.ctx d q x).pc = nextPc s d q x ∧ (t.ctx d q x).st = (s.ctx d q x).st ∧ OnlyIssued d q x s t :=
  ⟨advance s d q x, exec_of_issues h rfl rfl, by rw [ctx_advance], by rw [ctx_advance], onlyIssued_advance s d q x⟩

end

/-- Settles O20: the word is pushed, or its context parked and the beat charged; a branch completes, and parks where it is taken. -/
theorem issueAndBranch : Obligations.IssueAndBranch := fun _ _ _ _ _ =>
  ⟨eissue_pushes, eissue_waits, fun _ => branch_taken, fun _ => branch_not_taken⟩

end Sys2Proof.Machine
end

section
/-! ### Bytes in memory: runs of writes apart from each other -/

namespace Sys2Proof.Machine

theorem Mem.read_eq {m : List Host.Cell} {bs : List Byte} {a : Nat} (h : ∀ i (hi : i < bs.length), Mem.get m (a + i) = bs[i]) :
    Mem.read m a bs.length = bs := by
  induction bs generalizing a with
  | nil => rfl
  | cons b bs ih =>
    have hrest : Mem.read m (a + 1) bs.length = bs := ih fun i hi => by
      rw [Nat.add_assoc, Nat.add_comm 1 i]
      exact h (i + 1) (by simpa using hi)
    exact congrArg₂ _ (h 0 (by simp)) hrest

theorem Mem.read_congr {m m' : List Host.Cell} {a n : Nat} (h : ∀ x, a ≤ x → x < a + n → Mem.get m x = Mem.get m' x) :
    Mem.read m a n = Mem.read m' a n := by
  induction n generalizing a with
  | zero => rfl
  | succ n ih => exact congrArg₂ _ (h a (Nat.le_refl a) (by omega)) (ih fun x hx hx' => h x (by omega) (by omega))

/-- Part of the bytes written. -/
theorem Mem.read_write_part {m : List Host.Cell} (hw : Mem.wf m = true) (a : Nat) (bs : List Byte) {i n : Nat} (h : i + n ≤ bs.length) :
    Mem.read (Mem.write m a bs) (a + i) n = (bs.drop i).take n := by
  have hlen : ((bs.drop i).take n).length = n := by simp; omega
  conv_lhs => rw [← hlen]
  refine Mem.read_eq fun j hj => ?_
  have hj : j < n := hlen ▸ hj
  have hin : i + j < bs.length := by omega
  rw [Mem.get_write _ hw, if_pos (by omega)]
  simp [show a + i + j - a = i + j by omega, List.getD_eq_getElem?_getD, List.getElem?_eq_getElem hin]

section
variable {α : Type} {addr : α → Nat} {data : α → List Byte}

theorem Mem.get_foldl_write_apart {l : List α} {m : List Host.Cell} (hw : Mem.wf m = true) {x : Nat}
    (hx : ∀ e ∈ l, ¬(addr e ≤ x ∧ x < addr e + (data e).length)) :
    Mem.get (l.foldl (fun m e => Mem.write m (addr e) (data e)) m) x = Mem.get m x := by
  induction l generalizing m with
  | nil => rfl
  | cons e l ih =>
    obtain ⟨he, hl⟩ := List.forall_mem_cons.mp hx
    rw [List.foldl_cons, ih (Mem.wf_write _ hw _) hl, Mem.get_write _ hw, if_neg he]

/-- Of writes apart from each other, each is read back where it was made. -/
theorem Mem.read_foldl_write {l : List α} {m : List Host.Cell} (hw : Mem.wf m = true)
    (hapart : l.Pairwise fun e e' => addr e + (data e).length ≤ addr e' ∨ addr e' + (data e').length ≤ addr e) {e : α} (he : e ∈ l) {i n : Nat}
    (h : i + n ≤ (data e).length) :
    Mem.read (l.foldl (fun m e => Mem.write m (addr e) (data e)) m) (addr e + i) n = ((data e).drop i).take n := by
  induction l generalizing m with
  | nil => cases he
  | cons e' l ih =>
    obtain ⟨hfirst, hrest⟩ := List.pairwise_cons.mp hapart
    rw [List.foldl_cons]
    rcases List.mem_cons.mp he with rfl | he
    · rw [← Mem.read_write_part hw (addr e) (data e) h]
      refine Mem.read_congr fun x hx hx' => Mem.get_foldl_write_apart (Mem.wf_write _ hw _) fun e'' he'' => ?_
      have := hfirst e'' he''
      omega
    · exact ih (Mem.wf_write _ hw _) hrest he

end

/-- Piece i of equal pieces put one after another. -/
theorem take_drop_flatMap {α β : Type} {f : α → List β} {n : Nat} (hf : ∀ a, (f a).length = n) {l : List α} {i : Nat} (hi : i < l.length) :
    ((l.flatMap f).drop (n * i)).take n = f l[i] := by
  induction l generalizing i with
  | nil => simp at hi
  | cons a l ih =>
    cases i with
    | zero => simp [← hf a]
    | succ i =>
      have hdrop : (f a).drop (n * (i + 1)) = [] := List.drop_of_length_le (by rw [hf]; exact Nat.le_mul_of_pos_right n i.succ_pos)
      rw [List.flatMap_cons, List.drop_append, hdrop, hf, Nat.mul_succ, Nat.add_sub_cancel]
      exact ih (by simpa using hi)

theorem length_flatMap_const {α β : Type} {f : α → List β} {n : Nat} (hf : ∀ a, (f a).length = n) (l : List α) :
    (l.flatMap f).length = n * l.length := by
  induction l with
  | nil => rfl
  | cons a l ih => rw [List.flatMap_cons, List.length_append, hf, ih, List.length_cons, Nat.mul_succ, Nat.add_comm]

theorem length_leBytes (n v : Nat) : (leBytes n v).length = n := by
  induction n generalizing v with
  | zero => rfl
  | succ n ih => exact congrArg (· + 1) (ih _)

/-! ### Writes to a unit of the partial-sum store -/

theorem le_unitBase (d : Die) (st : Store) (u : Nat) : 0xF000000000 ≤ unitBase d st u := by
  unfold unitBase
  omega

theorem placeOf_ne_lpd {a : Nat} (h : 0xF000000000 ≤ a) : placeOf a ≠ .lpd := by
  unfold placeOf storePlace
  dsimp only
  rw [if_neg (by omega), if_neg (by omega), if_neg (by omega), if_neg (by omega)]
  (repeat' split) <;> exact nofun

/-- Above the LPDDR5X tier the bytes are written as they are (R449). -/
theorem poke_mem {s : State} {a : Nat} (h : 0xF000000000 ≤ a) (bs : List (Byte × Bool)) :
    (s.poke a bs).mem = Mem.write s.mem a (bs.map Prod.fst) := by
  unfold State.poke
  dsimp only
  split
  · exact absurd ‹_› (placeOf_ne_lpd h)
  · rfl

@[simp] theorem poke_cores (s : State) (a : Nat) (bs : List (Byte × Bool)) : (s.poke a bs).cores = s.cores := rfl

theorem readStore_of_latent {s : State} (h : s.latent = []) (a n : Nat) : readStore s a n = s := by
  have hword (d : Die) (st : Store) (w : Nat) : readWord s d st w = s := by simp [readWord, h]
  unfold readStore
  split
  · rfl
  · exact List.foldl_fixed' (fun i => hword _ _ _) _

/-- Only the stores have changed, and of memory only n bytes from lo, while it keeps its canonical form. -/
structure Stored (lo n : Nat) (s t : State) : Prop where
  rest : t = { s with mem := t.mem, poison := t.poison, latent := t.latent }
  latent : s.latent = [] → t.latent = []
  wf : Mem.wf s.mem = true → Mem.wf t.mem = true
  mem : Mem.wf s.mem = true → MemKeptBut lo n s t

namespace Stored

variable {lo n : Nat} {s t u : State}

theorem refl (s : State) : Stored lo n s s := ⟨rfl, id, id, fun _ _ _ => rfl⟩

theorem trans (h : Stored lo n s t) (k : Stored lo n t u) : Stored lo n s u where
  rest := by rw [k.rest, h.rest]
  latent := k.latent ∘ h.latent
  wf := k.wf ∘ h.wf
  mem hw x hx := (k.mem (h.wf hw) x hx).trans (h.mem hw x hx)

theorem foldl {α : Type} {f : State → α → State} {l : List α} {s : State}
    (hf : ∀ t, (s.latent = [] → t.latent = []) → ∀ a ∈ l, Stored lo n t (f t a)) : Stored lo n s (l.foldl f s) := by
  induction l generalizing s with
  | nil => exact refl s
  | cons a l ih =>
    have hfirst := hf s id a List.mem_cons_self
    exact hfirst.trans (ih fun t ht b hb => hf t (fun h => ht (hfirst.latent h)) b (List.mem_cons_of_mem a hb))

theorem poke {a : Nat} {bs : List (Byte × Bool)} (hlo : 0xF000000000 ≤ lo) (ha : lo ≤ a) (hn : a + bs.length ≤ lo + n) (s : State) :
    Stored lo n s (s.poke a bs) where
  rest := rfl
  latent h := by simp [State.poke, h]
  wf hw := by
    rw [poke_mem (by omega)]
    exact Mem.wf_write _ hw a
  mem hw x hx := by
    rw [poke_mem (by omega), Mem.get_write _ hw, if_neg (by rw [List.length_map]; omega)]

end Stored

end Sys2Proof.Machine
end

section
/-! ### Engines of a gang -/

namespace Sys2Proof.Machine

theorem gangOf_nodup (m : Nat) : (gangOf m).Nodup := (List.nodup_finRange 4).filter _

@[simp] theorem Core.engine_setEngine_same (c : Core) (e : Fin 4) (g : Engine) : (c.setEngine e g).engine e = g := by
  simp [Core.engine, Core.setEngine]

theorem Core.engine_setEngine_ne (c : Core) {e e' : Fin 4} (g : Engine) (h : e' ≠ e) : (c.setEngine e g).engine e' = c.engine e' := by
  simp [Core.engine, Core.setEngine, Assoc.at_put_ne _ _ _ h]

/-- A function that changes engine e of a core, by g, and nothing else. -/
structure ChangesEngine (g : Fin 4 → Engine → Engine) (f : Core → Fin 4 → Core) : Prop where
  same : ∀ c e, (f c e).engine e = g e (c.engine e)
  other : ∀ c e e', e' ≠ e → (f c e).engine e' = c.engine e'
  rest : ∀ c e, f c e = { c with engines := (f c e).engines }

theorem changesEngine_setEngine (g : Fin 4 → Engine → Engine) : ChangesEngine g fun c e => c.setEngine e (g e (c.engine e)) where
  same _ _ := Core.engine_setEngine_same _ _ _
  other _ _ _ h := Core.engine_setEngine_ne _ _ h
  rest _ _ := rfl

namespace ChangesEngine

variable {g : Fin 4 → Engine → Engine} {f : Core → Fin 4 → Core} (h : ChangesEngine g f)
include h

theorem engine_foldl {l : List (Fin 4)} (hl : l.Nodup) (c : Core) (e : Fin 4) :
    (l.foldl f c).engine e = if e ∈ l then g e (c.engine e) else c.engine e := by
  induction l generalizing c with
  | nil => simp
  | cons e' l ih =>
    obtain ⟨hne, hl⟩ := List.nodup_cons.mp hl
    rw [List.foldl_cons, ih hl]
    by_cases he : e = e'
    · subst he
      simp [hne, h.same]
    · simp [he, h.other c e' e he]

theorem rest_foldl (l : List (Fin 4)) (c : Core) : l.foldl f c = { c with engines := (l.foldl f c).engines } := by
  induction l generalizing c with
  | nil => rfl
  | cons e l ih =>
    obtain ⟨es, hes⟩ : ∃ es, f c e = { c with engines := es } := ⟨_, h.rest c e⟩
    rw [List.foldl_cons, hes]
    exact ih _

end ChangesEngine

/-! #### The issue of an instruction (R102, R120) -/

/-- An engine of the gang as an instruction's issue leaves it. -/
def loadEngine (op : EngOp) (f : EngFields) (g : Engine) : Engine :=
  let g := if f.tkeep then g else
    match g.shadow with
    | none => g
    | some t => { g with active := some ⟨t.kind, t.transfers.flatten, t.poison⟩, shadow := none }
  if op.arith && !f.acc then { g with intType := op.isInt f.fmt } else g

theorem loadTiles_eq (c : Core) (op : EngOp) (f : EngFields) :
    loadTiles c op f = (gangOf f.emask).foldl (fun c e => c.setEngine e (loadEngine op f (c.engine e))) c := rfl

theorem engine_loadTiles (c : Core) (op : EngOp) (f : EngFields) (e : Fin 4) :
    (loadTiles c op f).engine e = if e ∈ gangOf f.emask then loadEngine op f (c.engine e) else c.engine e := by
  rw [loadTiles_eq]
  exact (changesEngine_setEngine fun _ => loadEngine op f).engine_foldl (gangOf_nodup _) c e

theorem rest_loadTiles (c : Core) (op : EngOp) (f : EngFields) : loadTiles c op f = { c with engines := (loadTiles c op f).engines } := by
  rw [loadTiles_eq]
  exact (changesEngine_setEngine fun _ => loadEngine op f).rest_foldl _ c

theorem slots_loadEngine (op : EngOp) (f : EngFields) (g : Engine) : (loadEngine op f g).slots = g.slots := by
  unfold loadEngine
  dsimp only
  (repeat' split) <;> rfl

theorem active_loadEngine (op : EngOp) (f : EngFields) (g : Engine) : (loadEngine op f g).active =
    if f.tkeep then g.active else match g.shadow with | none => g.active | some t => some ⟨t.kind, t.transfers.flatten, t.poison⟩ := by
  unfold loadEngine
  dsimp only
  cases hk : f.tkeep <;> cases hs : g.shadow <;> split <;> rfl

theorem slots_loadTiles (c : Core) (op : EngOp) (f : EngFields) (e : Fin 4) :
    ((loadTiles c op f).engine e).slots = (c.engine e).slots := by
  rw [engine_loadTiles]
  split
  · exact slots_loadEngine op f _
  · rfl

/-! ### The judgement of a queue head (R116, R131) -/

section
variable {s t : State} {d : Die} {q : CoreId}

theorem judgeHead_congr (hp : t.present q = s.present q) (hc : t.core d q = s.core d q) (w : Word) :
    judgeHead t d q w = judgeHead s d q w := by
  have hearly : engCheckEarly t q w = engCheckEarly s q w := by simp only [engCheckEarly, hp]
  simp only [judgeHead, hearly, hc]

theorem headDue_congr (hb : t.beat d = s.beat d) (hc : t.core d q = s.core d q) (w : EngWord) :
    headDue t d q w = headDue s d q w := by rw [headDue, headDue, State.engBeat, State.engBeat, hb, hc]

theorem headBlock_congr (hp : t.present q = s.present q) (hb : t.beat d = s.beat d) (hc : t.core d q = s.core d q) :
    headBlock t d q = headBlock s d q := by
  simp only [headBlock, hc, headDue_congr hb hc, judgeHead_congr hp hc]

/-- What holds of a word that issues for an operation. -/
structure RunsAs (s : State) (d : Die) (q : CoreId) (w : Word) (op : EngOp) : Prop where
  code : EngOp.ofCode (engFields w).op = some op
  early : engCheckEarly s q w = none
  late : engCheckLate (s.core d q) op (engFields w) = none
  entry : takesEntry op (engFields w) = true → (s.core d q).actQ ≠ []

theorem runsAs_of_judgeHead {w : Word} {op : EngOp} (h : judgeHead s d q w = .run op) : RunsAs s d q w op := by
  unfold judgeHead at h
  cases hearly : engCheckEarly s q w with
  | some cause => simp [hearly] at h
  | none =>
    cases hcode : EngOp.ofCode (engFields w).op with
    | none => simp [hearly, hcode] at h
    | some o =>
      simp only [hearly, hcode] at h
      split at h
      · cases h
      · cases hlate : engCheckLate (s.core d q) o (engFields w) with
        | some cause => simp [hlate] at h
        | none =>
          simp only [hlate] at h
          split at h
          · cases h
          · cases h
            exact ⟨hcode, hearly, hlate, fun ht hq => by simp_all⟩

theorem runsAs_of_heads {w : EngWord} {ws : List EngWord} {op : EngOp} (h : Heads s d q w ws op) : RunsAs s d q w.word op := by
  obtain ⟨-, -, -, -, hjudge, -⟩ := h
  exact runsAs_of_judgeHead hjudge

/-- Whether the tiles of the gang are not what the instruction needs (R103, R116, cause 0100). -/
def tileBad (c : Core) (op : EngOp) (f : EngFields) : Bool :=
  let uses (k : TileKind) : Bool := match op.kind with
    | some k' => k == k'
    | none => k != .b4
  if op = .nop then false
  else if op = .slide ∧ f.tkeep = false then true
  else if f.tkeep then
    (gangOf f.emask).any (fun e => match (c.engine e).active with | none => true | some t => !uses t.kind)
  else (gangOf f.emask).any (fun e => match (c.engine e).shadow with | none => true | some t => !uses t.kind)

theorem engCheckLate_eq (c : Core) (op : EngOp) (f : EngFields) : engCheckLate c op f =
    if tileBad c op f then some 4
    else if op.arith && f.acc && (gangOf f.emask).any (fun e => (c.engine e).intType != op.isInt f.fmt) then some 5
    else if f.drain ≥ 6 then some 6
    else if op = .topkSel ∧ (f.drain ≠ 1 ∨ f.acc = true) then some 6
    else if op = .slide ∧ (f.drain ≠ 0 ∨ f.acc = true) then some 6
    else if engEnd op f > 1048576 then some 7
    else none := rfl

/-- The tiles of a gang that the check accepts. -/
structure TilesHeld (c : Core) (op : EngOp) (f : EngFields) : Prop where
  slide : op = .slide → f.tkeep = true
  kept : f.tkeep = true → ∀ e ∈ gangOf f.emask, (c.engine e).active.isSome = true
  fresh : f.tkeep = false → ∀ e ∈ gangOf f.emask, (c.engine e).shadow.isSome = true

theorem tilesHeld_of_tileBad {c : Core} {op : EngOp} {f : EngFields} (hop : op ≠ .nop) (h : tileBad c op f = false) : TilesHeld c op f := by
  simp only [tileBad, if_neg hop] at h
  split_ifs at h with hslide hkeep
  · refine ⟨fun _ => hkeep, fun _ e he => ?_, fun hn => by rw [hkeep] at hn; cases hn⟩
    have hgood := List.any_eq_false.mp h e he
    cases hactive : (c.engine e).active with
    | none => simp [hactive] at hgood
    | some t => rfl
  · refine ⟨fun hs => by simpa using fun hk => hslide ⟨hs, hk⟩, fun hk => absurd hk hkeep, fun _ e he => ?_⟩
    have hgood := List.any_eq_false.mp h e he
    cases hshadow : (c.engine e).shadow with
    | none => simp [hshadow] at hgood
    | some t => rfl

/-- A word that no check of R116 rejects (causes 0100 to 0111). -/
structure Passes (c : Core) (op : EngOp) (f : EngFields) : Prop where
  tiles : op ≠ .nop → TilesHeld c op f
  drain : f.drain < 6
  topk : op = .topkSel → f.drain = 1
  slide : op = .slide → f.drain = 0
  fits : engEnd op f ≤ 1048576

theorem passes_of_engCheckLate {c : Core} {op : EngOp} {f : EngFields} (h : engCheckLate c op f = none) : Passes c op f := by
  rw [engCheckLate_eq] at h
  split_ifs at h with htile hacc hdrain htopk hslide hfits
  refine ⟨fun hop => tilesHeld_of_tileBad hop (by simpa using htile), by omega, fun hop => ?_, fun hop => ?_, by omega⟩
  · by_contra hne
    exact htopk ⟨hop, .inl hne⟩
  · by_contra hne
    exact hslide ⟨hop, .inl hne⟩

end

/-- Every engine of a gang that an instruction's checks accept has a tile once the instruction has issued. -/
theorem active_loadTiles {c : Core} {op : EngOp} {f : EngFields} (h : TilesHeld c op f) {e : Fin 4} (he : e ∈ gangOf f.emask) :
    ∃ t, ((loadTiles c op f).engine e).active = some t := by
  rw [engine_loadTiles, if_pos he, active_loadEngine]
  cases hk : f.tkeep with
  | true => simpa [Option.isSome_iff_exists] using h.kept hk e he
  | false =>
    obtain ⟨t, ht⟩ := Option.isSome_iff_exists.mp (h.fresh hk e he)
    exact ⟨⟨t.kind, t.transfers.flatten, t.poison⟩, by rw [ht]; rfl⟩

/-! ### Issue of the queue head (R107, R116, R131) -/

theorem exec_engineOps (d : Die) (q : CoreId) : ∀ p ∈ engineOps d q, ∀ s, exec p.1 s = .next (issueEngine p.2 d q s) := by
  simp only [engineOps, arithOps, List.cons_append, List.nil_append, List.forall_mem_cons, List.not_mem_nil, false_implies, implies_true, and_true]
  exact ⟨fun _ => rfl, fun _ => rfl, fun _ => rfl, fun _ => rfl, fun _ => rfl, fun _ => rfl, fun _ => rfl, fun _ => rfl, fun _ => rfl,
    fun _ => rfl, fun _ => rfl, fun _ => rfl⟩

theorem dropRejected_keeps {s : State} {d : Die} {q : CoreId} {w : EngWord} {ws : List EngWord} (hdue : headDue s d q w = true)
    (hkeep : ∀ cause, judgeHead s d q w.word ≠ .reject cause) : dropRejected d q (w :: ws) s = (s, w :: ws) := by
  rw [dropRejected, if_pos hdue]
  split
  · exact absurd ‹_› (hkeep _)
  · rfl

theorem judgeHead_setCore_own (s : State) (d : Die) (q : CoreId) (w : Word) :
    judgeHead (s.setCore d q (s.core d q)) d q w = judgeHead s d q w :=
  judgeHead_congr (t := s.setCore d q (s.core d q)) (s := s) rfl (State.core_setCore_same _ _ _ _) w

theorem headBlock_freezes {s : State} {d : Die} {q : CoreId} {w : EngWord} {ws : List EngWord} (hprog : (s.core d q).prog = none)
    (hdue : headDue s d q w = true) (hq : (s.core d q).issueQ = w :: ws) {k : FreezeCause} (hjudge : judgeHead s d q w.word = .freeze k) :
    headBlock s d q = some k := by
  simp only [headBlock, hq, hprog, hdue, hjudge, if_true]

section
variable {s : State} {d : Die} {q : CoreId} {w : EngWord} {ws : List EngWord} {op : EngOp} (hup : s.dieUp d = true)
include hup

/-- An instruction that has issued goes on. -/
theorem issueEngine_resumes {r : Nat} (hq : (s.core d q).issueQ = w :: ws) (hprog : (s.core d q).prog = some r)
    (hcode : EngOp.ofCode (engFields w.word).op = some op) :
    issueEngine op d q s = runRows d q op (engFields w.word) (rowsOfOp op (engFields w.word) - r) r s := by
  simp only [issueEngine, hup, hq, hprog, hcode, Bool.true_eq_false, if_false, if_true]

variable (hprog : (s.core d q).prog = none) (hdue : headDue s d q w = true)
include hprog hdue

/-- A head that no check rejects and that may not issue stays. -/
theorem issueEngine_freezes (hq : (s.core d q).issueQ = w :: ws) {k : FreezeCause} (hjudge : judgeHead s d q w.word = .freeze k) :
    issueEngine op d q s = s.setCore d q (s.core d q) := by
  have hdrop := dropRejected_keeps (ws := ws) hdue fun cause h => by rw [hjudge] at h; cases h
  have hsame : { s.core d q with issueQ := w :: ws } = s.core d q := by rw [← hq]
  rw [issueEngine, if_neg (by simp [hup]), hq, hprog]
  simp only [hdrop, hsame, judgeHead_setCore_own, hjudge, ite_self]

/-- A head that may issue runs. -/
theorem issueEngine_runs (hq : (s.core d q).issueQ = w :: ws) (hjudge : judgeHead s d q w.word = .run op) :
    issueEngine op d q s = runWord s d q op (engFields w.word) := by
  have hdrop := dropRejected_keeps (ws := ws) hdue fun cause h => by rw [hjudge] at h; cases h
  have hsame : { s.core d q with issueQ := w :: ws } = s.core d q := by rw [← hq]
  have hcore : (s.setCore d q (s.core d q)).core d q = s.core d q := State.core_setCore_same _ _ _ _
  have hdue' : headDue (s.setCore d q (s.core d q)) d q w = true := (headDue_congr (State.beat_setCore s d q _ d) hcore w).trans hdue
  have hrun : runWord (s.setCore d q (s.core d q)) d q op (engFields w.word) = runWord s d q op (engFields w.word) := by
    simp only [runWord, hcore, State.engBeat, State.beat_setCore, State.setCore_setCore]
  rw [issueEngine, if_neg (by simp [hup]), hq, hprog]
  simp only [hdrop, hsame, hdue', judgeHead_setCore_own, hjudge, (runsAs_of_judgeHead hjudge).code, and_self, if_true, hrun]

end

end Sys2Proof.Machine
end

section
/-! ### Rows of an issued instruction (R107, R118, R128, R222) -/

namespace Sys2Proof.Machine

theorem drainInto_append (acc : Bool) (l l' : List Nat) (b : List DrainEntry) :
    drainInto acc (l ++ l') b = (drainInto acc l b).bind (drainInto acc l') := by
  induction l generalizing b with
  | nil => rfl
  | cons a l ih =>
    simp only [List.cons_append, drainInto, ih]
    split
    · rfl
    · split <;> rfl

/-- What the rows of an instruction leave as it is: everything but the stores, the engine's status and the core; of memory
all but the core's partial-sum unit. -/
structure EngKept (d : Die) (q : CoreId) (s t : State) : Prop where
  rest : t = { s with regs := t.regs, mem := t.mem, poison := t.poison, latent := t.latent, cores := t.cores }
  regs : RegsKept [.engCoreStatus d q] s t
  cores : ∀ e p, (e, p) ≠ (d, q) → t.core e p = s.core e p
  latent : s.latent = [] → t.latent = []
  wf : Mem.wf s.mem = true → Mem.wf t.mem = true
  mem : Mem.wf s.mem = true → MemKeptBut (unitBase d .pst q.val) 1048576 s t

namespace EngKept

variable {d : Die} {q : CoreId} {s t u : State}

theorem refl (s : State) : EngKept d q s s := ⟨rfl, fun _ _ => rfl, fun _ _ _ => rfl, id, id, fun _ _ _ => rfl⟩

theorem trans (h : EngKept d q s t) (k : EngKept d q t u) : EngKept d q s u where
  rest := by rw [k.rest, h.rest]
  regs r hr := (k.regs r hr).trans (h.regs r hr)
  cores e p hne := (k.cores e p hne).trans (h.cores e p hne)
  latent := k.latent ∘ h.latent
  wf := k.wf ∘ h.wf
  mem hw x hx := (k.mem (h.wf hw) x hx).trans (h.mem hw x hx)

theorem setCore (s : State) (c : Core) : EngKept d q s (s.setCore d q c) :=
  ⟨rfl, fun _ _ => rfl, fun _ _ hne => State.core_setCore_ne _ _ hne, id, id, fun _ _ _ => rfl⟩

theorem setStatus (s : State) (f : Fld) (v : Nat) : EngKept d q s (s.setFld (.engCoreStatus d q) f v) :=
  ⟨rfl, fun _ hr => State.reg_setFld_ne s f v (by simpa using hr), fun _ _ _ => rfl, id, id, fun _ _ _ => rfl⟩

theorem setStatusIf (s : State) (p : Prop) [Decidable p] (f : Fld) (v : Nat) :
    EngKept d q s (if p then s.setFld (.engCoreStatus d q) f v else s) := by
  split
  · exact setStatus s f v
  · exact refl s

theorem ofStored (h : Stored (unitBase d .pst q.val) 1048576 s t) : EngKept d q s t where
  rest := by rw [h.rest]
  regs r _ := by rw [h.rest]; rfl
  cores e p _ := by rw [h.rest]; rfl
  latent := h.latent
  wf := h.wf
  mem := h.mem

theorem ctxs (h : EngKept d q s t) : t.ctxs = s.ctxs := by rw [h.rest]

theorem dies (h : EngKept d q s t) : t.dies = s.dies := by rw [h.rest]

theorem reports (h : EngKept d q s t) : t.reports = s.reports := by rw [h.rest]

end EngKept

/-- A row's work before its drains enter the drain buffer. -/
def rowBody (s : State) (d : Die) (q : CoreId) (op : EngOp) (f : EngFields) (r : Nat) : State :=
  match op with
  | .nop => s
  | .topkSel => stepTopk s d q f
  | .slide => slideBeat d q f s
  | _ => stepRow s d q op f r

/-- A row's drains taken into the drain buffer, where they fit. -/
def takeDrains (s : State) (d : Die) (q : CoreId) (acc : Bool) (lines : List Nat) : State :=
  match drainInto acc lines (s.core d q).drains with
  | some b => s.setCore d q { s.core d q with drains := b }
  | none => s

theorem stepOne_eq (s : State) (d : Die) (q : CoreId) (op : EngOp) (f : EngFields) (r : Nat) :
    stepOne s d q op f r = takeDrains (rowBody s d q op f r) d q f.accDrain (rowLines op f r) := by cases op <;> rfl

theorem takeDrains_some {s : State} {d : Die} {q : CoreId} {acc : Bool} {lines : List Nat} {b : List DrainEntry}
    (h : drainInto acc lines (s.core d q).drains = some b) :
    takeDrains s d q acc lines = s.setCore d q { s.core d q with drains := b } := by rw [takeDrains, h]

/-- A row's work: of the core it changes the engines, and it takes an entry of the queue where the instruction takes entries. -/
structure RowBody (d : Die) (q : CoreId) (takes : Bool) (s t : State) : Prop where
  kept : EngKept d q s t
  core : ∃ es, t.core d q = { s.core d q with engines := es, actQ := (s.core d q).actQ.drop (if takes then 1 else 0) }

section
variable {d : Die} {q : CoreId} {op : EngOp} {f : EngFields} (Q : Nat → Assoc (Fin 4) Engine → List Host.Cell → Prop)

/-- An instruction after r of its rows, from its issue on: Q says what its engines and memory hold. -/
structure RowsDone (d : Die) (q : CoreId) (op : EngOp) (f : EngFields) (Q : Nat → Assoc (Fin 4) Engine → List Host.Cell → Prop) (s t : State)
    (r : Nat) : Prop where
  kept : EngKept d q s t
  core : ∃ b, drainInto f.accDrain ((List.range r).flatMap (rowLines op f)) (s.core d q).drains = some b
    ∧ t.core d q = { s.core d q with
        engines := (t.core d q).engines, actQ := (s.core d q).actQ.drop (if takesEntry op f then r else 0), drains := b }
  holds : Q r (t.core d q).engines t.mem

variable {Q} {s : State} {n : Nat}

theorem RowsDone.step {t : State} {r : Nat} (h : RowsDone d q op f Q s t r)
    (hdrain : (drainInto f.accDrain ((List.range (r + 1)).flatMap (rowLines op f)) (s.core d q).drains).isSome = true)
    (hbody : RowBody d q (takesEntry op f) t (rowBody t d q op f r)
      ∧ Q (r + 1) ((rowBody t d q op f r).core d q).engines (rowBody t d q op f r).mem) :
    (drainInto f.accDrain (rowLines op f r) (t.core d q).drains).isSome = true ∧ RowsDone d q op f Q s (stepOne t d q op f r) (r + 1) := by
  obtain ⟨b, hb, hcore⟩ := h.core
  obtain ⟨⟨hkept, es, hes⟩, hQ⟩ := hbody
  have hdrains : (t.core d q).drains = b := by rw [hcore]
  have hnext : drainInto f.accDrain ((List.range (r + 1)).flatMap (rowLines op f)) (s.core d q).drains = drainInto f.accDrain (rowLines op f r) b := by
    rw [List.range_succ, List.flatMap_append, drainInto_append, hb]
    simp
  rw [hnext] at hdrain
  obtain ⟨b', hb'⟩ := Option.isSome_iff_exists.mp hdrain
  have hbuffer : drainInto f.accDrain (rowLines op f r) ((rowBody t d q op f r).core d q).drains = some b' := by
    rw [hes]
    exact hdrains ▸ hb'
  rw [stepOne_eq, takeDrains_some hbuffer, hdrains]
  refine ⟨hdrain, h.kept.trans (hkept.trans (EngKept.setCore _ _)), ⟨b', hnext.trans hb', ?_⟩, by rwa [State.core_setCore_same]⟩
  rw [State.core_setCore_same, hes, hcore]
  cases takesEntry op f <;> simp [List.drop_drop]

/-- Rows that find their entries and the room for their drains are all done. -/
theorem runRows_done (hentries : takesEntry op f = true → n ≤ (s.core d q).actQ.length)
    (hdrain : (drainInto f.accDrain ((List.range n).flatMap (rowLines op f)) (s.core d q).drains).isSome = true)
    (hstart : Q 0 (s.core d q).engines s.mem)
    (hbody : ∀ r t, r < n → RowsDone d q op f Q s t r → RowBody d q (takesEntry op f) t (rowBody t d q op f r)
      ∧ Q (r + 1) ((rowBody t d q op f r).core d q).engines (rowBody t d q op f r).mem) :
    ∃ t, runRows d q op f n 0 s = retireWord t d q ∧ RowsDone d q op f Q s t n := by
  have hprefix (r : Nat) (hr : r ≤ n) :
      (drainInto f.accDrain ((List.range r).flatMap (rowLines op f)) (s.core d q).drains).isSome = true := by
    obtain ⟨k, rfl⟩ := Nat.exists_eq_add_of_le hr
    rw [List.range_add, List.flatMap_append, drainInto_append] at hdrain
    cases hd : drainInto f.accDrain ((List.range r).flatMap (rowLines op f)) (s.core d q).drains with
    | none => simp [hd] at hdrain
    | some b => rfl
  have hrun (m r : Nat) (t : State) (hrm : r + m = n) (ht : RowsDone d q op f Q s t r) :
      ∃ u, runRows d q op f m r t = retireWord u d q ∧ RowsDone d q op f Q s u n := by
    induction m generalizing r t with
    | zero => exact ⟨t, rfl, by rwa [← hrm]⟩
    | succ m ih =>
      obtain ⟨hroom, hnext⟩ := ht.step (hprefix (r + 1) (by omega)) (hbody r t (by omega) ht)
      obtain ⟨b, -, hcore⟩ := ht.core
      have hentry : (takesEntry op f && (t.core d q).actQ.isEmpty) = false := by
        cases htakes : takesEntry op f with
        | false => rfl
        | true =>
          have := hentries htakes
          rw [hcore, htakes]
          simp
          omega
      have hblock : rowBlock (t.core d q) op f r = none := by
        rw [rowBlock, if_neg (by simpa [Option.isSome_iff_ne_none] using hroom), hentry]
        rfl
      obtain ⟨u, hu, hdone⟩ := ih (r + 1) _ (by omega) hnext
      exact ⟨u, by rw [runRows, hblock]; exact hu, hdone⟩
  exact hrun n 0 s (by omega) ⟨EngKept.refl s, ⟨(s.core d q).drains, rfl, by simp⟩, hstart⟩

end

/-! ### What an instruction that runs leaves (R107, R133, R145) -/

theorem reg_retireWord_ne (s : State) (d : Die) (q : CoreId) {r : Reg} (h : r ≠ .engRetired d q) : (retireWord s d q).reg r = s.reg r := by
  rw [retireWord]
  exact State.reg_addFld_ne _ _ _ h

theorem fld_retireWord (s : State) (d : Die) (q : CoreId) : (retireWord s d q).fld (.engRetired d q) F.engRetired_COUNT
    = min (s.fld (.engRetired d q) F.engRetired_COUNT + 1) (2 ^ 48 - 1) := by
  rw [retireWord, State.fld_addFld_same _ _ _ _ (by decide)]
  rfl

theorem core_retireWord (s : State) (d : Die) (q : CoreId) :
    (retireWord s d q).core d q = { s.core d q with issueQ := (s.core d q).issueQ.drop 1, prog := none } := by simp [retireWord]

/-- The core as an instruction's issue leaves it. -/
def issuedCore (s : State) (d : Die) (q : CoreId) (op : EngOp) (f : EngFields) : Core :=
  { (if op = .nop ∨ op = .slide then s.core d q else loadTiles (s.core d q) op f) with nextIssue := s.engBeat d q + spanOf op f }

theorem runWord_eq (s : State) (d : Die) (q : CoreId) (op : EngOp) (f : EngFields) :
    runWord s d q op f = runRows d q op f (rowsOfOp op f) 0 (s.setCore d q (issuedCore s d q op f)) := rfl

theorem issuedCore_eq (s : State) (d : Die) (q : CoreId) (op : EngOp) (f : EngFields) : issuedCore s d q op f
    = { s.core d q with engines := (issuedCore s d q op f).engines, nextIssue := s.engBeat d q + spanOf op f } := by
  unfold issuedCore
  split
  · rfl
  · conv_lhs => rw [rest_loadTiles]

/-- The word at the queue head of `Heads` runs to its end. -/
theorem heads_run {s : State} {d : Die} {q : CoreId} {w : EngWord} {ws : List EngWord} {p : Instr × EngOp} (hp : p ∈ engineOps d q)
    (h : Heads s d q w ws p.2) (hw : Mem.wf s.mem = true) (Q : Nat → Assoc (Fin 4) Engine → List Host.Cell → Prop)
    (hstart : Q 0 (issuedCore s d q p.2 (engFields w.word)).engines s.mem)
    (hbody : ∀ r t, r < rowsOfOp p.2 (engFields w.word) → EngKept d q s t
      → (t.core d q).actQ = (s.core d q).actQ.drop (if takesEntry p.2 (engFields w.word) then r else 0) → Q r (t.core d q).engines t.mem
      → RowBody d q (takesEntry p.2 (engFields w.word)) t (rowBody t d q p.2 (engFields w.word) r)
        ∧ Q (r + 1) ((rowBody t d q p.2 (engFields w.word) r).core d q).engines (rowBody t d q p.2 (engFields w.word) r).mem) :
    Runs p.1 s fun t => Retires s t d q w ws p.2
      ∧ (t.core d q).actQ = (s.core d q).actQ.drop (if takesEntry p.2 (engFields w.word) then rowsOfOp p.2 (engFields w.word) else 0)
      ∧ Q (rowsOfOp p.2 (engFields w.word)) (t.core d q).engines t.mem := by
  obtain ⟨hup, hq, hprog, hdue, hjudge, hentries, hdrain, -⟩ := h
  have hissued := issuedCore_eq s d q p.2 (engFields w.word)
  have hcore : (s.setCore d q (issuedCore s d q p.2 (engFields w.word))).core d q = issuedCore s d q p.2 (engFields w.word) :=
    State.core_setCore_same _ _ _ _
  have hdrains : ((s.setCore d q (issuedCore s d q p.2 (engFields w.word))).core d q).drains = (s.core d q).drains := by rw [hcore, hissued]
  have hactQ : ((s.setCore d q (issuedCore s d q p.2 (engFields w.word))).core d q).actQ = (s.core d q).actQ := by rw [hcore, hissued]
  obtain ⟨u, hu, hkept, ⟨b, hb, hrows⟩, hQ⟩ := runRows_done (hactQ ▸ hentries) (hdrains ▸ hdrain) (by rwa [hcore]) fun r t hr ht =>
    hbody r t hr ((EngKept.setCore s _).trans ht.kept) (by obtain ⟨b, -, hcore⟩ := ht.core; rw [hcore, hactQ]) ht.holds
  have hall := (EngKept.setCore s (issuedCore s d q p.2 (engFields w.word))).trans hkept
  refine ⟨_, (exec_engineOps d q p hp s).trans (congrArg _ (issueEngine_runs hup hprog hdue hq hjudge)), ?_⟩
  rw [runWord_eq, hu]
  rw [hdrains] at hb
  rw [hactQ] at hrows
  refine ⟨⟨?_, ?_, ?_, ?_, ?_, ?_, ?_, ?_, ?_, ?_, ?_⟩, ?_, ?_⟩
  · rw [core_retireWord, hrows, hcore, hissued, hq]
    rfl
  · rw [core_retireWord]
  · rw [core_retireWord, hrows, hcore, hissued]
  · rw [core_retireWord, hrows, hb]
  · rw [fld_retireWord, State.fld, hall.regs _ (by simp), State.fld]
  · exact hall.mem hw
  · exact fun e p hne => (State.core_setCore_ne _ _ hne).trans (hall.cores e p hne)
  · exact hall.ctxs
  · exact hall.dies
  · simpa [Raises, retireWord] using hall.reports
  · intro r hr
    obtain ⟨hr1, hr2⟩ : r ≠ .engRetired d q ∧ r ≠ .engCoreStatus d q := by simpa using hr
    rw [reg_retireWord_ne u d q hr1, hall.regs r (by simpa using hr2)]
  · rw [core_retireWord, hrows]
  · rw [core_retireWord]
    exact hQ

end Sys2Proof.Machine
end

section
/-! ### NOP, TOPK.SEL and SLIDE (R108, R125 to R127) -/

namespace Sys2Proof.Machine

theorem engFields_emask_lt (w : Word) : (engFields w).emask < 16 := bitsOf_lt w 58 55

theorem engFields_nrow_lt (w : Word) : (engFields w).nrow < 32 := bitsOf_lt w 54 50

/-- No engine of a gang lies past the last one. -/
theorem le_last_of_gang : ∀ m < 16, ∀ e ∈ gangOf m, e.val ≤ (gangOf m).foldl (fun _ e => e.val) 0 := by decide

/-- The engines of a gang write to stretches apart from each other. -/
theorem gang_apart (m lo stride : Nat) {data : Fin 4 → List Byte} (h : ∀ e, (data e).length ≤ stride) :
    (gangOf m).Pairwise fun e e' => lo + e.val * stride + (data e).length ≤ lo + e'.val * stride
      ∨ lo + e'.val * stride + (data e').length ≤ lo + e.val * stride := by
  refine (gangOf_nodup m).imp fun {e e'} hne => ?_
  have := h e
  have := h e'
  rcases Nat.lt_or_gt_of_ne (fun heq => hne (Fin.ext heq)) with hlt | hlt
  · have := Nat.mul_le_mul_right stride (Nat.succ_le_of_lt hlt)
    rw [Nat.succ_mul] at this
    omega
  · have := Nat.mul_le_mul_right stride (Nat.succ_le_of_lt hlt)
    rw [Nat.succ_mul] at this
    omega

/-- The active tile of an engine, an empty one where it has none. -/
def tileOf (g : Engine) : Tile := g.active.getD ⟨.k8, [], false⟩

theorem active_eq_tileOf {g : Engine} (h : ∃ t, g.active = some t) : g.active = some (tileOf g) := by
  obtain ⟨t, ht⟩ := h
  rw [tileOf, ht]
  rfl

theorem map_fst_mark (bs : List Byte) (bad : Bool) : (bs.map (fun b => (b, bad))).map Prod.fst = bs := by
  rw [List.map_map]
  exact List.map_id bs

/-- A write inside a core's partial-sum unit, with whether its POISONED flag is set. -/
theorem engKept_poke {d : Die} {q : CoreId} (s : State) (bad : Bool) {off : Nat} {bs : List (Byte × Bool)} (h : off + bs.length ≤ 1048576) :
    EngKept d q s ((if bad then s.setFld (.engCoreStatus d q) F.engCoreStatus_POISONED 1 else s).poke (unitBase d .pst q.val + off) bs) :=
  (EngKept.setStatusIf s _ _ _).trans (.ofStored (Stored.poke (le_unitBase d .pst q.val) (Nat.le_add_right _ _)
    (by rw [Nat.add_assoc]; exact Nat.add_le_add_left h _) _))

/-! #### TOPK.SEL -/

theorem length_topkRecord (bits idx : Nat) (valid : Bool) : (topkRecord bits idx valid).length = 8 := length_leBytes 8 _

theorem length_topkRecords (tile row : List Byte) (k : Nat) : (topkRecords tile row k).length = 8 * k := by
  unfold topkRecords
  refine (length_flatMap_const (n := 8) (fun j => ?_) _).trans (by rw [List.length_range])
  split <;> exact length_topkRecord _ _ _

/-- The records of one engine at their place (R126). -/
def putTopk (d : Die) (q : CoreId) (f : EngFields) (row : ActRow) (g : Fin 4 → Engine) (s : State) (e : Fin 4) : State :=
  match (g e).active with
  | none => s
  | some t =>
    let bad := row.poison || t.poison
    let s := if bad then s.setFld (.engCoreStatus d q) F.engCoreStatus_POISONED 1 else s
    s.poke (unitBase d .pst q.val + f.psbase * 1024 + e.val * 256) ((topkRecords t.bytes row.bytes (f.nrow + 1)).map (fun b => (b, bad)))

theorem stepTopk_cons {s : State} {d : Die} {q : CoreId} (f : EngFields) {row : ActRow} {rows : List ActRow} (h : (s.core d q).actQ = row :: rows) :
    stepTopk s d q f = (gangOf f.emask).foldl (putTopk d q f row (s.core d q).engine) (s.setCore d q { s.core d q with actQ := rows }) := by
  simp only [stepTopk, h]
  rfl

section
variable {d : Die} {q : CoreId} {f : EngFields} {row : ActRow} {g : Fin 4 → Engine}

theorem putTopk_some {e : Fin 4} (hactive : ∃ t, (g e).active = some t) (hfits : f.psbase * 1024 + e.val * 256 + 8 * f.nrow + 8 ≤ 1048576) (s : State) :
    EngKept d q s (putTopk d q f row g s e) ∧ (putTopk d q f row g s e).cores = s.cores
      ∧ (putTopk d q f row g s e).mem = Mem.write s.mem (unitBase d .pst q.val + f.psbase * 1024 + e.val * 256)
          (topkRecords (tileOf (g e)).bytes row.bytes (f.nrow + 1)) := by
  simp only [putTopk, active_eq_tileOf hactive, Nat.add_assoc]
  have hlen : f.psbase * 1024 + e.val * 256 + ((topkRecords (tileOf (g e)).bytes row.bytes (f.nrow + 1)).map
      (fun b => (b, row.poison || (tileOf (g e)).poison))).length ≤ 1048576 := by
    rw [List.length_map, length_topkRecords, Nat.mul_add_one 8, ← Nat.add_assoc]
    exact hfits
  refine ⟨engKept_poke s _ hlen, ?_, ?_⟩
  · rw [poke_cores]
    split <;> rfl
  · rw [poke_mem (Nat.le_add_right_of_le (le_unitBase d .pst q.val)), map_fst_mark]
    congr 1
    split <;> rfl

theorem putTopk_all {l : List (Fin 4)} (hactive : ∀ e ∈ l, ∃ t, (g e).active = some t)
    (hfits : ∀ e ∈ l, f.psbase * 1024 + e.val * 256 + 8 * f.nrow + 8 ≤ 1048576) (s : State) :
    EngKept d q s (l.foldl (putTopk d q f row g) s) ∧ (l.foldl (putTopk d q f row g) s).cores = s.cores
      ∧ (l.foldl (putTopk d q f row g) s).mem = l.foldl (fun m e => Mem.write m (unitBase d .pst q.val + f.psbase * 1024 + e.val * 256)
          (topkRecords (tileOf (g e)).bytes row.bytes (f.nrow + 1))) s.mem := by
  induction l generalizing s with
  | nil => exact ⟨EngKept.refl s, rfl, rfl⟩
  | cons e l ih =>
    obtain ⟨hkept, hcores, hmem⟩ := putTopk_some (row := row) (d := d) (q := q) (hactive e List.mem_cons_self) (hfits e List.mem_cons_self) s
    obtain ⟨ikept, icores, imem⟩ := ih (fun e' he' => hactive e' (List.mem_cons_of_mem e he')) (fun e' he' => hfits e' (List.mem_cons_of_mem e he'))
      (putTopk d q f row g s e)
    rw [List.foldl_cons, List.foldl_cons, ← hmem]
    exact ⟨hkept.trans ikept, icores.trans hcores, imem⟩

end

/-- The engines and the memory of TOPK.SEL after its one row, and before it. -/
def TopkAfter (s : State) (d : Die) (q : CoreId) (f : EngFields) (r : Nat) (es : Assoc (Fin 4) Engine) (m : List Host.Cell) : Prop :=
  es = (loadTiles (s.core d q) .topkSel f).engines ∧ (r = 1 → ∀ e ∈ gangOf f.emask, ∀ tile row rows,
    ((loadTiles (s.core d q) .topkSel f).engine e).active = some tile → (s.core d q).actQ = row :: rows →
    Mem.read m (unitBase d .pst q.val + f.psbase * 1024 + e.val * 256) (8 * (f.nrow + 1)) = topkRecords tile.bytes row.bytes (f.nrow + 1))

section
variable {s t : State} {d : Die} {q : CoreId} {f : EngFields}

/-- The row of TOPK.SEL writes the records of every engine of the gang. -/
theorem topkSel_row (hw : Mem.wf s.mem = true) (hnrow : f.nrow < 32)
    (hactive : ∀ e ∈ gangOf f.emask, ∃ t, ((loadTiles (s.core d q) .topkSel f).engine e).active = some t) (hentry : (s.core d q).actQ ≠ [])
    (hfits : ∀ e ∈ gangOf f.emask, f.psbase * 1024 + e.val * 256 + 8 * f.nrow + 8 ≤ 1048576)
    (hkept : EngKept d q s t) (hqueue : (t.core d q).actQ = (s.core d q).actQ)
    (hengines : (t.core d q).engines = (loadTiles (s.core d q) .topkSel f).engines) :
    RowBody d q true t (stepTopk t d q f)
      ∧ TopkAfter s d q f 1 ((stepTopk t d q f).core d q).engines (stepTopk t d q f).mem := by
  obtain ⟨row, rows, hrow⟩ := List.exists_cons_of_ne_nil hentry
  have hengine : (t.core d q).engine = (loadTiles (s.core d q) .topkSel f).engine := funext fun e => congrArg (·.at_ Engine.reset e) hengines
  obtain ⟨hput, hcores, hmem⟩ := putTopk_all (row := row) (d := d) (q := q) (g := (t.core d q).engine) (by rwa [hengine]) hfits
    (t.setCore d q { t.core d q with actQ := rows })
  rw [stepTopk_cons f (hqueue.trans hrow)]
  have hcore : ((gangOf f.emask).foldl (putTopk d q f row (t.core d q).engine) (t.setCore d q { t.core d q with actQ := rows })).core d q
      = { t.core d q with actQ := rows } := by
    rw [State.core, hcores]
    exact State.core_setCore_same t d q _
  refine ⟨⟨(EngKept.setCore t _).trans hput, (t.core d q).engines, by rw [hcore, hqueue, hrow]; rfl⟩, by rw [hcore, hengines],
    fun _ e he tile row' rows' htile hrow' => ?_⟩
  obtain ⟨rfl, -⟩ : row = row' ∧ rows = rows' := List.cons.inj (hrow.symm.trans hrow')
  have hlen (e : Fin 4) : (topkRecords (tileOf ((t.core d q).engine e)).bytes row.bytes (f.nrow + 1)).length ≤ 256 := by
    rw [length_topkRecords]
    omega
  have hread := Mem.read_foldl_write (m := t.mem) (hkept.wf hw) (gang_apart f.emask (unitBase d .pst q.val + f.psbase * 1024) 256 hlen) he (i := 0)
    (n := 8 * (f.nrow + 1)) (by rw [length_topkRecords, Nat.zero_add])
  rw [hmem]
  have htileOf : tileOf ((t.core d q).engine e) = tile := by rw [hengine, tileOf, htile]; rfl
  rw [htileOf, List.drop_zero, List.take_of_length_le (by rw [length_topkRecords])] at hread
  exact hread

end

theorem topkSel_runs {s : State} {d : Die} {q : CoreId} {w : EngWord} {ws : List EngWord} (hw : Mem.wf s.mem = true)
    (h : Heads s d q w ws .topkSel) : Runs (.topkSel d q) s fun t => Retires s t d q w ws .topkSel
      ∧ (t.core d q).actQ = (s.core d q).actQ.drop 1
      ∧ (∀ e, ((t.core d q).engine e).slots = ((s.core d q).engine e).slots)
      ∧ ∀ e ∈ gangOf (engFields w.word).emask, ∀ tile row rows,
          ((loadTiles (s.core d q) .topkSel (engFields w.word)).engine e).active = some tile → (s.core d q).actQ = row :: rows →
          t.bytes (unitBase d .pst q.val + (engFields w.word).psbase * 1024 + e.val * 256) (8 * ((engFields w.word).nrow + 1))
            = topkRecords tile.bytes row.bytes ((engFields w.word).nrow + 1) := by
  have hop := runsAs_of_heads h
  have hpass := passes_of_engCheckLate hop.late
  have hend : (engFields w.word).psbase * 1024 + (gangOf (engFields w.word).emask).foldl (fun _ e => e.val) 0 * 256
      + 8 * (engFields w.word).nrow + 8 ≤ 1048576 := hpass.fits
  have hfits : ∀ e ∈ gangOf (engFields w.word).emask,
      (engFields w.word).psbase * 1024 + e.val * 256 + 8 * (engFields w.word).nrow + 8 ≤ 1048576 := fun e he => by
    refine Nat.le_trans ?_ hend
    gcongr
    exact le_last_of_gang _ (engFields_emask_lt w.word) e he
  obtain ⟨t, ht, hretires, hqueue, hes, hrecords⟩ := heads_run (p := (.topkSel d q, .topkSel)) (by simp [engineOps]) h hw
    (TopkAfter s d q (engFields w.word)) ⟨rfl, nofun⟩ fun r t hr hkept hqueue hQ => by
      obtain rfl : r = 0 := Nat.lt_one_iff.mp hr
      exact topkSel_row hw (engFields_nrow_lt w.word) (fun e he => active_loadTiles (hpass.tiles nofun) he) (hop.entry rfl) hfits hkept hqueue hQ.1
  refine ⟨t, ht, hretires, hqueue, fun e => ?_, hrecords rfl⟩
  rw [Core.engine, hes]
  exact slots_loadTiles _ _ _ e

/-! #### NOP and SLIDE -/

theorem nop_runs {s : State} {d : Die} {q : CoreId} {w : EngWord} {ws : List EngWord} (hw : Mem.wf s.mem = true) (h : Heads s d q w ws .nop) :
    Runs (.nop d q) s fun t => Retires s t d q w ws .nop ∧ (t.core d q).engines = (s.core d q).engines
      ∧ (t.core d q).actQ = (s.core d q).actQ ∧ t.mem = s.mem := by
  obtain ⟨t, ht, hretires, hqueue, hengines, hmem⟩ := heads_run (p := (.nop d q, .nop)) (by simp [engineOps]) h hw
    (fun _ es m => es = (s.core d q).engines ∧ m = s.mem) ⟨rfl, rfl⟩ (fun r t hr => absurd hr (Nat.not_lt_zero r))
  exact ⟨t, ht, hretires, hengines, hqueue, hmem⟩

/-- An engine's tile moved by one lane. -/
def slideEngine (f : EngFields) (fill : List Byte) (bad : Bool) (g : Engine) : Engine :=
  match g.active with
  | none => g
  | some t => { g with active := some (slideTile t f.dir fill bad) }

/-- One beat of SLIDE in the gang, for a lane row that comes in. -/
def slideGang (f : EngFields) (c : Core) (fill : List Byte) (bad : Bool) : Core :=
  (gangOf f.emask).foldl (fun c e =>
    let g := c.engine e
    match g.active with
    | none => c
    | some t => c.setEngine e { g with active := some (slideTile t f.dir fill bad) }) c

theorem slideBeat_fillz {d : Die} {q : CoreId} {f : EngFields} (h : f.fillz = true) (s : State) :
    slideBeat d q f s = s.setCore d q (slideGang f (s.core d q) [] false) := by
  rw [slideBeat, if_pos h]
  rfl

theorem slideBeat_row {d : Die} {q : CoreId} {f : EngFields} (h : f.fillz = false) {s : State} {row : ActRow} {rows : List ActRow}
    (hq : (s.core d q).actQ = row :: rows) :
    slideBeat d q f s = s.setCore d q (slideGang f { s.core d q with actQ := rows } row.bytes row.poison) := by
  simp only [slideBeat, h, hq]
  rfl

theorem changesEngine_slide (f : EngFields) (fill : List Byte) (bad : Bool) : ChangesEngine (fun _ => slideEngine f fill bad) fun c e =>
    let g := c.engine e
    match g.active with
    | none => c
    | some t => c.setEngine e { g with active := some (slideTile t f.dir fill bad) } where
  same c e := by
    dsimp only
    cases h : (c.engine e).active with
    | none => simp [slideEngine, h]
    | some t => simp [slideEngine, h]
  other c e e' hne := by
    dsimp only
    split
    · rfl
    · exact Core.engine_setEngine_ne _ _ hne
  rest c e := by
    dsimp only
    split <;> rfl

theorem engine_slideGang (f : EngFields) (c : Core) (fill : List Byte) (bad : Bool) (e : Fin 4) :
    (slideGang f c fill bad).engine e = if e ∈ gangOf f.emask then slideEngine f fill bad (c.engine e) else c.engine e :=
  (changesEngine_slide f fill bad).engine_foldl (gangOf_nodup _) c e

theorem rest_slideGang (f : EngFields) (c : Core) (fill : List Byte) (bad : Bool) :
    slideGang f c fill bad = { c with engines := (slideGang f c fill bad).engines } := (changesEngine_slide f fill bad).rest_foldl _ c

/-- A tile after r steps of SLIDE (R127). -/
def slidTile (f : EngFields) (rows : List ActRow) (r : Nat) (tile : Tile) : Tile :=
  if f.fillz then (List.range r).foldl (fun x _ => slideTile x f.dir [] false) tile
  else (rows.take r).foldl (fun x row => slideTile x f.dir row.bytes row.poison) tile

/-- The engines and the memory of SLIDE after r steps. -/
def SlideAfter (s : State) (d : Die) (q : CoreId) (f : EngFields) (r : Nat) (es : Assoc (Fin 4) Engine) (m : List Host.Cell) : Prop :=
  m = s.mem ∧ (∀ e, e ∉ gangOf f.emask → es.at_ Engine.reset e = (s.core d q).engine e)
    ∧ ∀ e ∈ gangOf f.emask, ∀ tile, ((s.core d q).engine e).active = some tile →
      es.at_ Engine.reset e = { (s.core d q).engine e with active := some (slidTile f (s.core d q).actQ r tile) }

/-- The lane row that step r of SLIDE takes in, with its mark: a row of the queue, or zeros. -/
def slideFill (f : EngFields) (rows : List ActRow) (r : Nat) : List Byte × Bool :=
  if f.fillz then ([], false) else ((rows[r]?).map (fun row => (row.bytes, row.poison))).getD ([], false)

theorem slidTile_succ (f : EngFields) {rows : List ActRow} {r : Nat} (h : f.fillz = false → r < rows.length) (tile : Tile) :
    slidTile f rows (r + 1) tile = slideTile (slidTile f rows r tile) f.dir (slideFill f rows r).1 (slideFill f rows r).2 := by
  cases hz : f.fillz with
  | true => simp [slidTile, slideFill, hz, List.range_succ]
  | false =>
    have hr := h hz
    have hn : ¬f.fillz = true := by simp [hz]
    rw [slidTile, slidTile, slideFill, if_neg hn, if_neg hn, if_neg hn, List.take_succ_eq_append_getElem hr, List.foldl_append,
      List.getElem?_eq_getElem hr]
    rfl

section
variable {s t : State} {d : Die} {q : CoreId} {f : EngFields} {r : Nat}

/-- A step of SLIDE, from the queue's entry or from zeros. -/
theorem slideBeat_eq (h : f.fillz = false → r < (s.core d q).actQ.length)
    (hqueue : (t.core d q).actQ = (s.core d q).actQ.drop (if takesEntry .slide f then r else 0)) :
    slideBeat d q f t = t.setCore d q (slideGang f { t.core d q with actQ := (t.core d q).actQ.drop (if takesEntry .slide f then 1 else 0) }
      (slideFill f (s.core d q).actQ r).1 (slideFill f (s.core d q).actQ r).2) := by
  cases hz : f.fillz with
  | true =>
    rw [slideBeat_fillz hz]
    simp [takesEntry, slideFill, hz]
  | false =>
    have hr := h hz
    have hcons : (t.core d q).actQ = (s.core d q).actQ[r] :: (s.core d q).actQ.drop (r + 1) := by
      rw [hqueue, if_pos (by simp [takesEntry, hz])]
      exact List.drop_eq_getElem_cons hr
    have hfill : slideFill f (s.core d q).actQ r = ((s.core d q).actQ[r].bytes, (s.core d q).actQ[r].poison) := by
      simp [slideFill, hz, List.getElem?_eq_getElem hr]
    rw [slideBeat_row hz hcons, hcons, hfill, if_pos (by simp [takesEntry, hz])]
    rfl

theorem slide_row (h : f.fillz = false → r < (s.core d q).actQ.length)
    (hqueue : (t.core d q).actQ = (s.core d q).actQ.drop (if takesEntry .slide f then r else 0))
    (hQ : SlideAfter s d q f r (t.core d q).engines t.mem) :
    RowBody d q (takesEntry .slide f) t (slideBeat d q f t)
      ∧ SlideAfter s d q f (r + 1) ((slideBeat d q f t).core d q).engines (slideBeat d q f t).mem := by
  obtain ⟨hmem, hother, hgang⟩ := hQ
  rw [slideBeat_eq h hqueue]
  have hengine (e : Fin 4) := engine_slideGang f
    { t.core d q with actQ := (t.core d q).actQ.drop (if takesEntry .slide f then 1 else 0) }
    (slideFill f (s.core d q).actQ r).1 (slideFill f (s.core d q).actQ r).2 e
  refine ⟨⟨EngKept.setCore t _, _, by rw [State.core_setCore_same, rest_slideGang]⟩, hmem, fun e he => ?_, fun e he tile htile => ?_⟩ <;>
    rw [State.core_setCore_same]
  · exact (hengine e).trans ((if_neg he).trans (hother e he))
  · refine (hengine e).trans ((if_pos he).trans ?_)
    have hthis : (t.core d q).engine e = _ := hgang e he tile htile
    rw [slidTile_succ f h tile]
    show slideEngine f _ _ ((t.core d q).engine e) = _
    rw [hthis]
    rfl

end

theorem slide_runs {s : State} {d : Die} {q : CoreId} {w : EngWord} {ws : List EngWord} (hw : Mem.wf s.mem = true)
    (h : Heads s d q w ws .slide) : Runs (.slide d q) s fun t => Retires s t d q w ws .slide ∧ t.mem = s.mem
      ∧ (t.core d q).actQ = (s.core d q).actQ.drop (if (engFields w.word).fillz then 0 else (engFields w.word).nrow + 1)
      ∧ (∀ e, e ∉ gangOf (engFields w.word).emask → (t.core d q).engine e = (s.core d q).engine e)
      ∧ ∀ e ∈ gangOf (engFields w.word).emask, ∀ tile, ((s.core d q).engine e).active = some tile →
          (t.core d q).engine e = { (s.core d q).engine e with active := some (
            slidTile (engFields w.word) (s.core d q).actQ ((engFields w.word).nrow + 1) tile) } := by
  have hentries := h.2.2.2.2.2.1
  obtain ⟨t, ht, hretires, hqueue, hmem, hother, hgang⟩ := heads_run (p := (.slide d q, .slide)) (by simp [engineOps]) h hw
    (SlideAfter s d q (engFields w.word))
    ⟨rfl, fun _ _ => rfl, fun e _ tile htile => by
      show (s.core d q).engine e = _
      cases hz : (engFields w.word).fillz <;> simp [slidTile, hz, ← htile]⟩
    fun r t hr hkept hqueue hQ => slide_row (fun hz => Nat.lt_of_lt_of_le hr (hentries (by simp [takesEntry, hz]))) hqueue hQ
  refine ⟨t, ht, hretires, hmem, ?_, hother, hgang⟩
  rw [hqueue]
  cases hz : (engFields w.word).fillz <;> simp [takesEntry, hz, rowsOfOp]

/-- Settles O30: the three are the runs of a queue head whose rows are none, one and NROW + 1 steps. -/
theorem engineSelectAndSlide : Obligations.EngineSelectAndSlide := by
  intro s d q w ws hw
  refine ⟨nop_runs hw, topkSel_runs hw, fun h => ?_⟩
  obtain ⟨t, ht, hretires, hmem, hqueue, hother, hgang⟩ := slide_runs hw h
  exact ⟨t, ht, hretires, hmem, hqueue, hother, hgang⟩

end Sys2Proof.Machine
end

section
/-! ### Arithmetic rows (R101, R102, R105, R114, R115, R118, R119) -/

namespace Sys2Proof.Machine

theorem mem_engineOps_of_arith {d : Die} {q : CoreId} {p : Instr × EngOp} (hp : p ∈ arithOps d q) : p ∈ engineOps d q :=
  List.mem_append_left _ hp

theorem arith_of_mem {d : Die} {q : CoreId} {p : Instr × EngOp} (hp : p ∈ arithOps d q) : p.2.arith = true := by
  simp only [arithOps, List.mem_cons, List.not_mem_nil, or_false] at hp
  rcases hp with rfl | rfl | rfl | rfl | rfl | rfl | rfl | rfl | rfl <;> rfl

/-! #### Drains of a row (R114, R115, R222) -/

/-- What a mode that accumulates writes is as long as the elements it adds to (R219, R220). -/
theorem length_accAt (s : State) (a : Nat) (fp32 src4 : Bool) (data : List (Byte × Bool)) :
    (accAt s a fp32 src4 data).length = (if fp32 then 4 else 2) * (data.length / if fp32 || src4 then 4 else 2) := by
  unfold accAt
  refine (length_flatMap_const (n := if fp32 then 4 else 2) (fun i => ?_) _).trans (by rw [List.length_range])
  rw [List.length_map, length_leBytes]

/-- The bytes that a lane gives to a mode (R114): those it writes, or in an accumulating mode those the memory adds. -/
def drainWidth (drain : Nat) : Nat := if drain = 5 then 4 else drainSize drain

theorem length_drainBytes (drain : Nat) (isInt : Bool) (h : Half) : (drainBytes drain isInt h).length = drainWidth drain :=
  match drain with
  | 0 => rfl
  | 1 => length_leBytes 4 _
  | 2 => length_leBytes 2 _
  | 3 => length_leBytes 1 _
  | 4 => length_leBytes 4 _
  | 5 => length_leBytes 4 _
  | _ + 6 => rfl

/-- The marked bytes that a slot's lanes give to a mode. -/
def drainData (f : EngFields) (bad : Bool) (slot : AccSlot × Bool) : List (Byte × Bool) :=
  slot.1.lanes.flatMap (fun h => (drainBytes f.drain slot.2 h).map (fun b => (b, bad)))

theorem length_drainData (f : EngFields) (bad : Bool) {slot : AccSlot × Bool} (h : slot.1.lanes.length = 64) :
    (drainData f bad slot).length = drainWidth f.drain * 64 := by
  rw [drainData, length_flatMap_const (n := drainWidth f.drain) (fun a => by rw [List.length_map, length_drainBytes]), h]

theorem map_fst_drainData (f : EngFields) (bad : Bool) (slot : AccSlot × Bool) :
    (drainData f bad slot).map Prod.fst = slot.1.lanes.flatMap (drainBytes f.drain slot.2) := by
  simp only [drainData, List.map_flatMap, map_fst_mark]

/-- Where engine e drains row r, from the unit's base on (R115). -/
def drainOff (f : EngFields) (r : Nat) (e : Fin 4) : Nat :=
  f.psbase * 1024 + r * 256 * drainSize f.drain + e.val * 64 * drainSize f.drain

/-- The drain of one engine's slot. -/
def putDrain (d : Die) (q : CoreId) (f : EngFields) (r : Nat) (bad : Bool) (s : State) (p : Fin 4 × AccSlot × Bool) : State :=
  let a := unitBase d .pst q.val + f.psbase * 1024 + r * 256 * drainSize f.drain + p.1.val * 64 * drainSize f.drain
  let data := drainData f bad p.2
  if f.drain = 4 then
    let s := readStore s a 256
    s.poke a (accAt s a true true data)
  else if f.drain = 5 then
    let s := readStore s a 128
    s.poke a (accAt s a false true data)
  else s.poke a data

theorem drainRow_eq (s : State) (d : Die) (q : CoreId) (f : EngFields) (r : Nat) (slots : List (Fin 4 × AccSlot × Bool)) :
    drainRow s d q f r slots = if drainSize f.drain = 0 then s else
      slots.foldl (putDrain d q f r (slots.any fun p => p.2.1.poison))
        (if slots.any fun p => p.2.1.poison then s.setFld (.engCoreStatus d q) F.engCoreStatus_POISONED 1 else s) := rfl

section
variable {d : Die} {q : CoreId} {f : EngFields} {r : Nat} {p : Fin 4 × AccSlot × Bool}

/-- A drained slot writes its 64 elements of the mode's size, and no more. -/
theorem putDrain_poke (hlanes : p.2.1.lanes.length = 64) {s : State} (hlatent : f.accDrain = true → s.latent = []) (bad : Bool) :
    ∃ bs, bs.length = 64 * drainSize f.drain ∧ putDrain d q f r bad s p = s.poke (unitBase d .pst q.val + drainOff f r p.1) bs
      ∧ (f.drain = 1 → bs.map Prod.fst = p.2.1.lanes.flatMap fun h => leBytes 4 h.toNat) := by
  have hlen := length_drainData f bad hlanes
  have haddr : unitBase d .pst q.val + f.psbase * 1024 + r * 256 * drainSize f.drain + p.1.val * 64 * drainSize f.drain
      = unitBase d .pst q.val + drainOff f r p.1 := by rw [drainOff, Nat.add_assoc, Nat.add_assoc, Nat.add_assoc]
  simp only [putDrain, haddr]
  by_cases h4 : f.drain = 4
  · have hl : s.latent = [] := hlatent (by simp [EngFields.accDrain, h4])
    rw [if_pos h4, readStore_of_latent hl]
    refine ⟨_, ?_, rfl, fun h1 => by rw [h1] at h4; cases h4⟩
    rw [length_accAt, hlen, h4]
    rfl
  · rw [if_neg h4]
    by_cases h5 : f.drain = 5
    · have hl : s.latent = [] := hlatent (by simp [EngFields.accDrain, h5])
      rw [if_pos h5, readStore_of_latent hl]
      refine ⟨_, ?_, rfl, fun h1 => by rw [h1] at h5; cases h5⟩
      rw [length_accAt, hlen, h5]
      rfl
    · rw [if_neg h5]
      refine ⟨_, ?_, rfl, fun h1 => ?_⟩
      · rw [hlen, drainWidth, if_neg h5, Nat.mul_comm]
      · rw [map_fst_drainData, h1]
        rfl

theorem stored_putDrain (hfits : drainOff f r p.1 + 64 * drainSize f.drain ≤ 1048576) (hlanes : p.2.1.lanes.length = 64)
    {s : State} (hlatent : f.accDrain = true → s.latent = []) (bad : Bool) :
    Stored (unitBase d .pst q.val) 1048576 s (putDrain d q f r bad s p) ∧ (putDrain d q f r bad s p).cores = s.cores := by
  obtain ⟨bs, hbs, heq, -⟩ := putDrain_poke (d := d) (q := q) (r := r) hlanes hlatent bad
  rw [heq]
  refine ⟨Stored.poke (le_unitBase d .pst q.val) (Nat.le_add_right _ _) ?_ s, poke_cores _ _ _⟩
  rw [Nat.add_assoc, hbs]
  exact Nat.add_le_add_left hfits _

theorem mem_putDrain_raw (hlanes : p.2.1.lanes.length = 64) (hraw : f.drain = 1) (s : State) (bad : Bool) :
    (putDrain d q f r bad s p).mem = Mem.write s.mem (unitBase d .pst q.val + drainOff f r p.1)
      (p.2.1.lanes.flatMap fun h => leBytes 4 h.toNat) := by
  have hacc : f.accDrain = false := by simp [EngFields.accDrain, hraw]
  obtain ⟨bs, -, heq, hbytes⟩ := putDrain_poke (d := d) (q := q) (f := f) (r := r) (s := s) hlanes
    (fun h => by rw [hacc] at h; cases h) bad
  rw [heq, poke_mem (Nat.le_add_right_of_le (le_unitBase d .pst q.val)), hbytes hraw]

end

section
variable {d : Die} {q : CoreId} {f : EngFields} {r : Nat} {s : State} {l : List (Fin 4 × AccSlot × Bool)}
  (hlanes : ∀ p ∈ l, p.2.1.lanes.length = 64)
include hlanes

/-- The drains of a row write in the core's partial-sum unit alone. -/
theorem drainRow_kept (hfits : drainSize f.drain ≠ 0 → ∀ p ∈ l, drainOff f r p.1 + 64 * drainSize f.drain ≤ 1048576)
    (hlatent : f.accDrain = true → s.latent = []) :
    EngKept d q s (drainRow s d q f r l) ∧ (drainRow s d q f r l).cores = s.cores := by
  rw [drainRow_eq]
  split
  · exact ⟨EngKept.refl s, rfl⟩
  · have hstatus := EngKept.setStatusIf (d := d) (q := q) s ((l.any fun p => p.2.1.poison) = true) F.engCoreStatus_POISONED 1
    have hcores : (if l.any fun p => p.2.1.poison then s.setFld (.engCoreStatus d q) F.engCoreStatus_POISONED 1 else s).cores = s.cores := by
      split <;> rfl
    generalize hu : (if l.any fun p => p.2.1.poison then s.setFld (.engCoreStatus d q) F.engCoreStatus_POISONED 1 else s) = u
    rw [hu] at hstatus hcores
    have hlu : f.accDrain = true → u.latent = [] := fun ha => hstatus.latent (hlatent ha)
    have hfold : Stored (unitBase d .pst q.val) 1048576 u (l.foldl (putDrain d q f r (l.any fun p => p.2.1.poison)) u) :=
      Stored.foldl fun t ht p hp => (stored_putDrain (hfits ‹_› p hp) (hlanes p hp) (fun ha => ht (hlu ha)) _).1
    refine ⟨hstatus.trans (.ofStored hfold), ?_⟩
    rw [hfold.rest]
    exact hcores

/-- DRAIN RAW writes the 32-bit slots in lane order (R114, R115). -/
theorem drainRow_raw (hraw : f.drain = 1) :
    (drainRow s d q f r l).mem = l.foldl (fun m p => Mem.write m (unitBase d .pst q.val + drainOff f r p.1)
      (p.2.1.lanes.flatMap fun h => leBytes 4 h.toNat)) s.mem := by
  have hfold (bad : Bool) (l' : List (Fin 4 × AccSlot × Bool)) (hl : ∀ p ∈ l', p ∈ l) (u : State) :
      (l'.foldl (putDrain d q f r bad) u).mem = l'.foldl (fun m p => Mem.write m (unitBase d .pst q.val + drainOff f r p.1)
        (p.2.1.lanes.flatMap fun h => leBytes 4 h.toNat)) u.mem := by
    induction l' generalizing u with
    | nil => rfl
    | cons p l' ih =>
      obtain ⟨hp, hl⟩ := List.forall_mem_cons.mp hl
      rw [List.foldl_cons, List.foldl_cons, ih hl, mem_putDrain_raw (hlanes p hp) hraw]
  rw [drainRow_eq, if_neg (by rw [hraw]; decide), hfold _ l fun _ h => h]
  congr 1
  split <;> rfl

end

theorem drainRow_none {f : EngFields} (h : f.drain = 0) (s : State) (d : Die) (q : CoreId) (r : Nat) (l : List (Fin 4 × AccSlot × Bool)) :
    drainRow s d q f r l = s := by rw [drainRow_eq, if_pos (by rw [h]; rfl)]

/-! #### One row (R118, R128) -/

/-- The slot that row r leaves in engine e. -/
def rowSlot (c : Core) (op : EngOp) (f : EngFields) (row : ActRow) (r : Nat) (e : Fin 4) : AccSlot :=
  (engineRow op f (c.engine e) (tileOf (c.engine e)) row r).1

/-- The core after row r: the gang's engines hold its slots. -/
def rowCore (c : Core) (op : EngOp) (f : EngFields) (row : ActRow) (rows : List ActRow) (r : Nat) : Core :=
  (gangOf f.emask).foldl (fun c' e => c'.setEngine e { c'.engine e with slots := (c'.engine e).slots.put r (rowSlot c op f row r e) })
    { c with actQ := rows }

theorem engine_rowCore (c : Core) (op : EngOp) (f : EngFields) (row : ActRow) (rows : List ActRow) (r : Nat) (e : Fin 4) :
    (rowCore c op f row rows r).engine e
      = if e ∈ gangOf f.emask then { c.engine e with slots := (c.engine e).slots.put r (rowSlot c op f row r e) } else c.engine e :=
  (changesEngine_setEngine fun e g => { g with slots := g.slots.put r (rowSlot c op f row r e) }).engine_foldl (gangOf_nodup _) _ e

theorem rest_rowCore (c : Core) (op : EngOp) (f : EngFields) (row : ActRow) (rows : List ActRow) (r : Nat) :
    rowCore c op f row rows r = { c with engines := (rowCore c op f row rows r).engines, actQ := rows } :=
  (changesEngine_setEngine fun e g => { g with slots := g.slots.put r (rowSlot c op f row r e) }).rest_foldl (gangOf f.emask) _

theorem length_lanes_rowSlot (c : Core) (op : EngOp) (f : EngFields) (row : ActRow) (r : Nat) (e : Fin 4) :
    (rowSlot c op f row r e).lanes.length = 64 := by simp [rowSlot, engineRow]

/-- A row depends of an engine on its slot alone. -/
theorem engineRow_congr {g g' : Engine} {r : Nat} (h : g.slots.find r = g'.slots.find r) (op : EngOp) (f : EngFields) (tile : Tile) (row : ActRow) :
    engineRow op f g tile row r = engineRow op f g' tile row r := by simp only [engineRow, Assoc.at_, h]

/-- The state that row r leaves before its drains. -/
def rowState (s : State) (d : Die) (q : CoreId) (op : EngOp) (f : EngFields) (row : ActRow) (rows : List ActRow) (r : Nat) : State :=
  let s' := s.setCore d q (rowCore (s.core d q) op f row rows r)
  if (gangOf f.emask).any (fun e => (engineRow op f ((s.core d q).engine e) (tileOf ((s.core d q).engine e)) row r).2) then
    s'.setFld (.engCoreStatus d q) F.engCoreStatus_SAT 1
  else s'

/-- The slots that row r leaves, with their engines and types. -/
def rowSlots (c : Core) (op : EngOp) (f : EngFields) (row : ActRow) (r : Nat) : List (Fin 4 × AccSlot × Bool) :=
  (gangOf f.emask).map fun e => (e, rowSlot c op f row r e, (c.engine e).intType)

/-- A row's results stored and drained: for each engine its slot, its type and whether a lane was clipped. -/
def storeRow (s : State) (d : Die) (q : CoreId) (f : EngFields) (rows : List ActRow) (r : Nat) (outs : List (Fin 4 × AccSlot × Bool × Bool)) : State :=
  let c' := outs.foldl (fun c o =>
    let g := c.engine o.1
    c.setEngine o.1 { g with slots := g.slots.put r o.2.1 }) { s.core d q with actQ := rows }
  let s := s.setCore d q c'
  let s := if outs.any (fun o => o.2.2.2) then s.setFld (.engCoreStatus d q) F.engCoreStatus_SAT 1 else s
  drainRow s d q f r (outs.map (fun o => (o.1, o.2.1, o.2.2.1)))

/-- The results of a row in the engines that have a tile. -/
def rowOuts (c : Core) (op : EngOp) (f : EngFields) (row : ActRow) (r : Nat) : List (Fin 4 × AccSlot × Bool × Bool) :=
  (gangOf f.emask).filterMap (fun e =>
    match (c.engine e).active with
    | none => none
    | some t => some (e, (engineRow op f (c.engine e) t row r).1, (c.engine e).intType, (engineRow op f (c.engine e) t row r).2))

theorem rowOuts_active {c : Core} {op : EngOp} {f : EngFields} {row : ActRow} {r : Nat}
    (hactive : ∀ e ∈ gangOf f.emask, ∃ t, (c.engine e).active = some t) :
    rowOuts c op f row r = (gangOf f.emask).map fun e =>
      (e, rowSlot c op f row r e, (c.engine e).intType, (engineRow op f (c.engine e) (tileOf (c.engine e)) row r).2) := by
  rw [← List.filterMap_eq_map]
  refine List.filterMap_congr fun e he => ?_
  rw [active_eq_tileOf (hactive e he)]
  rfl

theorem stepRow_eq_storeRow {s : State} {d : Die} {q : CoreId} (op : EngOp) (f : EngFields) {row : ActRow} {rows : List ActRow} (r : Nat)
    (hq : (s.core d q).actQ = row :: rows) : stepRow s d q op f r = storeRow s d q f rows r (rowOuts (s.core d q) op f row r) := by
  simp only [stepRow, hq]
  rfl

theorem stepRow_cons {s : State} {d : Die} {q : CoreId} (op : EngOp) {f : EngFields} {row : ActRow} {rows : List ActRow} (r : Nat)
    (hq : (s.core d q).actQ = row :: rows) (hactive : ∀ e ∈ gangOf f.emask, ∃ t, ((s.core d q).engine e).active = some t) :
    stepRow s d q op f r = drainRow (rowState s d q op f row rows r) d q f r (rowSlots (s.core d q) op f row r) := by
  rw [stepRow_eq_storeRow op f r hq, rowOuts_active hactive, storeRow]
  simp only [List.foldl_map, List.any_map, List.map_map]
  rfl

end Sys2Proof.Machine
end

section
/-! ### The rows of an arithmetic instruction -/

namespace Sys2Proof.Machine

/-! #### A row drained RAW -/

/-- The slots of a gang written in lane order, 256 bytes an engine. -/
def writeSlots (m : List Host.Cell) (lo : Nat) (gang : List (Fin 4)) (slots : Fin 4 → AccSlot) : List Host.Cell :=
  gang.foldl (fun m e => Mem.write m (lo + e.val * 256) ((slots e).lanes.flatMap fun h => leBytes 4 h.toNat)) m

theorem length_slotBytes {sl : AccSlot} (h : sl.lanes.length = 64) : (sl.lanes.flatMap fun h => leBytes 4 h.toNat).length = 256 := by
  rw [length_flatMap_const (f := fun h : Half => leBytes 4 h.toNat) fun h => length_leBytes 4 h.toNat, h]

section
variable {m : List Host.Cell} (hw : Mem.wf m = true) {lo emask : Nat} {slots : Fin 4 → AccSlot} (hlanes : ∀ e, (slots e).lanes.length = 64)
include hw hlanes

theorem read_writeSlots {e : Fin 4} (he : e ∈ gangOf emask) {l : Nat} (hl : l < 64) :
    Mem.read (writeSlots m lo (gangOf emask) slots) (lo + e.val * 256 + 4 * l) 4 = leBytes 4 ((slots e).lanes.getD l 0).toNat := by
  have hlane : l < (slots e).lanes.length := hlanes e ▸ hl
  have hread := Mem.read_foldl_write hw (gang_apart emask lo 256 fun e => Nat.le_of_eq (length_slotBytes (hlanes e))) he (i := 4 * l) (n := 4)
    (by rw [length_slotBytes (hlanes e)]; omega)
  refine hread.trans ((take_drop_flatMap (fun h => length_leBytes 4 h.toNat) hlane).trans ?_)
  rw [List.getD_eq_getElem?_getD, List.getElem?_eq_getElem hlane, Option.getD_some]

theorem get_writeSlots_apart {x : Nat} (hx : x < lo ∨ lo + 1024 ≤ x) :
    Mem.get (writeSlots m lo (gangOf emask) slots) x = Mem.get m x :=
  Mem.get_foldl_write_apart hw fun e _ => by
    rw [length_slotBytes (hlanes e)]
    have := e.isLt
    omega

end

/-! #### One row -/

section
variable {s : State} {d : Die} {q : CoreId} {op : EngOp} {f : EngFields} {row : ActRow} {rows : List ActRow} {r : Nat}

theorem core_rowState : (rowState s d q op f row rows r).core d q = rowCore (s.core d q) op f row rows r := by
  unfold rowState
  dsimp only
  split
  · exact State.core_setCore_same _ _ _ _
  · exact State.core_setCore_same _ _ _ _

theorem mem_rowState : (rowState s d q op f row rows r).mem = s.mem := by
  unfold rowState
  dsimp only
  split <;> rfl

theorem engKept_rowState : EngKept d q s (rowState s d q op f row rows r) := (EngKept.setCore s _).trans (EngKept.setStatusIf _ _ _ _)

theorem mem_rowSlots {c : Core} {p : Fin 4 × AccSlot × Bool} (hp : p ∈ rowSlots c op f row r) :
    p.1 ∈ gangOf f.emask ∧ p.2.1.lanes.length = 64 := by
  obtain ⟨e, he, rfl⟩ := List.mem_map.mp hp
  exact ⟨he, length_lanes_rowSlot c op f row r e⟩

/-- A row takes its entry of the queue, and of the core it changes the engines; without DRAIN memory stays, and DRAIN RAW writes
the gang's slots. -/
theorem stepRow_row (hq : (s.core d q).actQ = row :: rows) (hactive : ∀ e ∈ gangOf f.emask, ∃ t, ((s.core d q).engine e).active = some t)
    (hfits : drainSize f.drain ≠ 0 → ∀ e ∈ gangOf f.emask, drainOff f r e + 64 * drainSize f.drain ≤ 1048576)
    (hlatent : f.accDrain = true → s.latent = []) :
    EngKept d q s (stepRow s d q op f r) ∧ (stepRow s d q op f r).core d q = rowCore (s.core d q) op f row rows r
      ∧ (f.drain = 0 → (stepRow s d q op f r).mem = s.mem)
      ∧ (f.drain = 1 → (stepRow s d q op f r).mem = writeSlots s.mem (unitBase d .pst q.val + f.psbase * 1024 + r * 1024) (gangOf f.emask)
          (rowSlot (s.core d q) op f row r)) := by
  obtain ⟨hkept, hcores⟩ := drainRow_kept (d := d) (q := q) (f := f) (r := r) (s := rowState s d q op f row rows r) (l := rowSlots (s.core d q) op f row r)
    (fun p hp => (mem_rowSlots hp).2) (fun hz p hp => hfits hz p.1 (mem_rowSlots hp).1) (fun ha => engKept_rowState.latent (hlatent ha))
  rw [stepRow_cons op r hq hactive]
  refine ⟨engKept_rowState.trans hkept, ?_, fun hnone => ?_, fun hraw => ?_⟩
  · rw [State.core, hcores]
    exact core_rowState
  · rw [drainRow_none hnone, mem_rowState]
  · have haddr (e : Fin 4) : unitBase d .pst q.val + drainOff f r e = unitBase d .pst q.val + f.psbase * 1024 + r * 1024 + e.val * 256 := by
      rw [drainOff, hraw, drainSize, Nat.mul_assoc r, Nat.mul_assoc e.val, Nat.add_assoc, Nat.add_assoc, Nat.add_assoc]
    rw [drainRow_raw (fun p hp => (mem_rowSlots hp).2) hraw, mem_rowState, rowSlots, List.foldl_map]
    simp only [haddr]
    rfl

end

/-! #### All rows -/

/-- The engines and the memory of an arithmetic instruction after r rows: the gang's engines are those of its issue but for
slots 0 to r - 1, which hold the results of their rows. -/
structure ArithAfter (s : State) (d : Die) (q : CoreId) (op : EngOp) (f : EngFields) (r : Nat) (es : Assoc (Fin 4) Engine) (m : List Host.Cell) :
    Prop where
  other : ∀ e, e ∉ gangOf f.emask → es.at_ Engine.reset e = (s.core d q).engine e
  active : ∀ e ∈ gangOf f.emask, (es.at_ Engine.reset e).active = ((loadTiles (s.core d q) op f).engine e).active
  ahead : ∀ e ∈ gangOf f.emask, ∀ k, r ≤ k → (es.at_ Engine.reset e).slots.find k = ((loadTiles (s.core d q) op f).engine e).slots.find k
  done : ∀ e ∈ gangOf f.emask, ∀ k row, k < r → (s.core d q).actQ[k]? = some row →
    (es.at_ Engine.reset e).slots.find k = some (rowSlot (loadTiles (s.core d q) op f) op f row k e)
  plain : f.drain = 0 → m = s.mem
  raw : f.drain = 1 → ∀ e ∈ gangOf f.emask, ∀ k row l, k < r → (s.core d q).actQ[k]? = some row → l < 64 →
    Mem.read m (unitBase d .pst q.val + f.psbase * 1024 + k * 1024 + e.val * 256 + 4 * l) 4
      = leBytes 4 ((rowSlot (loadTiles (s.core d q) op f) op f row k e).lanes.getD l 0).toNat

theorem arithAfter_zero (s : State) (d : Die) (q : CoreId) (op : EngOp) (f : EngFields) :
    ArithAfter s d q op f 0 (loadTiles (s.core d q) op f).engines s.mem where
  other e he := (engine_loadTiles (s.core d q) op f e).trans (if_neg he)
  active _ _ := rfl
  ahead _ _ _ _ := rfl
  done _ _ _ _ hk := absurd hk (Nat.not_lt_zero _)
  plain _ := rfl
  raw _ _ _ _ _ _ hk := absurd hk (Nat.not_lt_zero _)

section
variable {s t : State} {d : Die} {q : CoreId} {op : EngOp} {f : EngFields} {r : Nat}

/-- The engines of the gang give row r the same slots as those of the issue. -/
theorem ArithAfter.rowSlot_eq (h : ArithAfter s d q op f r (t.core d q).engines t.mem) (row : ActRow) {e : Fin 4} (he : e ∈ gangOf f.emask) :
    rowSlot (t.core d q) op f row r e = rowSlot (loadTiles (s.core d q) op f) op f row r e := by
  have hslot : ((t.core d q).engine e).slots.find r = _ := h.ahead e he r (Nat.le_refl r)
  have htile : tileOf ((t.core d q).engine e) = tileOf ((loadTiles (s.core d q) op f).engine e) := congrArg (·.getD ⟨.k8, [], false⟩) (h.active e he)
  rw [rowSlot, rowSlot, htile, engineRow_congr hslot]

/-- A row of an arithmetic instruction. -/
theorem arith_row (hw : Mem.wf s.mem = true) (hr : r < (s.core d q).actQ.length)
    (hactive : ∀ e ∈ gangOf f.emask, ∃ t, ((loadTiles (s.core d q) op f).engine e).active = some t)
    (hfits : drainSize f.drain ≠ 0 → ∀ e ∈ gangOf f.emask, drainOff f r e + 64 * drainSize f.drain ≤ 1048576)
    (hlatent : f.accDrain = true → s.latent = []) (hkept : EngKept d q s t) (hqueue : (t.core d q).actQ = (s.core d q).actQ.drop r)
    (hQ : ArithAfter s d q op f r (t.core d q).engines t.mem) :
    RowBody d q true t (stepRow t d q op f r)
      ∧ ArithAfter s d q op f (r + 1) ((stepRow t d q op f r).core d q).engines (stepRow t d q op f r).mem := by
  have hcons : (t.core d q).actQ = (s.core d q).actQ[r] :: (s.core d q).actQ.drop (r + 1) := hqueue.trans (List.drop_eq_getElem_cons hr)
  obtain ⟨hrow, hcore, hplain, hraw⟩ := stepRow_row (op := op) (r := r) hcons
    (fun e he => by obtain ⟨x, hx⟩ := hactive e he; exact ⟨x, (hQ.active e he).trans hx⟩) hfits (fun ha => hkept.latent (hlatent ha))
  have hengine (e : Fin 4) := engine_rowCore (t.core d q) op f (s.core d q).actQ[r] ((s.core d q).actQ.drop (r + 1)) r e
  have hgang {e : Fin 4} (he : e ∈ gangOf f.emask) := (hengine e).trans (if_pos he)
  have hslot {e : Fin 4} (he : e ∈ gangOf f.emask) := hQ.rowSlot_eq (s.core d q).actQ[r] he
  have hlast {k : Nat} {row : ActRow} (hk : k = r) (hat : (s.core d q).actQ[k]? = some row) : row = (s.core d q).actQ[r] := by
    rw [hk, List.getElem?_eq_getElem hr] at hat
    exact (Option.some.inj hat).symm
  refine ⟨⟨hrow, _, by rw [hcore, rest_rowCore, hcons]; rfl⟩, ?_⟩
  rw [hcore]
  refine ⟨fun e he => (hengine e).trans ((if_neg he).trans (hQ.other e he)), fun e he => (congrArg Engine.active (hgang he)).trans (hQ.active e he),
    fun e he k hk => ?_, fun e he k row hk hat => ?_, fun h0 => (hplain h0).trans (hQ.plain h0), fun h1 e he k row l hk hat hl => ?_⟩
  · refine (congrArg (fun g : Engine => g.slots.find k) (hgang he)).trans ?_
    exact (Assoc.find_put_ne _ _ (by omega)).trans (hQ.ahead e he k (by omega))
  · refine (congrArg (fun g : Engine => g.slots.find k) (hgang he)).trans ((Assoc.find_put _ _ _ _).trans ?_)
    by_cases hkr : k = r
    · rw [if_pos hkr, hlast hkr hat, hkr, hslot he]
    · rw [if_neg hkr]
      exact hQ.done e he k row (by omega) hat
  · rw [hraw h1]
    have hlanes (e : Fin 4) := length_lanes_rowSlot (t.core d q) op f (s.core d q).actQ[r] r e
    by_cases hkr : k = r
    · rw [hkr, read_writeSlots (hkept.wf hw) hlanes he hl, hslot he, hlast hkr hat]
    · rw [← hQ.raw h1 e he k row l (by omega) hat hl]
      generalize unitBase d .pst q.val + f.psbase * 1024 = lo
      have := e.isLt
      exact Mem.read_congr fun x hx hx' => get_writeSlots_apart (hkept.wf hw) hlanes (by omega)

end

/-! #### The instruction -/

theorem rowsOfOp_of_arith {op : EngOp} (h : op.arith = true) (f : EngFields) : rowsOfOp op f = f.nrow + 1 := by
  cases op with
  | nop | topkSel => cases h
  | _ => rfl

theorem takesEntry_of_arith {op : EngOp} (h : op.arith = true) (f : EngFields) : takesEntry op f = true := by
  cases op with
  | nop | slide => cases h
  | _ => rfl

theorem rowBody_of_arith {op : EngOp} (h : op.arith = true) (s : State) (d : Die) (q : CoreId) (f : EngFields) (r : Nat) :
    rowBody s d q op f r = stepRow s d q op f r := by
  cases op with
  | nop | topkSel | slide => cases h
  | _ => rfl

theorem issuedCore_of_arith {op : EngOp} (h : op.arith = true) (s : State) (d : Die) (q : CoreId) (f : EngFields) :
    (issuedCore s d q op f).engines = (loadTiles (s.core d q) op f).engines := by
  cases op with
  | nop | slide => cases h
  | _ => rfl

theorem engEnd_of_arith {op : EngOp} (h : op.arith = true) {f : EngFields} (hz : drainSize f.drain ≠ 0) : engEnd op f
    = f.psbase * 1024 + f.nrow * 256 * drainSize f.drain + (gangOf f.emask).foldl (fun _ e => e.val) 0 * 64 * drainSize f.drain
      + 64 * drainSize f.drain := by
  cases op with
  | topkSel => cases h
  | _ => exact if_neg hz

/-- The drains of an instruction that the checks accept lie in the unit. -/
theorem drainOff_le {op : EngOp} (h : op.arith = true) {w : Word} (hfits : engEnd op (engFields w) ≤ 1048576)
    (hz : drainSize (engFields w).drain ≠ 0) {r : Nat} (hr : r ≤ (engFields w).nrow) {e : Fin 4} (he : e ∈ gangOf (engFields w).emask) :
    drainOff (engFields w) r e + 64 * drainSize (engFields w).drain ≤ 1048576 := by
  rw [engEnd_of_arith h hz] at hfits
  refine Nat.le_trans ?_ hfits
  unfold drainOff
  gcongr
  exact le_last_of_gang _ (engFields_emask_lt w) e he

/-- A queue head that is an arithmetic instruction runs all its rows. -/
theorem arith_runs {s : State} {d : Die} {q : CoreId} {w : EngWord} {ws : List EngWord} {p : Instr × EngOp} (hp : p ∈ arithOps d q)
    (h : Heads s d q w ws p.2) (hw : Mem.wf s.mem = true) : Runs p.1 s fun t => Retires s t d q w ws p.2
      ∧ (t.core d q).actQ = (s.core d q).actQ.drop ((engFields w.word).nrow + 1)
      ∧ ArithAfter s d q p.2 (engFields w.word) ((engFields w.word).nrow + 1) (t.core d q).engines t.mem := by
  have harith := arith_of_mem hp
  have hpass := passes_of_engCheckLate (runsAs_of_heads h).late
  have hactive : ∀ e ∈ gangOf (engFields w.word).emask, ∃ t, ((loadTiles (s.core d q) p.2 (engFields w.word)).engine e).active = some t :=
    fun e he => active_loadTiles (hpass.tiles fun hnop => by rw [hnop] at harith; cases harith) he
  obtain ⟨-, -, -, -, -, hentries, -, hlatent⟩ := id h
  have hlen := hentries (takesEntry_of_arith harith _)
  have hrun := heads_run (mem_engineOps_of_arith hp) h hw (ArithAfter s d q p.2 (engFields w.word))
  rw [rowsOfOp_of_arith harith] at hlen hrun
  simp only [takesEntry_of_arith harith, rowBody_of_arith harith, issuedCore_of_arith harith, if_true] at hrun
  exact hrun (arithAfter_zero s d q p.2 _) fun r t hr hkept hqueue hQ => arith_row hw (Nat.lt_of_lt_of_le hr hlen) hactive
    (fun hz e he => drainOff_le harith hpass.fits hz (Nat.le_of_lt_succ hr) he) hlatent hkept hqueue hQ

/-- Settles O29: the rows of an arithmetic instruction, one after another, each on the slots that the issue left. -/
theorem engineArithmetic : Obligations.EngineArithmetic := by
  intro s d q w ws p hp h hw
  obtain ⟨-, -, -, -, -, hentries, -⟩ := id h
  have hlen := hentries (takesEntry_of_arith (arith_of_mem hp) _)
  rw [rowsOfOp_of_arith (arith_of_mem hp)] at hlen
  obtain ⟨t, ht, hretires, hqueue, hall⟩ := arith_runs hp h hw
  refine ⟨t, ht, hretires, hqueue, fun e he r tile row hr htile hat => ?_, hall.other, hall.plain, fun hraw e he r l sl hr hl hsl => ?_⟩
  · have hslot := hall.done e he r row (Nat.lt_succ_of_le hr) hat
    rw [rowSlot, tileOf, htile] at hslot
    exact hslot
  · have hat := List.getElem?_eq_getElem (Nat.lt_of_lt_of_le (Nat.lt_succ_of_le hr) hlen)
    have hslot := hsl.symm.trans (hall.done e he r _ (Nat.lt_succ_of_le hr) hat)
    rw [Option.some.inj hslot]
    exact hall.raw hraw e he r _ l (Nat.lt_succ_of_le hr) hat hl

end Sys2Proof.Machine
end

section
/-! ### Rejected words, frozen heads and the last row (R107, R116, R131, R133) -/

namespace Sys2Proof.Machine

/-! #### What a row leaves of its core's queue, with errors pending in the stores -/

/-- The contexts, a core's issue queue and its count of retired words are the same. -/
structure QueueKept (d : Die) (q : CoreId) (s t : State) : Prop where
  ctxs : t.ctxs = s.ctxs
  issueQ : (t.core d q).issueQ = (s.core d q).issueQ
  retired : t.reg (.engRetired d q) = s.reg (.engRetired d q)

namespace QueueKept

variable {d : Die} {q : CoreId} {s t u : State}

theorem refl (s : State) : QueueKept d q s s := ⟨rfl, rfl, rfl⟩

theorem trans (h : QueueKept d q s t) (k : QueueKept d q t u) : QueueKept d q s u :=
  ⟨k.ctxs.trans h.ctxs, k.issueQ.trans h.issueQ, k.retired.trans h.retired⟩

theorem foldl {α : Type} {f : State → α → State} (hf : ∀ t a, QueueKept d q t (f t a)) (l : List α) (s : State) : QueueKept d q s (l.foldl f s) := by
  induction l generalizing s with
  | nil => exact refl s
  | cons a l ih => exact (hf s a).trans (ih _)

theorem ite (p : Prop) [Decidable p] (ht : QueueKept d q s t) (hu : QueueKept d q s u) : QueueKept d q s (if p then t else u) := by
  split
  · exact ht
  · exact hu

/-- A change outside the contexts, the cores and the registers. -/
theorem of_eq (hctxs : t.ctxs = s.ctxs) (hcores : t.cores = s.cores) (hregs : t.regs = s.regs) : QueueKept d q s t :=
  ⟨hctxs, by rw [State.core, hcores]; rfl, by rw [State.reg, hregs]; rfl⟩

/-- What keeps the queue of a state keeps that of one that differs outside the contexts, the cores and the registers. -/
theorem from_eq (k : QueueKept d q t u) (hctxs : t.ctxs = s.ctxs) (hcores : t.cores = s.cores) (hregs : t.regs = s.regs) : QueueKept d q s u :=
  (of_eq hctxs hcores hregs).trans k

theorem setReg (s : State) {r : Reg} (w : Word) (hr : r ≠ .engRetired d q) : QueueKept d q s (s.setReg r w) :=
  ⟨rfl, rfl, State.reg_setReg_ne s w hr.symm⟩

theorem setStatus (s : State) (f : Fld) (v : Nat) : QueueKept d q s (s.setFld (.engCoreStatus d q) f v) := setReg s _ nofun

theorem setCore (s : State) {c : Core} (hc : c.issueQ = (s.core d q).issueQ) : QueueKept d q s (s.setCore d q c) :=
  ⟨rfl, (congrArg Core.issueQ (State.core_setCore_same s d q c)).trans hc, rfl⟩

theorem poke (s : State) (a : Nat) (bs : List (Byte × Bool)) : QueueKept d q s (s.poke a bs) := of_eq rfl (poke_cores s a bs) rfl

end QueueKept

section
variable (s : State) (d : Die) (q : CoreId)

theorem queueKept_noteCorrected (e : Die) (st : Store) (w : Nat) : QueueKept d q s (noteCorrected s e st w) := by
  have hcount : errCountReg e st ≠ .engRetired d q := by cases st <;> exact nofun
  have haddr : errAddrReg e st ≠ .engRetired d q := by cases st <;> exact nofun
  exact (QueueKept.setReg s _ hcount).trans ((QueueKept.setReg _ _ haddr).trans (.of_eq rfl rfl rfl))

theorem queueKept_noteUncorrectable (e : Die) (st : Store) (w kind : Nat) : QueueKept d q s (noteUncorrectable s e st w kind) := by
  have hcount : errCountReg e st ≠ .engRetired d q := by cases st <;> exact nofun
  have haddr : errAddrReg e st ≠ .engRetired d q := by cases st <;> exact nofun
  exact (QueueKept.setReg s _ hcount).trans ((QueueKept.setReg _ _ haddr).trans (.of_eq rfl rfl rfl))

theorem queueKept_readWord (e : Die) (st : Store) (w : Nat) : QueueKept d q s (readWord s e st w) := by
  simp only [readWord]
  split
  · exact .refl s
  · refine .ite _ (.refl s) ?_
    split
    · exact .of_eq rfl rfl rfl
    · exact .of_eq rfl rfl rfl
    · exact (queueKept_noteCorrected _ d q e st w).from_eq rfl rfl rfl
    · exact queueKept_noteUncorrectable s d q e st w 2
    · exact queueKept_noteUncorrectable s d q e st w 3

theorem queueKept_readStore (a n : Nat) : QueueKept d q s (readStore s a n) := by
  unfold readStore
  split
  · exact .refl s
  · exact .foldl (fun t i => queueKept_readWord t d q _ _ _) _ s

variable (f : EngFields)

theorem queueKept_drainRow (r : Nat) (slots : List (Fin 4 × AccSlot × Bool)) : QueueKept d q s (drainRow s d q f r slots) := by
  rw [drainRow_eq]
  refine .ite _ (.refl s) ((QueueKept.ite _ (.setStatus s _ _) (.refl s)).trans (.foldl (fun t p => ?_) _ _))
  exact .ite _ ((queueKept_readStore t d q _ _).trans (.poke _ _ _))
    (.ite _ ((queueKept_readStore t d q _ _).trans (.poke _ _ _)) (.poke _ _ _))

/-- Changes of engines leave the rest of a core. -/
theorem issueQ_foldl_engines {α : Type} {g : Core → α → Core} (hg : ∀ c a, (g c a).issueQ = c.issueQ) (l : List α) (c : Core) :
    (l.foldl g c).issueQ = c.issueQ := by
  induction l generalizing c with
  | nil => rfl
  | cons a l ih => exact (ih _).trans (hg c a)

theorem queueKept_storeRow (rows : List ActRow) (r : Nat) (outs : List (Fin 4 × AccSlot × Bool × Bool)) :
    QueueKept d q s (storeRow s d q f rows r outs) := by
  refine .trans (.setCore s ?_) (.trans (.ite _ (.setStatus _ _ _) (.refl _)) (queueKept_drainRow _ d q f r _))
  exact issueQ_foldl_engines (by intros; rfl) outs _

theorem queueKept_stepRow (op : EngOp) (r : Nat) : QueueKept d q s (stepRow s d q op f r) := by
  cases hq : (s.core d q).actQ with
  | nil =>
    simp only [stepRow, hq]
    exact .refl s
  | cons row rows =>
    rw [stepRow_eq_storeRow op f r hq]
    exact queueKept_storeRow s d q f rows r _

theorem queueKept_stepTopk : QueueKept d q s (stepTopk s d q f) := by
  unfold stepTopk
  dsimp only
  split
  · exact .refl s
  · refine (QueueKept.setCore s (by rfl)).trans (.foldl (fun t e => ?_) _ _)
    split
    · exact .refl t
    · exact (QueueKept.ite _ (.setStatus t _ _) (.refl t)).trans (.poke _ _ _)

theorem issueQ_slideGang (c : Core) (fill : List Byte) (bad : Bool) : (slideGang f c fill bad).issueQ = c.issueQ := by rw [rest_slideGang]

theorem queueKept_slideBeat : QueueKept d q s (slideBeat d q f s) := by
  cases hz : f.fillz with
  | true =>
    rw [slideBeat_fillz hz]
    exact .setCore s (issueQ_slideGang f _ _ _)
  | false =>
    cases hq : (s.core d q).actQ with
    | nil =>
      rw [slideBeat, if_neg (by simp [hz])]
      simp only [hq]
      exact .refl s
    | cons row rows =>
      rw [slideBeat_row hz hq]
      exact .setCore s (issueQ_slideGang f _ _ _)

theorem queueKept_rowBody (op : EngOp) (r : Nat) : QueueKept d q s (rowBody s d q op f r) := by
  cases op with
  | nop => exact .refl s
  | topkSel => exact queueKept_stepTopk s d q f
  | slide => exact queueKept_slideBeat s d q f
  | _ => exact queueKept_stepRow s d q f _ r

theorem queueKept_stepOne (op : EngOp) (r : Nat) : QueueKept d q s (stepOne s d q op f r) := by
  rw [stepOne_eq, takeDrains]
  split
  · exact (queueKept_rowBody s d q f op r).trans (.setCore _ (by rfl))
  · exact queueKept_rowBody s d q f op r

end

/-! #### A queue head that is rejected, held or ended -/

theorem engReject_leaves (s : State) (d : Die) (q : CoreId) (w : EngWord) (cause : Nat) :
    (engReject s d q w cause).reg (.engRejectWord d q) = w.word
      ∧ (engReject s d q w cause).fld (.engCoreStatus d q) F.engCoreStatus_REJ_CAUSE = cause % 16
      ∧ (engReject s d q w cause).fld (.engCoreStatus d q) F.engCoreStatus_REJECTED = 1
      ∧ RegsKept [.engRejectWord d q, .engCoreStatus d q] s (engReject s d q w cause) := by
  have hne : Reg.engRejectWord d q ≠ .engCoreStatus d q := nofun
  refine ⟨?_, ?_, ?_, fun r hr => ?_⟩
  · rw [engReject, State.reg_raise, State.reg_setFld_ne _ _ _ hne, State.reg_setFld_ne _ _ _ hne, State.reg_setReg_same]
  · rw [engReject, State.fld_raise, State.fld_setFld_apart _ _ _ _ _ (by decide), State.fld_setFld_same _ _ _ _ (by decide)]
    rfl
  · rw [engReject, State.fld_raise, State.fld_setFld_same _ _ _ _ (by decide)]
    rfl
  · obtain ⟨hword, hstatus⟩ : r ≠ .engRejectWord d q ∧ r ≠ .engCoreStatus d q := by simpa using hr
    rw [engReject, State.reg_raise, State.reg_setFld_ne _ _ _ hstatus, State.reg_setFld_ne _ _ _ hstatus, State.reg_setReg_ne _ _ hword]

theorem headBlock_blocked {s : State} {d : Die} {q : CoreId} {w : EngWord} {ws : List EngWord} {op : EngOp} {r : Nat} {k : FreezeCause}
    (hq : (s.core d q).issueQ = w :: ws) (hprog : (s.core d q).prog = some r) (hcode : EngOp.ofCode (engFields w.word).op = some op)
    (hblock : rowBlock (s.core d q) op (engFields w.word) r = some k) :
    headBlock s d q = some k := by
  simp only [headBlock, hq, hprog, hcode, hblock]

section
variable {s : State} {d : Die} {q : CoreId} {w : EngWord} {ws : List EngWord} {op : EngOp} (hup : s.dieUp d = true)
include hup

/-- A rejected word that is alone in its queue leaves it. -/
theorem issueEngine_rejects (hq : (s.core d q).issueQ = [w]) (hprog : (s.core d q).prog = none) (hdue : headDue s d q w = true) {cause : Nat}
    (hjudge : judgeHead s d q w.word = .reject cause) :
    issueEngine op d q s = (engReject s d q w cause).setCore d q { s.core d q with issueQ := [] } := by
  have hdrop : dropRejected d q [w] s = (engReject s d q w cause, []) := by
    rw [dropRejected, if_pos hdue, hjudge]
    rfl
  rw [issueEngine, if_neg (by simp [hup]), hq, hprog]
  simp only [hdrop]
  rfl

variable {r : Nat} (hq : (s.core d q).issueQ = w :: ws) (hprog : (s.core d q).prog = some r)
  (hcode : EngOp.ofCode (engFields w.word).op = some op)
include hq hprog hcode

/-- A row that cannot go on stays. -/
theorem issueEngine_blocked {k : FreezeCause} (hr : r < rowsOfOp op (engFields w.word)) (hblock : rowBlock (s.core d q) op (engFields w.word) r = some k) :
    issueEngine op d q s = s.setCore d q (s.core d q) := by
  obtain ⟨n, hn⟩ : ∃ n, rowsOfOp op (engFields w.word) - r = n + 1 := ⟨rowsOfOp op (engFields w.word) - r - 1, by omega⟩
  have hsame : { s.core d q with prog := some r } = s.core d q := by rw [← hprog]
  rw [issueEngine_resumes hup hq hprog hcode, hn, runRows, hblock]
  exact congrArg (s.setCore d q) hsame

/-- The last row retires the word. -/
theorem issueEngine_last (hr : r + 1 = rowsOfOp op (engFields w.word)) (hblock : rowBlock (s.core d q) op (engFields w.word) r = none) :
    issueEngine op d q s = retireWord (stepOne s d q op (engFields w.word) r) d q := by
  rw [issueEngine_resumes hup hq hprog hcode, ← hr, Nat.add_sub_cancel_left, runRows, hblock]
  rfl

end

end Sys2Proof.Machine
end

section
/-! ### Frozen beats (R131, R142, R303) -/

namespace Sys2Proof.Machine

/-- The registers that a frozen beat of a core counts in. -/
def frozenRegs (d : Die) (q : CoreId) : List Reg :=
  [.engCoreStatus d q, .engFreezeDry d q, .engFreezeTile d q, .engFreezeDrain d q, .fdxExpBehind d q]

/-- One core's part of `countFreezes`. -/
def freezeBeat (d : Die) (q : CoreId) (s : State) : State :=
  let s' := s.setFld (.engCoreStatus d q) F.engCoreStatus_FROZEN (headBlock s d q).isSome.toNat
  match headBlock s d q with
  | some k => countSteps (countFrozen s' d q k) d q
  | none => s'

theorem countFreezes_eq (s : State) (d : Die) :
    countFreezes s d = (s.cores.filter fun e => e.1.1 = d).foldl (fun s e => freezeBeat d e.1.2 s) s := rfl

/-- The counters that a frozen beat goes into. -/
def freezeCounts (s : State) (d : Die) (q : CoreId) : FreezeCause → State
  | .dry => s.addFld (.engFreezeDry d q) F.engFreezeDry_COUNT 1
  | .drain => s.addFld (.engFreezeDrain d q) F.engFreezeDrain_COUNT 1
  | .tile =>
    let s := s.addFld (.engFreezeTile d q) F.engFreezeTile_COUNT 1
    if waitsExpander (s.core d q) then s.addFld (.fdxExpBehind d q) F.fdxExpBehind_COUNT 1 else s

section
variable (s : State) (d : Die) (q : CoreId)

theorem cores_freezeCounts (k : FreezeCause) : (freezeCounts s d q k).cores = s.cores := by
  cases k with
  | dry | drain => rfl
  | tile =>
    simp only [freezeCounts]
    split <;> rfl

theorem countFrozen_eq (k : FreezeCause) :
    countFrozen s d q k = (freezeCounts s d q k).setCore d q { s.core d q with engFrozen := (s.core d q).engFrozen + 1 } := by
  have hcore : (freezeCounts s d q k).core d q = s.core d q := congrArg (·.at_ Core.reset (d, q)) (cores_freezeCounts s d q k)
  rw [← hcore]
  cases k <;> rfl

theorem freezeBeat_none (h : headBlock s d q = none) : freezeBeat d q s = s.setFld (.engCoreStatus d q) F.engCoreStatus_FROZEN 0 := by
  rw [freezeBeat, h]
  rfl

theorem freezeBeat_some {k : FreezeCause} (h : headBlock s d q = some k) :
    freezeBeat d q s = countSteps ((freezeCounts (s.setFld (.engCoreStatus d q) F.engCoreStatus_FROZEN 1) d q k).setCore d q
      { s.core d q with engFrozen := (s.core d q).engFrozen + 1 }) d q := by
  simp only [freezeBeat, h, countFrozen_eq]
  rfl

/-- The registers of a frozen beat's counters, one by one. -/
theorem find_freezeCounts_ne (k : FreezeCause) {r : Reg} (h : r ∉ frozenRegs d q) : (freezeCounts s d q k).regs.find r = s.regs.find r := by
  obtain ⟨-, hdry, htile, hdrain, hbehind⟩ : r ≠ .engCoreStatus d q ∧ r ≠ .engFreezeDry d q ∧ r ≠ .engFreezeTile d q ∧ r ≠ .engFreezeDrain d q
    ∧ r ≠ .fdxExpBehind d q := by simpa [frozenRegs] using h
  cases k with
  | dry => exact Assoc.find_put_ne _ _ hdry
  | drain => exact Assoc.find_put_ne _ _ hdrain
  | tile =>
    simp only [freezeCounts]
    split
    · exact (Assoc.find_put_ne _ _ hbehind).trans (Assoc.find_put_ne _ _ htile)
    · exact Assoc.find_put_ne _ _ htile

theorem fuses_freezeCounts (k : FreezeCause) : (freezeCounts s d q k).fuses = s.fuses := by
  cases k with
  | dry | drain => rfl
  | tile =>
    simp only [freezeCounts]
    split <;> rfl

end

/-! #### Another core's frozen beat -/

/-- The registers that a core's head is judged by, and those that count its frozen beats. -/
def headRegs (d : Die) (q : CoreId) : List Reg :=
  [.engGradeMask, .scvBeat d, .engCoreStatus d q, .engFreezeDry d q, .engFreezeTile d q, .engFreezeDrain d q]

/-- What a core's head is judged by, and its counters of frozen beats, are the same. -/
structure HeadKept (d : Die) (q : CoreId) (s t : State) : Prop where
  core : t.core d q = s.core d q
  fuses : t.fuses = s.fuses
  regs : ∀ r ∈ headRegs d q, t.regs.find r = s.regs.find r

namespace HeadKept

variable {d : Die} {q : CoreId} {s t u : State}

theorem refl (s : State) : HeadKept d q s s := ⟨rfl, rfl, fun _ _ => rfl⟩

theorem trans (h : HeadKept d q s t) (k : HeadKept d q t u) : HeadKept d q s u :=
  ⟨k.core.trans h.core, k.fuses.trans h.fuses, fun r hr => (k.regs r hr).trans (h.regs r hr)⟩

theorem reg (h : HeadKept d q s t) {r : Reg} (hr : r ∈ headRegs d q) : t.reg r = s.reg r := by rw [State.reg, h.regs r hr, State.reg]

theorem fld (h : HeadKept d q s t) {r : Reg} (hr : r ∈ headRegs d q) (f : Fld) : t.fld r f = s.fld r f := by
  rw [State.fld, h.reg hr, State.fld]

theorem headBlock_eq (h : HeadKept d q s t) : headBlock t d q = headBlock s d q := by
  have hgrade : t.presentedGrade = s.presentedGrade := by
    rw [State.presentedGrade, h.regs .engGradeMask (by simp [headRegs]), h.fuses]
    rfl
  refine headBlock_congr ?_ ?_ h.core
  · rw [State.present, hgrade, State.present]
  · rw [State.beat, h.reg (by simp [headRegs]), State.beat]

theorem freezeBeat (s : State) {p : CoreId} (hp : p ≠ q) : HeadKept d q s (freezeBeat d p s) := by
  have hregs : ∀ r ∈ headRegs d q, r ∉ frozenRegs d p := by simp [headRegs, frozenRegs, hp.symm]
  have hcore : (d, q) ≠ (d, p) := fun h => hp (Prod.mk.inj h).2.symm
  have hstatus (v : Nat) : HeadKept d q s (s.setFld (.engCoreStatus d p) F.engCoreStatus_FROZEN v) :=
    ⟨rfl, rfl, fun r hr => Assoc.find_put_ne _ _ (List.ne_of_not_mem_cons (hregs r hr))⟩
  cases hb : headBlock s d p with
  | none =>
    rw [freezeBeat_none s d p hb]
    exact hstatus 0
  | some k =>
    rw [freezeBeat_some s d p hb]
    refine (hstatus 1).trans ⟨?_, fuses_freezeCounts _ d p k, fun r hr => find_freezeCounts_ne _ d p k (hregs r hr)⟩
    refine (State.core_setCore_ne _ _ hcore).trans ?_
    rw [State.core, cores_freezeCounts]
    rfl

theorem foldl {α : Type} {f : State → α → State} {l : List α} (hf : ∀ t, ∀ a ∈ l, HeadKept d q t (f t a)) (s : State) :
    HeadKept d q s (l.foldl f s) := by
  induction l generalizing s with
  | nil => exact refl s
  | cons a l ih =>
    obtain ⟨ha, hl⟩ := forall_and.mp fun t => List.forall_mem_cons.mp (hf t)
    exact (ha s).trans (ih hl _)

end HeadKept

/-! #### A core's own frozen beat -/

/-- The counter of a cause. -/
def freezeCounter (d : Die) (q : CoreId) : FreezeCause → Reg × Fld
  | .dry => (.engFreezeDry d q, F.engFreezeDry_COUNT)
  | .tile => (.engFreezeTile d q, F.engFreezeTile_COUNT)
  | .drain => (.engFreezeDrain d q, F.engFreezeDrain_COUNT)

theorem freezeCounter_injective {d : Die} {q : CoreId} {c c' : FreezeCause} (h : (freezeCounter d q c).1 = (freezeCounter d q c').1) : c = c' := by
  cases c <;> cases c' <;> simp_all [freezeCounter]

section
variable (s : State) (d : Die) (q : CoreId) (c : FreezeCause)

theorem freezeCounter_ne_status : (freezeCounter d q c).1 ≠ .engCoreStatus d q := by cases c <;> exact nofun

theorem freezeCounter_ne_behind : (freezeCounter d q c).1 ≠ .fdxExpBehind d q := by cases c <;> exact nofun

theorem freezeCounter_hi : (freezeCounter d q c).2.hi < 64 := by cases c <;> exact Nat.le_of_ble_eq_true rfl

theorem fld_le (r : Reg) (f : Fld) : s.fld r f ≤ 2 ^ (f.hi + 1 - f.lo) - 1 := Nat.le_sub_one_of_lt (bitsOf_lt _ _ _)

/-- Beside the expander's count, a frozen beat counts in its cause's counter alone. -/
theorem fld_freezeCounts {r : Reg} (h : r ≠ .fdxExpBehind d q) (f : Fld) :
    (freezeCounts s d q c).fld r f = (s.addFld (freezeCounter d q c).1 (freezeCounter d q c).2 1).fld r f := by
  cases c with
  | dry | drain => rfl
  | tile =>
    simp only [freezeCounts]
    split
    · exact State.fld_addFld_ne _ _ _ _ h
    · rfl

theorem fld_freezeCounts_counter (c' : FreezeCause) : (freezeCounts s d q c).fld (freezeCounter d q c').1 (freezeCounter d q c').2
    = min (s.fld (freezeCounter d q c').1 (freezeCounter d q c').2 + (if some c = some c' then 1 else 0))
        (2 ^ ((freezeCounter d q c').2.hi + 1 - (freezeCounter d q c').2.lo) - 1) := by
  rw [fld_freezeCounts s d q c (freezeCounter_ne_behind d q c')]
  by_cases hc : c = c'
  · subst hc
    rw [if_pos rfl, State.fld_addFld_same _ _ _ _ (freezeCounter_hi d q c)]
  · rw [if_neg fun h => hc (Option.some.inj h), State.fld_addFld_ne _ _ _ _ fun h => hc (freezeCounter_injective h.symm), Nat.add_zero,
      Nat.min_eq_left (fld_le s _ _)]

end

/-- A core's beat counted: FROZEN shows whether its head is held, and one counter, by the cause, goes up. -/
structure BeatCounted (d : Die) (q : CoreId) (s t : State) : Prop where
  status : t.fld (.engCoreStatus d q) F.engCoreStatus_FROZEN = (headBlock s d q).isSome.toNat
  frozen : (t.core d q).engFrozen = (s.core d q).engFrozen + (headBlock s d q).isSome.toNat
  counts : ∀ c, t.fld (freezeCounter d q c).1 (freezeCounter d q c).2
    = min (s.fld (freezeCounter d q c).1 (freezeCounter d q c).2 + (if headBlock s d q = some c then 1 else 0))
        (2 ^ ((freezeCounter d q c).2.hi + 1 - (freezeCounter d q c).2.lo) - 1)

theorem freezeBeat_counts (s : State) (d : Die) (q : CoreId) : BeatCounted d q s (freezeBeat d q s) := by
  have hstatus (v : Nat) (c : FreezeCause) := State.fld_setFld_ne s F.engCoreStatus_FROZEN (freezeCounter d q c).2 v (freezeCounter_ne_status d q c)
  cases hb : headBlock s d q with
  | none =>
    rw [freezeBeat_none s d q hb]
    refine ⟨?_, ?_, fun c => ?_⟩
    · rw [hb, State.fld_setFld_same _ _ _ _ (by decide)]
      rfl
    · rw [hb]
      rfl
    · rw [hb, hstatus, if_neg nofun, Nat.add_zero, Nat.min_eq_left (fld_le s _ _)]
  | some k =>
    rw [freezeBeat_some s d q hb]
    refine ⟨?_, ?_, fun c => ?_⟩
    · refine (fld_freezeCounts _ d q k (by exact nofun) _).trans ?_
      rw [hb, State.fld_addFld_ne _ _ _ _ (freezeCounter_ne_status d q k).symm, State.fld_setFld_same _ _ _ _ (by decide)]
      rfl
    · rw [hb]
      exact congrArg Core.engFrozen (State.core_setCore_same _ _ _ _)
    · rw [hb, ← hstatus 1]
      exact fld_freezeCounts_counter _ d q k c

/-! #### The beat of a die -/

theorem Assoc.mem_of_find {κ α : Type} [DecidableEq κ] {t : Assoc κ α} {k : κ} {v : α} (h : t.find k = some v) : (k, v) ∈ t := by
  induction t with
  | nil => cases h
  | cons p t ih =>
    obtain ⟨j, w⟩ := p
    unfold Assoc.find at h
    split at h
    · subst k
      cases h
      exact List.mem_cons_self
    · exact List.mem_cons_of_mem _ (ih h)

theorem BeatCounted.mono {d : Die} {q : CoreId} {s s' t t' : State} (h : BeatCounted d q s' t) (hs : HeadKept d q s s') (ht : HeadKept d q t t') :
    BeatCounted d q s t' := by
  have hcounter (c : FreezeCause) : (freezeCounter d q c).1 ∈ headRegs d q := by cases c <;> simp [freezeCounter, headRegs]
  refine ⟨?_, ?_, fun c => ?_⟩
  · rw [ht.fld (by simp [headRegs]), h.status, hs.headBlock_eq]
  · rw [ht.core, h.frozen, hs.core, hs.headBlock_eq]
  · rw [ht.fld (hcounter c), h.counts c, hs.fld (hcounter c), hs.headBlock_eq]

/-- Every core's beat is counted once, by its own head. -/
theorem countFreezes_counts {s : State} {d : Die} {q : CoreId} (hnodup : (s.cores.map Prod.fst).Nodup)
    (hsome : (s.cores.find (d, q)).isSome = true) : BeatCounted d q s (countFreezes s d) := by
  obtain ⟨c, hc⟩ := Option.isSome_iff_exists.mp hsome
  have hmem : ((d, q), c) ∈ s.cores.filter fun e => e.1.1 = d := List.mem_filter.mpr ⟨Assoc.mem_of_find hc, by simp⟩
  have hkeys : ((s.cores.filter fun e => e.1.1 = d).map Prod.fst).Nodup := hnodup.sublist (List.filter_sublist.map Prod.fst)
  have hdie : ∀ e ∈ s.cores.filter fun e => e.1.1 = d, e.1.1 = d := fun e he => by simpa using (List.mem_filter.mp he).2
  rw [countFreezes_eq]
  obtain ⟨l, l', hl⟩ := List.append_of_mem hmem
  rw [hl] at hkeys hdie ⊢
  have hother : ∀ e, e ∈ l ∨ e ∈ l' → e.1.2 ≠ q := fun e he hq => by
    have hkey : e.1 = (d, q) := Prod.ext (hdie e (by rcases he with he | he <;> simp [he])) hq
    simp only [List.map_append, List.map_cons, List.nodup_append, List.nodup_cons, List.mem_map] at hkeys
    obtain ⟨-, ⟨hafter, -⟩, hbefore⟩ := hkeys
    rcases he with he | he
    · exact hbefore e.1 ⟨e, he, rfl⟩ (d, q) List.mem_cons_self hkey
    · exact hafter ⟨e, he, hkey⟩
  rw [List.foldl_append, List.foldl_cons]
  exact (freezeBeat_counts _ d q).mono (.foldl (fun t e he => .freezeBeat t (hother e (.inl he))) s)
    (.foldl (fun t e he => .freezeBeat t (hother e (.inr he))) _)

/-- Settles O31: what a queue head that is not run leaves, the end of a run that had been held, and the count of held beats. -/
theorem engineRejectsAndFreezes : Obligations.EngineRejectsAndFreezes := by
  refine ⟨fun s d q w ws op c hc hop hup => ?_, fun s d q hnodup hsome => ?_⟩
  · subst hop
    have hexec := exec_engineOps d q c hc s
    refine ⟨fun cause hq hprog hdue hjudge => ?_, fun k hq hprog hdue hjudge => ?_, fun r k hq hprog hcode hr hblock => ?_,
      fun r hq hprog hcode hr hblock => ?_⟩
    · obtain ⟨hword, hcause, hrejected, hregs⟩ := engReject_leaves s d q w cause
      refine ⟨_, hexec.trans (congrArg _ (issueEngine_rejects hup hq hprog hdue hjudge)), State.core_setCore_same _ _ _ _, hword, hcause, hrejected,
        by simp [Raises, stamped, engReject, State.now, State.reg_setFld_ne, State.reg_setReg_ne], ⟨rfl, rfl, rfl, rfl⟩, rfl, hregs⟩
    · exact ⟨headBlock_freezes hprog hdue hq hjudge, _, hexec.trans (congrArg _ (issueEngine_freezes hup hprog hdue hq hjudge)),
        State.core_setCore_same _ _ _ _, ⟨rfl, rfl, rfl, rfl⟩, rfl, rfl, by simp [Raises], rfl⟩
    · exact ⟨headBlock_blocked hq hprog hcode hblock, _, hexec.trans (congrArg _ (issueEngine_blocked hup hq hprog hcode hr hblock)),
        State.core_setCore_same _ _ _ _, ⟨rfl, rfl, rfl, rfl⟩, rfl, rfl, by simp [Raises], rfl⟩
    · obtain ⟨hctxs, hqueue, hretired⟩ := queueKept_stepOne s d q (engFields w.word) c.2 r
      refine ⟨_, hexec.trans (congrArg _ (issueEngine_last hup hq hprog hcode hr hblock)), ?_, ?_, hctxs, ?_⟩
      · rw [core_retireWord, hqueue, hq]
        rfl
      · rw [core_retireWord]
      · rw [fld_retireWord, State.fld, hretired, State.fld]
  · obtain ⟨hstatus, hfrozen, hcounts⟩ := countFreezes_counts hnodup hsome
    refine ⟨hstatus, hfrozen, ?_⟩
    simp only [List.forall_mem_cons, List.not_mem_nil, false_implies, implies_true, and_true]
    exact ⟨hcounts .dry, hcounts .tile, hcounts .drain⟩

end Sys2Proof.Machine
end

section
/-! ### The expander (R181, R182, R187, R269, R270) -/

namespace Sys2Proof.Machine

/-! #### Accesses of the expander -/

theorem expanderAcc_eq (s : State) (d : Die) (k : AccKind) (a n : Nat) (data : List (Byte × Bool)) (dest : AccDest) :
    expanderAcc s d k a n data dest = s.setDie d { s.die d with
      accs := (s.die d).accs ++ [{ stamp := (s.die d).stamp, kind := k, addr := a, size := n, data := data, dest := dest, portB := false,
                                   issue := s.beat d, ret := 0, served := false }]
      stamp := (s.die d).stamp + 1 } := by
  simp [expanderAcc, State.bump, State.nextStamp]

/-- Writes issued one after another for one destination. -/
def issueWrites (d : Die) (dest : AccDest) (l : List (Nat × List (Byte × Bool))) (s : State) : State :=
  l.foldl (fun s w => expanderAcc s d .write w.1 w.2.length w.2 dest) s

theorem issueWrites_accs (d : Die) (dest : AccDest) (l : List (Nat × List (Byte × Bool))) (s : State) :
    ∃ as, ((issueWrites d dest l s).die d).accs = (s.die d).accs ++ as ∧ as.length = l.length
      ∧ ∀ w ∈ l, ∃ a ∈ as, a.dest = dest ∧ a.kind = .write ∧ a.addr = w.1 ∧ a.data = w.2 := by
  induction l generalizing s with
  | nil => exact ⟨[], (List.append_nil _).symm, rfl, nofun⟩
  | cons w l ih =>
    obtain ⟨as, has, hlen, hall⟩ := ih (expanderAcc s d .write w.1 w.2.length w.2 dest)
    rw [expanderAcc_eq, State.die_setDie_same] at has
    refine ⟨_, by rw [issueWrites, List.foldl_cons, expanderAcc_eq]; exact has.trans (List.append_assoc _ _ _), congrArg (· + 1) hlen,
      List.forall_mem_cons.mpr ⟨⟨_, List.mem_cons_self, rfl, rfl, rfl, rfl⟩, fun w' hw' => ?_⟩⟩
    obtain ⟨a, ha, hfields⟩ := hall w' hw'
    exact ⟨a, List.mem_cons_of_mem _ ha, hfields⟩

theorem issueWrites_rest (d : Die) (dest : AccDest) (l : List (Nat × List (Byte × Bool))) (s : State) :
    issueWrites d dest l s = { s with dies := (issueWrites d dest l s).dies } := by
  induction l generalizing s with
  | nil => rfl
  | cons w l ih =>
    rw [issueWrites, List.foldl_cons, expanderAcc_eq]
    exact ih _

theorem length_stagedWrites (a : Nat) (k : TileKind) (x : Expanded) : (stagedWrites a k x).length = x.transfers.length := by
  simp [stagedWrites]

/-! #### A block's error and its counts -/

/-- A block counted, with its error noted. -/
def noteBlock (s : State) (d : Die) (q : CoreId) (x : Expanded) : State :=
  let s := expanderError (s.burn 1) d q x.cause
  let s := s.addFld (.fdxExpBlocks d q) F.fdxExpBlocks_COUNT 1
  if x.low then s.addFld (.fdxLowratio d) F.fdxLowratio_COUNT 1 else s

theorem expandBlock_eq (s : State) (d : Die) (q : CoreId) (i : Nat) (stored : List (Byte × Bool)) (stage : Bool) (psoff e : Nat) (k : TileKind) :
    expandBlock s d q i stored stage psoff e k
      = deliverExpanded (noteBlock s d q (expand s d stored e k (Config.bytesLeft s.fresh))) d q i stage psoff k
          (expand s d stored e k (Config.bytesLeft s.fresh)) := rfl

section
variable (s : State) (d : Die) (q : CoreId) (x : Expanded)

theorem expanderError_none : expanderError s d q 0 = s := rfl

theorem expanderError_some {c : Nat} (h : c ≠ 0) : expanderError s d q c
    = ((s.setFld (.fdxExpStatus d q) F.fdxExpStatus_ERR_CAUSE c).setFld (.fdxExpStatus d q) F.fdxExpStatus_ERROR 1).raise
        { Report.plain .expander d.val q.val .fdx 0 with detail := c } := if_neg h

/-- The expander's error touches its status and the fault path alone. -/
theorem expanderError_rest (c : Nat) : expanderError s d q c = { s with regs := (expanderError s d q c).regs, reports := (expanderError s d q c).reports } := by
  unfold expanderError
  split <;> rfl

theorem reg_expanderError_ne (c : Nat) {r : Reg} (h : r ≠ .fdxExpStatus d q) : (expanderError s d q c).reg r = s.reg r := by
  by_cases hc : c = 0
  · rw [hc, expanderError_none]
  · rw [expanderError_some s d q hc, State.reg_raise, State.reg_setFld_ne _ _ _ h, State.reg_setFld_ne _ _ _ h]

theorem noteBlock_rest : noteBlock s d q x = { s with regs := (noteBlock s d q x).regs, reports := (noteBlock s d q x).reports, fresh := s.fresh + 1 } := by
  unfold noteBlock
  rw [expanderError_rest]
  dsimp only
  split <;> rfl

/-- The counters keep the rest of the registers and the fault path. -/
theorem noteBlock_regs {r : Reg} (hlow : r ≠ .fdxLowratio d) (hblocks : r ≠ .fdxExpBlocks d q) (f : Fld) :
    (noteBlock s d q x).fld r f = (expanderError (s.burn 1) d q x.cause).fld r f := by
  unfold noteBlock
  dsimp only
  split
  · rw [State.fld_addFld_ne _ _ _ _ hlow, State.fld_addFld_ne _ _ _ _ hblocks]
  · rw [State.fld_addFld_ne _ _ _ _ hblocks]

theorem reports_noteBlock : (noteBlock s d q x).reports = (expanderError (s.burn 1) d q x.cause).reports := by
  unfold noteBlock
  dsimp only
  split <;> rfl

theorem blocks_noteBlock : (noteBlock s d q x).fld (.fdxExpBlocks d q) F.fdxExpBlocks_COUNT
    = min (s.fld (.fdxExpBlocks d q) F.fdxExpBlocks_COUNT + 1) (2 ^ 48 - 1) := by
  have hstatus : Reg.fdxExpBlocks d q ≠ .fdxExpStatus d q := nofun
  have hlow : Reg.fdxExpBlocks d q ≠ .fdxLowratio d := nofun
  have hcount : ((expanderError (s.burn 1) d q x.cause).addFld (.fdxExpBlocks d q) F.fdxExpBlocks_COUNT 1).fld (.fdxExpBlocks d q) F.fdxExpBlocks_COUNT
      = min (s.fld (.fdxExpBlocks d q) F.fdxExpBlocks_COUNT + 1) (2 ^ 48 - 1) := by
    rw [State.fld_addFld_same _ _ _ _ (by decide), State.fld, reg_expanderError_ne _ d q _ hstatus]
    rfl
  unfold noteBlock
  dsimp only
  split
  · rw [State.fld_addFld_ne _ _ _ _ hlow, hcount]
  · exact hcount

end

theorem raises_expanderError (s : State) (d : Die) (q : CoreId) {c : Nat} (h : c ≠ 0) :
    Raises s (expanderError s d q c) [{ Report.plain .expander d.val q.val .fdx 0 with detail := c }] := by
  rw [expanderError_some s d q h]
  simp [Raises, stamped, State.now, State.reg_setFld_ne]

/-! #### The start of a request -/

section
variable {s : State} {d : Die} {q : CoreId} {i : Nat} {st : Bool} {ps e : Nat} {k : TileKind}

theorem exec_expanderRequestStart (hup : s.dieUp d = true) : exec (.expanderRequestStart d q) s = .next (expanderStart d q s) := by
  show Host.Outcome.next (if s.dieUp d then expanderStart d q s else s) = _
  rw [if_pos hup]

theorem expanderStart_busy (h : (s.core d q).expBusy = true) : expanderStart d q s = s := by
  simp [expanderStart, h]

variable (hfree : (s.core d q).expBusy = false)
include hfree

theorem expanderStart_begins {a : Nat} (hhead : expHead (s.core d q) = some (i, .xpand a st ps e k none [] []))
    (hquiet : (s.die d).accs.any (fun x => decide (x.dest = .expander d q)) = false) :
    expanderStart d q s = readNext s d q i a st ps e k (min 32 (roomAt a)) [] := by
  simp [expanderStart, hfree, hhead, hquiet]

theorem expanderStart_expands {a w : Nat} {data : List (Byte × Bool)} (hhead : expHead (s.core d q) = some (i, .xpand a st ps e k (some w) [] data))
    (hread : w ≤ data.length) (hwhole : localSize a data ≤ w) (hquiet : (s.die d).accs.any (fun x => decide (x.dest = .expander d q)) = false) :
    expanderStart d q s = expandBlock s d q i data st ps e k := by
  simp only [expanderStart, hfree, hhead, hquiet]
  rw [if_neg nofun, if_neg (Nat.not_lt.mpr hread), if_neg (Nat.not_lt.mpr hwhole)]
  rfl

theorem expanderStart_delivered {id : Nat} {data : List (Byte × Bool)} (hhead : expHead (s.core d q) = some (i, .expand id st ps e k data 0)) :
    expanderStart d q s = expandBlock s d q i data st ps e k := by
  simp [expanderStart, hfree, hhead]

theorem expanderStart_zeros {id : Nat} (hhead : expHead (s.core d q) = some (i, .zeros id st ps e k)) :
    expanderStart d q s = deliverExpanded s d q i st ps k (zeroOutput e k 0) := by
  simp [expanderStart, hfree, hhead]

end

/-! #### The delivery -/

section
variable (s : State) (d : Die) (q : CoreId) (i ps : Nat) (k : TileKind) {x : Expanded} (h : x.transfers ≠ [])
include h

theorem deliverExpanded_inline :
    deliverExpanded s d q i false ps k x = s.setCore d q { s.core d q with expOut := x.forTiles k, expBusy := true } := by
  simp [deliverExpanded, h]

theorem deliverExpanded_stage : deliverExpanded s d q i true ps k x
    = issueWrites d (.stage d q none) (stagedWrites (unitBase d .pst q.val + ps * 1024) k x) (s.setCore d q { s.core d q with expBusy := true }) := by
  simp [deliverExpanded, h, issueWrites]

end

section
variable {s : State} {d : Die} {q : CoreId} {i ps e : Nat} {k : TileKind} {data : List (Byte × Bool)}
  (h : (expand s d data e k (Config.bytesLeft s.fresh)).transfers ≠ [])
include h

theorem expandBlock_inline : Expands d q k (expand s d data e k (Config.bytesLeft s.fresh)) s (expandBlock s d q i data false ps e k) := by
  rw [expandBlock_eq, deliverExpanded_inline _ d q i ps k h]
  generalize expand s d data e k (Config.bytesLeft s.fresh) = o
  have hrest := noteBlock_rest s d q o
  have hcore : (noteBlock s d q o).core d q = s.core d q := by rw [hrest]; rfl
  have hstatus := noteBlock_regs s d q o (r := .fdxExpStatus d q) nofun nofun F.fdxExpStatus_ERROR
  have hreports := reports_noteBlock s d q o
  refine ⟨?_, ?_, ?_, ?_, blocks_noteBlock s d q o, fun hc => ⟨?_, ?_⟩, fun hc => ⟨?_, ?_⟩⟩
  · rw [State.core_setCore_same]
  · rw [State.core_setCore_same]
  · rw [State.core_setCore_same, hcore]
  · rw [hrest]
    exact ⟨rfl, rfl, rfl, rfl⟩
  · rw [hc] at hreports
    exact hreports.trans (List.append_nil _).symm
  · rw [hc] at hstatus
    exact hstatus
  · exact hreports.trans (raises_expanderError (s.burn 1) d q hc)
  · rw [expanderError_some _ d q hc, State.fld_raise, State.fld_setFld_same _ _ _ _ (by decide)] at hstatus
    exact hstatus

theorem expandBlock_stage : (((expandBlock s d q i data true ps e k).core d q).expBusy = true ∧ StoresKept s (expandBlock s d q i data true ps e k))
    ∧ ∃ as, ((expandBlock s d q i data true ps e k).die d).accs = (s.die d).accs ++ as
      ∧ as.length = (expand s d data e k (Config.bytesLeft s.fresh)).transfers.length
      ∧ ∀ w ∈ stagedWrites (unitBase d .pst q.val + ps * 1024) k (expand s d data e k (Config.bytesLeft s.fresh)),
          ∃ a ∈ as, a.dest = .stage d q none ∧ a.kind = .write ∧ a.addr = w.1 ∧ a.data = w.2 := by
  rw [expandBlock_eq, deliverExpanded_stage _ d q i ps k h]
  generalize expand s d data e k (Config.bytesLeft s.fresh) = o
  have hdie : (noteBlock s d q o).die d = s.die d := by rw [noteBlock_rest]; rfl
  obtain ⟨as, has, hlen, hall⟩ := issueWrites_accs d (.stage d q none) (stagedWrites (unitBase d .pst q.val + ps * 1024) k o)
    ((noteBlock s d q o).setCore d q { (noteBlock s d q o).core d q with expBusy := true })
  rw [State.die_setCore, hdie] at has
  refine ⟨?_, as, has, hlen.trans (length_stagedWrites _ k o), hall⟩
  rw [issueWrites_rest, noteBlock_rest]
  refine ⟨?_, rfl, rfl, rfl, rfl⟩
  exact congrArg Core.expBusy (State.core_setCore_same _ _ _ _)

end

/-- The first read of a local block: its header, within its line. -/
theorem readNext_header (s : State) (d : Die) (q : CoreId) (i a : Nat) (st : Bool) (ps e : Nat) (k : TileKind) (want : Nat) :
    ((readNext s d q i a st ps e k want []).die d).accs = (s.die d).accs
        ++ [{ stamp := (s.die d).stamp, kind := .read, addr := a
              size := min (a + want) ((a / 1024 + 1) * 1024) - a, data := []
              dest := .expander d q, portB := false
              issue := s.beat d, ret := 0, served := false }]
      ∧ ((readNext s d q i a st ps e k want []).core d q).treqs = (s.core d q).treqs.set i (.xpand a st ps e k (some want) [] [])
      ∧ StoresKept s (readNext s d q i a st ps e k want []) ∧ (readNext s d q i a st ps e k want []).regs = s.regs := by
  simp only [readNext, expanderAcc_eq, List.length_nil, Nat.add_zero]
  refine ⟨?_, ?_, ⟨rfl, rfl, rfl, rfl⟩, rfl⟩
  · rw [State.die_setDie_same]
    rfl
  · exact congrArg Core.treqs (State.core_setCore_same _ _ _ _)

end Sys2Proof.Machine
end

section
/-! ### The tile path (R104, R208, R209, R266 to R270) -/

namespace Sys2Proof.Machine

/-! #### The read of a staged transfer -/

/-- The core as it stands with the staged transfer x of tile t read. -/
def readCore (s : State) (d : Die) (q : CoreId) (i ps n : Nat) (k : TileKind) (t x issue : Nat) : Core :=
  let c := s.core d q
  let b := s.peek (unitBase d .pst q.val + ps * 1024 + (stagedAt k n t x).1) (stagedAt k n t x).2
  let lastX := x + 1 = k.transfers
  let rest := if lastX ∧ t + 1 = n then c.treqs.eraseIdx i
    else c.treqs.set i (.tfeed ps n k (if lastX then t + 1 else t) (if lastX then 0 else x + 1) issue)
  { c with treqs := rest, tileIn := some (⟨k, b.map Prod.fst, b.any Prod.snd⟩, s.beat d + 1) }

section
variable {s : State} {d : Die} {q : CoreId} (hlatent : s.latent = [])
include hlatent

/-- A tile path that has room and finds its slot open reads; any other does nothing. -/
theorem tileRead_tfeed {i ps n t x issue : Nat} {k : TileKind} {a : Nat} (hin : (s.core d q).tileIn = none)
    (hhead : tileHead (s.core d q) = some (i, .tfeed ps n k t x issue)) (ha : a = unitBase d .pst q.val + ps * 1024 + (stagedAt k n t x).1) :
    tileRead s d q = if s.beat d < issue + (latency (s.invar d) 0).1 || !slotOpen s d (bankIndex a) (rowOf a).1 1 then s
      else (useSlot s d (rowOf a).1 1).setCore d q (readCore s d q i ps n k t x issue) := by
  subst ha
  simp only [tileRead, hin, hhead]
  rw [readStore_of_latent (s := useSlot s d _ 1) hlatent]
  rfl

/-- What a read of the tile path leaves as it is. -/
theorem tileRead_keeps : ((tileRead s d q).core d q).engines = (s.core d q).engines ∧ (s.die d).used ⊆ ((tileRead s d q).die d).used
    ∧ StoresKept s (tileRead s d q) ∧ (tileRead s d q).regs = s.regs := by
  have hsame : (s.core d q).engines = (s.core d q).engines ∧ (s.die d).used ⊆ (s.die d).used ∧ StoresKept s s ∧ s.regs = s.regs :=
    ⟨rfl, fun _ h => h, ⟨rfl, rfl, rfl, rfl⟩, rfl⟩
  cases hin : (s.core d q).tileIn with
  | some _ =>
    have heq : tileRead s d q = s := by simp only [tileRead, hin]
    rw [heq]
    exact hsame
  | none =>
    cases hhead : tileHead (s.core d q) with
    | none =>
      have heq : tileRead s d q = s := by simp only [tileRead, hin, hhead]
      rw [heq]
      exact hsame
    | some p =>
      obtain ⟨i, req⟩ := p
      cases req with
      | tfeed ps n k t x issue =>
        rw [tileRead_tfeed hlatent hin hhead rfl]
        split
        · exact hsame
        · refine ⟨?_, ?_, ⟨rfl, rfl, rfl, rfl⟩, rfl⟩
          · rw [State.core_setCore_same]
            rfl
          · rw [State.die_setCore, useSlot, State.die_setDie_same]
            exact List.subset_append_left _ _
      | _ =>
        have heq : tileRead s d q = s := by simp only [tileRead, hin, hhead]
        rw [heq]
        exact hsame

end

/-! #### The transfer into a shadow tile -/

theorem fillTransfer_full {s : State} {k : TileKind} {x : Nat} {bs : List Byte} (h : bs.length = transferSize k x) : fillTransfer s k x bs = bs := by
  simp [fillTransfer, h]

/-- The tile path takes its transfers from elsewhere than the engines. -/
theorem nextTransfer_engines {s : State} {d : Die} {q : CoreId} {tr : Transfer} {c : Core} (h : nextTransfer s d q = some (tr, c)) :
    c.engines = (s.core d q).engines ∧ c.tord = (s.core d q).tord ∧ c.tordPos = (s.core d q).tordPos := by
  simp only [nextTransfer] at h
  (repeat' split at h) <;> cases h <;> exact ⟨rfl, rfl, rfl⟩

section
variable {s : State} {d : Die} {q : CoreId}

/-- A tile path that has room takes its transfer. -/
theorem tileTransfer_puts {tr : Transfer} {c : Core} (hnext : nextTransfer s d q = some (tr, c))
    (hunused : (s.die d).used.contains (.tile q) = false) (hroom : (nextShadow (s.core d q) tr).complete = false) :
    tileTransfer d q s = tileRead (putTransfer s d q tr c) d q := by
  have hbusy : (match ((s.core d q).engine ((s.core d q).tord.getD (s.core d q).tordPos 0)).shadow with
      | some sh => sh.complete | none => false) = false := by
    cases hsh : ((s.core d q).engine ((s.core d q).tord.getD (s.core d q).tordPos 0)).shadow with
    | none => rfl
    | some sh =>
      rw [nextShadow, hsh] at hroom
      exact hroom
  simp only [tileTransfer, hnext, hunused, Bool.or_false]
  rw [if_neg]
  exact fun h => Bool.noConfusion (hbusy.symm.trans h)

/-- A tile path with nothing to take goes on to its read. -/
theorem tileTransfer_none (hnext : nextTransfer s d q = none) : tileTransfer d q s = tileRead s d q := by
  simp only [tileTransfer, hnext, ite_self]

/-- A staged tile is read before it is taken. -/
theorem nextTransfer_tfeed {i ps n t x issue : Nat} {k : TileKind} (hin : (s.core d q).tileIn = none)
    (hhead : tileHead (s.core d q) = some (i, .tfeed ps n k t x issue)) : nextTransfer s d q = none := by
  simp [nextTransfer, hin, hhead, TileReq.source]

theorem putTransfer_puts {tr : Transfer} {c : Core} {e : Fin 4} {sh : Shadow} (he : e = c.tord.getD c.tordPos 0)
    (hsh : sh = ((c.engine e).shadow).getD ⟨tr.kind, [], false⟩) (hlen : tr.bytes.length = transferSize sh.kind sh.transfers.length) :
    ((putTransfer s d q tr c).core d q).engines = (c.setEngine e { c.engine e with
        shadow := some ⟨sh.kind, sh.transfers ++ [tr.bytes], sh.poison || tr.poison⟩ }).engines
      ∧ .tile q ∈ ((putTransfer s d q tr c).die d).used ∧ StoresKept s (putTransfer s d q tr c) ∧ (putTransfer s d q tr c).regs = s.regs := by
  subst he hsh
  simp only [putTransfer, fillTransfer_full hlen]
  refine ⟨?_, ?_, ⟨rfl, rfl, rfl, rfl⟩, rfl⟩
  · rw [State.core_setCore_same]
  · rw [State.die_setCore, State.die_setDie_same]
    exact List.mem_append_right _ List.mem_cons_self

theorem tileTransfer_takes {tr : Transfer} {c : Core} {e : Fin 4} {sh : Shadow} (hnext : nextTransfer s d q = some (tr, c)) (hlatent : s.latent = [])
    (hunused : (s.die d).used.contains (.tile q) = false) (hroom : (nextShadow (s.core d q) tr).complete = false)
    (he : e = (s.core d q).tord.getD (s.core d q).tordPos 0) (hsh : sh = nextShadow (s.core d q) tr)
    (hlen : tr.bytes.length = transferSize sh.kind sh.transfers.length) :
    ((tileTransfer d q s).core d q).engines = ((s.core d q).setEngine e { (s.core d q).engine e with
        shadow := some ⟨sh.kind, sh.transfers ++ [tr.bytes], sh.poison || tr.poison⟩ }).engines
      ∧ .tile q ∈ ((tileTransfer d q s).die d).used ∧ StoresKept s (tileTransfer d q s) ∧ (tileTransfer d q s).regs = s.regs := by
  obtain ⟨hengines, htord, hpos⟩ := nextTransfer_engines hnext
  have hengine (f : Fin 4) : c.engine f = (s.core d q).engine f := congrArg (·.at_ Engine.reset f) hengines
  obtain ⟨hput, hused, hstores, hregs⟩ := putTransfer_puts (s := s) (d := d) (q := q) (tr := tr) (c := c) (e := e) (sh := sh)
    (by rw [he, htord, hpos]) (by rw [hsh, hengine, he]; rfl) hlen
  obtain ⟨hread, hmore, hstores', hregs'⟩ := tileRead_keeps (s := putTransfer s d q tr c) (d := d) (q := q) hlatent
  rw [tileTransfer_puts hnext hunused hroom]
  refine ⟨hread.trans (hput.trans ?_), hmore hused, storesKept_trans hstores hstores', hregs'.trans hregs⟩
  rw [Core.setEngine, hengine, hengines]
  rfl

end

theorem exec_tileTransfer {s : State} {d : Die} {q : CoreId} (hup : s.dieUp d = true) : exec (.tileTransfer d q) s = .next (tileTransfer d q s) := by
  show Host.Outcome.next (if s.dieUp d then tileTransfer d q s else s) = _
  rw [if_pos hup]

/-- Settles O35: each start of the expander, the beat on which it is busy, a transfer taken, and a staged one read. -/
theorem expanderAndTilePath : Obligations.ExpanderAndTilePath := by
  intro s d q hup
  have hexp := exec_expanderRequestStart (q := q) hup
  have htile := exec_tileTransfer (q := q) hup
  refine ⟨fun hfree => ⟨fun i a st ps e k hhead hquiet => ?_, fun i a ps e k w data hhead hread hwhole hquiet o ho hne => ?_,
    fun i id ps e k data hhead o ho hne => ?_, fun i id ps e k data hhead o ho hne => ?_, fun i id ps e k hhead hne => ?_⟩,
    fun hbusy => hexp.trans (congrArg _ (expanderStart_busy hbusy)), fun tr c hnext hlatent hunused hroom hlen => ?_,
    fun i ps n k x y b a hin hhead hlatent ha hdue hopen => ?_⟩
  · exact ⟨_, hexp.trans (congrArg _ (expanderStart_begins hfree hhead hquiet)), readNext_header s d q i a st ps e k _⟩
  · subst ho
    exact ⟨_, hexp.trans (congrArg _ (expanderStart_expands hfree hhead hread hwhole hquiet)), expandBlock_inline hne⟩
  · subst ho
    exact ⟨_, hexp.trans (congrArg _ (expanderStart_delivered hfree hhead)), expandBlock_inline hne⟩
  · subst ho
    obtain ⟨⟨hbusy, hstores⟩, as, has, hlen, hall⟩ := expandBlock_stage (q := q) (i := i) (ps := ps) hne
    refine ⟨_, hexp.trans (congrArg _ (expanderStart_delivered hfree hhead)), hbusy, hstores, ?_, fun w hw => ?_⟩
    · rw [has, List.length_append, hlen]
    · obtain ⟨a, ha, hfields⟩ := hall w hw
      exact ⟨a, has ▸ List.mem_append_right _ ha, hfields⟩
  · refine ⟨_, hexp.trans (congrArg _ (expanderStart_zeros hfree hhead)), ?_⟩
    rw [deliverExpanded_inline s d q i ps k hne]
    beta_reduce
    rw [State.core_setCore_same]
    exact ⟨rfl, rfl, ⟨rfl, rfl, rfl, rfl⟩, rfl, (List.append_nil _).symm⟩
  · obtain ⟨hengines, hused, hstores, hregs⟩ := tileTransfer_takes hnext hlatent hunused hroom rfl rfl hlen
    have hengine (f : Fin 4) := congrArg (·.at_ Engine.reset f) hengines
    have hput := (hengine _).trans (Core.engine_setEngine_same _ _ _)
    refine ⟨_, htile, congrArg Engine.shadow hput, (congrArg Engine.active hput).trans rfl,
      fun f hf => (hengine f).trans (Core.engine_setEngine_ne _ _ hf), hused, hstores, hregs⟩
  · have hread := tileRead_tfeed hlatent hin hhead ha
    rw [if_neg (by simp [hopen, hdue])] at hread
    refine ⟨_, htile.trans (congrArg _ ((tileTransfer_none (nextTransfer_tfeed hin hhead)).trans hread)), ?_⟩
    beta_reduce
    rw [State.core_setCore_same, State.die_setCore, useSlot, State.die_setDie_same, ha]
    exact ⟨rfl, List.mem_append_right _ List.mem_cons_self, rfl, ⟨rfl, rfl, rfl, rfl⟩, rfl⟩

end Sys2Proof.Machine
end

section
/-! ### ZRUN payloads (R174, R177) -/

namespace Sys2Proof.Machine

/-! #### What a payload spells -/

/-- The length of the run of zeros that a token of 128 or above stands for (R174). -/
def zeroRun (t : Nat) : Nat := if t < 192 then t - 127 else (t - 191) * 64

/-- A string of whole ZRUN tokens and the plain bytes that it spells (R174). -/
inductive ZrunSpells : List Byte → List Byte → Prop
  | nil : ZrunSpells [] []
  | literal {t : Byte} {l p bs : List Byte} (ht : t.toNat < 128) (hl : l.length = t.toNat + 1) (h : ZrunSpells p bs) :
      ZrunSpells (t :: (l ++ p)) (l ++ bs)
  | zeros {t : Byte} {p bs : List Byte} (ht : 128 ≤ t.toNat) (h : ZrunSpells p bs) :
      ZrunSpells (t :: p) (List.replicate (zeroRun t.toNat) 0 ++ bs)

theorem ZrunSpells.append {p q as bs : List Byte} (hp : ZrunSpells p as) (hq : ZrunSpells q bs) : ZrunSpells (p ++ q) (as ++ bs) := by
  induction hp with
  | nil => exact hq
  | literal ht hl _ ih => simpa only [List.cons_append, List.append_assoc] using ih.literal ht hl
  | zeros ht _ ih => simpa only [List.cons_append, List.append_assoc] using ih.zeros ht

/-! #### Decoding -/

theorem zeroRun_pos {t : Nat} (h : 128 ≤ t) : 0 < zeroRun t := by
  unfold zeroRun
  split <;> omega

theorem zrunGo_literal {plain fuel n : Nat} {t : Byte} {l p acc : List Byte} (ht : t.toNat < 128) (hl : l.length = t.toNat + 1)
    (hroom : n + l.length ≤ plain) :
    zrunGo plain (fuel + 1) (t :: (l ++ p)) acc n = zrunGo plain fuel p (l.reverse ++ acc) (n + l.length) := by
  have hn : ¬n ≥ plain := by omega
  simp only [zrunGo, if_neg hn, if_pos ht, ← hl, List.take_left', List.drop_left', Nat.lt_irrefl, if_false]
  exact if_neg (Nat.not_lt.mpr hroom)

theorem zrunGo_zeros {plain fuel n : Nat} {t : Byte} {p acc : List Byte} (ht : 128 ≤ t.toNat) (hroom : n + zeroRun t.toNat ≤ plain) :
    zrunGo plain (fuel + 1) (t :: p) acc n
      = zrunGo plain fuel p (List.replicate (zeroRun t.toNat) 0 ++ acc) (n + zeroRun t.toNat) := by
  have hn : ¬n ≥ plain := by have := zeroRun_pos ht; omega
  simp only [zrunGo, if_neg hn, if_neg (Nat.not_lt.mpr ht)]
  exact if_neg (Nat.not_lt.mpr hroom)

/-- Tokens that spell what the plain form still lacks are decoded without an error. -/
theorem zrunGo_of_spells {p bs : List Byte} (h : ZrunSpells p bs) {plain fuel n : Nat} {acc : List Byte} (hfuel : p.length < fuel)
    (hn : n + bs.length = plain) : zrunGo plain fuel p acc n = ⟨acc.reverse ++ bs, 0, plain⟩ := by
  obtain ⟨fuel, rfl⟩ := Nat.exists_eq_add_one_of_ne_zero (Nat.ne_zero_of_lt hfuel)
  induction h generalizing fuel n acc with
  | nil =>
    obtain rfl : n = plain := hn
    rw [zrunGo, if_neg (Nat.lt_irrefl _), List.append_nil]
  | @literal t l p bs ht hl _ ih =>
    simp only [List.length_cons, List.length_append] at hfuel hn
    obtain ⟨fuel, rfl⟩ := Nat.exists_eq_add_one_of_ne_zero (show fuel ≠ 0 by omega)
    rw [zrunGo_literal ht hl (by omega), ih (n := n + l.length) (by omega) _ (by omega)]
    simp
  | @zeros t p bs ht _ ih =>
    simp only [List.length_cons, List.length_append, List.length_replicate] at hfuel hn
    obtain ⟨fuel, rfl⟩ := Nat.exists_eq_add_one_of_ne_zero (show fuel ≠ 0 by omega)
    rw [zrunGo_zeros ht (by omega), ih (n := n + zeroRun t.toNat) (by omega) _ (by omega)]
    simp

theorem zrunDecode_of_spells {p bs : List Byte} (h : ZrunSpells p bs) : zrunDecode bs.length p = ⟨bs, 0, bs.length⟩ :=
  zrunGo_of_spells h (Nat.lt_succ_self _) (Nat.zero_add _)

/-! #### Encoding -/

theorem literals_spells {fuel : Nat} {bs : List Byte} (h : bs.length ≤ fuel) : ZrunSpells (literals fuel bs) bs := by
  induction fuel generalizing bs with
  | zero =>
    obtain rfl := List.length_eq_zero_iff.mp (Nat.le_zero.mp h)
    exact .nil
  | succ fuel ih =>
    rw [literals]
    split
    · obtain rfl := List.isEmpty_iff.mp ‹_›
      exact .nil
    · have hne : bs.length ≠ 0 := by simpa using ‹¬bs.isEmpty = true›
      have hlen : (bs.take 128).length = min 128 bs.length := List.length_take
      have htoken : (BitVec.ofNat 8 ((bs.take 128).length - 1)).toNat = (bs.take 128).length - 1 := Nat.mod_eq_of_lt (by omega)
      have hrest := ih (bs := bs.drop 128) (by rw [List.length_drop]; omega)
      conv_rhs => rw [← List.take_append_drop 128 bs]
      exact hrest.literal (by omega) (by omega)

theorem token_spells {t : Nat} (h : 128 ≤ t) (ht : t < 256) : ZrunSpells [BitVec.ofNat 8 t] (List.replicate (zeroRun t) 0) := by
  have htoken : (BitVec.ofNat 8 t).toNat = t := Nat.mod_eq_of_lt ht
  have hs := ZrunSpells.nil.zeros (t := BitVec.ofNat 8 t) (by omega)
  rwa [htoken, List.append_nil] at hs

/-- At most one short token, of up to 63 zeros. -/
theorem short_spells {k : Nat} (h : k < 64) : ZrunSpells (if k = 0 then [] else [BitVec.ofNat 8 (127 + k)]) (List.replicate k 0) := by
  split
  · subst k
    exact .nil
  · have hrun : zeroRun (127 + k) = k := by rw [zeroRun, if_pos (by omega), Nat.add_sub_cancel_left]
    have hs := token_spells (t := 127 + k) (by omega) (by omega)
    rwa [hrun] at hs

/-- At most one long token that is not the longest, of up to 63 times 64 zeros. -/
theorem long_spells {k : Nat} (h : k < 64) : ZrunSpells (if k = 0 then [] else [BitVec.ofNat 8 (191 + k)]) (List.replicate (k * 64) 0) := by
  split
  · subst k
    exact .nil
  · have hrun : zeroRun (191 + k) = k * 64 := by rw [zeroRun, if_neg (by omega), Nat.add_sub_cancel_left]
    have hs := token_spells (t := 191 + k) (by omega) (by omega)
    rwa [hrun] at hs

/-- Tokens of the longest run, of 4,096 zeros each. -/
theorem longest_spells (k : Nat) : ZrunSpells (List.replicate k 0xFF) (List.replicate (k * 4096) 0) := by
  induction k with
  | zero => exact .nil
  | succ k ih =>
    have hs : ZrunSpells (0xFF :: List.replicate k 0xFF) (List.replicate 4096 0 ++ List.replicate (k * 4096) 0) :=
      (token_spells (t := 255) (by decide) (by decide)).append ih
    rwa [List.replicate_append_replicate, show 4096 + k * 4096 = (k + 1) * 4096 by omega] at hs

theorem zeroTokens_spells (n : Nat) : ZrunSpells (zeroTokens n) (List.replicate n 0) := by
  have hlong : n / 64 % 64 < 64 := by omega
  have hshort : n % 64 < 64 := by omega
  have hall := ((longest_spells (n / 64 / 64)).append (long_spells hlong)).append (short_spells hshort)
  rwa [List.replicate_append_replicate, List.replicate_append_replicate,
    show n / 64 / 64 * 4096 + n / 64 % 64 * 64 + n % 64 = n by omega] at hall

theorem zeros_append_drop_leadZeros (bs : List Byte) : List.replicate (leadZeros bs) 0 ++ bs.drop (leadZeros bs) = bs := by
  induction bs with
  | nil => rfl
  | cons b t ih =>
    by_cases hb : b = 0
    · subst hb
      exact congrArg (0 :: ·) ih
    · rw [leadZeros, if_neg hb]
      rfl

theorem zrunEncode_spells (fuel : Nat) (lit bs : List Byte) : ZrunSpells (zrunEncode fuel lit bs) (lit.reverse ++ bs) := by
  induction fuel generalizing lit bs with
  | zero => exact literals_spells (by simp)
  | succ fuel ih =>
    have hflush : ZrunSpells (literals lit.length lit.reverse) lit.reverse := literals_spells (by simp)
    cases bs with
    | nil => simpa only [zrunEncode, List.append_nil] using hflush
    | cons b t =>
      rw [zrunEncode]
      split
      · conv_rhs => rw [← zeros_append_drop_leadZeros (b :: t), ← List.append_assoc]
        exact (hflush.append (zeroTokens_spells _)).append (ih [] _)
      · simpa using ih (b :: lit) t

end Sys2Proof.Machine
end

section
/-! ### Check values and little-endian numbers of stored blocks (R162, R165) -/

namespace Sys2Proof.Machine

theorem crcByte_lt {c : Nat} (hc : c < 2 ^ 32) (b : Byte) : crcByte c b < 2 ^ 32 := by
  have hb : b.toNat < 2 ^ 32 := lt_of_lt_of_le b.isLt (by decide)
  refine List.foldlRecOn (motive := (· < 2 ^ 32)) _ _ (Nat.xor_lt_two_pow hc hb) fun c hc _ _ => ?_
  have hhalf : c / 2 < 2 ^ 32 := by omega
  split
  · exact Nat.xor_lt_two_pow hhalf (by decide)
  · exact hhalf

theorem crc32c_lt (bs : List Byte) : crc32c bs < 2 ^ 32 :=
  Nat.xor_lt_two_pow (List.foldlRecOn (motive := (· < 2 ^ 32)) _ _ (by decide) fun _ hc b _ => crcByte_lt hc b) (by decide)

theorem not32_lt (v : Nat) : not32 v < 2 ^ 32 := by
  unfold not32
  omega

theorem ofLe_leBytes (n v : Nat) : ofLe (leBytes n v) = v % 2 ^ (8 * n) := by
  induction n generalizing v with
  | zero => rw [Nat.mul_zero, Nat.pow_zero, Nat.mod_one]; rfl
  | succ n ih =>
    rw [leBytes, ofLe, ih, Nat.mul_succ, Nat.add_comm (8 * n), Nat.pow_add, Nat.mod_mul]
    rfl

/-- The number that a string of bytes begins with. -/
theorem ofLe_take {n v : Nat} (post : List Byte) (hv : v < 2 ^ (8 * n)) : ofLe ((leBytes n v ++ post).take n) = v := by
  rw [List.take_left' (length_leBytes n v), ofLe_leBytes, Nat.mod_eq_of_lt hv]

/-- The number at a place in a string of bytes. -/
theorem ofLe_at {pre post : List Byte} {n v k : Nat} (hk : pre.length = k) (hv : v < 2 ^ (8 * n)) :
    ofLe (((pre ++ (leBytes n v ++ post)).drop k).take n) = v := by
  rw [List.drop_left' hk, ofLe_take post hv]

end Sys2Proof.Machine
end

section
/-! ### Blocks as the compressor assembles them (R161, R162, R165) -/

namespace Sys2Proof.Machine

/-! #### The header (R162) -/

/-- The first word of a header. -/
def Header.word0 (h : Header) : Nat :=
  h.id % 2 ^ 32 * 2 ^ 32 + h.layer % 512 * 2 ^ 23 + h.die % 2 * 2 ^ 22 + h.ndie % 2 * 2 ^ 21
    + h.grad.toNat * 2 ^ 20 + h.sealed_.toNat * 2 ^ 19 + h.colgrp % 65536

/-- The second word of a header. -/
def Header.word1 (h : Header) : Nat :=
  h.codec % 16 * 2 ^ 60 + h.kind % 16 * 2 ^ 56 + h.table % 16 * 2 ^ 52 + h.ttag % 65536 * 2 ^ 32
    + h.plainLen % 65536 * 65536 + h.compLen % 65536

/-- The third word of a header. -/
def Header.word2 (h : Header) : Nat := h.stepTag % 65536 * 2 ^ 48 + h.bscale % 256 * 2 ^ 40

/-- The bytes that a header's check covers. -/
def Header.covered (h : Header) : List Byte := leBytes 8 h.word0 ++ leBytes 8 h.word1 ++ leBytes 8 h.word2

/-- The word with a header's check. -/
def Header.check (h : Header) : Nat := crc32c h.covered * 2 ^ 32 + not32 (crc32c h.covered)

theorem Header.bytes_eq (h : Header) : h.bytes = h.covered ++ leBytes 8 h.check := rfl

theorem Header.length_covered (h : Header) : h.covered.length = 24 := by
  simp only [Header.covered, List.length_append, length_leBytes]

theorem Header.length_bytes (h : Header) : h.bytes.length = 32 := by
  rw [h.bytes_eq, List.length_append, h.length_covered, length_leBytes]

section
variable (h : Header)

theorem Header.word0_lt : h.word0 < 2 ^ 64 := by
  have := h.grad.toNat_lt
  have := h.sealed_.toNat_lt
  unfold Header.word0
  omega

theorem Header.word1_lt : h.word1 < 2 ^ 64 := by
  unfold Header.word1
  omega

theorem Header.word2_lt : h.word2 < 2 ^ 64 := by
  unfold Header.word2
  omega

theorem Header.check_lt : h.check < 2 ^ 64 := by
  have := crc32c_lt h.covered
  have := not32_lt (crc32c h.covered)
  unfold Header.check
  omega

theorem Header.fields_check : nbits h.check 63 32 = crc32c h.covered ∧ nbits h.check 31 0 = not32 (crc32c h.covered) := by
  have hcrc := crc32c_lt h.covered
  have hnot := not32_lt (crc32c h.covered)
  simp only [Header.check, nbits]
  omega

/-- The words of a header are read back from its bytes. -/
theorem Header.words_read (rest : List Byte) :
    ofLe ((h.bytes ++ rest).take 8) = h.word0 ∧ ofLe (((h.bytes ++ rest).drop 8).take 8) = h.word1
      ∧ ofLe (((h.bytes ++ rest).drop 16).take 8) = h.word2 ∧ ofLe (((h.bytes ++ rest).drop 24).take 8) = h.check := by
  have h1 : (leBytes 8 h.word0).length = 8 := length_leBytes _ _
  have h2 : (leBytes 8 h.word0 ++ leBytes 8 h.word1).length = 16 := by rw [List.length_append, h1, length_leBytes]
  have hall : h.bytes ++ rest = leBytes 8 h.word0 ++ (leBytes 8 h.word1 ++ (leBytes 8 h.word2 ++ (leBytes 8 h.check ++ rest))) := by
    rw [h.bytes_eq, Header.covered, List.append_assoc, List.append_assoc, List.append_assoc]
  refine ⟨?_, ?_, ?_, ?_⟩
  · rw [hall]
    exact ofLe_take _ h.word0_lt
  · rw [hall]
    exact ofLe_at h1 h.word1_lt
  · rw [hall, ← List.append_assoc (leBytes 8 h.word0)]
    exact ofLe_at h2 h.word2_lt
  · rw [h.bytes_eq, List.append_assoc]
    exact ofLe_at h.length_covered h.check_lt

theorem Header.take_covered (rest : List Byte) : (h.bytes ++ rest).take 24 = h.covered := by
  rw [h.bytes_eq, List.append_assoc, List.take_left' h.length_covered]

end

/-- The values of a header fit their fields (R162). -/
structure Header.Fits (h : Header) : Prop where
  id : h.id < 2 ^ 32
  layer : h.layer < 512
  die : h.die < 2
  ndie : h.ndie < 2
  colgrp : h.colgrp < 65536
  codec : h.codec < 16
  kind : h.kind < 16
  table : h.table < 16
  ttag : h.ttag < 65536
  plainLen : h.plainLen < 65536
  compLen : h.compLen < 65536
  stepTag : h.stepTag < 65536
  bscale : h.bscale < 256

section
variable {h : Header} (hfits : h.Fits)
include hfits

theorem Header.fields_word0 : nbits h.word0 63 32 = h.id ∧ nbits h.word0 31 23 = h.layer ∧ nbits h.word0 22 22 = h.die
    ∧ nbits h.word0 21 21 = h.ndie ∧ nbits h.word0 20 20 = h.grad.toNat ∧ nbits h.word0 19 19 = h.sealed_.toNat
    ∧ nbits h.word0 18 16 = 0 ∧ nbits h.word0 15 0 = h.colgrp := by
  obtain ⟨hid, hlayer, hdie, hndie, hcolgrp, -⟩ := hfits
  have hgrad := h.grad.toNat_lt
  have hsealed := h.sealed_.toNat_lt
  simp only [Header.word0, nbits]
  omega

theorem Header.fields_word1 : nbits h.word1 63 60 = h.codec ∧ nbits h.word1 59 56 = h.kind ∧ nbits h.word1 55 52 = h.table
    ∧ nbits h.word1 51 48 = 0 ∧ nbits h.word1 47 32 = h.ttag ∧ nbits h.word1 31 16 = h.plainLen ∧ nbits h.word1 15 0 = h.compLen := by
  obtain ⟨-, -, -, -, -, hcodec, hkind, htable, httag, hplain, hcomp, -⟩ := hfits
  simp only [Header.word1, nbits]
  omega

theorem Header.fields_word2 : nbits h.word2 63 48 = h.stepTag ∧ nbits h.word2 47 40 = h.bscale ∧ nbits h.word2 39 0 = 0 := by
  obtain ⟨-, -, -, -, -, -, -, -, -, -, -, hstep, hbscale⟩ := hfits
  simp only [Header.word2, nbits]
  omega

/-- A header whose values fit is read back from its bytes, its zeros and its check found right. -/
theorem parseHeader_bytes (rest : List Byte) : parseHeader (h.bytes ++ rest) = { h with zeros := true, checked := true } := by
  obtain ⟨hw0, hw1, hw2, hw3⟩ := h.words_read rest
  obtain ⟨hid, hlayer, hdie, hndie, hgrad, hsealed, hzero0, hcolgrp⟩ := Header.fields_word0 hfits
  obtain ⟨hcodec, hkind, htable, hzero1, httag, hplain, hcomp⟩ := Header.fields_word1 hfits
  obtain ⟨hstep, hbscale, hzero2⟩ := Header.fields_word2 hfits
  obtain ⟨hcrc, hnot⟩ := h.fields_check
  have hbit (b : Bool) : decide (b.toNat = 1) = b := by cases b <;> rfl
  simp only [parseHeader, Nat.mul_zero, List.drop_zero, Nat.reduceMul, hw0, hw1, hw2, hw3, h.take_covered, hid, hlayer, hdie, hndie, hgrad, hsealed, hzero0, hcolgrp, hcodec, hkind,
    htable, hzero1, httag, hplain, hcomp, hstep, hbscale, hzero2, hcrc, hnot, hbit, and_self, decide_true]

end

/-! #### The block (R161, R165) -/

section
variable (h : Header) (payload : List Byte)

/-- What the check of an assembled block covers: header, payload and zero pad. -/
def blockBody : List Byte :=
  { h with compLen := payload.length }.bytes ++ payload ++ List.replicate (storedSize payload.length - 40 - payload.length) 0

theorem length_blockBody : (blockBody h payload).length = storedSize payload.length - 8 := by
  simp only [blockBody, List.length_append, Header.length_bytes, List.length_replicate, storedSize]
  omega

theorem assemble_eq : assemble h payload
    = blockBody h payload ++ (leBytes 4 (crc32c (blockBody h payload)) ++ leBytes 4 (not32 (crc32c (blockBody h payload)))) := by
  have hpad : storedSize payload.length - 8 - (32 + payload.length) = storedSize payload.length - 40 - payload.length := by omega
  rw [← List.append_assoc]
  simp only [assemble, List.length_append, Header.length_bytes, hpad]
  rfl

theorem length_assemble : (assemble h payload).length = storedSize payload.length := by
  rw [assemble_eq, List.length_append, List.length_append, length_blockBody, length_leBytes, length_leBytes]
  have : 8 ≤ storedSize payload.length := by unfold storedSize; omega
  omega

/-- An assembled block is a header with a rest that begins with the payload. -/
theorem exists_assemble_eq : ∃ rest, assemble h payload = { h with compLen := payload.length }.bytes ++ (payload ++ rest) := by
  rw [assemble_eq, blockBody]
  simp only [List.append_assoc]
  exact ⟨_, rfl⟩

theorem payload_assemble : ((assemble h payload).drop 32).take payload.length = payload := by
  obtain ⟨rest, heq⟩ := exists_assemble_eq h payload
  rw [heq, List.drop_left' (Header.length_bytes _), List.take_left]

theorem blockPasses_assemble : blockPasses (assemble h payload) = true := by
  have hlen := length_blockBody h payload
  have hcrc := ofLe_at (post := leBytes 4 (not32 (crc32c (blockBody h payload)))) (n := 4) hlen (crc32c_lt (blockBody h payload))
  have hlast : (assemble h payload).drop (storedSize payload.length - 4) = leBytes 4 (not32 (crc32c (blockBody h payload))) := by
    rw [assemble_eq, ← List.append_assoc]
    refine List.drop_left' ?_
    rw [List.length_append, hlen, length_leBytes]
    unfold storedSize
    omega
  have hnot : ofLe (leBytes 4 (not32 (crc32c (blockBody h payload)))) = not32 (crc32c (blockBody h payload)) :=
    (ofLe_leBytes _ _).trans (Nat.mod_eq_of_lt (not32_lt _))
  simp only [blockPasses, length_assemble, hlast, hnot]
  rw [assemble_eq, hcrc, List.take_left' hlen]
  simp

end

end Sys2Proof.Machine
end

section
namespace Sys2Proof.Machine

/-- Settles O36: the encoder's tokens spell the plain form and the decoder undoes any tokens that do; a block's words and check
values are numbers read back from where the compressor put them. -/
theorem storedBlocksRoundTrip : Obligations.StoredBlocksRoundTrip := by
  refine ⟨fun bs => zrunDecode_of_spells (zrunEncode_spells (bs.length + 1) [] bs),
    fun h payload => ⟨blockPasses_assemble h payload, length_assemble h payload, payload_assemble h payload⟩, ?_⟩
  intro h payload hid hlayer hdie hndie hcolgrp hcodec hkind htable httag hplain hcomp hstep hbscale hzeros hchecked
  obtain ⟨rest, heq⟩ := exists_assemble_eq h payload
  have hfits : Header.Fits { h with compLen := payload.length } :=
    ⟨hid, hlayer, hdie, hndie, hcolgrp, hcodec.trans (by decide), hkind, htable, httag, hplain, hcomp, hstep, hbscale⟩
  rw [heq, parseHeader_bytes hfits]
  exact congrArg₂ (fun z c => { h with compLen := payload.length, zeros := z, checked := c }) hzeros.symm hchecked.symm

end Sys2Proof.Machine
end

section
/-! ### What the feeder instructions leave (R261, R264, R270) -/

namespace Sys2Proof.Machine

section
variable {s : State} (d : Die) (q : CoreId) (x : SlotId)

/-- An instruction completes on a state that differs from the one it found in its core and its die. -/
theorem wentOn_advance {u : State} (hctxs : u.ctxs = s.ctxs) (hregs : u.regs = s.regs) (hstores : StoresKept s u) :
    WentOn d q x s (advance u d q x) := by
  have hctx (e : Die) (p : CoreId) (y : SlotId) : u.ctx e p y = s.ctx e p y := by rw [State.ctx, hctxs, State.ctx]
  obtain ⟨-, hothers, -⟩ := onlyIssued_advance u d q x
  refine ⟨?_, ?_, fun e p y hne => (hothers e p y hne).trans (hctx e p y), hregs, hstores⟩
  · rw [ctx_advance, nextPc, hctx, nextPc]
  · rw [ctx_advance, hctx]

theorem coreBecomes_advance {u : State} {c : Core} (hbeat : u.beat d = s.beat d) (hcore : u.core d q = c)
    (hcores : ∀ e p, (e, p) ≠ (d, q) → u.core e p = s.core e p) : CoreBecomes d q c s (advance u d q x) := by
  refine ⟨?_, fun e p hne => (core_advance_ne u x hne).trans (hcores e p hne)⟩
  rw [core_advance, hbeat, hcore]

theorem busQ_advance (u : State) : ((advance u d q x).die d).busQ = (u.die d).busQ := by
  obtain ⟨-, -, -, hdie, -⟩ := onlyIssued_advance u d q x
  rw [hdie]

/-- A rejected instruction raises its fault and goes on. -/
theorem feedReject_rejects (s : State) (addr : Nat) : FeedRejected d q x addr s (feedReject s d q x addr) :=
  ⟨wentOn_advance d q x rfl rfl ⟨rfl, rfl, rfl, rfl⟩, coreBecomes_advance d q x rfl rfl fun _ _ _ => rfl, busQ_advance d q x _, rfl⟩

/-- An instruction that changes its core and completes. -/
theorem advance_setCore (s : State) (c : Core) :
    WentOn d q x s (advance (s.setCore d q c) d q x) ∧ CoreBecomes d q c s (advance (s.setCore d q c) d q x) :=
  ⟨wentOn_advance d q x rfl rfl ⟨rfl, rfl, rfl, rfl⟩,
    coreBecomes_advance d q x rfl (State.core_setCore_same s d q c) fun _ _ hne => State.core_setCore_ne s c hne⟩

theorem queueTile_joins {r : TileReq} (hroom : queueHasRoom s d q 2 = true) : WentOn d q x s (queueTile s d q x r)
    ∧ CoreBecomes d q { s.core d q with treqs := (s.core d q).treqs ++ [r] } s (queueTile s d q x r) := by
  rw [queueTile, if_pos hroom]
  exact advance_setCore d q x s _

theorem queueTile_full {r : TileReq} (hfull : queueHasRoom s d q 2 = false) : queueTile s d q x r = parkFull s d q x 2 2 :=
  if_neg (by simp [hfull])

theorem queueBus_joins {r : BusReq} (hroom : queueHasRoom s d q 3 = true) : WentOn d q x s (queueBus s d q x r)
    ∧ CoreBecomes d q (s.core d q) s (queueBus s d q x r) ∧ ((queueBus s d q x r).die d).busQ = (s.die d).busQ ++ [r] := by
  rw [queueBus, if_pos hroom]
  refine ⟨wentOn_advance d q x rfl rfl ⟨rfl, rfl, rfl, rfl⟩, coreBecomes_advance d q x rfl rfl fun _ _ _ => rfl, ?_⟩
  rw [busQ_advance, State.die_setDie_same]

/-- A context that waits for a condition, where it stands; no core has changed. -/
def Waits (d : Die) (q : CoreId) (x : SlotId) (w : WaitCond) (s t : State) : Prop :=
  t.cores = s.cores ∧ (t.ctx d q x).st = .wait ∧ (t.ctx d q x).waiting = some w ∧ (t.ctx d q x).pc = (s.ctx d q x).pc

theorem park_waits (s : State) (w : WaitCond) (stall : Nat) : Waits d q x w s (park s d q x w stall) := by
  refine ⟨rfl, ?_, ?_, ?_⟩ <;> rw [park, State.ctx_setCtx_same]

/-- The charge of a stalled beat marks the context, and counts. -/
theorem waits_chargeStall {t : State} {w : WaitCond} (h : Waits d q x w s t) : Waits d q x w s (chargeStall t d q x) := by
  obtain ⟨hcores, hst, hwaiting, hpc⟩ := h
  have hmark : Waits d q x w s (t.setCtx d q x { t.ctx d q x with stalledAt := some (t.beat d) }) := by
    refine ⟨hcores, ?_, ?_, ?_⟩ <;> rw [State.ctx_setCtx_same] <;> assumption
  simp only [chargeStall]
  split
  · exact ⟨hcores, hst, hwaiting, hpc⟩
  · split <;> exact hmark

/-- An instruction that finds its queue full. -/
theorem parkFull_waits (s : State) (which stall : Nat) : Waits d q x (.queueFull which) s (parkFull s d q x which stall) :=
  waits_chargeStall d q x (park_waits d q x s _ stall)

end

end Sys2Proof.Machine
end

section
/-! ### AFEED, WTORD, TFEED, XPAND, MCAST and GACC (R262 to R272) -/

namespace Sys2Proof.Machine

section
variable {s : State} {d : Die} {q : CoreId} {x : SlotId} {sA sB : Fin 32} {a b : Word}

/-! #### AFEED -/

/-- The operands that AFEED's words hold (R271). -/
structure AfeedOperands (a b : Word) (rows rb n count stride : Nat) : Prop where
  rows_eq : rows = bitsOf a 63 59 + 1
  rb_eq : rb = if bitsOf a 58 58 = 1 then 32 else 16
  n_eq : n = feedBytes rows rb
  count_eq : count = bitsOf b 63 48 + 1
  stride_eq : stride = bitsOf b 47 24

/-- What AFEED's fields and module address must meet (R264, R272). -/
def AfeedMayBe (d : Die) (q : CoreId) (a b : Word) (m n count stride : Nat) : Prop :=
  bitsOf a 57 48 = 0 ∧ bitsOf b 15 0 = 0 ∧ m % 32 = 0 ∧ stride % 32 = 0
    ∧ (List.range count).all (fun i => clusterLine d q (m + i * stride) n) = true

section
variable {m rows rb n count stride : Nat} (h : Issues s d q x [sA, sB]) (ha : a = (s.ctx d q x).rd sA) (hb : b = (s.ctx d q x).rd sB)
  (hops : AfeedOperands a b rows rb n count stride)
  (hm : (s.ctx d q x).translate (bitsOf a 47 0) ((count - 1) * stride + n) .r = some m)
include h ha hb hops hm

theorem afeed_joins (hmay : AfeedMayBe d q a b m n count stride) (hroom : queueHasRoom s d q 1 = true) :
    exec (.afeed d q sA sB) s = .next (advance (s.setCore d q
      { s.core d q with feeds := (s.core d q).feeds ++ [⟨rows, rb, m, count, stride, bitsOf b 23 16 + 1, 0, 0⟩] }) d q x) := by
  obtain ⟨rfl, rfl, rfl, rfl, rfl⟩ := hops
  subst ha hb
  refine exec_of_issues h rfl ?_
  simp only [hm]
  exact (if_neg (not_not_intro hmay)).trans (if_pos hroom)

theorem afeed_waits (hmay : AfeedMayBe d q a b m n count stride) (hfull : queueHasRoom s d q 1 = false) :
    exec (.afeed d q sA sB) s = .next (parkFull s d q x 1 0) := by
  obtain ⟨rfl, rfl, rfl, rfl, rfl⟩ := hops
  subst ha hb
  refine exec_of_issues h rfl ?_
  simp only [hm]
  exact (if_neg (not_not_intro hmay)).trans (if_neg (by simp [hfull]))

theorem afeed_rejects (hbad : ¬AfeedMayBe d q a b m n count stride) : exec (.afeed d q sA sB) s = .next (feedReject s d q x m) := by
  obtain ⟨rfl, rfl, rfl, rfl, rfl⟩ := hops
  subst ha hb
  refine exec_of_issues h rfl ?_
  simp only [hm]
  exact if_pos hbad

end

/-! #### WTORD -/

theorem wtord_rejects (h : Issues s d q x [sA]) (ha : a = (s.ctx d q x).rd sA)
    (habsent : (List.range (bitsOf a 35 32 + 1)).any (fun i => s.present q / 2 ^ bitsOf a (2 * i + 1) (2 * i) % 2 = 0) = true) :
    exec (.wtord d q sA) s = .next (feedReject s d q x 0) := by
  subst ha
  exact exec_of_issues h rfl (if_pos habsent)

theorem wtord_issues (h : Issues s d q x [sA]) (ha : a = (s.ctx d q x).rd sA)
    (hpresent : (List.range (bitsOf a 35 32 + 1)).any (fun i => s.present q / 2 ^ bitsOf a (2 * i + 1) (2 * i) % 2 = 0) = false) :
    exec (.wtord d q sA) s = .next (issueWait s d q x (.tileOrder a)) := by
  subst ha
  exact exec_of_issues h rfl (if_neg (by rw [hpresent]; decide))

theorem issueWait_tileOrder (hwhole : noPartialTile (s.core d q) = true) :
    issueWait s d q x (.tileOrder a) = advance (s.setCore d q (loadTileOrder (s.core d q) a)) d q x := if_pos hwhole

theorem issueWait_tileOrder_waits (hpartial : noPartialTile (s.core d q) = false) :
    issueWait s d q x (.tileOrder a) = park s d q x (.tileOrder a) 0 :=
  if_neg fun hwhole => Bool.noConfusion (hpartial.symm.trans hwhole)

/-! #### TFEED and XPAND -/

theorem tfeed_joins {k : TileKind} (h : Issues s d q x [sA]) (ha : a = (s.ctx d q x).rd sA) (hk : ekindOfCode (bitsOf a 29 28) = some k)
    (hlow : bitsOf a 15 10 = 0) (hmid : bitsOf a 27 26 = 0) (hhigh : bitsOf a 63 30 = 0)
    (hfit : bitsOf a 9 0 + stagedLines k (bitsOf a 25 16 + 1) ≤ 1024) :
    exec (.tfeed d q sA) s = .next (queueTile s d q x (.tfeed (bitsOf a 9 0) (bitsOf a 25 16 + 1) k 0 0 (s.beat d))) := by
  subst ha
  refine exec_of_issues h rfl ?_
  simp only [hk]
  rw [if_neg (by omega)]

/-- What XPAND's module address and fields must meet (R264, R269). -/
structure XpandMayBe (d : Die) (q : CoreId) (b : Word) (m : Nat) : Prop where
  place : ∃ st u w off, placeOf m = .store d st u w off ∧ ((st = .ast ∧ u = q.val / 4) ∨ (st = .pst ∧ u = q.val))
  align : m % 32 = 0
  zero63 : bitsOf b 63 63 = 0
  zero51 : bitsOf b 51 47 = 0
  zero29 : bitsOf b 29 0 = 0
  form : formOk (ekindOfCode (bitsOf b 31 30)) (bitsOf b 62 62 == 1) (bitsOf b 61 52) (bitsOf b 46 32) = true

theorem xpand_joins {m : Nat} (h : Issues s d q x [sA, sB]) (ha : a = (s.ctx d q x).rd sA) (hb : b = (s.ctx d q x).rd sB)
    (hm : (s.ctx d q x).translate (bitsOf a 47 0) 32 .r = some m) (hmay : XpandMayBe d q b m) :
    exec (.xpand d q sA sB) s = .next (queueTile s d q x (.xpand (directAddr m) (bitsOf b 62 62 == 1) (bitsOf b 61 52) (bitsOf b 46 32)
      ((ekindOfCode (bitsOf b 31 30)).getD .k8) none [] [])) := by
  subst ha hb
  obtain ⟨⟨st, u, w, off, hplace, hown⟩, halign, hz63, hz51, hz29, hform⟩ := hmay
  have hbit (n : Nat) : decide (n = 1) = (n == 1) := rfl
  refine exec_of_issues h rfl ?_
  simp only [hm, hplace]
  rcases hown with ⟨rfl, rfl⟩ | ⟨rfl, rfl⟩ <;> exact if_neg (by simp [halign, hz63, hz51, hz29, hbit, hform])

/-! #### MCAST and GACC -/

theorem mcast_rejects (h : Issues s d q x [sA, sB]) (ha : a = (s.ctx d q x).rd sA) (hnone : bitsOf a 31 0 = 0) :
    exec (.mcast d q sA sB) s = .next (feedReject s d q x 0) := by
  subst ha
  refine exec_of_issues h rfl (if_pos ?_)
  simp [hnone]

/-- What MCAST's fields must meet, with its engine form and its lines (R262, R264). -/
structure McastMayBe (a b : Word) (k : TileKind) (lines : Bool) (lf lc : Nat) : Prop where
  kind : ekindOfCode (bitsOf b 31 30) = some k
  lines_eq : lines = (bitsOf b 29 29 == 1)
  first_eq : lf = bitsOf b 25 21
  count_eq : lc = bitsOf b 20 17
  cores : bitsOf a 31 0 ≠ 0
  zero63 : bitsOf b 63 63 = 0
  zero51 : bitsOf b 51 51 = 0
  zero28 : bitsOf b 28 26 = 0
  zero16 : bitsOf b 16 0 = 0
  done : bitsOf b 50 47 ≤ 8
  whole : lines = false → lf = 0 ∧ lc = 0
  notB4 : lines = true → k ≠ .b4
  few : lf + lc ≤ 15
  fit : bitsOf b 62 62 = 1 → lines = true → bitsOf b 61 52 + lc + 1 ≤ 1024
  form : formOk (some k) ((bitsOf b 62 62 == 1) && !lines) (bitsOf b 61 52) (bitsOf b 46 32) = true

theorem mcast_joins {k : TileKind} {lines : Bool} {lf lc : Nat} (h : Issues s d q x [sA, sB]) (ha : a = (s.ctx d q x).rd sA)
    (hb : b = (s.ctx d q x).rd sB) (hmay : McastMayBe a b k lines lf lc) :
    exec (.mcast d q sA sB) s = .next (queueBus s d q x { BusReq.fresh (s.die d).nextReq q (s.beat d) with
      block := bitsOf a 63 32, cmask := bitsOf a 31 0, stage := bitsOf b 62 62 == 1, psoff := bitsOf b 61 52, ndone := bitsOf b 50 47
      e := bitsOf b 46 32, ekind := k, lines := lines, lfirst := lf, lcount := lc }) := by
  obtain ⟨hk, hlines, rfl, rfl, hcores, hz63, hz51, hz28, hz16, hdone, hwhole, hb4, hfew, hfit, hform⟩ := hmay
  have hon : lines = true ↔ bitsOf b 29 29 = 1 := by rw [hlines, beq_iff_eq]
  have hoff : lines = false ↔ ¬bitsOf b 29 29 = 1 := by rw [hlines, beq_eq_false_iff_ne]
  rw [hoff] at hwhole
  rw [hon] at hb4 hfit
  subst ha hb hlines
  refine exec_of_issues h rfl ?_
  simp only [hk]
  refine if_neg ?_
  rintro (hbad | hbad | hbad | hbad | ⟨hl, hbad⟩ | hbad | ⟨hl, hbad⟩ | hbad | ⟨hst, hl, hbad⟩ | hbad | hbad)
  · exact hbad hz63
  · exact hbad hz51
  · exact hbad hz28
  · exact hbad hz16
  · have := hwhole hl
    omega
  · exact hcores hbad
  · exact hb4 hl (Option.some.inj hbad)
  · exact Bool.noConfusion (hform.symm.trans hbad)
  · have := hfit hst hl
    omega
  · omega
  · omega

/-- What GACC's fields must meet (R264, R265). -/
def GaccMayBe (a b : Word) : Prop :=
  bitsOf a 21 0 = 0 ∧ bitsOf b 59 12 = 0 ∧ bitsOf b 63 60 ≤ 8 ∧ bitsOf b 11 6 + bitsOf b 5 0 ≤ 63 ∧ bitsOf a 31 22 + bitsOf b 5 0 + 1 ≤ 1024

theorem gacc_joins (h : Issues s d q x [sA, sB]) (ha : a = (s.ctx d q x).rd sA) (hb : b = (s.ctx d q x).rd sB) (hmay : GaccMayBe a b)
    (hwithin : ∀ i w, findBlock (s.die d) true (bitsOf a 63 32) = some i → (s.die d).window[i]? = some w →
      pastPlain w (bitsOf b 11 6) (bitsOf b 5 0) = false) :
    exec (.gacc d q sA sB) s = .next (queueBus s d q x { BusReq.fresh (s.die d).nextReq q (s.beat d) with
      gacc := true, block := bitsOf a 63 32, psoff := bitsOf a 31 22, ndone := bitsOf b 63 60, lfirst := bitsOf b 11 6
      lcount := bitsOf b 5 0 }) := by
  subst ha hb
  obtain ⟨hza, hzb, hdone, hlines, hfit⟩ := hmay
  refine exec_of_issues h rfl (if_neg ?_)
  rintro (hbad | hbad | hbad | hbad | hbad | hpast)
  · exact hbad hza
  · exact hbad hzb
  · omega
  · omega
  · omega
  · split at hpast
    · split at hpast
      · rw [hwithin _ _ ‹_› ‹_›] at hpast
        cases hpast
      · cases hpast
    · cases hpast

theorem gacc_rejects {i : Nat} {w : WinEntry} (h : Issues s d q x [sA, sB]) (ha : a = (s.ctx d q x).rd sA) (hb : b = (s.ctx d q x).rd sB)
    (hfound : findBlock (s.die d) true (bitsOf a 63 32) = some i) (hw : (s.die d).window[i]? = some w)
    (hpast : pastPlain w (bitsOf b 11 6) (bitsOf b 5 0) = true) : exec (.gacc d q sA sB) s = .next (feedReject s d q x 0) := by
  subst ha hb
  refine exec_of_issues h rfl ?_
  simp only [hfound, hw, hpast]
  exact if_pos (by simp)

end

end Sys2Proof.Machine
end

section
/-! ### Code tables (R193) -/

namespace Sys2Proof.Machine

/-- The word that `setFields` writes to make a table valid. -/
def validateWord (s : State) (d : Die) (n : Fin 16) (width tag : Nat) : Word :=
  putBits (putBits (putBits (writeBase s (.fdxEpcTag d n) &&& rwMask (.fdxEpcTag d n)) 31 31 1) 19 16 width) 15 0 tag

section
variable {s : State} {d : Die} {n : Fin 16}

theorem epcTag_mem (d : Die) (n : Fin 16) : F.fdxEpcTag_VALID ∈ (Reg.fdxEpcTag d n).fields ∧ F.fdxEpcTag_WIDTH ∈ (Reg.fdxEpcTag d n).fields
    ∧ F.fdxEpcTag_TAG ∈ (Reg.fdxEpcTag d n).fields := by
  simp [Reg.fields]

/-- No field of the register is an expert one, and it holds no EXPERT_UNLOCK. -/
theorem writesExpert_epcTag (v : Word) : writesExpert s (.fdxEpcTag d n) v = false :=
  writesExpert_eq_false fun f hf hl => by
    simp only [Reg.fields, List.mem_cons, List.not_mem_nil, or_false] at hf
    rcases hf with rfl | rfl | rfl <;> cases hl

theorem privWrite_epcTag (h : WriteReady s (.fdxEpcTag d n)) {v : Word}
    (ho : ownWrite s (.fdxEpcTag d n) (writtenWord s (.fdxEpcTag d n) v)
      = some (store s (.fdxEpcTag d n) (writtenWord s (.fdxEpcTag d n) v))) :
    privWrite s (.fdxEpcTag d n) v = store s (.fdxEpcTag d n) (writtenWord s (.fdxEpcTag d n) v) := by
  rw [privWrite_ready h, writeReg_done h.2.2 (fun _ => writesExpert_epcTag v) ho, unlockRecord_other (by simp [Reg.unlock, Reg.block])]

/-- The fields of the word that reaches the register's own rule. -/
theorem fields_validateWord {width tag : Nat} (hwidth : width < 16) (htag : tag < 65536) :
    bitsOf (writtenWord s (.fdxEpcTag d n) (validateWord s d n width tag)) 31 31 = 1
      ∧ bitsOf (writtenWord s (.fdxEpcTag d n) (validateWord s d n width tag)) 19 16 = width
      ∧ bitsOf (writtenWord s (.fdxEpcTag d n) (validateWord s d n width tag)) 15 0 = tag := by
  obtain ⟨hv, hw, ht⟩ := epcTag_mem d n
  refine ⟨(bitsOf_writtenWord_rw hv s _ rfl).trans ?_, (bitsOf_writtenWord_rw hw s _ rfl).trans ?_, (bitsOf_writtenWord_rw ht s _ rfl).trans ?_⟩
  · exact (bitsOf_putBits_apart _ _ _ _ _ _ (by decide)).trans ((bitsOf_putBits_apart _ _ _ _ _ _ (by decide)).trans
      (bitsOf_putBits_same _ _ _ _ (by decide)))
  · exact (bitsOf_putBits_apart _ _ _ _ _ _ (by decide)).trans ((bitsOf_putBits_same _ _ _ _ (by decide)).trans (Nat.mod_eq_of_lt hwidth))
  · exact (bitsOf_putBits_same _ _ _ _ (by decide)).trans (Nat.mod_eq_of_lt htag)

/-- The register's own rule for a table that is to become valid and is not (R193). -/
theorem ownWrite_epcTag {v : Word} (hv : bitsOf v 31 31 = 1) (hold : s.fld (.fdxEpcTag d n) F.fdxEpcTag_VALID = 0) :
    ownWrite s (.fdxEpcTag d n) v = if tableValid (tableLens s d n) (bitsOf v 19 16) then some (store s (.fdxEpcTag d n) v) else none := by
  have h1 : ¬bitsOf v 31 31 = 0 := by omega
  have h2 : ¬bitsOf (s.reg (.fdxEpcTag d n)) 31 31 = 1 := fun h => absurd (h.symm.trans hold) (by decide)
  exact (if_neg h1).trans (if_neg h2)

theorem epcTableValidate_runs {width tag : Nat} (h : WriteReady s (.fdxEpcTag d n)) (hwidth : width < 16) (htag : tag < 65536)
    (hold : s.fld (.fdxEpcTag d n) F.fdxEpcTag_VALID = 0) (hvalid : tableValid (tableLens s d n) width = true) :
    Runs (.epcTableValidate d n width tag) s fun t => t.fld (.fdxEpcTag d n) F.fdxEpcTag_VALID = 1
      ∧ t.fld (.fdxEpcTag d n) F.fdxEpcTag_WIDTH = width ∧ t.fld (.fdxEpcTag d n) F.fdxEpcTag_TAG = tag
      ∧ RegsKept [.fdxEpcTag d n] s t ∧ StoresKept s t ∧ DiesKept s t := by
  obtain ⟨hv, hw, ht⟩ := fields_validateWord (s := s) (d := d) (n := n) hwidth htag
  obtain ⟨hvmem, hwmem, htmem⟩ := epcTag_mem d n
  have hown := ownWrite_epcTag hv hold
  rw [hw, hvalid, if_pos rfl] at hown
  have took := took_store s (.fdxEpcTag d n) (writtenWord s (.fdxEpcTag d n) (validateWord s d n width tag))
  exact ⟨_, congrArg Host.Outcome.next (privWrite_epcTag h hown), (took.fld _ hvmem nofun).trans hv, (took.fld _ hwmem nofun).trans hw,
    (took.fld _ htmem nofun).trans ht, took.regs, took.stores, took.dies⟩

theorem epcTableValidate_rejects {width tag : Nat} (h : WriteReady s (.fdxEpcTag d n)) (hwidth : width < 16) (htag : tag < 65536)
    (hold : s.fld (.fdxEpcTag d n) F.fdxEpcTag_VALID = 0) (hvalid : tableValid (tableLens s d n) width = false) :
    Rejects (.epcTableValidate d n width tag) s (.fdxEpcTag d n) := by
  obtain ⟨hv, hw, -⟩ := fields_validateWord (s := s) (d := d) (n := n) hwidth htag
  have hown := ownWrite_epcTag hv hold
  rw [hw, hvalid, if_neg (by decide)] at hown
  exact congrArg Host.Outcome.next ((privWrite_ready h (validateWord s d n width tag)).trans (writeReg_refused h.2.2 hown))

theorem epcTableInvalidate_runs (h : WriteReady s (.fdxEpcTag d n)) : Runs (.epcTableInvalidate d n) s fun t =>
    t.fld (.fdxEpcTag d n) F.fdxEpcTag_VALID = 0 ∧ RegsKept [.fdxEpcTag d n] s t ∧ StoresKept s t ∧ DiesKept s t := by
  obtain ⟨hvmem, -, -⟩ := epcTag_mem d n
  have hv := bitsOf_fieldWritten_same s 0 hvmem rfl
  have took := took_store s (.fdxEpcTag d n) (fieldWritten s (.fdxEpcTag d n) F.fdxEpcTag_VALID 0)
  exact ⟨_, congrArg Host.Outcome.next (privWrite_epcTag h (if_pos hv)), (took.fld _ hvmem nofun).trans hv, took.regs, took.stores, took.dies⟩

end

/-- Settles O33: each instruction joins its queue, parks, or is rejected by the one branch that its words take, and a code
table is a write of its register by the register's own rule. -/
theorem feedInstructions : Obligations.FeedInstructions := by
  intro s d q x sA sB a b ha hb
  refine ⟨fun h => ⟨?_, ?_, ?_, ?_, ?_⟩, fun h => ⟨?_, ?_, ?_⟩, fun n width tag h hwidth htag => ⟨?_, ?_, ?_⟩⟩
  · intro m rows rb n count stride hrows hrb hn hcount hstride hm
    have hops : AfeedOperands a b rows rb n count stride := ⟨hrows, hrb, hn, hcount, hstride⟩
    refine ⟨fun hza hzb halign hstep hplace => ⟨fun hroom => ?_, fun hfull => ?_⟩, fun hbad => ?_⟩
    · exact ⟨_, afeed_joins h ha hb hops hm ⟨hza, hzb, halign, hstep, hplace⟩ hroom, advance_setCore d q x s _⟩
    · exact ⟨_, afeed_waits h ha hb hops hm ⟨hza, hzb, halign, hstep, hplace⟩ hfull, parkFull_waits d q x s 1 0⟩
    · refine ⟨_, afeed_rejects h ha hb hops hm fun ⟨hza, hzb, halign, hstep, hplace⟩ => ?_, feedReject_rejects d q x s m⟩
      rcases hbad with hbad | hbad | hbad | hbad | hbad
      · exact hbad hza
      · exact hbad hzb
      · exact hbad halign
      · exact hbad hstep
      · exact Bool.noConfusion (hplace.symm.trans hbad)
  · intro m st u w off hm hplace hown halign htop hmid hlow hform hroom
    exact ⟨_, xpand_joins h ha hb hm ⟨⟨st, u, w, off, hplace, hown⟩, halign, htop, hmid, hlow, hform⟩, queueTile_joins d q x hroom⟩
  · exact fun hnone => ⟨_, mcast_rejects h ha hnone, feedReject_rejects d q x s 0⟩
  · intro k lines lf lc hk hlines hlf hlc hcores hz63 hz51 hz28 hz16 hdone hwhole hb4 hfew hfit hform hroom
    have hmay : McastMayBe a b k lines lf lc :=
      ⟨hk, hlines, hlf, hlc, hcores, hz63, hz51, hz28, hz16, hdone, hwhole, hb4, hfew, hfit, hform⟩
    exact ⟨_, mcast_joins h ha hb hmay, queueBus_joins d q x hroom⟩
  · intro hza hzb hdone hlines hfit
    refine ⟨fun hwithin hroom => ?_, fun ⟨i, w, hfound, hw, hpast⟩ => ?_⟩
    · exact ⟨_, gacc_joins h ha hb ⟨hza, hzb, hdone, hlines, hfit⟩ hwithin, queueBus_joins d q x hroom⟩
    · exact ⟨_, gacc_rejects h ha hb hfound hw hpast, feedReject_rejects d q x s 0⟩
  · exact fun habsent => ⟨_, wtord_rejects h ha habsent, feedReject_rejects d q x s 0⟩
  · refine fun hpresent => ⟨fun hwhole => ?_, fun hpartial => ?_⟩
    · exact ⟨_, (wtord_issues h ha hpresent).trans (congrArg _ (issueWait_tileOrder hwhole)), advance_setCore d q x s _⟩
    · exact ⟨_, (wtord_issues h ha hpresent).trans (congrArg _ (issueWait_tileOrder_waits hpartial)), park_waits d q x s _ 0⟩
  · intro k hk hlow hmid hhigh hfit
    have hrun := tfeed_joins h ha hk hlow hmid hhigh hfit
    refine ⟨fun hroom => ⟨_, hrun, queueTile_joins d q x hroom⟩, fun hfull => ⟨_, hrun, ?_⟩⟩
    rw [queueTile_full d q x hfull]
    exact parkFull_waits d q x s 2 2
  · exact fun hold hvalid => epcTableValidate_runs h hwidth htag hold hvalid
  · exact fun hold hvalid => epcTableValidate_rejects h hwidth htag hold hvalid
  · exact epcTableInvalidate_runs h

end Sys2Proof.Machine
end

section
/-! ### What a read through the error protection leaves as it is (R225, R226) -/

namespace Sys2Proof.Machine

/-- A register other than the error counts and the latest errors of the stores, which a read may change (R226, R245). -/
def Reg.NotErrors (r : Reg) : Prop := ∀ d st, r ≠ errCountReg d st ∧ r ≠ errAddrReg d st

/-- A read changes memory and its marks, which stay canonical, the error registers and the reports, and of a die its test
engine and its scrubs. -/
structure ReadFrom (s t : State) : Prop where
  ctxs : t.ctxs = s.ctxs
  cores : t.cores = s.cores
  reg : ∀ r : Reg, r.NotErrors → t.reg r = s.reg r
  die : ∀ d, t.die d = { s.die d with bist := (t.die d).bist, scrubs := (t.die d).scrubs }
  wf : Mem.wf s.mem = true → Mem.wf t.mem = true

namespace ReadFrom

variable {s t u : State}

theorem refl (s : State) : ReadFrom s s := ⟨rfl, rfl, fun _ _ => rfl, fun _ => rfl, id⟩

theorem trans (h : ReadFrom s t) (k : ReadFrom t u) : ReadFrom s u where
  ctxs := k.ctxs.trans h.ctxs
  cores := k.cores.trans h.cores
  reg r hr := (k.reg r hr).trans (h.reg r hr)
  die d := by rw [k.die, h.die]
  wf := k.wf ∘ h.wf

theorem foldl {α : Type} {f : State → α → State} (hf : ∀ t a, ReadFrom t (f t a)) (l : List α) (s : State) : ReadFrom s (l.foldl f s) := by
  induction l generalizing s with
  | nil => exact refl s
  | cons a l ih => exact (hf s a).trans (ih _)

theorem ite (p : Prop) [Decidable p] (ht : ReadFrom s t) (hu : ReadFrom s u) : ReadFrom s (if p then t else u) := by
  split
  · exact ht
  · exact hu

/-- A change of memory and its marks. -/
theorem of_mem (hctxs : t.ctxs = s.ctxs) (hcores : t.cores = s.cores) (hregs : t.regs = s.regs) (hdies : t.dies = s.dies)
    (hwf : Mem.wf s.mem = true → Mem.wf t.mem = true) : ReadFrom s t where
  ctxs := hctxs
  cores := hcores
  reg r _ := reg_of_regs hregs r
  die d := by simp only [State.die, hdies]
  wf := hwf

theorem from_mem (k : ReadFrom t u) (hctxs : t.ctxs = s.ctxs) (hcores : t.cores = s.cores) (hregs : t.regs = s.regs)
    (hdies : t.dies = s.dies) (hwf : Mem.wf s.mem = true → Mem.wf t.mem = true) : ReadFrom s u :=
  (of_mem hctxs hcores hregs hdies hwf).trans k

/-- Reports and marks are put beside what a read changes. -/
theorem raise (s : State) (r : Report) : ReadFrom s (s.raise r) := of_mem rfl rfl rfl rfl id

theorem marks (h : ReadFrom s t) (p : List Nat) (l : Assoc Nat Upset) : ReadFrom s { t with poison := p, latent := l } :=
  ⟨h.ctxs, h.cores, h.reg, h.die, h.wf⟩

theorem setCount (s : State) (d : Die) (st : Store) (w : Word) : ReadFrom s (s.setReg (errCountReg d st) w) where
  ctxs := rfl
  cores := rfl
  reg _ hr := State.reg_setReg_ne s w (hr d st).1
  die _ := rfl
  wf := id

theorem setAddr (s : State) (d : Die) (st : Store) (w : Word) : ReadFrom s (s.setReg (errAddrReg d st) w) where
  ctxs := rfl
  cores := rfl
  reg _ hr := State.reg_setReg_ne s w (hr d st).2
  die _ := rfl
  wf := id

theorem setDie (s : State) (d : Die) (b : Bist) (l : List Scrub) : ReadFrom s (s.setDie d { s.die d with bist := b, scrubs := l }) where
  ctxs := rfl
  cores := rfl
  reg _ _ := rfl
  die e := by
    by_cases h : e = d
    · subst h; simp
    · simp [State.die_setDie_ne _ _ h]
  wf := id

end ReadFrom

theorem readFrom_noteCorrected (s : State) (d : Die) (st : Store) (w : Nat) : ReadFrom s (noteCorrected s d st w) :=
  (ReadFrom.setCount s d st _).trans
    ((ReadFrom.setAddr _ d st _).trans (ReadFrom.setDie _ d _ _))

theorem readFrom_noteUncorrectable (s : State) (d : Die) (st : Store) (w kind : Nat) : ReadFrom s (noteUncorrectable s d st w kind) := by
  unfold noteUncorrectable
  exact ((ReadFrom.setCount s d st _).trans ((ReadFrom.setAddr _ d st _).trans ((ReadFrom.raise _ _).trans (.setDie _ d _ _)))).marks _ _

theorem wf_mem_leaveErrors {s : State} (hw : Mem.wf s.mem = true) (st : Store) (u : Upset) (o : EccOutcome) (w : Nat) :
    Mem.wf (leaveErrors s st u o w).mem = true := by
  refine Mem.wf_foldl (fun m i hm => ?_) _ hw
  dsimp only
  split
  · exact hm
  · exact Mem.wf_set hm _ _

theorem readFrom_readWord (s : State) (d : Die) (st : Store) (w : Nat) : ReadFrom s (readWord s d st w) := by
  simp only [readWord]
  split
  · exact .refl s
  · refine .ite _ (.refl s) ?_
    split
    · exact .of_mem rfl rfl rfl rfl fun hw => wf_mem_leaveErrors hw _ _ _ _
    · exact .of_mem rfl rfl rfl rfl id
    · exact (readFrom_noteCorrected _ d st w).from_mem rfl rfl rfl rfl fun hw => wf_mem_leaveErrors hw _ _ _ _
    · exact readFrom_noteUncorrectable s d st w 2
    · exact readFrom_noteUncorrectable s d st w 3

theorem readFrom_readStore (s : State) (a n : Nat) : ReadFrom s (readStore s a n) := by
  unfold readStore
  split
  · exact .refl s
  · exact .foldl (fun t i => readFrom_readWord t _ _ _) _ s

theorem readFrom_readHalf (s : State) (k : AccKind) (a n : Nat) : ReadFrom s (readHalf s k a n) := by
  unfold readHalf
  split
  · exact .refl s
  · refine .ite _ (.refl s) ?_
    have hfirst : ReadFrom s (if a % protSize a ≠ 0 ∨ n < protSize a then readStore s a 1 else s) :=
      .ite _ (readFrom_readStore s a 1) (.refl s)
    exact .ite _ (hfirst.trans (readFrom_readStore _ _ 1)) hfirst
  · exact readFrom_readStore s a n

theorem notErrors_scvBeat (d : Die) : (Reg.scvBeat d).NotErrors := fun _ st => by cases st <;> exact ⟨nofun, nofun⟩

theorem notErrors_wstStoreCtrl (d : Die) : (Reg.wstStoreCtrl d).NotErrors := fun _ st => by cases st <;> exact ⟨nofun, nofun⟩

section
variable {s t : State} (h : ReadFrom s t)
include h

theorem ReadFrom.beat (d : Die) : t.beat d = s.beat d := congrArg BitVec.toNat (h.reg _ (notErrors_scvBeat d))

theorem ReadFrom.rmws (d : Die) : (t.die d).rmws = (s.die d).rmws := by rw [h.die d]

theorem ReadFrom.effects (d : Die) : (t.die d).effects = (s.die d).effects := by rw [h.die d]

theorem ReadFrom.times (a : Access) : a.times t = a.times s := by
  have hinvar (d : Die) : t.invar d = s.invar d := by simp only [State.invar, State.fld, h.reg (.wstStoreCtrl d) (notErrors_wstStoreCtrl d)]
  simp only [Access.times, hinvar]

end

end Sys2Proof.Machine
end

section
/-! ### An access served in its slot (R197, R201, R205 to R207) -/

namespace Sys2Proof.Machine

theorem freeSlot_of_servable {s : State} {d : Die} {i c : Nat} {a : Access} (h : servable s d i a = some c) : freeSlot s d a = some c := by
  unfold servable at h
  cases hfree : freeSlot s d a with
  | none => simp [hfree] at h
  | some k =>
    simp only [hfree, Option.ite_none_left_eq_some] at h
    exact h.2

/-- A free slot is one that nothing has used on the beat, of a die that no clear keeps busy. -/
theorem unused_of_freeSlot {s : State} {d : Die} {c : Nat} {a : Access} (h : freeSlot s d a = some c) :
    SlotUse.bank (rowOf a.addr).1 c ∉ (s.die d).used ∧ s.clearing d = false := by
  unfold freeSlot at h
  split at h
  · cases h
  · simp only [Option.ite_none_left_eq_some] at h
    obtain ⟨hfree, hc⟩ := h
    cases hc
    simp only [Bool.or_eq_true, not_or, Bool.not_eq_true] at hfree
    simp_all

/-- The state from which an access is served: a read has gone through the error protection. -/
def servedFrom (s : State) (a : Access) : State := match a.kind with | .read => readStore s a.addr a.size | _ => s

section
variable (s : State) (d : Die) (i : Nat) (a : Access) (c : Nat)

theorem readFrom_servedFrom : ReadFrom s (servedFrom s a) := by
  unfold servedFrom
  split
  · exact readFrom_readStore s _ _
  · exact .refl s

theorem servedFrom_write (hk : a.kind ≠ .read) : servedFrom s a = s := by
  unfold servedFrom
  split
  · exact absurd ‹_› hk
  · rfl

/-- The service changes its die's part alone. -/
theorem serveIn_rest : serveIn s d i a c = { servedFrom s a with dies := (serveIn s d i a c).dies } := rfl

theorem accs_serveIn_read (hk : a.kind = .read) : ((serveIn s d i a c).die d).accs = (s.die d).accs.set i { a with
    served := true, ret := s.beat d + (if a.staged then 0 else (a.times s).2), data := readData (readStore s a.addr a.size) a } := by
  have hread := readFrom_readStore s a.addr a.size
  simp only [serveIn, State.die_setDie_same, hk]
  rw [hread.die d, hread.beat, hread.times]

theorem effects_serveIn_read (hk : a.kind = .read) : ((serveIn s d i a c).die d).effects = (s.die d).effects := by
  simp only [serveIn, State.die_setDie_same, hk]
  exact (readFrom_readStore s a.addr a.size).effects d

theorem accs_serveIn_write (hk : a.kind ≠ .read) : ((serveIn s d i a c).die d).accs = (s.die d).accs.set i { a with
    served := true, ret := s.beat d + (if a.staged then 0 else (a.times s).2) } := by
  cases h : a.kind with
  | read => exact absurd h hk
  | _ => simp only [serveIn, State.die_setDie_same, h]

theorem effects_serveIn_write (hk : a.kind ≠ .read) :
    ((serveIn s d i a c).die d).effects = (s.die d).effects ++ [⟨c, a.kind, a.addr, a.data⟩] := by
  cases h : a.kind with
  | read => exact absurd h hk
  | _ => simp only [serveIn, State.die_setDie_same, h]

theorem rmws_serveIn : ((serveIn s d i a c).die d).rmws = if needsRmw a then
    (s.die d).rmws ++ [⟨(rowOf a.addr).1, c, s.beat d + (if a.portB then 4 else 8)⟩] else (s.die d).rmws := by
  have hread := readFrom_servedFrom s a
  rw [← hread.rmws, ← hread.beat]
  exact congrArg DieSt.rmws (State.die_setDie_same _ _ _)

theorem mem_used_serveIn {u : SlotUse} (h : u = .bank (rowOf a.addr).1 c ∨ a.port = some u) : u ∈ ((serveIn s d i a c).die d).used := by
  have hused : ((servedFrom s a).die d).used ++ (SlotUse.bank (rowOf a.addr).1 c :: a.port.toList) ⊆ ((serveIn s d i a c).die d).used := by
    simp only [serveIn, State.die_setDie_same]
    exact List.subset_append_left _ _
  refine hused (List.mem_append_right _ ?_)
  rcases h with rfl | h
  · exact List.mem_cons_self
  · exact List.mem_cons_of_mem _ (by simp [h])

/-- No other access of the class can be served at the bank on the beat. -/
theorem bank_taken_serveIn {j : Nat} {b : Access} (h : servable (serveIn s d i a c) d j b = some c) : (rowOf b.addr).1 ≠ (rowOf a.addr).1 := by
  intro hbank
  refine (unused_of_freeSlot (freeSlot_of_servable h)).1 ?_
  rw [hbank]
  exact mem_used_serveIn s d i a c (.inl rfl)

end

section
variable {s : State} {d : Die} {i : Nat} {a : Access} (ha : (s.die d).accs[i]? = some a)
include ha

theorem serveAccess_serves {c : Nat} (h : servable s d i a = some c) : serveAccess d i ⟨[], 0⟩ s = serveIn s d i a c := by
  simp [serveAccess, ha, h]

theorem serveAccess_waits (h : servable s d i a = none) (u : Upset) : serveAccess d i u s = s := by simp [serveAccess, ha, h]

theorem storeAccessServe_runs {c : Nat} (h : servable s d i a = some c) : Runs (.storeAccessServe d i ⟨[], 0⟩) s fun t =>
    (a.kind = .read → (t.die d).accs = (s.die d).accs.set i { a with
          served := true, ret := s.beat d + (if a.staged then 0 else (a.times s).2), data := readData (readStore s a.addr a.size) a }
        ∧ (t.die d).effects = (s.die d).effects ∧ t.mem = (readStore s a.addr a.size).mem)
    ∧ (a.kind ≠ .read → (t.die d).accs = (s.die d).accs.set i { a with
          served := true, ret := s.beat d + (if a.staged then 0 else (a.times s).2) }
        ∧ (t.die d).effects = (s.die d).effects ++ [⟨c, a.kind, a.addr, a.data⟩] ∧ StoresKept s t ∧ t.regs = s.regs)
    ∧ (∀ r, r ∈ (t.die d).rmws ↔ r ∈ (s.die d).rmws
        ∨ (needsRmw a = true ∧ r = ⟨(rowOf a.addr).1, c, s.beat d + (if a.portB then 4 else 8)⟩))
    ∧ .bank (rowOf a.addr).1 c ∈ (t.die d).used ∧ (∀ p, a.port = some p → p ∈ (t.die d).used)
    ∧ (∀ j b, servable t d j b = some c → (rowOf b.addr).1 ≠ (rowOf a.addr).1)
    ∧ t.ctxs = s.ctxs ∧ t.cores = s.cores := by
  have hread := readFrom_servedFrom s a
  refine ⟨serveIn s d i a c, congrArg Host.Outcome.next (serveAccess_serves ha h), fun hk => ?_, fun hk => ?_, fun r => ?_,
    mem_used_serveIn s d i a c (.inl rfl), fun p hp => mem_used_serveIn s d i a c (.inr hp), fun j b hb => bank_taken_serveIn s d i a c hb,
    hread.ctxs, hread.cores⟩
  · refine ⟨accs_serveIn_read s d i a c hk, effects_serveIn_read s d i a c hk, ?_⟩
    rw [serveIn_rest, servedFrom, hk]
  · refine ⟨accs_serveIn_write s d i a c hk, effects_serveIn_write s d i a c hk, ?_⟩
    rw [serveIn_rest, servedFrom_write s a hk]
    exact ⟨⟨rfl, rfl, rfl, rfl⟩, rfl⟩
  · rw [rmws_serveIn]
    split <;> simp_all

end

end Sys2Proof.Machine
end

section
/-! ### The return of an access (R207, R227, R271, R531) -/

namespace Sys2Proof.Machine

/-! #### What returns to a register or a queue -/

theorem rd_wrMark_same (c : Ctx) (r : Fin 32) (v : Word) (bad : Bool) : (c.wrMark r v bad).rd r = v := by simp [Ctx.wrMark, Ctx.rd]

theorem mem_bad_wrMark (c : Ctx) (r : Fin 32) (v : Word) (bad : Bool) : r ∈ (c.wrMark r v bad).bad ↔ bad = true := by
  cases bad <;> simp [Ctx.wrMark]

theorem otherScalars_wrMark (c : Ctx) (r : Fin 32) (v : Word) (bad : Bool) : OtherScalars r c (c.wrMark r v bad) :=
  ⟨fun _ hne => Assoc.at_put_ne _ _ _ hne, rfl, rfl, rfl, rfl⟩

/-- Bytes put into others from an offset on are the bytes there. -/
theorem take_drop_spliced {α : Type} {pre data post : List α} {off : Nat} (h : pre.length = off) :
    ((pre ++ data ++ post).drop off).take data.length = data := by
  subst h
  simp

section
variable {s : State} {d : Die} {i : Nat} {a : Access} (ha : (s.die d).accs[i]? = some a)
include ha

theorem storeReadReturn_waits (h : a.served = false ∨ s.beat d < a.ret) : exec (.storeReadReturn d i) s = .next s := by
  have hwait : (!a.served || decide (s.beat d < a.ret)) = true := by simpa using h
  show Host.Outcome.next _ = _
  simp only [ha, returnAccess, hwait, Bool.true_or, if_true, ite_self]

variable (hserved : a.served = true) (hret : a.ret ≤ s.beat d) (horder : ((s.die d).accs.take i).any (fun b => sameOrder b a) = false)
  (hhere : a.dest ≠ .remote)
include hserved hret horder hhere

theorem storeReadReturn_returns : exec (.storeReadReturn d i) s
    = .next (accessBack (s.setDie d { s.die d with accs := (s.die d).accs.eraseIdx i }) d a) := by
  show Host.Outcome.next _ = _
  simp [ha, returnAccess, hserved, Nat.not_lt.mpr hret, horder, hhere]


theorem scalar_returns {e : Die} {q : CoreId} {x : SlotId} {rd : Fin 32} {sx : Bool} (hdest : a.dest = .scalar e q x rd sx) :
    Runs (.storeReadReturn d i) s fun t => (t.die d).accs = (s.die d).accs.eraseIdx i ∧ StoresKept s t ∧ t.regs = s.regs
      ∧ (t.ctx e q x).rd rd = loadValue a.data sx ∧ (rd ∈ (t.ctx e q x).bad ↔ a.data.any Prod.snd = true)
      ∧ OtherScalars rd (s.ctx e q x) (t.ctx e q x) ∧ OtherCtxs e q x s t ∧ t.cores = s.cores := by
  have hrun := storeReadReturn_returns ha hserved hret horder hhere
  simp only [accessBack, deliver, hdest] at hrun
  refine ⟨_, hrun, ?_, ⟨rfl, rfl, rfl, rfl⟩, rfl, ?_, ?_, ?_, fun e' p y hne => State.ctx_setCtx_ne _ _ hne, rfl⟩
  · rw [State.die_setCtx, State.die_setDie_same]
  · rw [State.ctx_setCtx_same, rd_wrMark_same]
  · rw [State.ctx_setCtx_same, mem_bad_wrMark]
  · rw [State.ctx_setCtx_same]
    exact otherScalars_wrMark _ _ _ _

theorem store_returns {e : Die} {q : CoreId} {x : SlotId} (hdest : a.dest = .store e q x) :
    Runs (.storeReadReturn d i) s fun t => (t.die d).accs = (s.die d).accs.eraseIdx i ∧ StoresKept s t ∧ t.regs = s.regs
      ∧ t.ctxs = s.ctxs ∧ t.cores = s.cores := by
  have hrun := storeReadReturn_returns ha hserved hret horder hhere
  simp only [accessBack, deliver, hdest] at hrun
  refine ⟨_, hrun, ?_, ⟨rfl, rfl, rfl, rfl⟩, rfl, rfl, rfl⟩
  rw [State.die_setDie_same]

theorem vector_returns {e : Die} {q : CoreId} {x : SlotId} {vd : Fin 32} {off : Nat} (hdest : a.dest = .vector e q x vd off) :
    Runs (.storeReadReturn d i) s fun t => (t.die d).accs = (s.die d).accs.eraseIdx i ∧ StoresKept s t ∧ t.regs = s.regs ∧ t.ctxs = s.ctxs
      ∧ ((vectorReg t e q vd).bytes.drop off).take a.data.length = a.data.map Prod.fst
      ∧ (vectorReg t e q vd).poison = ((vectorReg s e q vd).poison || a.data.any Prod.snd)
      ∧ ∀ v, v ≠ vd → vectorReg t e q v = vectorReg s e q v := by
  have hrun := storeReadReturn_returns ha hserved hret horder hhere
  simp only [accessBack, deliver, hdest] at hrun
  refine ⟨_, hrun, ?_, ⟨rfl, rfl, rfl, rfl⟩, rfl, rfl, ?_, ?_, fun v hv => ?_⟩
  · rw [State.die_setCore, State.die_setDie_same]
  · rw [vectorReg, State.core_setCore_same, Assoc.at_put_same, ← List.length_map (f := Prod.fst) (as := a.data)]
    exact take_drop_spliced (by simp)
  · rw [vectorReg, State.core_setCore_same, Assoc.at_put_same]
    rfl
  · rw [vectorReg, State.core_setCore_same, Assoc.at_put_ne _ _ _ hv]
    rfl

theorem feeder_returns {e : Die} {q : CoreId} {rows rb : Nat} (hdest : a.dest = .feeder e q rows rb) :
    Runs (.storeReadReturn d i) s fun t => (t.die d).accs = (s.die d).accs.eraseIdx i ∧ StoresKept s t ∧ t.regs = s.regs ∧ t.ctxs = s.ctxs
      ∧ t.core e q = { s.core e q with actQ := (s.core e q).actQ ++ feederRows rows rb a.data
                                       actReserved := (s.core e q).actReserved - rows } := by
  have hrun := storeReadReturn_returns ha hserved hret horder hhere
  simp only [accessBack, deliver, hdest] at hrun
  refine ⟨_, hrun, ?_, ⟨rfl, rfl, rfl, rfl⟩, rfl, rfl, ?_⟩
  · rw [State.die_setCore, State.die_setDie_same]
  · rw [State.core_setCore_same]
    rfl

end

end Sys2Proof.Machine
end

section
/-! ### The writes of a beat (R204 to R206, R217 to R221) -/

namespace Sys2Proof.Machine

/-! #### Their order -/

theorem classes_single (e : Effect) (n : Nat) :
    (List.range n).flatMap (fun c => [e].filter (fun x => x.cls = c)) = if e.cls < n then [e] else [] := by
  induction n with
  | zero => rfl
  | succ n ih =>
    rw [List.range_succ, List.flatMap_append, ih, List.flatMap_singleton]
    by_cases h : e.cls = n
    · simp [h]
    · simp [h, show e.cls < n + 1 ↔ e.cls < n by omega]

/-- Two writes of different classes come lower class first. -/
theorem classes_pair {e f : Effect} (h : f.cls < e.cls) (n : Nat) :
    (List.range n).flatMap (fun c => [e, f].filter (fun x => x.cls = c))
      = (if f.cls < n then [f] else []) ++ (if e.cls < n then [e] else []) := by
  induction n with
  | zero => rfl
  | succ n ih =>
    rw [List.range_succ, List.flatMap_append, ih, List.flatMap_singleton]
    by_cases he : e.cls = n
    · have hf : f.cls < n := by omega
      simp [he, hf, Nat.ne_of_lt hf, Nat.lt_succ_of_lt hf]
    · by_cases hf : f.cls = n
      · simp [he, hf, show ¬e.cls < n by omega, show ¬e.cls < n + 1 by omega]
      · simp [he, hf, show e.cls < n + 1 ↔ e.cls < n by omega, show f.cls < n + 1 ↔ f.cls < n by omega]

section
variable {s : State} {d : Die} {e f : Effect}

theorem applyEffects_single (h : (s.die d).effects = [e]) (he : e.cls < 9) :
    applyEffects s d = writeEffect (s.setDie d { s.die d with effects := [] }) e.kind e.addr e.data := by
  rw [applyEffects, h, sortEffects, classes_single, if_pos he]
  rfl

theorem applyEffects_pair (h : (s.die d).effects = [e, f]) (hlt : f.cls < e.cls) (he : e.cls < 9) :
    applyEffects s d = writeEffect (writeEffect (s.setDie d { s.die d with effects := [] }) f.kind f.addr f.data) e.kind e.addr e.data := by
  rw [applyEffects, h, sortEffects, classes_pair hlt, if_pos he, if_pos (hlt.trans he)]
  rfl

end

/-! #### The bytes that a write leaves -/

theorem map_fst_spread (data : List (Byte × Bool)) : (spread data).map Prod.fst = data.map Prod.fst := by
  unfold spread
  split
  · rw [List.map_map]
    rfl
  · rfl

theorem Mem.read_eq_map (m : List Host.Cell) (a n : Nat) : Mem.read m a n = (List.range n).map fun i => Mem.get m (a + i) := by
  induction n generalizing a with
  | zero => rfl
  | succ n ih =>
    rw [Mem.read, ih, List.range_succ_eq_map, List.map_cons, List.map_map]
    exact congrArg _ (List.map_congr_left fun i _ => by simp [Nat.add_comm 1 i, Nat.add_assoc])

theorem map_fst_peek (s : State) (a n : Nat) : (s.peek a n).map Prod.fst = s.bytes a n := by
  rw [State.bytes, State.peek, List.map_map]
  exact (Mem.read_eq_map s.mem a n).symm

/-- The sums at the memory do not depend on the marks of what is added. -/
theorem map_fst_accAt (s : State) (a : Nat) (fp32 src4 : Bool) {data data' : List (Byte × Bool)} (h : data.map Prod.fst = data'.map Prod.fst) :
    (accAt s a fp32 src4 data).map Prod.fst = (accAt s a fp32 src4 data').map Prod.fst := by
  have hlen : data.length = data'.length := by simpa using congrArg List.length h
  have hpiece (j m : Nat) : ((data.drop j).take m).map Prod.fst = ((data'.drop j).take m).map Prod.fst := by
    rw [List.map_take, List.map_drop, h, ← List.map_drop, ← List.map_take]
  simp only [accAt, List.map_flatMap, List.map_map, hlen, hpiece]
  rfl

theorem map_fst_mergeWrite (s : State) {k : AccKind} (hk : k ≠ .read) (a : Nat) (data : List (Byte × Bool)) :
    (mergeWrite s k a (spread data)).map Prod.fst = storedBytes s k a (data.map Prod.fst) := by
  have hspread := map_fst_spread data
  have hlen : (spread data).length = (data.map Prod.fst).length := by simpa using congrArg List.length hspread
  cases k with
  | read => exact absurd rfl hk
  | write => exact hspread
  | bitSet | bitClear =>
    rw [mergeWrite, storedBytes, List.map_map, hlen, ← hspread, ← map_fst_peek, List.zipWith_map, List.map_zip_eq_zipWith]
    rfl
  | acc fp32 =>
    refine map_fst_accAt s a fp32 fp32 ?_
    rw [List.map_map]
    exact hspread.trans (List.map_id _).symm

theorem le_of_placeOf_store {a : Nat} {d : Die} {st : Store} {u w off : Nat} (h : placeOf a = .store d st u w off) : 0xF000000000 ≤ a := by
  by_contra hlt
  unfold placeOf at h
  split_ifs at h <;> omega

section
variable {s : State} {d : Die} {e : Effect} {st : Store} {u w off : Nat}

theorem writeEffect_bytes (hk : e.kind ≠ .read) (hplace : placeOf e.addr = .store d st u w off) (hwf : Mem.wf s.mem = true)
    {r : State} (hr : r = readHalf s e.kind e.addr e.data.length) {bs : List Byte}
    (hbs : bs = storedBytes r e.kind e.addr (e.data.map Prod.fst)) :
    (writeEffect s e.kind e.addr e.data).bytes e.addr bs.length = bs ∧ MemKeptBut e.addr bs.length r (writeEffect s e.kind e.addr e.data)
      ∧ (writeEffect s e.kind e.addr e.data).dies = r.dies := by
  subst hr hbs
  have hread := readFrom_readHalf s e.kind e.addr e.data.length
  have hmem : (writeEffect s e.kind e.addr e.data).mem = Mem.write (readHalf s e.kind e.addr e.data.length).mem e.addr
      (storedBytes (readHalf s e.kind e.addr e.data.length) e.kind e.addr (e.data.map Prod.fst)) := by
    rw [← map_fst_mergeWrite _ hk]
    exact poke_mem (le_of_placeOf_store hplace) _
  refine ⟨?_, memKeptBut_write (hread.wf hwf) hmem, rfl⟩
  rw [State.bytes, hmem]
  exact Mem.read_write (hread.wf hwf) _ _

end

/-- Settles O24: a service takes its slot and what the access is to do there; its return is a delivery; the writes of a beat
come in order of their class, each over what the error protection read. -/
theorem storeAccesses : Obligations.StoreAccesses := by
  refine ⟨fun s d i a ha => ⟨fun c hc => storeAccessServe_runs ha hc, fun u h => congrArg Host.Outcome.next (serveAccess_waits ha h u),
    fun hserved hret horder => ⟨?_, ?_, ?_, ?_⟩, storeReadReturn_waits ha⟩, ?_, ?_⟩
  · exact fun e q x rd sx hdest => scalar_returns ha hserved hret horder (by rw [hdest]; nofun) hdest
  · exact fun e q x hdest => store_returns ha hserved hret horder (by rw [hdest]; nofun) hdest
  · exact fun e q x vd off hdest => vector_returns ha hserved hret horder (by rw [hdest]; nofun) hdest
  · exact fun e q rows rb hdest => feeder_returns ha hserved hret horder (by rw [hdest]; nofun) hdest
  · intro s d e st u w off heff hcls hk hplace hwf r hr
    obtain ⟨hbytes, hkept, hdies⟩ := writeEffect_bytes (s := s.setDie d { s.die d with effects := [] }) hk hplace hwf hr rfl
    have hnone := (readFrom_readHalf (s.setDie d { s.die d with effects := [] }) e.kind e.addr e.data.length).effects d
    rw [State.die_setDie_same, ← hr] at hnone
    rw [applyEffects_single heff hcls]
    exact ⟨hbytes, hkept, by rw [State.die, hdies]; exact hnone⟩
  · exact fun s d e f heff hlt hcls => applyEffects_pair heff hlt hcls

end Sys2Proof.Machine
end

section
/-! ### What waits behind an access (R205, R206, R211, R222, R226) -/

namespace Sys2Proof.Machine

theorem die_useSlot (s : State) (d : Die) (key cls : Nat) :
    (useSlot s d key cls).die d = { s.die d with used := (s.die d).used ++ [.bank key cls] } := State.die_setDie_same s d _

section
variable {s : State} {d : Die}

/-! #### Write-backs and scrubs -/

theorem rmwWriteback_writes {i : Nat} {r : Rmw} (hr : (s.die d).rmws[i]? = some r) (hdue : r.beat ≤ s.beat d) :
    rmwWriteback d i s = s.setDie d { s.die d with rmws := (s.die d).rmws.eraseIdx i } := by
  simp only [rmwWriteback, hr, if_pos hdue]

theorem rmwWriteback_waits {i : Nat} {r : Rmw} (hr : (s.die d).rmws[i]? = some r) (hearly : s.beat d < r.beat) :
    rmwWriteback d i s = s := by
  simp only [rmwWriteback, hr, if_neg (Nat.not_le.mpr hearly)]

theorem scrubWriteback_idle (h : (s.die d).scrubs.filter (fun c => c.live s) = []) : scrubWriteback d s = s := by
  simp only [scrubWriteback, h]

/-- The state with a scrub's slot taken and the scrub counted. -/
def scrubCounted (s : State) (d : Die) (c : Scrub) : State :=
  (useSlot s d (rowOf c.word).1 7).addFld (errCountReg d c.store) F.wstErrCount_SCRUB 1

variable {c : Scrub} {cs : List Scrub} (h : (s.die d).scrubs.filter (fun c => c.live s) = c :: cs)
  (hopen : slotOpen s d (bankIndex c.word) (rowOf c.word).1 7 = true)
include h hopen

theorem scrubWriteback_writes : scrubWriteback d s =
    { (scrubCounted s d c).setDie d { (scrubCounted s d c).die d with scrubs := cs } with latent := s.latent.drop_ c.word } := by
  simp only [scrubWriteback, h, if_pos hopen]
  rfl

theorem scrubWriteback_runs : Runs (.scrubWriteback d) s fun t =>
      (t.die d).scrubs = cs ∧ t.latent.find c.word = none ∧ (∀ w, w ≠ c.word → t.latent.find w = s.latent.find w)
      ∧ t.fld (errCountReg d c.store) F.wstErrCount_SCRUB = min (s.fld (errCountReg d c.store) F.wstErrCount_SCRUB + 1) (2 ^ 24 - 1)
      ∧ .bank (rowOf c.word).1 7 ∈ (t.die d).used ∧ t.mem = s.mem ∧ RegsKept [errCountReg d c.store] s t := by
  have hdie := State.die_setDie_same (scrubCounted s d c) d { (scrubCounted s d c).die d with scrubs := cs }
  refine ⟨_, congrArg Host.Outcome.next (scrubWriteback_writes h hopen), congrArg DieSt.scrubs hdie, Assoc.find_drop_same _ _,
    fun w hw => Assoc.find_drop_ne _ hw, ?_, ?_, rfl, fun r hr => ?_⟩
  · exact State.fld_addFld_same (useSlot s d (rowOf c.word).1 7) _ _ 1 (by decide)
  · have hcounted : (scrubCounted s d c).die d = _ := die_useSlot s d (rowOf c.word).1 7
    have hused : .bank (rowOf c.word).1 7 ∈ ((scrubCounted s d c).die d).used := by
      rw [hcounted]
      exact List.mem_append_right _ List.mem_cons_self
    exact (congrArg DieSt.used hdie).symm ▸ hused
  · exact State.reg_addFld_ne (useSlot s d (rowOf c.word).1 7) _ _ (by simpa using hr)

end

/-! #### The drain buffer -/

section
variable {s : State} {d : Die} {q : CoreId} {i : Nat}

theorem drainEntryWrite_keeps : StoresKept s (drainEntryWrite d q i s) ∧ (drainEntryWrite d q i s).regs = s.regs := by
  simp only [drainEntryWrite]
  (repeat' split) <;> exact ⟨⟨rfl, rfl, rfl, rfl⟩, rfl⟩

variable {e : DrainEntry} (he : (s.core d q).drains[i]? = some e)
  (hfirst : ((s.core d q).drains.take i).any (fun o => o.line % 8 = e.line % 8) = false)
  (hopen : slotOpen s d (e.line % 8) (bankKey .pst q.val (e.line % 8)) 0 = true)
include he hfirst hopen

/-- An accumulating entry takes its first slot for the read. -/
theorem drainEntryWrite_reads (hacc : e.acc = true) (hback : e.back = none) : (drainEntryWrite d q i s).core d q
    = { s.core d q with drains := (s.core d q).drains.set i { e with back := some (s.beat d + 8) } } := by
  simp only [drainEntryWrite, he, hfirst, hopen, hacc, hback, Bool.not_true, Bool.or_false, Bool.false_eq_true, if_false]
  exact State.core_setCore_same _ d q _

/-- The last slot of an entry empties its place. -/
theorem drainEntryWrite_writes (hlast : e.acc = false ∨ e.back ≠ none) (hdue : e.back.getD 0 ≤ s.beat d) :
    (drainEntryWrite d q i s).core d q = { s.core d q with drains := (s.core d q).drains.eraseIdx i } := by
  have hbeat : (useSlot s d (bankKey .pst q.val (e.line % 8)) 0).beat d = s.beat d := rfl
  simp only [drainEntryWrite, he, hfirst, hopen, hbeat, Bool.not_true, Bool.or_false, Bool.false_eq_true, if_false]
  split
  · simp_all
  · rw [if_pos hdue]
    exact State.core_setCore_same _ d q _

theorem drainEntryWrite_runs : Runs (.drainEntryWrite d q i) s fun t =>
    (e.acc = false → e.back = none → t.core d q = { s.core d q with drains := (s.core d q).drains.eraseIdx i })
    ∧ (e.acc = true → e.back = none →
        t.core d q = { s.core d q with drains := (s.core d q).drains.set i { e with back := some (s.beat d + 8) } })
    ∧ (∀ v, e.back = some v → v ≤ s.beat d → t.core d q = { s.core d q with drains := (s.core d q).drains.eraseIdx i })
    ∧ StoresKept s t ∧ t.regs = s.regs := by
  refine ⟨_, rfl, fun hacc hback => ?_, drainEntryWrite_reads he hfirst hopen, fun v hback hv => ?_, drainEntryWrite_keeps⟩
  · exact drainEntryWrite_writes he hfirst hopen (.inl hacc) (by simp [hback])
  · exact drainEntryWrite_writes he hfirst hopen (.inr (by simp [hback])) (by simpa [hback] using hv)

end

/-! #### The combining buffer -/

theorem mem_insertByte {p r : Nat × Byte × Bool} {l : List (Nat × Byte × Bool)} : p ∈ insertByte r l ↔ p = r ∨ p ∈ l := by
  induction l with
  | nil => simp [insertByte]
  | cons h l ih =>
    unfold insertByte
    split
    · simp
    · simp only [List.mem_cons, ih]
      tauto

theorem mem_foldl_insertByte {p : Nat × Byte × Bool} {l acc : List (Nat × Byte × Bool)} :
    p ∈ l.foldl (fun l p => insertByte p l) acc ↔ p ∈ l ∨ p ∈ acc := by
  induction l generalizing acc with
  | nil => simp
  | cons h l ih =>
    rw [List.foldl_cons, ih, mem_insertByte, List.mem_cons]
    tauto

/-- A byte put before runs: it lengthens the first run where it stands right before it. -/
def joinRun (p : Nat × Byte × Bool) (runs : List (Nat × List (Byte × Bool))) : List (Nat × List (Byte × Bool)) :=
  match runs with
  | (o, bs) :: t => if p.1 + 1 = o then (p.1, p.2 :: bs) :: t else (p.1, [p.2]) :: (o, bs) :: t
  | [] => [(p.1, [p.2])]

theorem runs_eq (e : CombEntry) : e.runs = (e.bytes.foldl (fun l p => insertByte p l) []).foldr joinRun [] := rfl

/-- Runs hold a byte at an offset. -/
def Holds (runs : List (Nat × List (Byte × Bool))) (k : Nat) (b : Byte × Bool) : Prop := ∃ r ∈ runs, ∃ j, r.1 + j = k ∧ r.2[j]? = some b

theorem holds_cons {r : Nat × List (Byte × Bool)} {t : List (Nat × List (Byte × Bool))} {k : Nat} {b : Byte × Bool} :
    Holds (r :: t) k b ↔ (∃ j, r.1 + j = k ∧ r.2[j]? = some b) ∨ Holds t k b := by simp [Holds]

/-- A run with a byte before it. -/
theorem exists_cons_iff {o k : Nat} {b c : Byte × Bool} {bs : List (Byte × Bool)} :
    (∃ j, o + j = k ∧ (c :: bs)[j]? = some b) ↔ (k = o ∧ b = c) ∨ ∃ j, o + 1 + j = k ∧ bs[j]? = some b := by
  constructor
  · rintro ⟨j, hj, hb⟩
    cases j with
    | zero => exact .inl ⟨by omega, by simpa using hb.symm⟩
    | succ j => exact .inr ⟨j, by omega, by simpa using hb⟩
  · rintro (⟨rfl, rfl⟩ | ⟨j, hj, hb⟩)
    · exact ⟨0, rfl, rfl⟩
    · exact ⟨j + 1, by omega, by simpa using hb⟩

theorem holds_joinRun {p : Nat × Byte × Bool} {runs : List (Nat × List (Byte × Bool))} {k : Nat} {b : Byte × Bool} :
    Holds (joinRun p runs) k b ↔ (k, b) = p ∨ Holds runs k b := by
  obtain ⟨o, c⟩ := p
  rw [Prod.mk.injEq]
  unfold joinRun
  split
  · next first bs t =>
    split
    · next hnext =>
      have hnext : o + 1 = first := hnext
      rw [holds_cons, holds_cons, exists_cons_iff, hnext, or_assoc]
    · rw [holds_cons, exists_cons_iff]
      simp
  · rw [holds_cons, exists_cons_iff]
    simp

theorem holds_runs {e : CombEntry} {k : Nat} {b : Byte × Bool} : Holds e.runs k b ↔ (k, b) ∈ e.bytes := by
  have hfold (l : List (Nat × Byte × Bool)) : Holds (l.foldr joinRun []) k b ↔ (k, b) ∈ l := by
    induction l with
    | nil => simp [Holds]
    | cons p l ih => rw [List.foldr_cons, holds_joinRun, ih, List.mem_cons]
  rw [runs_eq, hfold, mem_foldl_insertByte]
  simp

/-- Where no key is listed twice, what is listed is what is found. -/
theorem Assoc.find_eq_some_iff_mem {κ α : Type} [DecidableEq κ] {t : Assoc κ α} (h : (t.map Prod.fst).Nodup) {k : κ} {v : α} :
    t.find k = some v ↔ (k, v) ∈ t := by
  induction t with
  | nil => simp [find]
  | cons p t ih =>
    obtain ⟨j, w⟩ := p
    rw [List.map_cons, List.nodup_cons] at h
    obtain ⟨hj, ht⟩ := h
    unfold find
    by_cases hk : k = j
    · subst hk
      have hnot : (k, v) ∉ t := fun hmem => hj (List.mem_map.mpr ⟨_, hmem, rfl⟩)
      simp [hnot, eq_comm]
    · simp [hk, ih ht]

section
variable {s : State} {d : Die} {q : CoreId} {e : CombEntry} {es : List CombEntry} {c : Nat}

theorem combineEntryWrite_idle (h : (s.core d q).combine = []) : combineEntryWrite d q s = s := by simp only [combineEntryWrite, h]

/-- The state with a combining entry gone from its buffer and its writes to take effect at the beat's end. -/
def combineWritten (s : State) (d : Die) (q : CoreId) (e : CombEntry) (es : List CombEntry) (c : Nat) : State :=
  let part := e.runs.any (fun r => decide (r.1 % protSize e.line ≠ 0 ∨ r.2.length % protSize e.line ≠ 0))
  (s.setCore d q { s.core d q with combine := es }).setDie d { s.die d with
    used := (s.die d).used ++ (.bank (rowOf e.line).1 c :: (e.access d q).port.toList)
    effects := (s.die d).effects ++ e.runs.map (fun r => ⟨c, .write, e.line + r.1, r.2⟩)
    rmws := if part then (s.die d).rmws ++ [⟨(rowOf e.line).1, c, s.beat d + 8⟩] else (s.die d).rmws }

variable (hbuffer : (s.core d q).combine = e :: es) (hslot : freeSlot s d (e.access d q) = some c)
  (hport : ∀ p, (e.access d q).port = some p → p ∉ (s.die d).used)
  (hunwanted : (s.die d).accs.any (fun b => !b.narrow && b.port == (e.access d q).port && (freeSlot s d b).isSome) = false)
include hbuffer hslot hport hunwanted

theorem combineEntryWrite_writes : combineEntryWrite d q s = combineWritten s d q e es c := by
  have hfree : (match (e.access d q).port with | some p => (s.die d).used.contains p | none => false) = false := by
    split
    · next p hp => simpa using hport p hp
    · rfl
  simp only [combineEntryWrite, hbuffer, hslot, hunwanted, Bool.or_false]
  exact if_neg fun h => Bool.noConfusion (hfree.symm.trans h)

theorem combineEntryWrite_runs (hnodup : (e.bytes.map Prod.fst).Nodup) : Runs (.combineEntryWrite d q) s fun t =>
    t.core d q = { s.core d q with combine := es }
    ∧ (∃ new, (t.die d).effects = (s.die d).effects ++ new ∧ (∀ f ∈ new, f.kind = .write ∧ f.cls = c)
        ∧ ∀ k b, e.bytes.find k = some b ↔ ∃ f ∈ new, ∃ j, f.addr + j = e.line + k ∧ f.data[j]? = some b)
    ∧ .bank (rowOf e.line).1 c ∈ (t.die d).used ∧ StoresKept s t ∧ t.regs = s.regs ∧ t.ctxs = s.ctxs := by
  refine ⟨_, congrArg Host.Outcome.next (combineEntryWrite_writes hbuffer hslot hport hunwanted), ?_,
    ⟨e.runs.map (fun r => ⟨c, .write, e.line + r.1, r.2⟩), ?_, ?_, fun k b => ?_⟩, ?_, ⟨rfl, rfl, rfl, rfl⟩, rfl, rfl⟩
  · rw [combineWritten, State.core_setDie, State.core_setCore_same]
  · rw [combineWritten, State.die_setDie_same]
  · exact List.forall_mem_map.mpr fun _ _ => ⟨rfl, rfl⟩
  · rw [Assoc.find_eq_some_iff_mem hnodup, ← holds_runs]
    simp [Holds, Nat.add_assoc]
  · rw [combineWritten, State.die_setDie_same]
    exact List.mem_append_right _ List.mem_cons_self

end

/-- Settles O25: each buffer's command takes its slot in the one branch that its guard allows, and the runs of a combining entry
hold its masked bytes and no others. -/
theorem buffersAreWritten : Obligations.BuffersAreWritten := by
  refine fun s d q i => ⟨fun r hr => ⟨fun hdue => ?_, fun hearly => congrArg Host.Outcome.next (rmwWriteback_waits hr hearly)⟩,
    fun c cs h hopen => scrubWriteback_runs h hopen, fun h => congrArg Host.Outcome.next (scrubWriteback_idle h),
    fun e he hfirst hopen => drainEntryWrite_runs he hfirst hopen,
    fun e es c hbuffer hslot hport hunwanted hnodup => combineEntryWrite_runs hbuffer hslot hport hunwanted hnodup,
    fun h => congrArg Host.Outcome.next (combineEntryWrite_idle h)⟩
  exact ⟨_, congrArg Host.Outcome.next (rmwWriteback_writes hr hdue), congrArg DieSt.rmws (State.die_setDie_same s d _),
    ⟨rfl, rfl, rfl, rfl⟩, rfl⟩

end Sys2Proof.Machine
end

section
/-! ### Tables and memory without some of their keys -/

namespace Sys2Proof.Machine

/-- Memory of which the cells at some addresses are kept. -/
theorem Mem.get_filter (f : Nat → Bool) (m : List Host.Cell) (a : Nat) :
    Mem.get (m.filter fun c => f c.1) a = if f a then Mem.get m a else blank := by
  induction m with
  | nil => simp [blank]
  | cons c m ih =>
    obtain ⟨j, b⟩ := c
    by_cases ha : a = j <;> by_cases hj : f j <;> simp_all [Mem.get]

theorem NatSet.has_filter (f : Nat → Bool) (l : List Nat) (a : Nat) : NatSet.has (l.filter f) a = (f a && NatSet.has l a) := by
  induction l with
  | nil => simp [NatSet.has]
  | cons j l ih => by_cases ha : a = j <;> by_cases hj : f j <;> simp_all [NatSet.has, beq_eq_false_iff_ne.mpr]

theorem Assoc.find_filter {κ α : Type} [DecidableEq κ] (f : κ → Bool) (t : Assoc κ α) (k : κ) :
    Assoc.find k (t.filter fun p => f p.1) = if f k then t.find k else none := by
  induction t with
  | nil => simp
  | cons p t ih =>
    obtain ⟨j, v⟩ := p
    by_cases hk : k = j <;> by_cases hj : f j <;> simp_all [Assoc.find]

end Sys2Proof.Machine
end

section
/-! ### CLEAR of the stores, and STORE_CTRL (R240, R243, R244) -/

namespace Sys2Proof.Machine

/-- A write that leaves EXPERT_UNLOCK as it is leaves no record (R500). -/
theorem unlockRecord_kept {s t : State} {r : Reg} (hkept : bitsOf (t.reg r) 0 0 = bitsOf (s.reg r) 0 0) :
    unlockRecord t .mgmt r (unlockedFor s r) = t := by
  refine if_neg fun ⟨hr, hlocked, hset⟩ => ?_
  simp only [unlockedFor, hr, ← hkept, hset] at hlocked
  cases hlocked

section
variable {s : State} {d : Die}

/-! #### The write of CLEAR -/

theorem wstCtrl_mem (d : Die) : F.wstCtrl_CLEAR_BUSY ∈ (Reg.wstCtrl d).fields ∧ F.wstCtrl_CLEAR ∈ (Reg.wstCtrl d).fields
    ∧ F.wstCtrl_CLR_COUNTS ∈ (Reg.wstCtrl d).fields ∧ F.wstCtrl_EXPERT_UNLOCK ∈ (Reg.wstCtrl d).fields := by
  simp [Reg.fields]

/-- No field of CTRL or STORE_CTRL is an expert one. -/
theorem writesExpert_storeRegs (v : Word) : ∀ r ∈ ([.wstCtrl d, .wstStoreCtrl d] : List Reg), writesExpert s r v = false := by
  refine fun r hr => writesExpert_eq_false fun f hf hl => ?_
  simp only [List.mem_cons, List.not_mem_nil, or_false] at hr
  rcases hr with rfl | rfl <;> simp only [Reg.fields, List.mem_cons, List.not_mem_nil, or_false] at hf
  · rcases hf with rfl | rfl | rfl | rfl <;> cases hl
  · rcases hf with rfl | rfl | rfl <;> cases hl

/-- The word that reaches the rule of CTRL when CLEAR is written: it clears the stores, no counts, and keeps EXPERT_UNLOCK. -/
theorem fields_clearWritten (s : State) (d : Die) : bitsOf (fieldWritten s (.wstCtrl d) F.wstCtrl_CLEAR 1) 2 2 = 1
    ∧ bitsOf (fieldWritten s (.wstCtrl d) F.wstCtrl_CLEAR 1) 1 1 = 0
    ∧ bitsOf (fieldWritten s (.wstCtrl d) F.wstCtrl_CLEAR 1) 0 0 = bitsOf (s.reg (.wstCtrl d)) 0 0 := by
  obtain ⟨-, hclear, hcounts, hlock⟩ := wstCtrl_mem d
  refine ⟨(bitsOf_writtenWord_wo hclear s _ rfl).trans (bitsOf_putBits_same _ _ _ _ (by decide)), ?_,
    bitsOf_fieldWritten_kept s 1 hclear hlock (by decide) (by decide)⟩
  exact (bitsOf_writtenWord_wo hcounts s _ rfl).trans (bitsOf_fieldWord_other s 1 hclear hcounts (by decide))

theorem ownWrite_wstCtrl_clears (hquiet : s.quiet d = true) : ownWrite s (.wstCtrl d) (fieldWritten s (.wstCtrl d) F.wstCtrl_CLEAR 1)
    = some (startClear d (store s (.wstCtrl d) (fieldWritten s (.wstCtrl d) F.wstCtrl_CLEAR 1))) := by
  obtain ⟨hclear, hcounts, -⟩ := fields_clearWritten s d
  show writeStoreBlockCtrl s d .wst _ = _
  simp [writeStoreBlockCtrl, hclear, hcounts, hquiet]

theorem ownWrite_wstCtrl_refused (hquiet : s.quiet d = false) :
    ownWrite s (.wstCtrl d) (fieldWritten s (.wstCtrl d) F.wstCtrl_CLEAR 1) = none :=
  if_pos ⟨⟨rfl, (fields_clearWritten s d).1⟩, hquiet⟩

/-! #### The clear -/

theorem die_startClear_bist (s : State) (d : Die) : ((startClear d s).die d).bist.running = false := by
  simp only [startClear, State.die_setFld, State.die_setDie_same]
  exact congrArg (fun x : DieSt => x.bist.running) (State.die_setDie_same s d _)

/-- Whether an address lies outside the stores of a die. -/
def outsideStores (d : Die) (a : Nat) : Bool := a < (storeRange d).1 || (storeRange d).2 ≤ a

theorem mem_startClear (s : State) (d : Die) (a : Nat) :
    Mem.get (startClear d s).mem a = if outsideStores d a then Mem.get s.mem a else 0 := Mem.get_filter (outsideStores d) s.mem a

theorem poison_startClear (s : State) (d : Die) (a : Nat) :
    NatSet.has (startClear d s).poison a = (outsideStores d a && NatSet.has s.poison a) := NatSet.has_filter (outsideStores d) s.poison a

theorem latent_startClear (s : State) (d : Die) (a : Nat) :
    (startClear d s).latent.find a = if outsideStores d a then s.latent.find a else none := Assoc.find_filter (outsideStores d) s.latent a

theorem fld_startClear (s : State) (d : Die) : (startClear d s).fld (.wstCtrl d) F.wstCtrl_CLEAR_BUSY = 1 :=
  State.fld_setFld_same _ _ _ _ (by decide)

theorem reg_startClear_ne (s : State) {d : Die} {r : Reg} (h : r ≠ .wstCtrl d) : (startClear d s).reg r = s.reg r :=
  State.reg_setFld_ne _ _ _ h

theorem setFields_clear (h : WriteReady s (.wstCtrl d)) (hquiet : s.quiet d = true) : setFields s (.wstCtrl d) [(F.wstCtrl_CLEAR, 1)]
    = startClear d (store s (.wstCtrl d) (fieldWritten s (.wstCtrl d) F.wstCtrl_CLEAR 1)) := by
  refine ((privWrite_ready h _).trans (writeReg_done h.2.2 (fun _ => writesExpert_storeRegs (d := d) _ _ (by simp))
    (ownWrite_wstCtrl_clears hquiet))).trans (unlockRecord_kept ?_)
  obtain ⟨-, -, hlock⟩ := fields_clearWritten s d
  have hput : bitsOf ((startClear d (store s (.wstCtrl d) (fieldWritten s (.wstCtrl d) F.wstCtrl_CLEAR 1))).reg (.wstCtrl d)) 0 0
      = (store s (.wstCtrl d) (fieldWritten s (.wstCtrl d) F.wstCtrl_CLEAR 1)).fld (.wstCtrl d) F.wstCtrl_EXPERT_UNLOCK :=
    State.fld_setFld_apart _ _ F.wstCtrl_CLEAR_BUSY F.wstCtrl_EXPERT_UNLOCK 1 (by decide)
  rw [hput, fld_store s _ (wstCtrl_mem d).2.2.2 (by decide)]
  exact hlock

theorem storeClear_runs (h : WriteReady s (.wstCtrl d)) (hquiet : s.quiet d = true) : Runs (.storeClear d) s fun t =>
    t.fld (.wstCtrl d) F.wstCtrl_CLEAR_BUSY = 1 ∧ (t.die d).bist.running = false
    ∧ (∀ a, (storeRange d).1 ≤ a → a < (storeRange d).2 → Mem.get t.mem a = 0 ∧ NatSet.has t.poison a = false ∧ t.latent.find a = none)
    ∧ (∀ a, a < (storeRange d).1 ∨ (storeRange d).2 ≤ a → Mem.get t.mem a = Mem.get s.mem a
        ∧ NatSet.has t.poison a = NatSet.has s.poison a ∧ t.latent.find a = s.latent.find a)
    ∧ RegsKept [.wstCtrl d] s t ∧ t.ctxs = s.ctxs ∧ t.cores = s.cores := by
  refine ⟨_, congrArg Host.Outcome.next (setFields_clear h hquiet), fld_startClear _ d, die_startClear_bist _ d, fun a hlo hhi => ?_,
    fun a hout => ?_, fun r hr => ?_, rfl, rfl⟩
  · have hin : outsideStores d a = false := by
      simp only [outsideStores, Bool.or_eq_false_iff, decide_eq_false_iff_not]
      omega
    rw [mem_startClear, poison_startClear, latent_startClear, hin]
    exact ⟨rfl, rfl, rfl⟩
  · have hout : outsideStores d a = true := by simpa [outsideStores] using hout
    rw [mem_startClear, poison_startClear, latent_startClear, hout]
    exact ⟨rfl, rfl, rfl⟩
  · exact (reg_startClear_ne _ (by simpa using hr)).trans (regsKept_store s _ _ r hr)

theorem clearing_iff : s.clearing d = true ↔ s.fld (.wstCtrl d) F.wstCtrl_CLEAR_BUSY = 1 := beq_iff_eq

/-- A clear keeps every slot from being used. -/
theorem servable_clearing (h : s.clearing d = true) (i : Nat) (a : Access) : servable s d i a = none := by
  cases hs : servable s d i a with
  | none => rfl
  | some c => exact absurd (h.symm.trans (unused_of_freeSlot (freeSlot_of_servable hs)).2) nofun

theorem storeClearDone_runs (h : s.fld (.wstCtrl d) F.wstCtrl_CLEAR_BUSY = 1) : Runs (.storeClearDone d) s fun t =>
    t.fld (.wstCtrl d) F.wstCtrl_CLEAR_BUSY = 0 ∧ t.fld (.wstJobTag d) F.wstJobTag_ANY = 1
    ∧ StoresKept s t ∧ DiesKept s t ∧ RegsKept [.wstCtrl d, .wstJobTag d] s t := by
  refine ⟨_, congrArg Host.Outcome.next (if_pos h), State.fld_setFld_same _ _ _ _ (by decide), ?_, ⟨rfl, rfl, rfl, rfl⟩, ⟨rfl, rfl, rfl, rfl⟩,
    fun r hr => ?_⟩
  · have hne : Reg.wstJobTag d ≠ .wstCtrl d := nofun
    rw [State.fld_setFld_ne _ _ _ _ hne]
    exact State.fld_setFld_same _ _ _ _ (by decide)
  · simp only [List.mem_cons, List.not_mem_nil, or_false, not_or] at hr
    rw [State.reg_setFld_ne _ _ _ hr.1, State.reg_setFld_ne _ _ _ hr.2]

/-! #### STORE_CTRL -/

theorem wstStoreCtrl_mem (d : Die) :
    F.wstStoreCtrl_NPOLICY ∈ (Reg.wstStoreCtrl d).fields ∧ F.wstStoreCtrl_INVAR ∈ (Reg.wstStoreCtrl d).fields := by
  simp [Reg.fields]

/-- The word that `setFields` writes to STORE_CTRL. -/
def storeCtrlWord (s : State) (d : Die) (invar combining : Bool) : Word :=
  putBits (putBits (writeBase s (.wstStoreCtrl d) &&& rwMask (.wstStoreCtrl d)) 0 0 invar.toNat) 1 1 combining.toNat

theorem fields_storeCtrlWord (s : State) (d : Die) (invar combining : Bool) :
    bitsOf (writtenWord s (.wstStoreCtrl d) (storeCtrlWord s d invar combining)) 0 0 = invar.toNat
      ∧ bitsOf (writtenWord s (.wstStoreCtrl d) (storeCtrlWord s d invar combining)) 1 1 = combining.toNat := by
  obtain ⟨hpolicy, hinvar⟩ := wstStoreCtrl_mem d
  have hmod (b : Bool) : b.toNat % 2 ^ 1 = b.toNat := Nat.mod_eq_of_lt b.toNat_lt
  refine ⟨(bitsOf_writtenWord_rw hinvar s _ rfl).trans ?_, (bitsOf_writtenWord_rw hpolicy s _ rfl).trans ?_⟩
  · exact (bitsOf_putBits_apart _ _ _ _ _ _ (by decide)).trans ((bitsOf_putBits_same _ _ _ _ (by decide)).trans (hmod invar))
  · exact (bitsOf_putBits_same _ _ _ _ (by decide)).trans (hmod combining)

theorem storeCtrlWrite_runs {invar combining : Bool} (h : WriteReady s (.wstStoreCtrl d)) (hquiet : s.quiet d = true) :
    Runs (.storeCtrlWrite d invar combining) s fun t =>
      t.invar d = invar ∧ t.fld (.wstStoreCtrl d) F.wstStoreCtrl_NPOLICY = combining.toNat ∧ StoresKept s t ∧ DiesKept s t
        ∧ RegsKept [.wstStoreCtrl d] s t := by
  obtain ⟨hpolicy, hinvar⟩ := wstStoreCtrl_mem d
  obtain ⟨hi, hc⟩ := fields_storeCtrlWord s d invar combining
  have took := took_store s (.wstStoreCtrl d) (writtenWord s (.wstStoreCtrl d) (storeCtrlWord s d invar combining))
  have hown : ownWrite s (.wstStoreCtrl d) (writtenWord s (.wstStoreCtrl d) (storeCtrlWord s d invar combining))
      = some (store s (.wstStoreCtrl d) (writtenWord s (.wstStoreCtrl d) (storeCtrlWord s d invar combining))) :=
    if_neg fun hbusy => Bool.noConfusion (hquiet.symm.trans hbusy.2)
  have hwrite := (privWrite_ready h (storeCtrlWord s d invar combining)).trans
    ((writeReg_done h.2.2 (fun _ => writesExpert_storeRegs (d := d) _ _ (by simp)) hown).trans (unlockRecord_other (by simp [Reg.unlock, Reg.block]) _ _ _))
  refine ⟨_, congrArg Host.Outcome.next hwrite, ?_, (took.fld _ hpolicy nofun).trans hc, took.stores, took.dies, took.regs⟩
  rw [State.invar, took.fld _ hinvar nofun]
  exact (congrArg (· == 1) hi).trans (by cases invar <;> rfl)

theorem storeCtrlWrite_rejects {invar combining : Bool} (h : WriteReady s (.wstStoreCtrl d)) (hquiet : s.quiet d = false)
    (hne : s.invar d ≠ invar) : Rejects (.storeCtrlWrite d invar combining) s (.wstStoreCtrl d) := by
  obtain ⟨hi, -⟩ := fields_storeCtrlWord s d invar combining
  have hlow (w : Word) : bitsOf w 0 0 = bitsOf w 1 0 % 2 := by
    unfold bitsOf
    omega
  have hchange : bitsOf (writtenWord s (.wstStoreCtrl d) (storeCtrlWord s d invar combining)) 1 0 ≠ bitsOf (s.reg (.wstStoreCtrl d)) 1 0 := by
    intro hsame
    have hold : s.fld (.wstStoreCtrl d) F.wstStoreCtrl_INVAR = invar.toNat := by
      rw [← hi, hlow, hsame]
      exact hlow _
    refine hne ?_
    rw [State.invar, hold]
    cases invar <;> rfl
  exact congrArg Host.Outcome.next ((privWrite_ready h _).trans (writeReg_refused h.2.2 (if_pos ⟨hchange, hquiet⟩)))

end

/-- Settles O27: CLEAR and STORE_CTRL are writes of their registers by the registers' own rules, and a clear filters memory and
its marks by the range of the die's stores. -/
theorem storesAreCleared : Obligations.StoresAreCleared := by
  intro s d
  refine ⟨storeClear_runs, fun h hquiet => ?_, fun h => ⟨servable_clearing (clearing_iff.mpr h), storeClearDone_runs h⟩,
    fun h => ?_, fun _ _ => storeCtrlWrite_runs, fun _ _ => storeCtrlWrite_rejects⟩
  · exact congrArg Host.Outcome.next (setFields_refused h (ownWrite_wstCtrl_refused hquiet))
  · exact congrArg Host.Outcome.next (if_neg (by rw [h]; decide))

end Sys2Proof.Machine
end

section
/-! ### The background test (R228 to R233, R235) -/

namespace Sys2Proof.Machine

/-! #### Slots of the test -/

/-- A test operation uses its slot up. -/
theorem testSlot_used {s : State} {d : Die} {bank key : Nat} (h : SlotUse.bank key 7 ∈ (s.die d).used) : testSlot s d bank key = false := by
  simp [testSlot, slotOpen, h]

theorem die_setBistLine (s : State) (d : Die) (i : Nat) (l : BistLine) : (setBistLine s d i l).die d
    = { s.die d with bist := { (s.die d).bist with lines := (s.die d).bist.lines.set i l } } := State.die_setDie_same s d _

theorem saveLine_clean {s : State} (h : s.latent = []) (a : Nat) : saveLine s a ⟨[], 0⟩ = s := readStore_of_latent h a 1024

theorem bist_useSlot (s : State) (d : Die) (key cls : Nat) : ((useSlot s d key cls).die d).bist = (s.die d).bist := by rw [die_useSlot]

/-! #### The end of a region -/

section
variable (s : State) (d : Die)

theorem bistFinish_stores : StoresKept s (bistFinish s d) := by
  simp only [bistFinish]
  (repeat' split) <;> exact ⟨rfl, rfl, rfl, rfl⟩

theorem bistFinish_reports : (bistFinish s d).reports = s.reports := by
  simp only [bistFinish]
  (repeat' split) <;> rfl

theorem bistFinish_lines : ((bistFinish s d).die d).bist.lines = (s.die d).bist.lines := by
  simp only [bistFinish]
  (repeat' split) <;> simp only [State.die_addFld, State.die_setDie_same]

theorem bistFinish_regs : RegsKept [.wstBistStatus d] s (bistFinish s d) := by
  intro r hr
  have hne : r ≠ .wstBistStatus d := by simpa using hr
  simp only [bistFinish]
  (repeat' split) <;> simp only [State.reg_addFld_ne _ _ _ hne, State.reg_setDie]

theorem bistFinish_region : (bistFinish s d).fld (.wstBistStatus d) F.wstBistStatus_REGION = s.fld (.wstBistStatus d) F.wstBistStatus_REGION := by
  have hpasses (t : State) : (t.addFld (.wstBistStatus d) F.wstBistStatus_PASSES 1).fld (.wstBistStatus d) F.wstBistStatus_REGION
      = t.fld (.wstBistStatus d) F.wstBistStatus_REGION := State.fld_addFld_apart _ _ _ _ _ (by decide)
  simp only [bistFinish]
  (repeat' split) <;> simp only [hpasses, State.fld_setDie]

variable {s d}

/-- A region goes on while a line of it is not restored. -/
theorem bistFinish_goes_on (h : (s.die d).bist.lines.all (fun l => l.restored) = false) : bistFinish s d = s := by
  simp [bistFinish, h]

end

/-! #### The start of a region -/

section
variable {s : State} {d : Die}

/-- A region's line as it starts: a spare row in use is not tested. -/
def startLine (s : State) (d : Die) (r i : Nat) : BistLine :=
  if 73728 ≤ r then ⟨true, 0, false, (s.repair d (spareRow r i).1 (spareRow r i).2).valid⟩ else ⟨false, 0, false, false⟩

/-- The state with an overrun of the last region counted. -/
def overrunCounted (s : State) (d : Die) : State :=
  let b := (s.die d).bist
  if b.started && decide (b.startBeat + s.fld (.wstBistCtrl d) F.wstBistCtrl_INTERVAL < b.endBeat)
    then s.addFld (.wstBistStatus d) F.wstBistStatus_OVERRUNS 1 else s

/-- The state with the next region of the walk named and started. -/
def regionStarted (s : State) (d : Die) : State :=
  let b := (s.die d).bist
  let u := (overrunCounted s d).setFld (.wstBistStatus d) F.wstBistStatus_REGION b.next
  u.setDie d { u.die d with bist := { b with
    running := true, started := true, startBeat := u.beat d, outOfTurn := none, extra := false, next := b.next + 1
    lines := (List.range 4).map (startLine (overrunCounted s d) d b.next) } }

theorem overrunCounted_rest (s : State) (d : Die) : overrunCounted s d = { s with regs := (overrunCounted s d).regs } := by
  unfold overrunCounted
  dsimp only
  split <;> rfl

theorem overrunCounted_regs (s : State) (d : Die) : RegsKept [.wstBistStatus d] s (overrunCounted s d) := by
  intro r hr
  unfold overrunCounted
  dsimp only
  split
  · exact State.reg_addFld_ne _ _ _ (by simpa using hr)
  · rfl

theorem regionStarted_stores (s : State) (d : Die) : StoresKept s (regionStarted s d) := by
  unfold regionStarted
  rw [overrunCounted_rest]
  exact ⟨rfl, rfl, rfl, rfl⟩

theorem regionStarted_regs (s : State) (d : Die) : RegsKept [.wstBistStatus d] s (regionStarted s d) := fun r hr =>
  (State.reg_setFld_ne (overrunCounted s d) _ _ (by simpa using hr)).trans (overrunCounted_regs s d r hr)

theorem regionStarted_region {s : State} {d : Die} (h : (s.die d).bist.next < 2 ^ 17) :
    (regionStarted s d).fld (.wstBistStatus d) F.wstBistStatus_REGION = (s.die d).bist.next :=
  (State.fld_setFld_same (overrunCounted s d) _ _ _ (by decide)).trans (Nat.mod_eq_of_lt h)

theorem regionStarted_bist (s : State) (d : Die) : ((regionStarted s d).die d).bist = { (s.die d).bist with
    running := true, started := true, startBeat := s.beat d, outOfTurn := none, extra := false, next := (s.die d).bist.next + 1
    lines := (List.range 4).map (startLine s d (s.die d).bist.next) } := by
  have hne : Reg.scvBeat d ∉ [Reg.wstBistStatus d] := by simp
  have hbeat : (regionStarted s d).beat d = s.beat d := congrArg BitVec.toNat (regionStarted_regs s d _ hne)
  have hline : startLine (overrunCounted s d) d = startLine s d := by rw [overrunCounted_rest]; rfl
  rw [← hline, ← hbeat]
  exact congrArg DieSt.bist (State.die_setDie_same _ d _)

theorem bistStart_idle (h : s.fld (.wstBistCtrl d) F.wstBistCtrl_ENABLE = 0 ∨ (s.die d).bist.running = true) : bistStart d s = s := by
  rcases h with h | h <;> simp [bistStart, h]

variable (henable : s.fld (.wstBistCtrl d) F.wstBistCtrl_ENABLE = 1) (hclear : s.fld (.wstCtrl d) F.wstCtrl_CLEAR_BUSY = 0)
  (hup : s.dieUp d = true) (hidle : (s.die d).bist.running = false) (hturn : (s.die d).bist.outOfTurn = none)
  (hdue : (s.die d).bist.started = false
    ∨ (s.die d).bist.startBeat + s.fld (.wstBistCtrl d) F.wstBistCtrl_INTERVAL ≤ s.beat d)
include henable hclear hup hidle hturn hdue

theorem bistStart_starts : bistStart d s = bistFinish (regionStarted s d) d := by
  have hclearing : s.clearing d = false := Bool.eq_false_iff.mpr fun h => absurd (hclear.symm.trans (clearing_iff.mp h)) (by decide)
  have hready : ((s.die d).bist.started
      && decide (s.beat d < (s.die d).bist.startBeat + s.fld (.wstBistCtrl d) F.wstBistCtrl_INTERVAL)) = false := by
    rcases hdue with h | h
    · simp [h]
    · simp [Nat.not_lt.mpr h]
  simp only [bistStart, henable, hidle, hready, hup, hclearing, hturn]
  exact if_neg (by decide)


theorem bistRegionStart_runs (hnext : (s.die d).bist.next < 73728) : Runs (.bistRegionStart d) s fun t =>
    t.fld (.wstBistStatus d) F.wstBistStatus_REGION = (s.die d).bist.next
    ∧ (t.die d).bist.running = true ∧ (t.die d).bist.next = (s.die d).bist.next + 1 ∧ (t.die d).bist.startBeat = s.beat d
    ∧ (t.die d).bist.lines = List.replicate 4 ⟨false, 0, false, false⟩
    ∧ StoresKept s t ∧ RegsKept [.wstBistStatus d] s t := by
  have hbist := regionStarted_bist s d
  have hlines : (List.range 4).map (startLine s d (s.die d).bist.next) = List.replicate 4 ⟨false, 0, false, false⟩ := by
    have hline (i : Nat) : startLine s d (s.die d).bist.next i = ⟨false, 0, false, false⟩ := if_neg (Nat.not_le.mpr hnext)
    exact List.map_eq_replicate_iff.mpr fun i _ => hline i
  have hrun := bistStart_starts henable hclear hup hidle hturn hdue
  rw [bistFinish_goes_on (by rw [hbist, hlines]; rfl)] at hrun
  refine ⟨_, congrArg Host.Outcome.next hrun, regionStarted_region (by omega), ?_, ?_, ?_, ?_, regionStarted_stores s d, regionStarted_regs s d⟩ <;>
    rw [hbist]
  exact hlines

theorem bistRegionStart_spare_runs (hspare : 73728 ≤ (s.die d).bist.next) (hlast : (s.die d).bist.next < regionCount) :
    Runs (.bistRegionStart d) s fun t => t.fld (.wstBistStatus d) F.wstBistStatus_REGION = (s.die d).bist.next
      ∧ (t.die d).bist.lines = (List.range 4).map (fun k =>
          ⟨true, 0, false, (s.repair d (spareRow (s.die d).bist.next k).1 (spareRow (s.die d).bist.next k).2).valid⟩)
      ∧ StoresKept s t ∧ RegsKept [.wstBistStatus d] s t := by
  have hlt : (s.die d).bist.next < 2 ^ 17 := lt_trans hlast (by decide)
  refine ⟨_, congrArg Host.Outcome.next (bistStart_starts henable hclear hup hidle hturn hdue), ?_, ?_,
    storesKept_trans (regionStarted_stores s d) (bistFinish_stores _ d), fun r hr => ?_⟩
  · rw [bistFinish_region, regionStarted_region hlt]
  · rw [bistFinish_lines, regionStarted_bist]
    exact List.map_congr_left fun k _ => if_pos hspare
  · rw [bistFinish_regs _ d r hr, regionStarted_regs s d r hr]

end

/-! #### The operations on a line -/

/-- What every operation on a line leaves: its slot used, its line in the stage it has come to, and the stores as they are. -/
theorem setBistLine_runs {s : State} {d : Die} {i : Nat} {c : Instr} {l' : BistLine}
     (hc : exec c s = .next (setBistLine (useSlot s d (bistBank s d i).2 7) d i l')) :
    Runs c s fun t => (t.die d).bist.lines = (s.die d).bist.lines.set i l' ∧ StoresKept s t ∧ t.regs = s.regs
      ∧ testSlot t d (bistBank s d i).1 (bistBank s d i).2 = false := by
  refine ⟨_, hc, ?_, ⟨rfl, rfl, rfl, rfl⟩, rfl, testSlot_used ?_⟩
  · rw [die_setBistLine, die_useSlot]
  · rw [die_setBistLine, die_useSlot]
    exact List.mem_append_right _ List.mem_cons_self

section
variable {s : State} {d : Die} {i : Nat} {l : BistLine} (hline : (s.die d).bist.lines[i]? = some l) (hforced : (s.die d).bist.forced = [])
include hline hforced

theorem bistSave_waits (hslot : testSlot s d (bistBank s d i).1 (bistBank s d i).2 = false) (u : Upset) : bistSave d i u s = s := by
  simp [bistSave, hline, hforced, hslot]

omit hforced in
theorem bistMarch_waits (hslot : testSlot s d (bistBank s d i).1 (bistBank s d i).2 = false) (differs : Bool) : bistMarch d i differs s = s := by
  simp [bistMarch, hline, hslot]

theorem bistRestore_waits (hslot : testSlot s d (bistBank s d i).1 (bistBank s d i).2 = false) : bistRestore d i s = s := by
  simp [bistRestore, hline, hforced, hslot]

variable (hrun : (s.die d).bist.running = true) (hslot : testSlot s d (bistBank s d i).1 (bistBank s d i).2 = true)
include hrun hslot

theorem bistSave_saves (hsaved : l.saved = false) (hlatent : s.latent = []) : bistSave d i ⟨[], 0⟩ s
    = setBistLine (useSlot s d (bistBank s d i).2 7) d i { l with saved := true } := by
  have hclean (a : Nat) : saveLine (useSlot s d (bistBank s d i).2 7) a ⟨[], 0⟩ = useSlot s d (bistBank s d i).2 7 :=
    saveLine_clean (s := useSlot s d (bistBank s d i).2 7) hlatent a
  simp only [bistSave, hline, hforced, hrun, hslot, hsaved, hclean]
  rw [if_neg (by simp)]
  split <;> rfl

theorem bistMarch_marches (hsaved : l.saved = true) (hmarch : l.march < 256) (hopen : l.restored = false)
    (hregion : s.fld (.wstBistStatus d) F.wstBistStatus_REGION < 73728) (differs : Bool) : bistMarch d i differs s
      = setBistLine (useSlot s d (bistBank s d i).2 7) d i { l with march := l.march + 1, failed := l.failed || differs } := by
  simp only [bistMarch, hline, hforced, hrun, hslot, hsaved, hopen]
  rw [if_neg (by simp [hmarch])]
  exact if_neg fun h => absurd h.1 (Nat.not_le.mpr hregion)

/-- The state with a line written back, into a spare row where it failed. -/
def lineRestored (s : State) (d : Die) (i : Nat) (l : BistLine) : State :=
  match regionLine d (s.fld (.wstBistStatus d) F.wstBistStatus_REGION) i with
  | some a =>
    let u := restoreLine (useSlot s d (bistBank s d i).2 7) a
    if l.failed then repairRow u d (rowOf a).1 (rowOf a).2 2 else u
  | none => useSlot s d (bistBank s d i).2 7

theorem bistRestore_restores (hsaved : l.saved = true) (hmarch : l.march = 256) (hopen : l.restored = false) :
    bistRestore d i s = bistFinish (setBistLine (lineRestored s d i l) d i { l with restored := true }) d := by
  simp only [bistRestore, hline, hforced, hrun, hslot, hsaved, hopen]
  rw [if_neg (by simp [hmarch])]
  rfl

end

/-! #### Repairs -/

theorem noteRepair_rest (s : State) (d : Die) (bank row : Nat) : noteRepair s d bank row = { s with sec := (noteRepair s d bank row).sec } := by
  unfold noteRepair
  split <;> rfl

theorem repairStatusReg_ne (d : Die) (st : Store) : repairStatusReg d st ≠ .ptcTbTime := by cases st <;> exact nofun

section
variable (s : State) (d : Die) (bank row source : Nat)

/-- A repair changes the entries, the status, the reports and what is to be recorded. -/
theorem repairRow_rest : repairRow s d bank row source = { s with
    regs := (repairRow s d bank row source).regs, repairs := (repairRow s d bank row source).repairs
    reports := (repairRow s d bank row source).reports, sec := (repairRow s d bank row source).sec } := by
  unfold repairRow
  split
  · rw [noteRepair_rest]
  · rfl

variable {s d bank}

theorem repairRow_repairs {e : Nat} (h : freeEntry s d bank = some e) : (repairRow s d bank row source).reports = s.reports
    ∧ (repairRow s d bank row source).repair d bank e = ⟨true, false, source, row⟩ := by
  simp only [repairRow, h]
  rw [noteRepair_rest]
  exact ⟨rfl, Assoc.at_put_same _ _ _ _⟩

theorem repairRow_fails (h : freeEntry s d bank = none) : (repairRow s d bank row source).repairs = s.repairs
    ∧ Raises s (repairRow s d bank row source) [Report.plain .sramUnrepaired d.val 0 (storeOfKey bank).block 0] := by
  have hnow : (s.addFld (repairStatusReg d (storeOfKey bank)) F.wstRepairStatus_UNREPAIRED 1).now = s.now :=
    congrArg BitVec.toNat (State.reg_addFld_ne _ _ _ (repairStatusReg_ne d _).symm)
  simp only [repairRow, h]
  refine ⟨rfl, ?_⟩
  rw [Raises, State.raise_reports_eq, hnow]
  rfl

end

/-! #### A line restored -/

section
variable (s : State) (d : Die) (i : Nat) (l : BistLine)

theorem lineRestored_rest : (lineRestored s d i l).mem = s.mem ∧ ((lineRestored s d i l).die d).bist = (s.die d).bist := by
  have hbist (u : State) (h : u.dies = (useSlot s d (bistBank s d i).2 7).dies) : (u.die d).bist = (s.die d).bist := by
    rw [State.die, h]
    exact bist_useSlot s d _ 7
  unfold lineRestored
  split
  · dsimp only
    split
    · rw [repairRow_rest]
      exact ⟨rfl, hbist _ rfl⟩
    · exact ⟨rfl, hbist _ rfl⟩
  · exact ⟨rfl, hbist _ rfl⟩

variable {s d i l}

theorem lineRestored_passed (h : l.failed = false) : (lineRestored s d i l).repairs = s.repairs ∧ (lineRestored s d i l).reports = s.reports := by
  unfold lineRestored
  split
  · rw [h]
    exact ⟨rfl, rfl⟩
  · exact ⟨rfl, rfl⟩

variable {a : Nat} (ha : regionLine d (s.fld (.wstBistStatus d) F.wstBistStatus_REGION) i = some a)
include ha

theorem lineRestored_clean (w : Nat) (hlo : a ≤ w) (hhi : w < a + 1024) : (lineRestored s d i l).latent.find w = none := by
  have hclean : (restoreLine (useSlot s d (bistBank s d i).2 7) a).latent.find w = none := by
    have hfind := Assoc.find_filter (fun j => decide (j < a ∨ a + 1024 ≤ j)) s.latent w
    rwa [if_neg (by simp; omega)] at hfind
  simp only [lineRestored, ha]
  split
  · rw [repairRow_rest]
    exact hclean
  · exact hclean

/-- A line that failed is repaired from the state in which its slot is used and its errors are corrected. -/
theorem lineRestored_failed (h : l.failed = true) : lineRestored s d i l
    = repairRow (restoreLine (useSlot s d (bistBank s d i).2 7) a) d (rowOf a).1 (rowOf a).2 2 := by
  simp only [lineRestored, ha, h, if_true]

omit ha in
theorem freeEntry_restoreLine (key bank : Nat) : freeEntry (restoreLine (useSlot s d key 7) a) d bank = freeEntry s d bank := by
  have hbist : ((restoreLine (useSlot s d key 7) a).die d).bist = (s.die d).bist := bist_useSlot s d key 7
  simp only [freeEntry, hbist]
  rfl

end

section
variable {s : State} {d : Die} {i : Nat} {l : BistLine} (hline : (s.die d).bist.lines[i]? = some l) (hforced : (s.die d).bist.forced = [])
  (hrun : (s.die d).bist.running = true) (hslot : testSlot s d (bistBank s d i).1 (bistBank s d i).2 = true)
include hline hforced hrun hslot

theorem bistRestore_runs (hsaved : l.saved = true) (hmarch : l.march = 256) (hopen : l.restored = false) : Runs (.bistRestore d i) s fun t =>
    (t.die d).bist.lines = (s.die d).bist.lines.set i { l with restored := true } ∧ t.mem = s.mem
    ∧ (l.failed = false → t.repairs = s.repairs ∧ Raises s t [])
    ∧ ∀ a, regionLine d (s.fld (.wstBistStatus d) F.wstBistStatus_REGION) i = some a →
        (∀ w, a ≤ w → w < a + 1024 → t.latent.find w = none)
        ∧ (l.failed = true →
          (∀ e, freeEntry s d (rowOf a).1 = some e → t.repair d (rowOf a).1 e = ⟨true, false, 2, (rowOf a).2⟩ ∧ Raises s t [])
          ∧ (freeEntry s d (rowOf a).1 = none → t.repairs = s.repairs
              ∧ Raises s t [Report.plain .sramUnrepaired d.val 0 (storeOfKey (rowOf a).1).block 0])) := by
  have hreports := bistFinish_reports (setBistLine (lineRestored s d i l) d i { l with restored := true }) d
  obtain ⟨hmem, -, hlatent, hrepairs⟩ := bistFinish_stores (setBistLine (lineRestored s d i l) d i { l with restored := true }) d
  obtain ⟨hlinemem, hbist⟩ := lineRestored_rest s d i l
  refine ⟨_, congrArg Host.Outcome.next (bistRestore_restores hline hforced hrun hslot hsaved hmarch hopen), ?_, hmem.trans hlinemem,
    fun hpassed => ?_, fun a ha => ⟨fun w hlo hhi => ?_, fun hfailed => ⟨fun e he => ?_, fun hnone => ?_⟩⟩⟩
  · rw [bistFinish_lines, die_setBistLine, hbist]
  · obtain ⟨hlinerepairs, hlinereports⟩ := lineRestored_passed (s := s) (d := d) (i := i) hpassed
    exact ⟨hrepairs.trans hlinerepairs, (hreports.trans hlinereports).trans (List.append_nil _).symm⟩
  · rw [hlatent]
    exact lineRestored_clean ha w hlo hhi
  · obtain ⟨hraised, hentry⟩ := repairRow_repairs (rowOf a).2 2 ((freeEntry_restoreLine (a := a) (bistBank s d i).2 _).trans he)
    rw [← lineRestored_failed ha hfailed] at hraised hentry
    refine ⟨?_, (hreports.trans hraised).trans (List.append_nil _).symm⟩
    rw [State.repair, hrepairs]
    exact hentry
  · obtain ⟨hkept, hraised⟩ := repairRow_fails (rowOf a).2 2 ((freeEntry_restoreLine (a := a) (bistBank s d i).2 _).trans hnone)
    rw [← lineRestored_failed ha hfailed] at hkept hraised
    exact ⟨hrepairs.trans hkept, hreports.trans hraised⟩

end

end Sys2Proof.Machine
end

section
/-! ### Forced repairs (R238, R246) -/

namespace Sys2Proof.Machine

/-- REPAIR_ENTRY of a store. -/
def repairEntryReg (d : Die) : Store → Reg
  | .wst => .wstRepairEntry d | .ast => .astRepairEntry d | .pst => .pstRepairEntry d

theorem repairEntry_mem (d : Die) (st : Store) :
    F.wstRepairEntry_VALID ∈ (repairEntryReg d st).fields ∧ F.wstRepairEntry_ROW ∈ (repairEntryReg d st).fields := by
  cases st <;> decide +revert

section
variable {s : State} {d : Die} {st : Store}

theorem ownWrite_repairEntry (s : State) (d : Die) (st : Store) (v : Word) :
    ownWrite s (repairEntryReg d st) v = writeRepairEntry s d st v := by cases st <;> rfl

/-- The word that `setFields` writes to force a repair. -/
def forceWord (s : State) (d : Die) (st : Store) (row : Nat) : Word :=
  putBits (putBits (writeBase s (repairEntryReg d st) &&& rwMask (repairEntryReg d st)) 15 15 1) 9 0 row

theorem exec_repairForce (s : State) (d : Die) (st : Store) (row : Nat) :
    exec (.repairForce d st row) s = .next (privWrite s (repairEntryReg d st) (forceWord s d st row)) := by cases st <;> rfl

theorem fields_forceWord {row : Nat} (hrow : row < 1024) :
    bitsOf (writtenWord s (repairEntryReg d st) (forceWord s d st row)) 15 15 = 1
      ∧ bitsOf (writtenWord s (repairEntryReg d st) (forceWord s d st row)) 9 0 = row := by
  obtain ⟨hvalid, hrowmem⟩ := repairEntry_mem d st
  refine ⟨(bitsOf_writtenWord_rw hvalid s _ rfl).trans ?_, (bitsOf_writtenWord_rw hrowmem s _ rfl).trans ?_⟩
  · exact (bitsOf_putBits_apart _ _ _ _ _ _ (by decide)).trans (bitsOf_putBits_same _ _ _ _ (by decide))
  · exact (bitsOf_putBits_same _ _ _ _ (by decide)).trans (Nat.mod_eq_of_lt hrow)

theorem repairForce_runs {row : Nat} (h : WriteOpen s (repairEntryReg d st)) (hrow : row < 1024)
    (hvalid : (s.repair d (repairSel s d st).1 (repairSel s d st).2).valid = false)
    (hbad : (s.repair d (repairSel s d st).1 (repairSel s d st).2).bad = false)
    (hidle : (s.die d).bist.forced.any (fun f => f.key = (repairSel s d st).1 ∧ f.entry = (repairSel s d st).2) = false)
    (hfits : row < bankRows st ((repairSel s d st).1 % 1000 % 40)) : Runs (.repairForce d st row) s fun t =>
      (t.die d).bist.forced = (s.die d).bist.forced ++ [⟨(repairSel s d st).1, (repairSel s d st).2, row, false⟩]
        ∧ StoresKept s t ∧ t.regs = s.regs := by
  obtain ⟨hready, hopen⟩ := h
  obtain ⟨hset, hrowbits⟩ := fields_forceWord (s := s) (d := d) (st := st) hrow
  have hlock : (repairEntryReg d st).unlock ≠ some (repairEntryReg d st) := by cases st <;> simp [repairEntryReg, Reg.unlock, Reg.block]
  have hown : ownWrite s (repairEntryReg d st) (writtenWord s (repairEntryReg d st) (forceWord s d st row))
      = some (s.setDie d { s.die d with bist := { (s.die d).bist with
          forced := (s.die d).bist.forced ++ [⟨(repairSel s d st).1, (repairSel s d st).2, row, false⟩] } }) := by
    rw [ownWrite_repairEntry]
    simp only [writeRepairEntry, hset, hrowbits, hvalid, hbad, hidle]
    refine (if_neg Nat.one_ne_zero).trans (if_neg ?_)
    rintro (h | h | h | h)
    · cases h
    · cases h
    · exact absurd hfits (Nat.not_lt.mpr h)
    · cases h
  have hwrite := (privWrite_ready hready (forceWord s d st row)).trans
    ((writeReg_done hready.2.2 (fun hlocked => Bool.noConfusion (hlocked.symm.trans hopen)) hown).trans (unlockRecord_other hlock _ _ _))
  refine ⟨_, (exec_repairForce s d st row).trans (congrArg Host.Outcome.next hwrite), ?_, ⟨rfl, rfl, rfl, rfl⟩, rfl⟩
  rw [State.die_setDie_same]

variable {f : Forced} {fs : List Forced} (hforced : (s.die d).bist.forced = f :: fs)
  (hslot : testSlot s d (f.key % 1000 % 40 % 8) f.key = true)
include hforced hslot

theorem bistSave_forced {i : Nat} (hsaved : f.saved = false) (hlatent : s.latent = []) : Runs (.bistSave d i ⟨[], 0⟩) s fun t =>
    (t.die d).bist.forced = { f with saved := true } :: fs ∧ StoresKept s t ∧ t.regs = s.regs := by
  obtain ⟨key, entry, row, saved⟩ := f
  subst hsaved
  have hrun : bistSave d i ⟨[], 0⟩ s = (useSlot s d key 7).setDie d { (useSlot s d key 7).die d with bist :=
      { (s.die d).bist with forced := ⟨key, entry, row, true⟩ :: fs } } := by
    simp only [bistSave, hforced, hslot, if_true, saveLine_clean (s := useSlot s d key 7) hlatent, bist_useSlot]
  refine ⟨_, congrArg Host.Outcome.next hrun, ?_, ⟨rfl, rfl, rfl, rfl⟩, rfl⟩
  rw [State.die_setDie_same]

theorem bistRestore_forced {i : Nat} (hsaved : f.saved = true) : Runs (.bistRestore d i) s fun t =>
    t.repair d f.key f.entry = ⟨true, false, 3, f.row⟩ ∧ (t.die d).bist.forced = fs ∧ t.mem = s.mem := by
  obtain ⟨key, entry, row, saved⟩ := f
  subst hsaved
  refine ⟨_, rfl, ?_⟩
  simp only [bistRestore, hforced, hslot, if_true]
  rw [noteRepair_rest]
  exact ⟨Assoc.at_put_same _ _ _ _, congrArg (fun x : DieSt => x.bist.forced) (State.die_setDie_same _ d _), rfl⟩

end

/-- Settles O28: a region starts, ends and keeps the stores; each operation on a line takes the line's slot and no other's; a
forced repair is a write of REPAIR_ENTRY and is served before the region's lines. -/
theorem backgroundTest : Obligations.BackgroundTest := by
  intro s d i
  refine ⟨fun henable hclear hup hidle hturn hnext hdue => bistRegionStart_runs henable hclear hup hidle hturn hdue hnext,
    fun henable hclear hup hidle hturn hspare hlast hdue => bistRegionStart_spare_runs henable hclear hup hidle hturn hdue hspare hlast,
    fun h => congrArg Host.Outcome.next (bistStart_idle h), fun l hline hrun hforced => ⟨fun hslot => ?_, fun hslot => ⟨?_, ?_, ?_⟩⟩,
    fun st row hwst hast hpst hrow hvalid hbad hidle hfits => ?_, fun f fs hforced hslot => ⟨?_, ?_⟩⟩
  · exact ⟨congrArg Host.Outcome.next (bistSave_waits hline hforced hslot _),
      fun differs => congrArg Host.Outcome.next (bistMarch_waits hline hslot differs),
      congrArg Host.Outcome.next (bistRestore_waits hline hforced hslot)⟩
  · exact fun hsaved hlatent => setBistLine_runs (congrArg Host.Outcome.next (bistSave_saves hline hforced hrun hslot hsaved hlatent))
  · exact fun hsaved hmarch hopen differs hregion =>
      setBistLine_runs (congrArg Host.Outcome.next (bistMarch_marches hline hforced hrun hslot hsaved hmarch hopen hregion differs))
  · exact bistRestore_runs hline hforced hrun hslot
  · exact repairForce_runs (by cases st <;> assumption) hrow hvalid hbad hidle hfits
  · exact bistSave_forced hforced hslot
  · exact bistRestore_forced hforced hslot

end Sys2Proof.Machine
end

section
/-! ### Narrow loads and stores (R202, R210 to R212, R289, R334) -/

namespace Sys2Proof.Machine

/-! #### Places of the die's own stores -/

/-- A store address keeps its byte in the window. -/
theorem off_of_storePlace {d e : Die} {st : Store} {b u w off : Nat} (h : storePlace e b = .store d st u w off) :
    off = b % 0x8000000 % 0x2000000 := by
  unfold storePlace at h
  dsimp only at h
  repeat' split at h
  all_goals cases h
  all_goals rfl

section
variable {s : State} {d : Die} {st : Store} {m u w off : Nat} (hplace : placeOf m = .store d st u w off)
include hplace

theorem not_register_of_store : placeOf m ≠ .register := by
  rw [hplace]
  nofun

theorem ownStore_of_store : ownStore d m = true := by
  rw [ownStore, hplace]
  exact decide_eq_true rfl

/-- A store address lies in no remote window. -/
theorem reached_of_store : reached s m = m := by
  have hslot : slotOfAddr m = none := by rw [slotOfAddr, hplace]
  rw [reached, hslot]

theorem lt_of_placeOf_store : m < 2 ^ 48 := by
  by_contra hbig
  unfold placeOf at hplace
  split_ifs at hplace
  all_goals omega

/-- The windows of a unit share its lines (R12). -/
theorem directAddr_mod_line : directAddr m % 1024 = m % 1024 := by
  have hle := le_of_placeOf_store hplace
  have hbase : unitBase d st u % 1024 = 0 := by
    cases st <;> simp only [unitBase] <;> omega
  have hoff : off % 1024 = m % 1024 := by
    unfold placeOf at hplace
    split_ifs at hplace
    · have := off_of_storePlace hplace
      omega
    · have := off_of_storePlace hplace
      omega
  rw [directAddr, hplace]
  dsimp only
  omega

/-- An access that is not rejected for its shape lies in one line. -/
theorem fits_line {lg : Fin 4} {bit k : Nat} (hok : narrowReject s m (2 ^ lg.val) bit = none) (hk : k < 2 ^ lg.val) :
    directAddr m % 1024 + k < 1024 := by
  have hlt := lt_of_placeOf_store hplace
  have halign : m % 2 ^ lg.val = 0 := by
    by_contra hne
    rw [narrowReject, if_pos ⟨hlt, hne⟩] at hok
    cases hok
  rw [directAddr_mod_line hplace]
  fin_cases lg <;> simp only [Nat.reducePow] at halign hk <;> omega

end

theorem ownStore_of_hbm {d : Die} {m k : Nat} (h : placeOf m = .hbm k) : ownStore d m = false := by rw [ownStore, h]

/-! #### The combining buffer (R210, R211) -/

/-- The entry of a line holds what `overlay` lays over a read of the line. -/
theorem getElem?_overlay {c : Core} {a k : Nat} {data : List (Byte × Bool)} {e : CombEntry} {b : Byte × Bool} (hk : k < data.length)
    (hline : a % 1024 + k < 1024) (he : combEntry c a = some e) (hb : e.bytes.find (a % 1024 + k) = some b) :
    (overlay c a data)[k]? = some b := by
  have hsame : (a + k) / 1024 * 1024 = a / 1024 * 1024 := by omega
  have hbyte : (a + k) % 1024 = a % 1024 + k := by omega
  rw [combEntry] at he
  simp [overlay, hk, hsame, hbyte, he, hb]

/-- The bytes of an entry with others put in from an offset on. -/
def putBytes (off : Nat) (l : List ((Byte × Bool) × Nat)) (t : Assoc Nat (Byte × Bool)) : Assoc Nat (Byte × Bool) :=
  l.foldl (fun t b => t.put (off + b.2) b.1) t

theorem find_putBytes (off k : Nat) (data : List (Byte × Bool)) (j : Nat) (t : Assoc Nat (Byte × Bool)) :
    (putBytes off (data.zipIdx j) t).find (off + k) = (if j ≤ k then data[k - j]? else none).or (t.find (off + k)) := by
  induction data generalizing j t with
  | nil => simp [putBytes]
  | cons b data ih =>
    have hstep : putBytes off ((b :: data).zipIdx j) t = putBytes off (data.zipIdx (j + 1)) (t.put (off + j) b) := rfl
    rw [hstep, ih, Assoc.find_put]
    rcases Nat.lt_trichotomy k j with hlt | rfl | hgt
    · simp [Nat.not_le.mpr hlt, show ¬j + 1 ≤ k by omega, show ¬k = j by omega]
    · simp
    · simp [hgt.le, show j + 1 ≤ k by omega, show ¬k = j by omega, show k - j = k - (j + 1) + 1 by omega]

/-- An entry with the bytes of a narrow write, which a slot issued with a stamp. -/
def CombEntry.written (e : CombEntry) (x : SlotId) (stamp a : Nat) (data : List (Byte × Bool)) : CombEntry :=
  { e with bytes := putBytes (a % 1024) data.zipIdx e.bytes, who := e.who ++ [(x, stamp)] }

theorem find_written (e : CombEntry) (x : SlotId) (stamp a : Nat) {data : List (Byte × Bool)} {k : Nat} (hk : k < data.length) :
    (e.written x stamp a data).bytes.find (a % 1024 + k) = data[k]? := by
  simp [CombEntry.written, find_putBytes, hk]

/-- The combining buffer after a narrow write: in the entry of its line, or in a new one. -/
def combined (c : Core) (x : SlotId) (stamp a : Nat) (data : List (Byte × Bool)) : List CombEntry :=
  match combEntry c a with
  | some _ => c.combine.map (fun e => if e.line = a / 1024 * 1024 then e.written x stamp a data else e)
  | none => c.combine ++ [CombEntry.written ⟨a / 1024 * 1024, [], []⟩ x stamp a data]

theorem combineWrite_eq (s : State) (d : Die) (q : CoreId) (x : SlotId) (a : Nat) (data : List (Byte × Bool)) : combineWrite s d q x a data
    = s.setCore d q { s.core d q with combine := combined (s.core d q) x (s.nextStamp d) a data } := by
  cases h : combEntry (s.core d q) a <;> simp only [combineWrite, combined, h] <;> rfl

/-- The entry of the line holds the write. -/
theorem find_combined (c : Core) (x : SlotId) (stamp a : Nat) (data : List (Byte × Bool)) :
    (combined c x stamp a data).find? (fun e => e.line = a / 1024 * 1024)
      = some (((combEntry c a).getD ⟨a / 1024 * 1024, [], []⟩).written x stamp a data) := by
  cases h : combEntry c a with
  | some e =>
    have hline : e.line = a / 1024 * 1024 := by simpa using List.find?_some h
    have hkeeps : (fun e : CombEntry => decide (e.line = a / 1024 * 1024))
        ∘ (fun e => if e.line = a / 1024 * 1024 then e.written x stamp a data else e) = fun e => decide (e.line = a / 1024 * 1024) := by
      funext e
      by_cases he : e.line = a / 1024 * 1024 <;> simp [he, CombEntry.written]
    simp only [combined, h]
    rw [List.find?_map, hkeeps, show c.combine.find? _ = some e from h, Option.map_some, if_pos hline]
    rfl
  | none =>
    simp only [combined, h]
    rw [List.find?_append, show c.combine.find? _ = none from h]
    simp [CombEntry.written]

/-! #### What an access in memory leaves -/

section
variable {s : State} {d : Die} {q : CoreId} {x : SlotId} {srcs : List (Fin 32)} {rd : Fin 32} {addr m : Nat} {lg : Fin 4} {sx : Bool} {v : Word}

theorem die_advance (u : State) (d : Die) (q : CoreId) (x : SlotId) :
    (advance u d q x).die d = { u.die d with stamp := (u.die d).stamp + 1 } := by
  obtain ⟨-, -, -, hdie, -⟩ := onlyIssued_advance u d q x
  exact hdie

theorem combEntry_combined (s : State) (d : Die) (q : CoreId) (x : SlotId) (a : Nat) (data : List (Byte × Bool)) :
    combEntry ((advance (s.setCore d q { s.core d q with combine := combined (s.core d q) x (s.nextStamp d) a data }) d q x).core d q) a
      = some (((combEntry (s.core d q) a).getD ⟨a / 1024 * 1024, [], []⟩).written x (s.nextStamp d) a data) := by
  rw [core_advance, State.core_setCore_same]
  exact find_combined _ _ _ _ _

/-! #### Translation that fails, rejection (R10, R202, R334) -/

theorem stopXlate_stops (s : State) (d : Die) (q : CoreId) (x : SlotId) (addr : Nat) :
    ((stopXlate s d q x addr).ctx d q x).st = .stopped ∧ ((stopXlate s d q x addr).ctx d q x).cause = 3
      ∧ ((stopXlate s d q x addr).ctx d q x).pc = (s.ctx d q x).pc := by
  simp only [stopXlate, stopFault, State.ctx_raise, State.ctx_setCtx_same, Ctx.stop, and_self]

/-- The state with the fault of a rejected narrow access raised. -/
def narrowFault (s : State) (d : Die) (q : CoreId) (x : SlotId) (src : Source) (m : Nat) : State :=
  s.raise { Report.plain src d.val q.val (accessBlock m) (m % 2 ^ 48) with ctx := ctxRef d q x }

theorem narrowLoad_rejected {src : Source} (h : Issues s d q x srcs) (ht : (s.ctx d q x).translate addr (2 ^ lg.val) .r = some m)
    (hreg : placeOf m ≠ .register) (hreject : narrowReject s m (2 ^ lg.val) 2 = some src) :
    exec (.narrowLoad d q rd addr lg sx srcs) s
      = .next (advance ((narrowFault s d q x src m).setCtx d q x ((s.ctx d q x).wrMark rd 0 true)) d q x) := by
  refine exec_of_issues h rfl ?_
  simp only [ht, if_neg hreg, hreject]
  rfl

theorem narrowLoad_issued (h : Issues s d q x srcs) (ht : (s.ctx d q x).translate addr (2 ^ lg.val) .r = some m)
    (hreg : placeOf m ≠ .register) (hok : narrowReject s m (2 ^ lg.val) 2 = none) :
    exec (.narrowLoad d q rd addr lg sx srcs) s = .next (advance (issueLoad s d q x rd m (2 ^ lg.val) sx) d q x) := by
  refine exec_of_issues h rfl ?_
  simp only [ht, if_neg hreg, hok]

theorem narrowStore_rejected {src : Source} (h : Issues s d q x srcs)
    (ht : (s.ctx d q x).translate addr (2 ^ lg.val) (storePerm (s.ctx d q x) addr (2 ^ lg.val)) = some m)
    (hreg : placeOf m ≠ .register) (hreject : narrowReject s m (2 ^ lg.val) 4 = some src) :
    exec (.narrowStore d q addr lg v srcs) s = .next (advance (narrowFault s d q x src m) d q x) := by
  refine exec_of_issues h rfl ?_
  simp only [ht, if_neg hreg, hreject]
  rfl

/-- The bytes of a narrow store, marked where its value came from a poisoned register. -/
def narrowData (c : Ctx) (lg : Fin 4) (v : Word) (srcs : List (Fin 32)) : List (Byte × Bool) :=
  (leBytes (2 ^ lg.val) v.toNat).map (fun b => (b, c.anyBad srcs))

theorem length_narrowData (c : Ctx) (lg : Fin 4) (v : Word) (srcs : List (Fin 32)) : (narrowData c lg v srcs).length = 2 ^ lg.val := by
  rw [narrowData, List.length_map, length_leBytes]

theorem narrowStore_issued (h : Issues s d q x srcs)
    (ht : (s.ctx d q x).translate addr (2 ^ lg.val) (storePerm (s.ctx d q x) addr (2 ^ lg.val)) = some m)
    (hreg : placeOf m ≠ .register) (hok : narrowReject s m (2 ^ lg.val) 4 = none) :
    exec (.narrowStore d q addr lg v srcs) s = .next (issueStore s d q x m (narrowData (s.ctx d q x) lg v srcs)) := by
  refine exec_of_issues h rfl ?_
  simp only [ht, if_neg hreg, hok]
  rfl

/-! #### The clauses -/

theorem narrowLoad_untranslated (h : Issues s d q x srcs) (ht : (s.ctx d q x).translate addr (2 ^ lg.val) .r = none) :
    exec (.narrowLoad d q rd addr lg sx srcs) s = .next (stopXlate s d q x addr) := by
  refine exec_of_issues h rfl ?_
  simp only [ht]

theorem narrowStore_untranslated (h : Issues s d q x srcs)
    (ht : (s.ctx d q x).translate addr (2 ^ lg.val) (storePerm (s.ctx d q x) addr (2 ^ lg.val)) = none) :
    exec (.narrowStore d q addr lg v srcs) s = .next (stopXlate s d q x addr) := by
  refine exec_of_issues h rfl ?_
  simp only [ht]

/-- A change of the die alone, and the instruction completes: what its context, the memory and the registers keep. -/
theorem goesOn_advance {u : State} (hctxs : u.ctxs = s.ctxs) (hregs : u.regs = s.regs) (hstores : StoresKept s u) :
    ((advance u d q x).ctx d q x).pc = nextPc s d q x ∧ OtherCtxs d q x s (advance u d q x) ∧ (advance u d q x).mem = s.mem
      ∧ (advance u d q x).regs = s.regs := by
  obtain ⟨hpc, -, hothers, hregs, hmem, -⟩ := wentOn_advance d q x hctxs hregs hstores
  exact ⟨hpc, hothers, hmem, hregs⟩

/-- A rejected load brings 0 with the mark, under a fault. -/
theorem narrowLoad_faults {src : Source} (h : Issues s d q x srcs) (ht : (s.ctx d q x).translate addr (2 ^ lg.val) .r = some m)
    (hreg : placeOf m ≠ .register) (hreject : narrowReject s m (2 ^ lg.val) 2 = some src) : Runs (.narrowLoad d q rd addr lg sx srcs) s fun t =>
      (t.ctx d q x).rd rd = 0 ∧ rd ∈ (t.ctx d q x).bad ∧ (t.ctx d q x).pc = nextPc s d q x ∧ OtherScalars rd (s.ctx d q x) (t.ctx d q x)
      ∧ OtherCtxs d q x s t ∧ Raises s t [{ Report.plain src d.val q.val (accessBlock m) (m % 2 ^ 48) with ctx := some ⟨d, q, x⟩ }]
      ∧ StoresKept s t ∧ t.regs = s.regs ∧ (t.die d).accs = (s.die d).accs ∧ (t.die d).txns = (s.die d).txns := by
  obtain ⟨-, hothers, -⟩ := onlyIssued_advance ((narrowFault s d q x src m).setCtx d q x ((s.ctx d q x).wrMark rd 0 true)) d q x
  have hctx := ctx_advance ((narrowFault s d q x src m).setCtx d q x ((s.ctx d q x).wrMark rd 0 true)) d q x
  rw [nextPc, State.ctx_setCtx_same] at hctx
  refine ⟨_, narrowLoad_rejected h ht hreg hreject, ?_, ?_, ?_, ?_, fun e p y hne => ?_, rfl, ⟨rfl, rfl, rfl, rfl⟩, rfl, ?_, ?_⟩
  · rw [hctx]
    exact rd_wrMark_same _ _ 0 true
  · rw [hctx]
    exact (mem_bad_wrMark _ _ 0 true).mpr rfl
  · rw [hctx]
    rfl
  · rw [hctx]
    exact otherScalars_wrMark _ _ 0 true
  · exact (hothers e p y hne).trans (otherCtxs_setCtx (narrowFault s d q x src m) d q x _ e p y hne)
  · rw [die_advance]
    rfl
  · rw [die_advance]
    rfl

/-- A rejected store writes nothing, under a fault. -/
theorem narrowStore_faults {src : Source} (h : Issues s d q x srcs)
    (ht : (s.ctx d q x).translate addr (2 ^ lg.val) (storePerm (s.ctx d q x) addr (2 ^ lg.val)) = some m)
    (hreg : placeOf m ≠ .register) (hreject : narrowReject s m (2 ^ lg.val) 4 = some src) : Runs (.narrowStore d q addr lg v srcs) s fun t =>
      (t.ctx d q x).s = (s.ctx d q x).s ∧ (t.ctx d q x).pc = nextPc s d q x ∧ OtherCtxs d q x s t
      ∧ Raises s t [{ Report.plain src d.val q.val (accessBlock m) (m % 2 ^ 48) with ctx := some ⟨d, q, x⟩ }]
      ∧ StoresKept s t ∧ t.regs = s.regs ∧ (t.die d).accs = (s.die d).accs ∧ (t.die d).txns = (s.die d).txns := by
  obtain ⟨hpc, hothers, -⟩ := goesOn_advance (d := d) (q := q) (x := x) (s := s) (u := narrowFault s d q x src m) rfl rfl ⟨rfl, rfl, rfl, rfl⟩
  refine ⟨_, narrowStore_rejected h ht hreg hreject, ?_, hpc, hothers, rfl, ⟨rfl, rfl, rfl, rfl⟩, rfl, ?_, ?_⟩
  · rw [ctx_advance]
    rfl
  · rw [die_advance]
    rfl
  · rw [die_advance]
    rfl

theorem loadPending_of_acc {t : State} {a : Access} (ha : a ∈ (t.die d).accs) (hdest : a.dest = .scalar d q x rd sx) :
    loadPending t d q x rd = true := by
  simp only [loadPending, Bool.or_eq_true]
  exact .inl (.inl (List.any_eq_true.mpr ⟨a, ha, by simp [hdest]⟩))

theorem loadPending_of_txn {t : State} {y : Txn} (hy : y ∈ (t.die d).txns) (hdest : y.dest = some (.scalar d q x rd sx)) :
    loadPending t d q x rd = true := by
  simp only [loadPending, Bool.or_eq_true]
  exact .inl (.inr (List.any_eq_true.mpr ⟨y, hy, by simp [hdest]⟩))

theorem accs_pushed (s : State) (d : Die) (q : CoreId) (x : SlotId) (a : Access) :
    ((advance (s.setDie d { s.die d with accs := (s.die d).accs ++ [a] }) d q x).die d).accs = (s.die d).accs ++ [a] := by
  rw [die_advance, State.die_setDie_same]

/-- The access that a core makes in its die's own stores. -/
def ownAccess (s : State) (d : Die) (q : CoreId) (k : AccKind) (m n : Nat) (data : List (Byte × Bool)) (dest : AccDest) : Access :=
  { stamp := (s.die d).stamp, kind := k, addr := directAddr m, size := n, data := data, dest := dest
    portB := isElectrum m && decide (distance d q m < 2), issue := s.beat d, ret := 0, served := false }

theorem accs_storeAcc (s : State) (d : Die) (q : CoreId) (x : SlotId) (k : AccKind) (m n : Nat) (data : List (Byte × Bool)) (dest : AccDest) :
    ((advance (storeAcc s d k m n data dest (isElectrum m && decide (distance d q m < 2))) d q x).die d).accs
      = (s.die d).accs ++ [ownAccess s d q k m n data dest] := accs_pushed s d q x _

theorem txns_coreTxn (s : State) (d : Die) (q : CoreId) (x : SlotId) (k : AccKind) (m n : Nat) (data : List (Byte × Bool)) (dest : AccDest) :
    ((advance (coreTxn s d k m n data dest) d q x).die d).txns = (s.die d).txns
      ++ [{ Txn.waiting .cores 0 (2 * s.nextStamp d % 2 ^ 24) k m n data (some dest) none with stamp := s.nextStamp d }] := by
  rw [die_advance, coreTxn, addTxn, State.bump, State.die_setDie_same, State.die_setDie_same]

theorem narrowLoad_covered {st : Store} {u w off : Nat} (h : Issues s d q x srcs)
    (ht : (s.ctx d q x).translate addr (2 ^ lg.val) .r = some m) (hok : narrowReject s m (2 ^ lg.val) 2 = none)
    (hplace : placeOf m = .store d st u w off) (hcomb : combines s d q m = true)
    (hcov : covered (s.core d q) (directAddr m) (2 ^ lg.val) = true) : Runs (.narrowLoad d q rd addr lg sx srcs) s fun t =>
      (∃ a, (t.die d).accs = (s.die d).accs ++ [a] ∧ a.dest = .scalar d q x rd sx
        ∧ a.served = true ∧ a.ret = s.beat d + (if s.invar d then 12 else 5)
        ∧ ∀ k b, k < 2 ^ lg.val → (∃ e, combEntry (s.core d q) (directAddr m) = some e
            ∧ e.bytes.find (directAddr m % 1024 + k) = some b) → a.data[k]? = some b)
      ∧ (t.ctx d q x).pc = nextPc s d q x ∧ OtherCtxs d q x s t ∧ t.mem = s.mem ∧ t.regs = s.regs := by
  have hrun := narrowLoad_issued (rd := rd) (sx := sx) h ht (not_register_of_store hplace) hok
  simp only [issueLoad, ownStore_of_store hplace, hcomb, hcov, and_self, if_true] at hrun
  refine ⟨_, hrun, ⟨_, accs_pushed s d q x _, rfl, rfl, rfl, ?_⟩, goesOn_advance rfl rfl ⟨rfl, rfl, rfl, rfl⟩⟩
  rintro k b hk ⟨e, he, hb⟩
  exact getElem?_overlay (by simpa [State.peek] using hk) (fits_line hplace hok hk) he hb

theorem narrowLoad_own {st : Store} {u w off : Nat} (h : Issues s d q x srcs)
    (ht : (s.ctx d q x).translate addr (2 ^ lg.val) .r = some m) (hok : narrowReject s m (2 ^ lg.val) 2 = none)
    (hplace : placeOf m = .store d st u w off) (hcomb : combines s d q m = false) : Runs (.narrowLoad d q rd addr lg sx srcs) s fun t =>
      (t.die d).accs = (s.die d).accs ++ [ownAccess s d q .read m (2 ^ lg.val) [] (.scalar d q x rd sx)]
      ∧ loadPending t d q x rd = true ∧ (t.ctx d q x).pc = nextPc s d q x ∧ OtherCtxs d q x s t ∧ t.mem = s.mem ∧ t.regs = s.regs := by
  have hrun := narrowLoad_issued (rd := rd) (sx := sx) h ht (not_register_of_store hplace) hok
  simp only [issueLoad, ownStore_of_store hplace, hcomb, Bool.false_eq_true, false_and, if_false, if_true] at hrun
  have haccs := accs_storeAcc s d q x .read m (2 ^ lg.val) [] (.scalar d q x rd sx)
  exact ⟨_, hrun, haccs, loadPending_of_acc (by rw [haccs]; exact List.mem_concat_self) rfl, goesOn_advance rfl rfl ⟨rfl, rfl, rfl, rfl⟩⟩

theorem narrowLoad_hbm {k : Nat} (h : Issues s d q x srcs) (ht : (s.ctx d q x).translate addr (2 ^ lg.val) .r = some m)
    (hok : narrowReject s m (2 ^ lg.val) 2 = none) (hplace : placeOf m = .hbm k) : Runs (.narrowLoad d q rd addr lg sx srcs) s fun t =>
      loadPending t d q x rd = true ∧ (t.die d).txns.length = (s.die d).txns.length + 1
      ∧ (t.ctx d q x).pc = nextPc s d q x ∧ OtherCtxs d q x s t ∧ t.mem = s.mem ∧ t.regs = s.regs := by
  have hrun := narrowLoad_issued (rd := rd) (sx := sx) h ht (by rw [hplace]; nofun) hok
  simp only [issueLoad, ownStore_of_hbm hplace, Bool.false_eq_true, if_false] at hrun
  have htxns := txns_coreTxn s d q x .read m (2 ^ lg.val) [] (.scalar d q x rd sx)
  exact ⟨_, hrun, loadPending_of_txn (by rw [htxns]; exact List.mem_concat_self) rfl, by rw [htxns, List.length_append]; rfl,
    goesOn_advance rfl rfl ⟨rfl, rfl, rfl, rfl⟩⟩

/-- The beat of a context that finds its combining buffer full counts in NARROW_STALL (R211). -/
theorem parkFull_narrow (s : State) (hfirst : (s.ctx d q x).stalledAt ≠ some (s.beat d)) : parkFull s d q x 6 3
    = (s.setCtx d q x { s.ctx d q x with st := .wait, waiting := some (.queueFull 6), stall := 3, stalledAt := some (s.beat d) }).addFld
        (.wstNarrowStall d) F.wstNarrowStall_COUNT 1 := by
  have hne : ¬((park s d q x (.queueFull 6) 3).ctx d q x).stalledAt = some ((park s d q x (.queueFull 6) 3).beat d) := by
    rwa [park, State.ctx_setCtx_same]
  rw [parkFull, chargeStall, if_neg hne]
  simp only [park, State.ctx_setCtx_same, State.beat_setCtx]
  rw [State.setCtx_setCtx]

section
variable {st : Store} {u w off : Nat} (h : Issues s d q x srcs)
  (ht : (s.ctx d q x).translate addr (2 ^ lg.val) (storePerm (s.ctx d q x) addr (2 ^ lg.val)) = some m)
  (hok : narrowReject s m (2 ^ lg.val) 4 = none) (hplace : placeOf m = .store d st u w off)
include h ht hok hplace

theorem narrowStore_own (hplain : combines s d q m = false ∨ narrowKind m (2 ^ lg.val) ≠ .write) :
    Runs (.narrowStore d q addr lg v srcs) s fun t =>
      (t.die d).accs = (s.die d).accs
          ++ [ownAccess s d q (narrowKind m (2 ^ lg.val)) m (2 ^ lg.val) (narrowData (s.ctx d q x) lg v srcs) (.store d q x)]
      ∧ (t.ctx d q x).pc = nextPc s d q x ∧ OtherCtxs d q x s t ∧ t.mem = s.mem ∧ t.regs = s.regs := by
  have hrun := narrowStore_issued (v := v) h ht (not_register_of_store hplace) hok
  have hno : ¬(combines s d q m = true ∧ narrowKind m (2 ^ lg.val) = .write) := by
    rintro ⟨hcomb, hkind⟩
    exact hplain.elim (fun h => Bool.noConfusion (h.symm.trans hcomb)) (fun h => h hkind)
  simp only [issueStore, ownStore_of_store hplace, reached_of_store hplace, length_narrowData, if_neg hno, if_true] at hrun
  exact ⟨_, hrun, accs_storeAcc s d q x _ m _ _ _, goesOn_advance rfl rfl ⟨rfl, rfl, rfl, rfl⟩⟩

variable (hcomb : combines s d q m = true) (hkind : narrowKind m (2 ^ lg.val) = .write)
include hcomb hkind

theorem narrowStore_combines (hroom : (combEntry (s.core d q) (directAddr m)).isSome = true ∨ (s.core d q).combine.length < 16) :
    Runs (.narrowStore d q addr lg v srcs) s fun t =>
      (∃ e, combEntry (t.core d q) (directAddr m) = some e ∧ (x, (s.die d).stamp) ∈ e.who ∧ ∀ k, k < 2 ^ lg.val →
        e.bytes.find (directAddr m % 1024 + k) = (leBytes (2 ^ lg.val) v.toNat)[k]?.map (fun b => (b, (s.ctx d q x).anyBad srcs)))
      ∧ (t.ctx d q x).pc = nextPc s d q x ∧ OtherCtxs d q x s t ∧ t.mem = s.mem ∧ t.regs = s.regs := by
  have hrun := narrowStore_issued (v := v) h ht (not_register_of_store hplace) hok
  simp only [issueStore, ownStore_of_store hplace, reached_of_store hplace, length_narrowData, hcomb, hkind, and_self, if_true, if_pos hroom,
    combineWrite_eq] at hrun
  refine ⟨_, hrun, ⟨_, combEntry_combined s d q x _ _, List.mem_append_right _ List.mem_cons_self, fun k hk => ?_⟩,
    goesOn_advance rfl rfl ⟨rfl, rfl, rfl, rfl⟩⟩
  rw [find_written _ _ _ _ (by rw [length_narrowData]; exact hk), narrowData, List.getElem?_map]

theorem narrowStore_waits (hnone : combEntry (s.core d q) (directAddr m) = none) (hfull : 16 ≤ (s.core d q).combine.length)
    (hfirst : (s.ctx d q x).stalledAt ≠ some (s.beat d)) : Runs (.narrowStore d q addr lg v srcs) s fun t =>
      (t.ctx d q x).st = .wait ∧ (t.ctx d q x).waiting = some (.queueFull 6) ∧ (t.ctx d q x).pc = (s.ctx d q x).pc
      ∧ t.fld (.wstNarrowStall d) F.wstNarrowStall_COUNT
          = min (s.fld (.wstNarrowStall d) F.wstNarrowStall_COUNT + 1)
              (2 ^ (F.wstNarrowStall_COUNT.hi + 1 - F.wstNarrowStall_COUNT.lo) - 1)
      ∧ t.core d q = s.core d q ∧ t.mem = s.mem := by
  have hrun := narrowStore_issued (v := v) h ht (not_register_of_store hplace) hok
  have hno : ¬((combEntry (s.core d q) (directAddr m)).isSome = true ∨ (s.core d q).combine.length < 16) := by
    simp [hnone, Nat.not_lt.mpr hfull]
  simp only [issueStore, ownStore_of_store hplace, reached_of_store hplace, length_narrowData, hcomb, hkind, and_self, if_true, if_neg hno,
    parkFull_narrow s hfirst] at hrun
  refine ⟨_, hrun, ?_⟩
  simp only [State.core_addFld, State.core_setCtx, State.ctx_addFld, State.ctx_setCtx_same, true_and]
  exact ⟨State.fld_addFld_same _ _ _ _ (by decide), rfl⟩

end

end

/-- Settles O26: each case is one way through the access: its translation, its rejection, or the place that it is issued to. -/
theorem narrowAccesses : Obligations.NarrowAccesses := by
  intro s d q x rd addr lg sx v srcs h
  refine ⟨fun ht => ?_, fun ht => ?_, fun m src => narrowLoad_faults h, fun m src => narrowStore_faults h,
    fun m st u w off ht hok hplace hcomb => narrowLoad_own h ht hok hplace hcomb,
    fun m st u w off ht hok hplace hcomb hcov => narrowLoad_covered h ht hok hplace hcomb hcov,
    fun m st u w off ht hok hplace => ⟨narrowStore_own h ht hok hplace, fun hcomb hkind =>
      ⟨narrowStore_combines h ht hok hplace hcomb hkind, narrowStore_waits h ht hok hplace hcomb hkind⟩⟩,
    fun m k ht hok hplace => narrowLoad_hbm h ht hok hplace⟩
  · obtain ⟨hst, hcause, hpc⟩ := stopXlate_stops s d q x addr
    exact ⟨_, narrowLoad_untranslated h ht, hst, hcause, hpc, rfl, rfl⟩
  · obtain ⟨hst, hcause, -⟩ := stopXlate_stops s d q x addr
    exact ⟨_, narrowStore_untranslated h ht, hst, hcause, rfl⟩

end Sys2Proof.Machine
end

section
/-! ### Registers kept and reports raised, one step after another -/

namespace Sys2Proof.Machine

section
variable {s t u : State} {L : List Reg}

theorem regsKept_refl (s : State) (L : List Reg) : RegsKept L s s := fun _ _ => rfl

theorem regsKept_trans (h : RegsKept L s t) (k : RegsKept L t u) : RegsKept L s u := fun r hr => (k r hr).trans (h r hr)

theorem regsKept_of_regs (h : t.regs = s.regs) : RegsKept L s t := fun r _ => reg_of_regs h r

theorem regsKept_setReg (s : State) {r : Reg} (w : Word) (h : r ∈ L) : RegsKept L s (s.setReg r w) :=
  fun _ hk => State.reg_setReg_ne _ _ fun he => hk (he ▸ h)

theorem regsKept_setFld (s : State) {r : Reg} (f : Fld) (v : Nat) (h : r ∈ L) : RegsKept L s (s.setFld r f v) := regsKept_setReg s _ h

theorem regsKept_addFld (s : State) {r : Reg} (f : Fld) (n : Nat) (h : r ∈ L) : RegsKept L s (s.addFld r f n) := regsKept_setReg s _ h

theorem regsKept_foldl {α : Type} {f : State → α → State} {l : List α} (hf : ∀ t, ∀ a ∈ l, RegsKept L t (f t a)) (s : State) :
    RegsKept L s (l.foldl f s) := by
  induction l generalizing s with
  | nil => exact regsKept_refl s L
  | cons a l ih => exact regsKept_trans (hf s a List.mem_cons_self) (ih (fun t b hb => hf t b (List.mem_cons_of_mem _ hb)) _)

theorem now_of_regsKept (h : RegsKept L s t) (hL : Reg.ptcTbTime ∉ L) : t.now = s.now := congrArg BitVec.toNat (h _ hL)

theorem beat_of_regsKept (h : RegsKept L s t) (d : Die) (hL : Reg.scvBeat d ∉ L) : t.beat d = s.beat d := congrArg BitVec.toNat (h _ hL)

theorem raises_of_reports (h : t.reports = s.reports) : Raises s t [] := h.trans (List.append_nil _).symm

theorem raises_raise (s : State) (r : Report) : Raises s (s.raise r) [r] := rfl

/-- Reports raised one after another, while the timebase stands. -/
theorem raises_trans {rs qs : List Report} (h : Raises s t rs) (k : Raises t u qs) (hnow : t.now = s.now) : Raises s u (rs ++ qs) := by
  have hstamp : stamped t = stamped s := by
    funext r
    rw [stamped, hnow, stamped]
  rw [Raises, k, h, hstamp, List.append_assoc, List.map_append]

/-- A report raised after a change of registers other than the timebase. -/
theorem raises_raise_of (hreports : t.reports = s.reports) (hnow : t.now = s.now) (r : Report) : Raises s (t.raise r) [r] :=
  raises_trans (raises_of_reports hreports) (raises_raise t r) hnow

end

theorem storesKept_refl (s : State) : StoresKept s s := ⟨rfl, rfl, rfl, rfl⟩

end Sys2Proof.Machine
end

section
/-! ### Feeders and the weight bus (R255 to R265, R270, R273) -/

namespace Sys2Proof.Machine

/-! #### The feeder -/

section
variable {s : State} {d : Die} {q : CoreId}

/-- The access that a feeder issues next (R271, R273). -/
def feedAccess (s : State) (d : Die) (q : CoreId) (f : Feed) : Access :=
  { stamp := (s.die d).stamp, kind := .read, addr := directAddr (f.addr + f.next * f.stride), size := feedBytes f.rows f.rb, data := [],
    dest := .feeder d q f.rows f.rb, portB := false, issue := s.beat d, ret := 0, served := false }

theorem exec_afeedAccessIssue (hup : s.dieUp d = true) : exec (.afeedAccessIssue d q) s = .next (afeedIssue d q s) := by
  show Host.Outcome.next (if s.dieUp d then afeedIssue d q s else s) = _
  rw [if_pos hup]

variable {f : Feed} {fs : List Feed} (hfeeds : (s.core d q).feeds = f :: fs)
include hfeeds

theorem afeedIssue_waits (hwait : 64 < (s.core d q).actQ.length + (s.core d q).actReserved + f.rows
    ∨ slotClass (feedAccess s d q f) ((feedAccess s d q f).due s) = none) : afeedIssue d q s = s := by
  simp only [afeedIssue, hfeeds]
  refine if_pos (hwait.imp_right fun h => .inl ?_)
  exact Option.isNone_iff_eq_none.mpr h

theorem afeedIssue_issues (hroom : (s.core d q).actQ.length + (s.core d q).actReserved + f.rows ≤ 64)
    (hslot : (slotClass (feedAccess s d q f) ((feedAccess s d q f).due s)).isSome = true)
    (hport : (s.die d).accs.any (fun b => b.dest.core == some (d, q) && portRank b == 0 && b.issue == s.beat d) = false) :
    afeedIssue d q s = (s.setCore d q { s.core d q with
        actReserved := (s.core d q).actReserved + f.rows, feeds := f.step.toList ++ fs }).setDie d { s.die d with
          accs := (s.die d).accs ++ [feedAccess s d q f], stamp := (s.die d).stamp + 1 } := by
  have hnext : (match f.step with | some g => g :: fs | none => fs) = f.step.toList ++ fs := by cases f.step <;> rfl
  simp only [afeedIssue, hfeeds]
  rw [if_neg]
  · rw [← hnext]
    simp only [State.bump, State.die_setDie_same, State.setDie_setDie, State.die_setCore]
    rfl
  · rintro (h | h | h)
    · omega
    · rw [Option.isNone_iff_eq_none] at h
      exact Bool.noConfusion ((congrArg Option.isSome h).symm.trans hslot)
    · exact Bool.noConfusion (hport.symm.trans h)

end

/-! #### A request of the bus queue -/

section
variable (s : State) (d : Die) (r : BusReq) (f : Core → Core)

theorem foldl_subs_rest (l : List CoreId) (s : State) :
    l.foldl (fun s q => if r.names q then s.setCore d q (f (s.core d q)) else s) s
      = { s with cores := (l.foldl (fun s q => if r.names q then s.setCore d q (f (s.core d q)) else s) s).cores } := by
  induction l generalizing s with
  | nil => rfl
  | cons q l ih =>
    rw [List.foldl_cons, ih]
    split <;> rfl

theorem core_foldl_subs {l : List CoreId} (hl : l.Nodup) (s : State) (p : CoreId) :
    (l.foldl (fun s q => if r.names q then s.setCore d q (f (s.core d q)) else s) s).core d p
      = if p ∈ l ∧ r.names p = true then f (s.core d p) else s.core d p := by
  induction l generalizing s with
  | nil => simp
  | cons q l ih =>
    obtain ⟨hq, hl⟩ := List.nodup_cons.mp hl
    rw [List.foldl_cons, ih hl]
    by_cases hp : p = q
    · subst hp
      by_cases hn : r.names p = true <;> simp [hq, hn]
    · have hcore : (if r.names q = true then s.setCore d q (f (s.core d q)) else s).core d p = s.core d p := by
        split
        · exact State.core_setCore_ne s _ (by simpa using hp)
        · rfl
      simp [hp, hcore]

/-- An update of the subscribers changes no more than cores. -/
theorem eachSub_rest : eachSub s d r f = { s with cores := (eachSub s d r f).cores } := foldl_subs_rest d r f _ s

theorem core_eachSub (p : CoreId) : (eachSub s d r f).core d p = if r.names p = true then f (s.core d p) else s.core d p := by
  rw [eachSub, core_foldl_subs d r f (List.nodup_finRange 32)]
  simp [List.mem_finRange]

@[simp] theorem die_eachSub (e : Die) : (eachSub s d r f).die e = s.die e := by rw [eachSub_rest]; rfl

theorem busQ_setReq (i : Nat) : ((setReq s d i r).die d).busQ = (s.die d).busQ.set i r := by
  rw [setReq, State.die_setDie_same]

theorem busQ_dropReq (i : Nat) : ((dropReq s d i).die d).busQ = (s.die d).busQ.eraseIdx i := by
  rw [dropReq, State.die_setDie_same]

end

/-! #### The lookup -/

section
variable {s : State} {d : Die} {i : Nat} {r : BusReq}

theorem exec_busRequestLookup (hup : s.dieUp d = true) : exec (.busRequestLookup d i) s = .next (busLookup d i s) := by
  show Host.Outcome.next (if s.dieUp d then busLookup d i s else s) = _
  rw [if_pos hup]

variable (hr : (s.die d).busQ[i]? = some r)
include hr

theorem busLookup_waits (hwait : s.beat d ≤ r.since ∨ lookupReady s d r = false) : busLookup d i s = s := by
  simp only [busLookup, hr]
  refine if_pos ?_
  obtain h | h := hwait <;> simp [h]

variable (hidle : r.active = false) (hlate : s.beat d > r.since)
include hidle hlate

/-- A request whose block is resident is looked up: rejected, or taken into the queues. -/
theorem busLookup_found {w : WinEntry} (hopen : r.timedOut = false) (hres : residentFor (s.die d) r = some w) (hfree : subsFree s d r = true) :
    busLookup d i s = if r.gacc && pastPlain w r.lfirst r.lcount then
        (dropReq s d i).raise (Report.plain .feedReject d.val r.core.val .fdx 0)
      else setReq (eachSub s d r fun c => { c with treqs := c.treqs ++ [r.entry] }) d i
        { r with active := true, found := some w, checked := false, zero := false, total := r.lcount + 1 } := by
  simp only [busLookup, hr]
  rw [if_neg (by simp [lookupReady, hidle, hlate, hopen, hres, hfree])]
  simp only [hopen, hres]
  rfl

/-- A multicast of a whole block that has timed out leaves its zeros in the queues. -/
theorem busLookup_zeros (htimed : r.timedOut = true) (hwhole : r.lines = false) (hfree : subsFree s d r = true) :
    busLookup d i s = dropReq (eachSub s d r fun c => { c with treqs := c.treqs ++ [r.entry] }) d i := by
  simp only [busLookup, hr]
  rw [if_neg (by simp [lookupReady, hidle, hlate, htimed, hfree])]
  simp [htimed, hwhole]

/-- One of lines stays in the bus queue, for its zero lines. -/
theorem busLookup_zeroLines (htimed : r.timedOut = true) (hlines : r.lines = true) (hfree : subsFree s d r = true) :
    busLookup d i s = setReq (eachSub s d r fun c => { c with treqs := c.treqs ++ [r.entry] }) d i
      { r with active := true, found := none, checked := true, zero := true, total := r.lcount + 1 } := by
  simp only [busLookup, hr]
  rw [if_neg (by simp [lookupReady, hidle, hlate, htimed, hfree])]
  simp [htimed, hlines]

end

/-! #### A request that has waited its limit -/

section
variable (s : State) (d : Die) (r : BusReq)

/-- The address of the block whose use count falls short of what a request that ends without it should subtract (R256, R260). -/
def fallsShort (y : DieSt) (r : BusReq) : Option Nat :=
  (findBlock y r.gacc r.block).bind fun j => y.window[j]?.bind fun w => if r.ndone ≠ 0 ∧ w.state = .forwarding then some w.addr else none

theorem fallsShort_none {y : DieSt} {r : BusReq} (h : r.ndone = 0) : fallsShort y r = none := by simp [fallsShort, h]

theorem fallsShort_some {y : DieSt} {r : BusReq} {j : Nat} {w : WinEntry} (hdone : r.ndone ≠ 0) (hj : findBlock y r.gacc r.block = some j)
    (hw : y.window[j]? = some w) (hst : w.state = .forwarding) : fallsShort y r = some w.addr := by simp [fallsShort, hj, hw, hdone, hst]

theorem endWithout_eq : endWithout s d r = (fallsShort (s.die d) r).elim s (doneErr s d r) := by
  unfold endWithout fallsShort
  cases findBlock (s.die d) r.gacc r.block with
  | none => rfl
  | some j =>
    rw [Option.bind_some]
    dsimp only
    cases (s.die d).window[j]? with
    | none => rfl
    | some w =>
      rw [Option.bind_some]
      dsimp only
      split <;> rfl

/-- A timeout counted and raised. -/
def timeoutCounted : State :=
  (s.addFld (.fdxMcastStatus d) F.fdxMcastStatus_TIMEOUTS 1).raise (Report.plain .mcastTimeout d.val r.core.val .fdx 0)

/-- A timeout with the fault of the passes that the request would have ended. -/
def timeoutNoted : State := endWithout (timeoutCounted s d r) d r

theorem timeoutNoted_eq : timeoutNoted s d r = (fallsShort (s.die d) r).elim (timeoutCounted s d r) (doneErr (timeoutCounted s d r) d r) :=
  endWithout_eq _ d r

theorem timeoutNoted_rest : timeoutNoted s d r = { s with regs := (timeoutNoted s d r).regs, reports := (timeoutNoted s d r).reports } := by
  rw [timeoutNoted_eq]
  cases fallsShort (s.die d) r <;> rfl

theorem regsKept_timeoutCounted : RegsKept [.fdxMcastStatus d] s (timeoutCounted s d r) := regsKept_addFld s _ _ List.mem_cons_self

theorem regsKept_doneErr (a : Nat) : RegsKept [.fdxMcastStatus d] s (doneErr s d r a) := regsKept_addFld s _ _ List.mem_cons_self

theorem regsKept_timeoutNoted : RegsKept [.fdxMcastStatus d] s (timeoutNoted s d r) := by
  rw [timeoutNoted_eq]
  cases fallsShort (s.die d) r with
  | none => exact regsKept_timeoutCounted s d r
  | some a => exact regsKept_trans (regsKept_timeoutCounted s d r) (regsKept_doneErr _ d r a)

theorem fld_timeoutNoted : (timeoutNoted s d r).fld (.fdxMcastStatus d) F.fdxMcastStatus_TIMEOUTS
    = min (s.fld (.fdxMcastStatus d) F.fdxMcastStatus_TIMEOUTS + 1)
        (2 ^ (F.fdxMcastStatus_TIMEOUTS.hi + 1 - F.fdxMcastStatus_TIMEOUTS.lo) - 1) := by
  have hcount : (timeoutCounted s d r).fld (.fdxMcastStatus d) F.fdxMcastStatus_TIMEOUTS = _ :=
    State.fld_addFld_same s (.fdxMcastStatus d) F.fdxMcastStatus_TIMEOUTS 1 (by decide)
  rw [timeoutNoted_eq]
  cases fallsShort (s.die d) r with
  | none => exact hcount
  | some a => exact (State.fld_addFld_apart _ _ _ _ _ (by decide)).trans hcount

theorem raises_doneErr (a : Nat) : Raises s (doneErr s d r a) [Report.plain .doneErr d.val r.core.val .fdx a] := by
  rw [doneErr]
  exact raises_raise_of (State.addFld_reports s _ _ _) (now_of_regsKept (regsKept_doneErr s d r a) (by simp)) _

/-- The fault of R256 may follow the timeout's own. -/
theorem raises_timeoutNoted : Raises s (timeoutNoted s d r) (Report.plain .mcastTimeout d.val r.core.val .fdx 0
    :: ((fallsShort (s.die d) r).map fun a => Report.plain .doneErr d.val r.core.val .fdx a).toList) := by
  have hnow := now_of_regsKept (regsKept_timeoutCounted s d r) (by simp)
  have hcounted : Raises s (timeoutCounted s d r) [Report.plain .mcastTimeout d.val r.core.val .fdx 0] :=
    raises_raise_of (s := s) (t := s.addFld (.fdxMcastStatus d) F.fdxMcastStatus_TIMEOUTS 1) rfl hnow _
  rw [timeoutNoted_eq]
  cases fallsShort (s.die d) r with
  | none => exact hcounted
  | some a => exact raises_trans hcounted (raises_doneErr _ d r a) hnow

end

section
variable {s : State} {d : Die} {i : Nat} {r : BusReq}

/-- The state in which a multicast that has timed out is looked up. -/
def timedOutAt (s : State) (d : Die) (i : Nat) (r : BusReq) : State := setReq (timeoutNoted s d r) d i { r with timedOut := true }

theorem exec_mcastTimeout (hup : s.dieUp d = true) : exec (.mcastTimeout d i) s = .next (mcastTimeout d i s) := by
  show Host.Outcome.next (if s.dieUp d then mcastTimeout d i s else s) = _
  rw [if_pos hup]

theorem die_timeoutNoted : (timeoutNoted s d r).die d = s.die d := by
  rw [timeoutNoted_rest]
  rfl

theorem core_timeoutNoted (p : CoreId) : (timeoutNoted s d r).core d p = s.core d p := by
  rw [timeoutNoted_rest]
  rfl

theorem subsFree_timedOutAt : subsFree (timedOutAt s d i r) d { r with timedOut := true } = subsFree s d r := by
  have hcore (p : CoreId) : (timedOutAt s d i r).core d p = s.core d p := core_timeoutNoted p
  simp only [subsFree, hcore]
  rfl

theorem beat_timedOutAt : (timedOutAt s d i r).beat d = s.beat d := beat_of_regsKept (regsKept_timeoutNoted s d r) d (by simp)

variable (hr : (s.die d).busQ[i]? = some r)
include hr

/-- The request as it stands in the queue once it has timed out. -/
theorem busQ_timedOutAt : ((timedOutAt s d i r).die d).busQ = (s.die d).busQ.set i { r with timedOut := true }
    ∧ ((timedOutAt s d i r).die d).busQ[i]? = some { r with timedOut := true } := by
  have hset : ((timedOutAt s d i r).die d).busQ = (s.die d).busQ.set i { r with timedOut := true } := by
    rw [timedOutAt, busQ_setReq, die_timeoutNoted]
  obtain ⟨hi, -⟩ := List.getElem?_eq_some_iff.mp hr
  rw [hset, List.getElem?_set_self hi]
  exact ⟨rfl, rfl⟩

variable (hidle : r.active = false)
include hidle

theorem mcastTimeout_times (hopen : r.timedOut = false) (hres : residentFor (s.die d) r = none)
    (hdue : r.since + 1 + s.fld (.fdxMcastCtrl d) F.fdxMcastCtrl_WAIT_LIMIT ≤ s.beat d) :
    mcastTimeout d i s = if r.gacc then dropReq (timeoutNoted s d r) d i else busLookup d i (timedOutAt s d i r) := by
  simp only [mcastTimeout, hr]
  rw [if_neg (by simp [hidle, hopen, hres, hdue])]
  rfl

/-- The lookup of a request that has timed out adds to the queues alone. -/
theorem busLookup_timedOutAt (hlate : s.beat d > r.since) :
    (busLookup d i (timedOutAt s d i r)) = { timeoutNoted s d r with
        dies := (busLookup d i (timedOutAt s d i r)).dies, cores := (busLookup d i (timedOutAt s d i r)).cores } := by
  have hq := (busQ_timedOutAt hr).2
  have hbeat : (timedOutAt s d i r).beat d > r.since := by rwa [beat_timedOutAt]
  cases hfree : subsFree s d r with
  | false =>
    rw [busLookup_waits hq (.inr (by simp [lookupReady, subsFree_timedOutAt, hfree]))]
    rfl
  | true =>
    rw [← subsFree_timedOutAt] at hfree
    cases hlines : r.lines with
    | false =>
      rw [busLookup_zeros hq hidle hbeat rfl hlines hfree, dropReq, eachSub_rest]
      rfl
    | true =>
      rw [busLookup_zeroLines hq hidle hbeat rfl hlines hfree, setReq, eachSub_rest]
      rfl

omit hidle in
/-- With a full queue it waits; else a whole block's zeros join the subscribers' queues. -/
theorem busLookup_timedOut_full (hfull : subsFree s d r = false) : busLookup d i (timedOutAt s d i r) = timedOutAt s d i r :=
  busLookup_waits (busQ_timedOutAt hr).2 (.inr (by simp [lookupReady, subsFree_timedOutAt, hfull]))

theorem busLookup_timedOut_zeros (hlate : s.beat d > r.since) (hwhole : r.lines = false) (hfree : subsFree s d r = true) :
    ((busLookup d i (timedOutAt s d i r)).die d).busQ = (s.die d).busQ.eraseIdx i
      ∧ ∀ p, ((busLookup d i (timedOutAt s d i r)).core d p).treqs = (s.core d p).treqs
          ++ (if r.names p then [.zeros r.id r.stage r.psoff r.e r.ekind] else []) := by
  obtain ⟨hset, hq⟩ := busQ_timedOutAt hr
  have hbeat : (timedOutAt s d i r).beat d > r.since := by rwa [beat_timedOutAt]
  have hentry : ({ r with timedOut := true } : BusReq).entry = .zeros r.id r.stage r.psoff r.e r.ekind := by simp [BusReq.entry, hwhole]
  rw [← subsFree_timedOutAt] at hfree
  rw [busLookup_zeros hq hidle hbeat rfl hwhole hfree]
  refine ⟨?_, fun p => ?_⟩
  · rw [busQ_dropReq, die_eachSub, hset, List.eraseIdx_set_eq]
  · rw [dropReq, State.core_setDie, core_eachSub, hentry]
    have hcore : (timedOutAt s d i r).core d p = s.core d p := core_timeoutNoted p
    have hnames : ({ r with timedOut := true } : BusReq).names p = r.names p := rfl
    rw [hcore, hnames]
    split <;> simp

end

/-! #### Passes ended -/

section
variable (s : State) (d : Die) (r : BusReq)

theorem endPasses_rest : endPasses s d r = { s with
    regs := (endPasses s d r).regs, reports := (endPasses s d r).reports, dies := (endPasses s d r).dies } := by
  unfold endPasses
  split
  · rfl
  · dsimp only
    split
    · rfl
    · split
      · rfl
      · split <;> rfl

theorem die_endPasses : (endPasses s d r).die d = { s.die d with window := ((endPasses s d r).die d).window } := by
  unfold endPasses
  split
  · rfl
  · dsimp only
    split
    · rfl
    · split
      · rfl
      · rw [State.die_setDie_same]
        split <;> rfl

end

section
variable (s : State) (d : Die) (i : Nat) (r : BusReq)

@[simp] theorem accs_endPasses : ((endPasses s d r).die d).accs = (s.die d).accs := by rw [die_endPasses]
@[simp] theorem used_endPasses : ((endPasses s d r).die d).used = (s.die d).used := by rw [die_endPasses]
@[simp] theorem busQ_endPasses : ((endPasses s d r).die d).busQ = (s.die d).busQ := by rw [die_endPasses]
@[simp] theorem rmws_endPasses : ((endPasses s d r).die d).rmws = (s.die d).rmws := by rw [die_endPasses]
@[simp] theorem effects_endPasses : ((endPasses s d r).die d).effects = (s.die d).effects := by rw [die_endPasses]

@[simp] theorem accs_dropReq : ((dropReq s d i).die d).accs = (s.die d).accs := by rw [dropReq, State.die_setDie_same]
@[simp] theorem used_dropReq : ((dropReq s d i).die d).used = (s.die d).used := by rw [dropReq, State.die_setDie_same]
@[simp] theorem rmws_dropReq : ((dropReq s d i).die d).rmws = (s.die d).rmws := by rw [dropReq, State.die_setDie_same]
@[simp] theorem effects_dropReq : ((dropReq s d i).die d).effects = (s.die d).effects := by rw [dropReq, State.die_setDie_same]

@[simp] theorem accs_setReq : ((setReq s d i r).die d).accs = (s.die d).accs := by rw [setReq, State.die_setDie_same]
@[simp] theorem used_setReq : ((setReq s d i r).die d).used = (s.die d).used := by rw [setReq, State.die_setDie_same]
@[simp] theorem rmws_setReq : ((setReq s d i r).die d).rmws = (s.die d).rmws := by rw [setReq, State.die_setDie_same]
@[simp] theorem effects_setReq : ((setReq s d i r).die d).effects = (s.die d).effects := by rw [setReq, State.die_setDie_same]

end

/-! #### A line given to its subscribers -/

/-- The STAGE write of a line that bypasses the expander (R198, R262). -/
def stageLine (s : State) (d : Die) (q : CoreId) (r : BusReq) (bytes : List (Byte × Bool)) (beat : Nat) : Access :=
  { stamp := (s.die d).stamp, kind := .write, addr := unitBase d .pst q.val + (r.psoff + r.served) * 1024, size := bytes.length
    data := bytes, dest := .stage d q (some r.id), portB := false, issue := beat, ret := 0, served := false }

theorem takeLine_inline {r : BusReq} (h : r.stage = false ∨ r.expand = true) (s : State) (d : Die) (q : CoreId)
    (bytes : List (Byte × Bool)) (beat : Nat) :
    takeLine s d q r bytes beat = s.setCore d q { s.core d q with rx := (s.core d q).rx ++ [⟨r.id, bytes, beat⟩] } :=
  if_neg (by obtain h | h := h <;> simp [h])

theorem takeLine_stage {r : BusReq} (hst : r.stage = true) (hex : r.expand = false) (s : State) (d : Die) (q : CoreId) (bytes : List (Byte × Bool))
    (beat : Nat) : takeLine s d q r bytes beat = (s.setCore d q { s.core d q with rx := (s.core d q).rx ++ [⟨r.id, bytes, beat⟩] }).setDie d
      { s.die d with accs := (s.die d).accs ++ [stageLine s d q r bytes beat], stamp := (s.die d).stamp + 1 } := by
  refine (if_pos (by simp [hst, hex])).trans ?_
  rw [State.bump, State.die_setDie_same, State.setDie_setDie]
  rfl

/-- Cores have taken a line: each its bytes, and a STAGE write for each where the line bypasses the expander (R258, R259, R262). -/
structure LineTaken (d : Die) (r : BusReq) (bytes : List (Byte × Bool)) (beat : Nat) (l : List CoreId) (s t : State) : Prop where
  rest : t = { s with cores := t.cores, dies := t.dies }
  core : ∀ p, t.core d p = { s.core d p with rx := (s.core d p).rx ++ (if p ∈ l then [⟨r.id, bytes, beat⟩] else []) }
  die : t.die d = { s.die d with accs := (t.die d).accs, stamp := (t.die d).stamp }
  inline : r.stage = false ∨ r.expand = true → (t.die d).accs = (s.die d).accs
  accs : (s.die d).accs ⊆ (t.die d).accs
  stage : r.stage = true → r.expand = false → ∀ p ∈ l, ∃ a ∈ (t.die d).accs, a.dest = .stage d p (some r.id) ∧ a.kind = .write
    ∧ a.addr = unitBase d .pst p.val + (r.psoff + r.served) * 1024 ∧ a.data = bytes ∧ a.issue = beat

section
variable {d : Die} {r : BusReq} {bytes : List (Byte × Bool)} {beat : Nat}

theorem core_takeLine (s : State) (q p : CoreId) : (takeLine s d q r bytes beat).core d p
    = { s.core d p with rx := (s.core d p).rx ++ (if p = q then [⟨r.id, bytes, beat⟩] else []) } := by
  have hset : (takeLine s d q r bytes beat).core d p
      = (s.setCore d q { s.core d q with rx := (s.core d q).rx ++ [⟨r.id, bytes, beat⟩] }).core d p := by
    by_cases h : r.stage = false ∨ r.expand = true
    · rw [takeLine_inline h]
    · simp only [not_or, Bool.not_eq_false, Bool.not_eq_true] at h
      rw [takeLine_stage h.1 h.2]
      rfl
  rw [hset]
  by_cases hp : p = q
  · rw [if_pos hp, hp, State.core_setCore_same]
  · rw [if_neg hp, State.core_setCore_ne s _ (by simpa using hp), List.append_nil]

theorem lineTaken_cons {s t : State} {q : CoreId} {l : List CoreId} (hq : q ∉ l) (h : LineTaken d r bytes beat l (takeLine s d q r bytes beat) t) :
    LineTaken d r bytes beat (q :: l) s t := by
  have hcore (p : CoreId) : t.core d p = { s.core d p with rx := (s.core d p).rx ++ (if p ∈ q :: l then [⟨r.id, bytes, beat⟩] else []) } := by
    rw [h.core p, core_takeLine]
    by_cases hp : p = q
    · simp [hp, hq]
    · simp [hp]
  have hrest := h.rest
  have hdie := h.die
  have hinline := h.inline
  have haccs := h.accs
  have hstage := h.stage
  by_cases hin : r.stage = false ∨ r.expand = true
  · rw [takeLine_inline hin] at hrest hdie hinline haccs
    refine ⟨hrest, hcore, hdie, hinline, haccs, fun hst hex => ?_⟩
    simp [hst, hex] at hin
  · obtain ⟨hst, hex⟩ : r.stage = true ∧ r.expand = false := by simpa using hin
    rw [takeLine_stage hst hex] at hrest
    have hdq : (takeLine s d q r bytes beat).die d = { s.die d with
        accs := (s.die d).accs ++ [stageLine s d q r bytes beat], stamp := (s.die d).stamp + 1 } := by
      rw [takeLine_stage hst hex, State.die_setDie_same]
    rw [hdq] at hdie haccs
    refine ⟨hrest, hcore, hdie, fun hc => absurd hc hin, List.Subset.trans (List.subset_append_left _ _) haccs,
      fun _ _ => List.forall_mem_cons.mpr ⟨?_, hstage hst hex⟩⟩
    exact ⟨stageLine s d q r bytes beat, haccs (List.mem_append_right _ List.mem_cons_self), rfl, rfl, rfl, rfl, rfl⟩

theorem lineTaken_foldl {l : List CoreId} (hl : l.Nodup) (s : State) :
    LineTaken d r bytes beat l s (l.foldl (fun s q => takeLine s d q r bytes beat) s) := by
  induction l generalizing s with
  | nil => exact ⟨rfl, fun p => by simp, rfl, fun _ => rfl, List.Subset.refl _, fun _ _ => nofun⟩
  | cons q l ih =>
    obtain ⟨hq, hl⟩ := List.nodup_cons.mp hl
    exact lineTaken_cons hq (ih hl _)

theorem mem_cores {p : CoreId} : p ∈ r.cores ↔ r.names p = true := by simp [BusReq.cores]

/-- The state with a line on the bus and in every subscriber's buffer. -/
def lineGiven (s : State) (d : Die) (r : BusReq) (lane : Nat) (bytes : List (Byte × Bool)) (beat : Nat) : State :=
  r.cores.foldl (fun s q => takeLine s d q r bytes beat) (s.setDie d { s.die d with used := (s.die d).used ++ r.cores.map (fun q => .sub lane q) })

theorem giveLine_eq (s : State) (i lane : Nat) : giveLine s d i r lane bytes beat =
    if r.served + 1 = r.total then endPasses (dropReq (lineGiven s d r lane bytes beat) d i) d r
    else setReq (lineGiven s d r lane bytes beat) d i { r with served := r.served + 1 } := rfl

theorem lineGiven_taken (s : State) (lane : Nat) : LineTaken d r bytes beat r.cores
    (s.setDie d { s.die d with used := (s.die d).used ++ r.cores.map (fun q => .sub lane q) }) (lineGiven s d r lane bytes beat) :=
  lineTaken_foldl ((List.nodup_finRange 32).filter _) _

/-- What a line given leaves: the die's queue and accesses as the subscribers' takings and the last line make them, and the
stores as they are. -/
structure LineGiven (d : Die) (i : Nat) (r : BusReq) (bytes : List (Byte × Bool)) (beat : Nat) (s t : State) : Prop where
  core : ∀ p, t.core d p = { s.core d p with rx := (s.core d p).rx ++ (if r.names p then [⟨r.id, bytes, beat⟩] else []) }
  inline : r.stage = false ∨ r.expand = true → (t.die d).accs = (s.die d).accs
  stage : r.stage = true → r.expand = false → ∀ p, r.names p = true → ∃ a ∈ (t.die d).accs, a.dest = .stage d p (some r.id)
    ∧ a.kind = .write ∧ a.addr = unitBase d .pst p.val + (r.psoff + r.served) * 1024 ∧ a.data = bytes ∧ a.issue = beat
  stores : StoresKept s t
  more : r.served + 1 ≠ r.total → (t.die d).busQ = (s.die d).busQ.set i { r with served := r.served + 1 } ∧ t.regs = s.regs
  last : r.served + 1 = r.total → (t.die d).busQ = (s.die d).busQ.eraseIdx i
  used : (s.die d).used ⊆ (t.die d).used

theorem giveLine_gives (s : State) (i lane : Nat) : LineGiven d i r bytes beat s (giveLine s d i r lane bytes beat) := by
  obtain ⟨hrest, hcore, hdie, hinline, -, hstage⟩ := lineGiven_taken (d := d) (r := r) (bytes := bytes) (beat := beat) s lane
  have hstores : StoresKept s (lineGiven s d r lane bytes beat) := by
    rw [hrest]
    exact storesKept_refl s
  have hregs : (lineGiven s d r lane bytes beat).regs = s.regs := by
    rw [hrest]
    rfl
  rw [State.die_setDie_same] at hdie hinline
  have hbusQ : ((lineGiven s d r lane bytes beat).die d).busQ = (s.die d).busQ := by rw [hdie]
  have hused : (s.die d).used ⊆ ((lineGiven s d r lane bytes beat).die d).used := by
    rw [hdie]
    exact List.subset_append_left _ _
  simp only [mem_cores] at hcore hstage
  rw [giveLine_eq]
  clear hrest hdie
  generalize lineGiven s d r lane bytes beat = u at *
  by_cases hlast : r.served + 1 = r.total
  · rw [if_pos hlast]
    refine ⟨fun p => ?_, fun hin => ?_, fun hst hex p hp => ?_, ?_, fun hc => absurd hlast hc, fun _ => ?_, ?_⟩
    · rw [endPasses_rest]
      exact hcore p
    · rw [accs_endPasses, accs_dropReq, hinline hin]
    · rw [accs_endPasses, accs_dropReq]
      exact hstage hst hex p hp
    · rw [endPasses_rest]
      exact hstores
    · rw [busQ_endPasses, busQ_dropReq, hbusQ]
    · rw [used_endPasses, used_dropReq]
      exact hused
  · rw [if_neg hlast]
    refine ⟨hcore, fun hin => ?_, fun hst hex p hp => ?_, hstores, fun _ => ⟨?_, hregs⟩, fun hc => absurd hc hlast, ?_⟩
    · rw [accs_setReq, hinline hin]
    · rw [accs_setReq]
      exact hstage hst hex p hp
    · rw [busQ_setReq, hbusQ]
    · rw [used_setReq]
      exact hused

end

/-! #### A header read (R263) -/

/-- A subscriber's expander marked with a cause. -/
def markExp (d : Die) (r : BusReq) (c : Nat) (s : State) (q : CoreId) : State :=
  if r.names q then (s.setFld (.fdxExpStatus d q) F.fdxExpStatus_ERR_CAUSE c).setFld (.fdxExpStatus d q) F.fdxExpStatus_ERROR 1 else s

/-- The subscribers' expanders marked with a plan's cause, and the fault raised; nothing where there is none. -/
def planNoted (s : State) (d : Die) (r : BusReq) (c : Nat) : State :=
  if c = 0 then s
  else ((List.finRange 32).foldl (markExp d r c) s).raise { Report.plain .expander d.val r.core.val .fdx 0 with detail := c }

section
variable {d : Die} {r : BusReq} {c : Nat}

theorem regsKept_markExp (s : State) (q : CoreId) : RegsKept ((List.finRange 32).map (.fdxExpStatus d)) s (markExp d r c s q) := by
  have hmem : Reg.fdxExpStatus d q ∈ (List.finRange 32).map (Reg.fdxExpStatus d) := List.mem_map_of_mem (List.mem_finRange q)
  unfold markExp
  split
  · exact regsKept_trans (regsKept_setFld s _ c hmem) (regsKept_setFld _ _ 1 hmem)
  · exact regsKept_refl s _

theorem markExp_rest (l : List CoreId) (s : State) : l.foldl (markExp d r c) s = { s with regs := (l.foldl (markExp d r c) s).regs } := by
  induction l generalizing s with
  | nil => rfl
  | cons q l ih =>
    rw [List.foldl_cons, ih, markExp]
    split <;> rfl

theorem fld_foldl_markExp {p : CoreId} (hp : r.names p = true) {l : List CoreId} {s : State}
    (h : p ∈ l ∨ s.fld (.fdxExpStatus d p) F.fdxExpStatus_ERROR = 1) :
    (l.foldl (markExp d r c) s).fld (.fdxExpStatus d p) F.fdxExpStatus_ERROR = 1 := by
  induction l generalizing s with
  | nil => simpa using h
  | cons q l ih =>
    refine ih ?_
    by_cases hq : p = q
    · subst hq
      rw [markExp, if_pos hp, State.fld_setFld_same _ _ _ _ (by decide)]
      exact .inr rfl
    · have hkept : (markExp d r c s q).fld (.fdxExpStatus d p) F.fdxExpStatus_ERROR = s.fld (.fdxExpStatus d p) F.fdxExpStatus_ERROR := by
        have hne : Reg.fdxExpStatus d p ≠ .fdxExpStatus d q := fun he => hq (Reg.fdxExpStatus.inj he).2
        unfold markExp
        split
        · rw [State.fld_setFld_ne _ _ _ _ hne, State.fld_setFld_ne _ _ _ _ hne]
        · rfl
      rw [hkept]
      simpa [hq] using h

variable (s : State)

theorem planNoted_zero : planNoted s d r 0 = s := rfl

theorem planNoted_rest : planNoted s d r c = { s with regs := (planNoted s d r c).regs, reports := (planNoted s d r c).reports } := by
  unfold planNoted
  split
  · rfl
  · rw [markExp_rest]
    rfl

theorem raises_planNoted (hc : c ≠ 0) : Raises s (planNoted s d r c) [{ Report.plain .expander d.val r.core.val .fdx 0 with detail := c }] := by
  have hnow : ((List.finRange 32).foldl (markExp d r c) s).now = s.now :=
    now_of_regsKept (regsKept_foldl (fun t q _ => regsKept_markExp t q) s) (by simp)
  rw [planNoted, if_neg hc]
  exact raises_raise_of (by rw [markExp_rest]) hnow _

theorem fld_planNoted (hc : c ≠ 0) {p : CoreId} (hp : r.names p = true) :
    (planNoted s d r c).fld (.fdxExpStatus d p) F.fdxExpStatus_ERROR = 1 := by
  rw [planNoted, if_neg hc, State.fld_raise]
  exact fld_foldl_markExp hp (.inl (List.mem_finRange p))

/-- A plan that has lines to deliver is applied to the request and its subscribers' entries. -/
theorem applyPlan_lines {i : Nat} {p : BusPlan} (h : p.total ≠ 0) : applyPlan s d i r p
    = setReq (eachSub (planNoted s d r p.cause) d r fun c => { c with treqs := c.treqs.filterMap (planEntry r p) }) d i
        { r with checked := true, total := p.total, zero := p.zero, expand := p.expand } := if_neg h

end

/-! #### A line served (R257 to R259, R262, R263) -/

/-- The state with the class 4 slot of a request's bank and lane used. -/
def laneUsed (s : State) (d : Die) (r : BusReq) (w : WinEntry) : State :=
  s.setDie d { s.die d with used := (s.die d).used ++ [.bank (nextSlot r w (s.beat d)).2.1 4, .lane (nextSlot r w (s.beat d)).1] }

theorem exec_busLineServe {s : State} {d : Die} {i : Nat} (hup : s.dieUp d = true) : exec (.busLineServe d i) s = .next (busServe d i s) := by
  show Host.Outcome.next (if s.dieUp d then busServe d i s else s) = _
  rw [if_pos hup]

section
variable {s : State} {d : Die} {i : Nat} {r : BusReq} {w : WinEntry} (hr : (s.die d).busQ[i]? = some r) (hact : r.active = true)
  (hopen : r.timedOut = false) (hfound : r.found = some w) (hgacc : r.gacc = false)
include hr hact hopen hfound hgacc

theorem busServe_loses (hlose : (busWinners s d).contains i = false) : busServe d i s = s := by
  simp only [busServe, hr, hfound]
  rw [if_neg (by simp [hact, hgacc]), if_neg (by simp [hopen]), if_pos (by rw [hlose]; simp)]

variable (hlatent : s.latent = []) (hwin : (busWinners s d).contains i = true)
include hlatent hwin

theorem busServe_line (hchecked : r.checked = true) : busServe d i s = giveLine (laneUsed s d r w) d i r (nextSlot r w (s.beat d)).1
    (if r.zero then zeroLine else spread (s.peek (lineOf r w r.served).1 (lineOf r w r.served).2)) (s.beat d + 4) := by
  simp only [busServe, hr, hfound, hchecked]
  rw [if_neg (by simp [hact, hgacc]), if_neg (by simp [hopen]), if_neg (by rw [hwin]; simp)]
  show busLine d i r w (nextSlot r w (s.beat d)).1 (laneUsed s d r w) = _
  simp only [busLine]
  rw [readStore_of_latent (s := laneUsed s d r w) hlatent]
  split <;> rfl

theorem busServe_header (hchecked : r.checked = false) {p : BusPlan} (hp : p = busPlan r w (windowBytes s w)) (hlines : p.expand = false)
    (htotal : p.total ≠ 0) : busServe d i s
      = setReq (eachSub (planNoted (laneUsed s d r w) d r p.cause) d r fun c => { c with treqs := c.treqs.filterMap (planEntry r p) }) d i
        { r with checked := true, total := p.total, zero := p.zero, expand := false } := by
  have happly := applyPlan_lines (d := d) (r := r) (laneUsed s d r w) (i := i) htotal
  rw [hlines] at happly
  have hsame : (applyPlan (laneUsed s d r w) d i r p).latent = [] := by
    rw [happly, setReq, eachSub_rest, planNoted_rest]
    exact hlatent
  simp only [busServe, hr, hfound, hchecked, ← hp]
  rw [if_neg (by simp [hact, hgacc]), if_neg (by simp [hopen]), if_neg (by rw [hwin]; simp [hlines])]
  show (if p.expand = true then _ else readStore (applyPlan (laneUsed s d r w) d i r p) w.addr 32) = _
  rw [if_neg (by simp [hlines]), readStore_of_latent hsame]
  exact happly.trans (by rw [hfound])

end

/-! #### GACC (R265) -/

theorem exec_gaccLineAccumulate {s : State} {d : Die} {i : Nat} (hup : s.dieUp d = true) :
    exec (.gaccLineAccumulate d i) s = .next (gaccLine d i s) := by
  show Host.Outcome.next (if s.dieUp d then gaccLine d i s else s) = _
  rw [if_pos hup]

section
variable {s : State} {d : Die} {i : Nat} {r : BusReq} {w : WinEntry} (hr : (s.die d).busQ[i]? = some r) (hact : r.active = true)
  (hfound : r.found = some w) (hgacc : r.gacc = true)
include hr hact hfound hgacc

/-- The source line is read in its bank's class 1 slot. -/
theorem gaccLine_reads (hlatent : s.latent = []) (hempty : r.buf = none) (hdue : r.since + 2 ≤ s.beat d)
    (hfree : tileReadDue s d r.core ((r.psoff + r.served) % 8) = false)
    (hslot : slotOpen s d ((r.psoff + r.served) % 8) (bankKey .pst r.core.val ((r.psoff + r.served) % 8)) 1 = true) :
    gaccLine d i s = setReq (useSlot s d (bankKey .pst r.core.val ((r.psoff + r.served) % 8)) 1) d i
      { r with buf := some (spread (s.peek (unitBase d .pst r.core.val + (r.psoff + r.served) * 1024) 1024)) } := by
  simp only [gaccLine, hr, hfound, hempty]
  rw [if_neg (by simp [hact, hgacc]), if_neg (by simp [hdue, hfree, hslot]),
    readStore_of_latent (s := useSlot s d (bankKey .pst r.core.val ((r.psoff + r.served) % 8)) 1) hlatent]
  rfl

/-- The state with a source line on its way into the block, its bank's slot and lane used and the write-back to come (R205). -/
def lineAccumulated (s : State) (d : Die) (r : BusReq) (w : WinEntry) (data : List (Byte × Bool)) : State :=
  s.setDie d { s.die d with
    used := (s.die d).used ++ [.bank (nextSlot r w (s.beat d)).2.1 4, .lane (nextSlot r w (s.beat d)).1]
    effects := (s.die d).effects ++ [⟨4, .acc (decide ((parseHeader w.header).kind = 6)), w.addr + 1024 * (r.lfirst + r.served), data⟩]
    rmws := (s.die d).rmws ++ [⟨(nextSlot r w (s.beat d)).2.1, 4, s.beat d + 8⟩] }

theorem gaccLine_accumulates {data : List (Byte × Bool)} (hbuf : r.buf = some data) (hwin : (busWinners s d).contains i = true) :
    gaccLine d i s = if r.served + 1 = r.total then endPasses (dropReq (lineAccumulated s d r w data) d i) d r
      else setReq (lineAccumulated s d r w data) d i { r with served := r.served + 1, buf := none } := by
  simp only [gaccLine, hr, hfound, hbuf]
  rw [if_neg (by simp [hact, hgacc]), if_neg (by rw [hwin]; simp)]
  rfl

end

/-! #### The commands, each on a die that is up -/

section
variable {s : State} {d : Die}

theorem afeedAccessIssue_runs {q : CoreId} {f : Feed} {fs : List Feed} (hup : s.dieUp d = true) (hfeeds : (s.core d q).feeds = f :: fs)
    (hroom : (s.core d q).actQ.length + (s.core d q).actReserved + f.rows ≤ 64)
    (hslot : (slotClass (feedAccess s d q f) ((feedAccess s d q f).due s)).isSome = true)
    (hport : (s.die d).accs.any (fun b => b.dest.core == some (d, q) && portRank b == 0 && b.issue == s.beat d) = false) :
    Runs (.afeedAccessIssue d q) s fun t => (t.die d).accs = (s.die d).accs ++ [feedAccess s d q f]
      ∧ t.core d q = { s.core d q with actReserved := (s.core d q).actReserved + f.rows, feeds := f.step.toList ++ fs }
      ∧ t.regs = s.regs ∧ StoresKept s t ∧ t.ctxs = s.ctxs := by
  refine ⟨_, (exec_afeedAccessIssue hup).trans (congrArg _ (afeedIssue_issues hfeeds hroom hslot hport)), ?_, ?_, rfl, storesKept_refl s, rfl⟩
  · rw [State.die_setDie_same]
  · rw [State.core_setDie, State.core_setCore_same]

variable {i : Nat} {r : BusReq}

theorem busRequestLookup_takes {w : WinEntry} (hup : s.dieUp d = true) (hr : (s.die d).busQ[i]? = some r) (hidle : r.active = false)
    (hopen : r.timedOut = false) (hlate : s.beat d > r.since) (hres : residentFor (s.die d) r = some w) (hfree : subsFree s d r = true)
    (hfits : (r.gacc && pastPlain w r.lfirst r.lcount) = false) : Runs (.busRequestLookup d i) s fun t =>
      (t.die d).busQ = (s.die d).busQ.set i { r with active := true, found := some w, checked := false, zero := false, total := r.lcount + 1 }
      ∧ (∀ p, t.core d p = { s.core d p with treqs := (s.core d p).treqs ++ (if r.names p then [r.entry] else []) })
      ∧ StoresKept s t ∧ t.regs = s.regs ∧ Raises s t [] := by
  have hlook := busLookup_found hr hidle hlate hopen hres hfree
  rw [if_neg (by rw [hfits]; exact nofun)] at hlook
  refine ⟨_, (exec_busRequestLookup hup).trans (congrArg _ hlook), ?_, fun p => ?_, ?_, ?_, ?_⟩
  · rw [busQ_setReq, die_eachSub]
  · rw [setReq, State.core_setDie, core_eachSub]
    split <;> simp
  · rw [setReq, eachSub_rest]
    exact storesKept_refl s
  · rw [setReq, eachSub_rest]
    rfl
  · rw [setReq, eachSub_rest]
    exact raises_of_reports rfl

theorem busRequestLookup_rejects {w : WinEntry} (hup : s.dieUp d = true) (hr : (s.die d).busQ[i]? = some r) (hidle : r.active = false)
    (hopen : r.timedOut = false) (hlate : s.beat d > r.since) (hres : residentFor (s.die d) r = some w) (hfree : subsFree s d r = true)
    (hpast : (r.gacc && pastPlain w r.lfirst r.lcount) = true) : Runs (.busRequestLookup d i) s fun t =>
      (t.die d).busQ = (s.die d).busQ.eraseIdx i ∧ t.cores = s.cores
      ∧ Raises s t [Report.plain .feedReject d.val r.core.val .fdx 0] := by
  have hlook := busLookup_found hr hidle hlate hopen hres hfree
  rw [if_pos hpast] at hlook
  exact ⟨_, (exec_busRequestLookup hup).trans (congrArg _ hlook), busQ_dropReq s d i, rfl, rfl⟩

theorem mcastTimeout_runs (hup : s.dieUp d = true) (hr : (s.die d).busQ[i]? = some r) (hidle : r.active = false)
    (hopen : r.timedOut = false) (hres : residentFor (s.die d) r = none)
    (hdue : r.since + 1 + s.fld (.fdxMcastCtrl d) F.fdxMcastCtrl_WAIT_LIMIT ≤ s.beat d) : Runs (.mcastTimeout d i) s fun t =>
      (t.reports = (timeoutNoted s d r).reports ∧ t.regs = (timeoutNoted s d r).regs ∧ StoresKept s t)
      ∧ (r.gacc = true → (t.die d).busQ = (s.die d).busQ.eraseIdx i ∧ t.cores = s.cores)
      ∧ (r.gacc = false → subsFree s d r = false → (t.die d).busQ = (s.die d).busQ.set i { r with timedOut := true } ∧ t.cores = s.cores)
      ∧ (r.gacc = false → r.lines = false → subsFree s d r = true → (t.die d).busQ = (s.die d).busQ.eraseIdx i
          ∧ ∀ p, (t.core d p).treqs = (s.core d p).treqs ++ (if r.names p then [.zeros r.id r.stage r.psoff r.e r.ekind] else [])) := by
  have hlate : s.beat d > r.since := by omega
  have hcores : (timeoutNoted s d r).cores = s.cores := by rw [timeoutNoted_rest]
  have hstores : StoresKept s (timeoutNoted s d r) := by
    rw [timeoutNoted_rest]
    exact storesKept_refl s
  have htimes := mcastTimeout_times hr hidle hopen hres hdue
  by_cases hg : r.gacc = true
  · rw [if_pos hg] at htimes
    have hmulti : r.gacc ≠ false := by simp [hg]
    refine ⟨_, (exec_mcastTimeout hup).trans (congrArg _ htimes), ⟨rfl, rfl, hstores⟩, fun _ => ⟨?_, hcores⟩,
      fun h => absurd h hmulti, fun h => absurd h hmulti⟩
    rw [busQ_dropReq, die_timeoutNoted]
  · rw [if_neg hg] at htimes
    have hrest := busLookup_timedOutAt hr hidle hlate
    refine ⟨_, (exec_mcastTimeout hup).trans (congrArg _ htimes), ⟨?_, ?_, ?_⟩, fun h => absurd h hg, fun _ hfull => ?_,
      fun _ hwhole hfree => busLookup_timedOut_zeros hr hidle hlate hwhole hfree⟩
    · rw [hrest]
    · rw [hrest]
    · rw [hrest]
      exact hstores
    · rw [busLookup_timedOut_full hr hfull]
      exact ⟨(busQ_timedOutAt hr).1, hcores⟩

end

/-- Settles O34: a feeder's one access, a request's lookup and its timeout, and at a line or a header the one way that the
request's slot takes. -/
theorem feedersAndBus : Obligations.FeedersAndBus := by
  intro s d q i hup
  refine ⟨fun f fs a hfeeds ha => ⟨fun hroom hslot hport => ?_, fun hwait => ?_⟩,
    fun r hr hidle => ⟨fun w hopen hlate hres hfree => ⟨busRequestLookup_takes hup hr hidle hopen hlate hres hfree,
      busRequestLookup_rejects hup hr hidle hopen hlate hres hfree⟩, fun hwait => ?_, fun hopen hres hdue => ?_⟩,
    fun r w hr hact hopen hfound hlatent => ⟨fun hgacc hchecked hwin line hline => ?_,
      fun hgacc hchecked hwin p hp hlines htotal => ?_, fun hgacc hlose => ?_, fun hgacc hempty hdue hfree hslot => ?_,
      fun data hgacc hbuf hwin => ?_⟩⟩
  · subst ha
    exact afeedAccessIssue_runs hup hfeeds hroom hslot hport
  · subst ha
    exact (exec_afeedAccessIssue hup).trans (congrArg _ (afeedIssue_waits hfeeds hwait))
  · exact (exec_busRequestLookup hup).trans (congrArg _ (busLookup_waits hr hwait))
  · obtain ⟨t, hrun, ⟨hreports, hregs, hstores⟩, hgone, hfull, hzeros⟩ := mcastTimeout_runs hup hr hidle hopen hres hdue
    have hraises := raises_timeoutNoted s d r
    rw [Raises, ← hreports] at hraises
    refine ⟨t, hrun, ⟨[], _, hraises.trans (by rw [List.append_nil]; rfl)⟩, fun hn => ?_, fun j w hn hj hw hst => ?_, ?_, hstores,
      hgone, hfull, hzeros⟩
    · rw [fallsShort_none hn] at hraises
      exact hraises
    · rw [fallsShort_some hn hj hw hst] at hraises
      exact hraises
    · rw [fld_of_regs hregs, fld_timeoutNoted]
  · subst hline
    have hserve := busServe_line hr hact hopen hfound hgacc hlatent hwin hchecked
    obtain ⟨hcore, hin, hstage, hstores, hmore, hlast, hused⟩ := giveLine_gives (d := d) (r := r) (beat := s.beat d + 4)
      (bytes := if r.zero then zeroLine else spread (s.peek (lineOf r w r.served).1 (lineOf r w r.served).2))
      (laneUsed s d r w) i (nextSlot r w (s.beat d)).1
    rw [laneUsed, State.die_setDie_same] at hin hmore hlast hused
    exact ⟨_, (exec_busLineServe hup).trans (congrArg _ hserve), hcore, hin, hstage, hstores, hmore, hlast, hused (by simp)⟩
  · have hserve := busServe_header hr hact hopen hfound hgacc hlatent hwin hchecked hp hlines htotal
    refine ⟨_, (exec_busLineServe hup).trans (congrArg _ hserve), ?_, fun p' => ?_, fun hc => ⟨?_, ?_⟩, fun hc => ⟨?_, fun p' hn => ?_⟩, ?_⟩
    · have hdie : (planNoted (laneUsed s d r w) d r p.cause).die d = _ :=
        (by rw [planNoted_rest]; rfl : _ = (laneUsed s d r w).die d).trans (State.die_setDie_same s d _)
      rw [busQ_setReq, die_eachSub, hdie]
    · rw [setReq, State.core_setDie, core_eachSub, planNoted_rest]
      split <;> rfl
    · rw [setReq, eachSub_rest, hc, planNoted_zero]
      exact raises_of_reports rfl
    · rw [setReq, eachSub_rest, hc, planNoted_zero]
      rfl
    · rw [setReq, eachSub_rest]
      exact raises_planNoted (laneUsed s d r w) hc
    · rw [setReq, eachSub_rest]
      exact fld_planNoted (laneUsed s d r w) hc hn
    · rw [setReq, eachSub_rest, planNoted_rest]
      exact storesKept_refl s
  · exact (exec_busLineServe hup).trans (congrArg _ (busServe_loses hr hact hopen hfound hgacc hlose))
  · refine ⟨_, (exec_gaccLineAccumulate hup).trans (congrArg _ (gaccLine_reads hr hact hfound hgacc hlatent hempty hdue hfree hslot)), ?_,
      storesKept_refl s, rfl, rfl⟩
    rw [busQ_setReq, die_useSlot]
  · have hdie : (lineAccumulated s d r w data).die d = _ := State.die_setDie_same s d _
    have hacc := gaccLine_accumulates hr hact hfound hgacc hbuf hwin
    by_cases hlast : r.served + 1 = r.total
    · rw [if_pos hlast] at hacc
      refine ⟨_, (exec_gaccLineAccumulate hup).trans (congrArg _ hacc), ?_, ?_, ?_, ?_, fun hc => absurd hlast hc, fun _ => ?_⟩
      · rw [effects_endPasses, effects_dropReq, hdie]
      · rw [rmws_endPasses, rmws_dropReq, hdie]
        exact List.mem_append_right _ List.mem_cons_self
      · rw [endPasses_rest]
        exact storesKept_refl s
      · rw [endPasses_rest]
        rfl
      · rw [busQ_endPasses, busQ_dropReq, hdie]
    · rw [if_neg hlast] at hacc
      refine ⟨_, (exec_gaccLineAccumulate hup).trans (congrArg _ hacc), ?_, ?_, storesKept_refl s, rfl, fun _ => ?_, fun hc => absurd hc hlast⟩
      · rw [effects_setReq, hdie]
      · rw [rmws_setReq, hdie]
        exact List.mem_append_right _ List.mem_cons_self
      · rw [busQ_setReq, hdie]

end Sys2Proof.Machine
end

section
/-! ### Writes that reach a register's own rule -/

namespace Sys2Proof.Machine

/-- Bits hi to lo of a word are its bits hi to mid + 1 above its bits mid to lo. -/
theorem bitsOf_split (w : Word) {hi mid lo : Nat} (h : lo ≤ mid) (h' : mid ≤ hi) :
    bitsOf w hi lo = bitsOf w mid lo + 2 ^ (mid + 1 - lo) * bitsOf w hi (mid + 1) := by
  have hpow : 2 ^ (hi + 1 - lo) = 2 ^ (mid + 1 - lo) * 2 ^ (hi + 1 - (mid + 1)) := by
    rw [← pow_add]
    congr 1
    omega
  have hdiv : w.toNat / 2 ^ lo / 2 ^ (mid + 1 - lo) = w.toNat / 2 ^ (mid + 1) := by
    rw [Nat.div_div_eq_div_mul, ← pow_add, show lo + (mid + 1 - lo) = mid + 1 by omega]
  rw [bitsOf, hpow, Nat.mod_mul, hdiv, bitsOf, bitsOf]

theorem bitsOf_or_one_high (v : Word) (hi lo : Nat) (h : 0 < lo) : bitsOf (v ||| 1) hi lo = bitsOf v hi lo := by
  obtain ⟨k, rfl⟩ : ∃ k, lo = k + 1 := ⟨lo - 1, by omega⟩
  have hone : (1 : Nat) / 2 ^ (k + 1) = 0 := Nat.div_eq_of_lt (Nat.one_lt_two_pow (by omega))
  have hto : (v ||| 1).toNat = v.toNat ||| 1 := by simp
  rw [bitsOf, hto, ← Nat.shiftRight_eq_div_pow, Nat.shiftRight_or_distrib, Nat.shiftRight_eq_div_pow, Nat.shiftRight_eq_div_pow,
    hone, Nat.or_zero, bitsOf]

theorem bitsOf_or_one_low (v : Word) : bitsOf (v ||| 1) 0 0 = 1 := by
  have hto : (v ||| 1).toNat = v.toNat ||| 1 := by simp
  rw [bitsOf, hto]
  simp

section
variable {s : State} {r : Reg} {v : Word}

/-- A register whose fields are all basic, and whose block is not unlocked through it. -/
def Reg.Basic (r : Reg) : Prop := (∀ f ∈ r.fields, f.level = .basic) ∧ r.unlock ≠ some r

/-- A write to a basic register does what the register's own rule says. -/
theorem privWrite_done (h : WriteReady s r) (hb : r.Basic) {t : State} (ho : ownWrite s r (writtenWord s r v) = some t) :
    privWrite s r v = t := by
  obtain ⟨hbasic, hunlock⟩ := hb
  rw [privWrite_ready h, writeReg_done h.2.2 (fun _ => ?_) ho, unlockRecord_other hunlock]
  exact writesExpert_eq_false fun f hf hl => absurd (hbasic f hf) (by rw [hl]; decide)

theorem privWrite_refused (h : WriteReady s r) (ho : ownWrite s r (writtenWord s r v) = none) : privWrite s r v = s.raise (rejected r) :=
  (privWrite_ready h v).trans (writeReg_refused h.2.2 ho)

end

theorem basic_rwinA (w : Fin 64) : (Reg.dmaRwinA w).Basic := ⟨by decide +revert, by simp [Reg.unlock, Reg.block]⟩
theorem basic_rimpA (i : Fin 16) : (Reg.dmaRimpA i).Basic := ⟨by decide +revert, by simp [Reg.unlock, Reg.block]⟩

/-- A register with no write-only field merges into its whole word. -/
theorem and_not_woMask_none {r : Reg} (w : Word) (h : woMask r = 0) : w &&& ~~~(woMask r) = w := by
  rw [h]
  exact BitVec.and_allOnes

theorem writtenWord_rwinA (s : State) (w : Fin 64) (v : Word) :
    writtenWord s (.dmaRwinA w) v = mergeWord (.dmaRwinA w) (s.reg (.dmaRwinA w)) v true :=
  congrArg (mergeWord _ · v true) (and_not_woMask_none _ (by decide +revert))

theorem writtenWord_rimpA (s : State) (i : Fin 16) (v : Word) :
    writtenWord s (.dmaRimpA i) v = mergeWord (.dmaRimpA i) (s.reg (.dmaRimpA i)) v true :=
  congrArg (mergeWord _ · v true) (and_not_woMask_none _ (by decide +revert))

end Sys2Proof.Machine
end

section
/-! ### Remote windows at their source (R285, R286, R288, R299) -/

namespace Sys2Proof.Machine

section
variable {s : State} {w : Fin 64} {v : Word}

/-- The write of OPEN = 1 in CLOSED, with valid fields (R286). -/
theorem writeWindowA_open (hst : bitsOf (s.reg (.dmaRwinA w)) 63 61 = 0) (hopen : bitsOf v 0 0 = 1) (hok : openFieldsOk s w v = true) :
    writeWindowA w v s = some (openWindow s w v) := by
  simp [writeWindowA, hst, hopen, hok]

/-- The write of OPEN = 0, the other fields as they are, in OPEN (R286). -/
theorem writeWindowA_close (hst : bitsOf (s.reg (.dmaRwinA w)) 63 61 = 2) (hopen : bitsOf v 0 0 = 0)
    (hsame : bitsOf v 59 38 = bitsOf (s.reg (.dmaRwinA w)) 59 38) :
    writeWindowA w v s = some (closeWindow (s.setReg (.dmaRwinA w) (putBits (putBits (s.reg (.dmaRwinA w)) 63 61 4) 0 0 0)) w) := by
  simp [writeWindowA, hst, hopen, hsame]

/-- The write of OPEN = 0, the other fields as they are, in REFUSED or LOST (R286). -/
theorem writeWindowA_clear (hst : bitsOf (s.reg (.dmaRwinA w)) 63 61 = 3 ∨ bitsOf (s.reg (.dmaRwinA w)) 63 61 = 5) (hopen : bitsOf v 0 0 = 0)
    (hsame : bitsOf v 59 38 = bitsOf (s.reg (.dmaRwinA w)) 59 38) :
    writeWindowA w v s = some (s.setReg (.dmaRwinA w) (putBits (putBits (s.reg (.dmaRwinA w)) 63 61 0) 0 0 0)) := by
  rcases hst with hst | hst <;> simp [writeWindowA, hst, hopen, hsame]

/-- The write of OPEN = 0, the other fields as they are, in OPENING (R286). -/
theorem writeWindowA_opening (hst : bitsOf (s.reg (.dmaRwinA w)) 63 61 = 1) (hopen : bitsOf v 0 0 = 0)
    (hsame : bitsOf v 59 38 = bitsOf (s.reg (.dmaRwinA w)) 59 38) : writeWindowA w v s = none := by
  simp [writeWindowA, hst, hopen, hsame]

theorem now_setRwinA (s : State) (w : Fin 64) (v : Word) : (s.setReg (.dmaRwinA w) v).now = s.now :=
  now_of_regsKept (regsKept_setReg s v List.mem_cons_self) (L := [.dmaRwinA w]) (by simp)

theorem inArc_setRwinA (s : State) (w : Fin 64) (v : Word) (pos : Nat) : inArc (s.setReg (.dmaRwinA w) v) pos = inArc s pos := by
  simp [inArc, liveMembers, ringSize, State.fld_setReg_ne]

/-- An opening towards a position of the module's own arc sends its request (R286, R288). -/
theorem openWindow_sends (hring : bitsOf v 59 58 < 2) (harc : inArc s (bitsOf v 49 41) = true) :
    openWindow s w v = { s.setReg (.dmaRwinA w) (putBits v 63 61 1) with
      windowSince := s.windowSince.put w s.now
      remoteOut := s.remoteOut ++ [{ RemotePkt.blank .openReq with
        route := bitsOf v 59 58, win := w.val, srcRing := s.ringId, srcPos := s.position
        tgtRing := bitsOf v 40 38, tgtPos := bitsOf v 49 41, addr := bitsOf (s.reg (.dmaRwinB w)) 47 0
        job := bitsOf (s.reg .circArc) 63 48, perm := bitsOf v 57 55, size := bitsOf v 54 50 }] } := by
  simp only [openWindow, hring, if_true, inArc_setRwinA, harc, Bool.true_eq_false, if_false]
  simp [State.ringId, State.position, State.fld_setReg_ne, State.reg_setReg_ne, now_setRwinA]

/-- One towards another position is refused at the source (R286, R288). -/
theorem openWindow_refused (hring : bitsOf v 59 58 < 2) (harc : inArc s (bitsOf v 49 41) = false) :
    openWindow s w v = refuseWindow (s.setReg (.dmaRwinA w) (putBits v 63 61 1)) w := by
  simp only [openWindow, hring, if_true, inArc_setRwinA, harc]

theorem raises_refuseWindow (s : State) (w : Fin 64) : Raises s (refuseWindow s w) [Report.plain .windowRefused 2 0 .dma 0] :=
  raises_raise_of (State.setFld_reports s _ _ _) (now_setRwinA s w _) _

theorem state_refuseWindow (s : State) (w : Fin 64) : (refuseWindow s w).fld (.dmaRwinA w) F.dmaRwinA_STATE = 3 :=
  (State.fld_setFld_same s (.dmaRwinA w) F.dmaRwinA_STATE 3 (by decide)).trans rfl

/-- WINDOW_OPEN of a CLOSED window with valid fields (R286). -/
theorem windowOpen_opens (h : WriteReady s (.dmaRwinA w)) (hst : s.fld (.dmaRwinA w) F.dmaRwinA_STATE = 0)
    (hok : openFieldsOk s w (mergeWord (.dmaRwinA w) (s.reg (.dmaRwinA w)) (v ||| 1) true) = true) :
    exec (.windowOpen w v) s = .next (openWindow s w (writtenWord s (.dmaRwinA w) (v ||| 1))) := by
  rw [← writtenWord_rwinA] at hok
  have hopen : bitsOf (writtenWord s (.dmaRwinA w) (v ||| 1)) 0 0 = 1 :=
    (bitsOf_writtenWord_rw (r := .dmaRwinA w) (f := F.dmaRwinA_OPEN) (by simp [Reg.fields]) s _ rfl).trans (bitsOf_or_one_low v)
  exact congrArg Host.Outcome.next (privWrite_done h (basic_rwinA w) (writeWindowA_open hst hopen hok))

/-- A field of the word that WINDOW_OPEN writes is that of its operand. -/
theorem bitsOf_openWord (s : State) (w : Fin 64) (v : Word) {f : Fld} (hf : f ∈ (Reg.dmaRwinA w).fields) (hrw : f.access = .rw)
    (hlo : 0 < f.lo) : bitsOf (writtenWord s (.dmaRwinA w) (v ||| 1)) f.hi f.lo = bitsOf v f.hi f.lo :=
  (bitsOf_writtenWord_rw hf s _ hrw).trans (bitsOf_or_one_high v _ _ hlo)

/-- The fields that a close leaves as they are, taken together (R286). -/
theorem bitsOf_closeWord (s : State) (w : Fin 64) :
    bitsOf (fieldWritten s (.dmaRwinA w) F.dmaRwinA_OPEN 0) 59 38 = bitsOf (s.reg (.dmaRwinA w)) 59 38 := by
  have kept (f : Fld) (hf : f ∈ (Reg.dmaRwinA w).fields) (hne : f ≠ F.dmaRwinA_OPEN) (hwo : f.access ≠ .wo) :
      bitsOf (fieldWritten s (.dmaRwinA w) F.dmaRwinA_OPEN 0) f.hi f.lo = bitsOf (s.reg (.dmaRwinA w)) f.hi f.lo :=
    bitsOf_fieldWritten_kept s 0 (by simp [Reg.fields]) hf hne hwo
  have hroute := kept F.dmaRwinA_ROUTE (by simp [Reg.fields]) (by decide) (by decide)
  have hperm := kept F.dmaRwinA_PERM (by simp [Reg.fields]) (by decide) (by decide)
  have hsize := kept F.dmaRwinA_SIZE (by simp [Reg.fields]) (by decide) (by decide)
  have hpos := kept F.dmaRwinA_TARGET_POS (by simp [Reg.fields]) (by decide) (by decide)
  have hring := kept F.dmaRwinA_TARGET_RING (by simp [Reg.fields]) (by decide) (by decide)
  have joined (u : Word) : bitsOf u 59 38 = bitsOf u 40 38 + 2 ^ 3 * (bitsOf u 49 41 + 2 ^ 9 * (bitsOf u 54 50 + 2 ^ 5 *
      (bitsOf u 57 55 + 2 ^ 3 * bitsOf u 59 58))) := by
    rw [bitsOf_split u (mid := 40) (by decide) (by decide), bitsOf_split u (hi := 59) (mid := 49) (lo := 40 + 1) (by decide) (by decide),
      bitsOf_split u (hi := 59) (mid := 54) (lo := 49 + 1) (by decide) (by decide),
      bitsOf_split u (hi := 59) (mid := 57) (lo := 54 + 1) (by decide) (by decide)]
  rw [joined, joined (s.reg _)]
  exact congrArg₂ _ hring (congrArg _ (congrArg₂ _ hpos (congrArg _ (congrArg₂ _ hsize (congrArg _ (congrArg₂ _ hperm
    (congrArg _ hroute)))))))

theorem bitsOf_closeWord_open (s : State) (w : Fin 64) : bitsOf (fieldWritten s (.dmaRwinA w) F.dmaRwinA_OPEN 0) 0 0 = 0 :=
  bitsOf_fieldWritten_same (f := F.dmaRwinA_OPEN) s 0 (by simp [Reg.fields]) rfl

/-- WINDOW_CLOSE does what its write does (R286). -/
theorem windowClose_done (h : WriteReady s (.dmaRwinA w)) {t : State}
    (ho : writeWindowA w (fieldWritten s (.dmaRwinA w) F.dmaRwinA_OPEN 0) s = some t) : exec (.windowClose w) s = .next t := by
  have hrun := setFields_done (f := F.dmaRwinA_OPEN) s 0 (by simp [Reg.fields]) rfl h (.inl rfl) ho
  rw [unlockRecord_other (basic_rwinA w).2] at hrun
  exact congrArg Host.Outcome.next hrun

theorem regsKept_closeWindow (s : State) (w : Fin 64) : RegsKept [.dmaRwinA w] s (closeWindow s w) := by
  rw [closeWindow]
  split
  · exact regsKept_setFld s _ _ List.mem_cons_self
  · exact regsKept_refl s _

/-- A CLOSING window closes when nothing is left in flight (R286). -/
theorem state_closeWindow (h : s.fld (.dmaRwinA w) F.dmaRwinA_STATE = 4) :
    (closeWindow s w).fld (.dmaRwinA w) F.dmaRwinA_STATE = if windowBusy s w then 4 else 0 := by
  rw [closeWindow]
  cases hb : windowBusy s w with
  | true => simpa using h
  | false => simpa [h] using State.fld_setFld_same s (.dmaRwinA w) F.dmaRwinA_STATE 0 (by decide)

theorem state_setRwinA (s : State) (w : Fin 64) (v : Word) (k : Nat) :
    (s.setReg (.dmaRwinA w) (putBits (putBits v 63 61 k) 0 0 0)).fld (.dmaRwinA w) F.dmaRwinA_STATE = k % 8 := by
  rw [State.fld, State.reg_setReg_same]
  exact (bitsOf_putBits_apart _ _ _ _ _ _ (.inr (by decide))).trans (bitsOf_putBits_same _ _ _ _ (by decide))

/-! ### The clauses of a window at its source -/

theorem windowOpen_sends (h : WriteReady s (.dmaRwinA w)) (hst : s.fld (.dmaRwinA w) F.dmaRwinA_STATE = 0)
    (hok : openFieldsOk s w (mergeWord (.dmaRwinA w) (s.reg (.dmaRwinA w)) (v ||| 1) true) = true) (hring : bitsOf v 59 58 < 2)
    (harc : inArc s (bitsOf v 49 41) = true) :
    Runs (.windowOpen w v) s fun t => t.fld (.dmaRwinA w) F.dmaRwinA_STATE = 1
        ∧ t.fld (.dmaRwinA w) F.dmaRwinA_OPEN = 1 ∧ t.windowSince.at_ 0 w = s.now ∧ Raises s t [] ∧ RegsKept [.dmaRwinA w] s t
        ∧ ∃ r, t.remoteOut = s.remoteOut ++ [r] ∧ r.kind = .openReq ∧ r.tgtPos = bitsOf v 49 41
            ∧ r.addr = bitsOf (s.reg (.dmaRwinB w)) 47 0 ∧ r.size = bitsOf v 54 50 ∧ r.perm = bitsOf v 57 55 := by
  have hroute := bitsOf_openWord s w v (f := F.dmaRwinA_ROUTE) (by simp [Reg.fields]) rfl (by decide)
  have hpos := bitsOf_openWord s w v (f := F.dmaRwinA_TARGET_POS) (by simp [Reg.fields]) rfl (by decide)
  have hsize := bitsOf_openWord s w v (f := F.dmaRwinA_SIZE) (by simp [Reg.fields]) rfl (by decide)
  have hperm := bitsOf_openWord s w v (f := F.dmaRwinA_PERM) (by simp [Reg.fields]) rfl (by decide)
  have hopen : bitsOf (writtenWord s (.dmaRwinA w) (v ||| 1)) 0 0 = 1 :=
    (bitsOf_writtenWord_rw (r := .dmaRwinA w) (f := F.dmaRwinA_OPEN) (by simp [Reg.fields]) s _ rfl).trans (bitsOf_or_one_low v)
  have hsends := openWindow_sends (s := s) (w := w) (v := writtenWord s (.dmaRwinA w) (v ||| 1)) (hroute.trans_lt hring)
    ((congrArg (inArc s) hpos).trans harc)
  refine ⟨_, windowOpen_opens h hst hok, ?_⟩
  rw [hsends]
  refine ⟨?_, ?_, Assoc.at_put_same .., raises_of_reports rfl, regsKept_setReg s _ List.mem_cons_self, _, rfl, rfl, hpos, rfl, hsize, hperm⟩
  · exact (congrArg (bitsOf · 63 61) (State.reg_setReg_same ..)).trans (bitsOf_putBits_same _ _ _ _ (by decide))
  · exact (congrArg (bitsOf · 0 0) (State.reg_setReg_same ..)).trans ((bitsOf_putBits_apart _ _ _ _ _ _ (.inl (by decide))).trans hopen)

theorem windowOpen_refused (h : WriteReady s (.dmaRwinA w)) (hst : s.fld (.dmaRwinA w) F.dmaRwinA_STATE = 0)
    (hok : openFieldsOk s w (mergeWord (.dmaRwinA w) (s.reg (.dmaRwinA w)) (v ||| 1) true) = true) (hring : bitsOf v 59 58 < 2)
    (harc : inArc s (bitsOf v 49 41) = false) :
    Runs (.windowOpen w v) s fun t => t.fld (.dmaRwinA w) F.dmaRwinA_STATE = 3
        ∧ Raises s t [Report.plain .windowRefused 2 0 .dma 0] ∧ t.remoteOut = s.remoteOut := by
  have hroute := bitsOf_openWord s w v (f := F.dmaRwinA_ROUTE) (by simp [Reg.fields]) rfl (by decide)
  have hpos := bitsOf_openWord s w v (f := F.dmaRwinA_TARGET_POS) (by simp [Reg.fields]) rfl (by decide)
  have hrefused := openWindow_refused (s := s) (w := w) (v := writtenWord s (.dmaRwinA w) (v ||| 1)) (hroute.trans_lt hring)
    ((congrArg (inArc s) hpos).trans harc)
  refine ⟨_, windowOpen_opens h hst hok, ?_⟩
  rw [hrefused]
  exact ⟨state_refuseWindow .., raises_trans (raises_of_reports (State.setReg_reports s _ _)) (raises_refuseWindow _ w) (now_setRwinA s w _), rfl⟩

/-- A reply, or its absence, in OPENING (R286). -/
theorem window_replies (hst : s.fld (.dmaRwinA w) F.dmaRwinA_STATE = 1) :
    (Runs (.windowOpenReply w true) s fun t => t.fld (.dmaRwinA w) F.dmaRwinA_STATE = 2 ∧ RegsKept [.dmaRwinA w] s t ∧ Raises s t []) ∧
    (Runs (.windowOpenReply w false) s fun t => t.fld (.dmaRwinA w) F.dmaRwinA_STATE = 3
        ∧ Raises s t [Report.plain .windowRefused 2 0 .dma 0]) ∧
    (s.windowSince.at_ 0 w + 100000 ≤ s.now → Runs (.windowOpenTimeout w) s fun t => t.fld (.dmaRwinA w) F.dmaRwinA_STATE = 3
        ∧ Raises s t [Report.plain .windowRefused 2 0 .dma 0]) ∧
    (s.now < s.windowSince.at_ 0 w + 100000 → exec (.windowOpenTimeout w) s = .next s) := by
  have hrefuse : (refuseWindow s w).fld (.dmaRwinA w) F.dmaRwinA_STATE = 3 ∧
      Raises s (refuseWindow s w) [Report.plain .windowRefused 2 0 .dma 0] := ⟨state_refuseWindow s w, raises_refuseWindow s w⟩
  refine ⟨⟨_, congrArg Host.Outcome.next (if_pos hst), ?_⟩, ⟨_, congrArg Host.Outcome.next (if_pos hst), hrefuse⟩,
    fun hlate => ⟨_, congrArg Host.Outcome.next (if_pos ⟨hst, hlate⟩), hrefuse⟩,
    fun hsoon => congrArg Host.Outcome.next (if_neg fun h => absurd h.2 (by omega))⟩
  exact ⟨State.fld_setFld_same s _ _ 2 (by decide), regsKept_setFld s _ _ List.mem_cons_self, raises_of_reports (State.setFld_reports ..)⟩

/-- A close, in each state of the window (R286). -/
theorem window_closes (h : WriteReady s (.dmaRwinA w)) :
    (s.fld (.dmaRwinA w) F.dmaRwinA_STATE = 2 → Runs (.windowClose w) s fun t =>
        t.fld (.dmaRwinA w) F.dmaRwinA_STATE = (if windowBusy s w then 4 else 0) ∧ RegsKept [.dmaRwinA w] s t) ∧
    (s.fld (.dmaRwinA w) F.dmaRwinA_STATE = 3 ∨ s.fld (.dmaRwinA w) F.dmaRwinA_STATE = 5 → Runs (.windowClose w) s fun t =>
        t.fld (.dmaRwinA w) F.dmaRwinA_STATE = 0 ∧ RegsKept [.dmaRwinA w] s t) ∧
    (s.fld (.dmaRwinA w) F.dmaRwinA_STATE = 1 → Rejects (.windowClose w) s (.dmaRwinA w)) := by
  have hopen := bitsOf_closeWord_open s w
  have hsame := bitsOf_closeWord s w
  refine ⟨fun hst => ⟨_, windowClose_done h (writeWindowA_close hst hopen hsame), ?_, ?_⟩,
    fun hst => ⟨_, windowClose_done h (writeWindowA_clear hst hopen hsame), state_setRwinA s w _ 0, ?_⟩,
    fun hst => congrArg Host.Outcome.next (setFields_refused h (writeWindowA_opening hst hopen hsame))⟩
  · exact state_closeWindow (state_setRwinA s w _ 4)
  · exact regsKept_trans (regsKept_setReg s _ List.mem_cons_self) (regsKept_closeWindow _ w)
  · exact regsKept_setReg s _ List.mem_cons_self

end

end Sys2Proof.Machine
end

section
/-! ### Imports (R287, R300) -/

namespace Sys2Proof.Machine

section
variable {s : State}

/-- The request whose window and source the command names. -/
def openReqOf (s : State) (ring pos : Nat) (win : Fin 64) (route : Fin 4) (base size perm job : Nat) : RemotePkt :=
  { RemotePkt.blank .openReq with
      srcRing := ring, srcPos := pos, win := win.val, route := route.val, tgtRing := s.ringId, tgtPos := s.position, addr := base,
      size := size, perm := perm, job := job }

theorem openRequest_accepted {p : RemotePkt} {i : Fin 16}
    (h : (List.finRange 16).find? (fun i => pathAllowed s p && importAccepts s i p) = some i) :
    openRequest p s = { s with
      accepted := s.accepted.filter (fun e => !(e.2.srcRing == p.srcRing && e.2.srcPos == p.srcPos && e.2.win == p.win)) ++ [(i, p)]
      remoteOut := s.remoteOut ++ [{ p.back with kind := .openRsp, status := 0 }] } := by
  rw [openRequest, h]

theorem openRequest_refused {p : RemotePkt} (h : (∀ i, importAccepts s i p = false) ∨ pathAllowed s p = false) :
    openRequest p s = { s with remoteOut := s.remoteOut ++ [{ p.back with kind := .openRsp, status := 1 }] } := by
  have hnone : (List.finRange 16).find? (fun i => pathAllowed s p && importAccepts s i p) = none := by
    refine List.find?_eq_none.mpr fun i _ => ?_
    rcases h with h | h <;> simp [h]
  rw [openRequest, hnone]

theorem pathAllowed_eq_false {ring pos : Nat} {win : Fin 64} {route : Fin 4} {base size perm job : Nat} (hroute : route.val < 2)
    (h : ring ≠ s.ringId ∨ inArc s pos = false) : pathAllowed s (openReqOf s ring pos win route base size perm job) = false := by
  have hring : ¬ 2 ≤ (openReqOf s ring pos win route base size perm job).route := Nat.not_le.mpr hroute
  simp only [pathAllowed, hring, decide_false, Bool.false_or, Bool.and_eq_false_iff]
  exact h.imp_left fun h => beq_eq_false_iff_ne.mpr h

/-- A write of an import with a valid stretch revokes what it covered (R300). -/
theorem writeImportA_revokes {i : Fin 16} {v : Word} (hlo : 12 ≤ bitsOf v 59 55) (hhi : bitsOf v 59 55 ≤ 26)
    (halign : bitsOf v 47 0 % 2 ^ bitsOf v 59 55 = 0) :
    writeImportA i v s = some ((revokeImport s i).setReg (.dmaRimpA i) v) :=
  if_neg fun ⟨_, hbad⟩ => by omega

theorem writeImportA_short {i : Fin 16} {v : Word} (hvalid : bitsOf v 63 63 = 1) (hlo : bitsOf v 59 55 < 12) :
    writeImportA i v s = none := if_pos ⟨hvalid, .inl hlo⟩

/-- A field of the word that RIMP_WRITE hands to the import's rule. -/
theorem bitsOf_importWord (s : State) (i : Fin 16) (v : Word) {f : Fld} (hf : f ∈ (Reg.dmaRimpA i).fields) (hrw : f.access = .rw) :
    bitsOf (writtenWord s (.dmaRimpA i) v) f.hi f.lo = bitsOf v f.hi f.lo := bitsOf_writtenWord_rw hf s v hrw

theorem import_writes (i : Fin 16) (v : Word) (h : WriteReady s (.dmaRimpA i)) :
    (bitsOf v 63 63 = 1 → 12 ≤ bitsOf v 59 55 → bitsOf v 59 55 ≤ 26 → bitsOf v 47 0 % 2 ^ bitsOf v 59 55 = 0 →
        Runs (.rimpWrite i false v) s fun t => t.reg (.dmaRimpA i) = mergeWord (.dmaRimpA i) (s.reg (.dmaRimpA i)) v true
          ∧ t.accepted = s.accepted.filter (fun e => !(e.1 == i || importAccepts s i e.2))
          ∧ t.remoteOut = s.remoteOut ++ (s.accepted.filter (fun e => e.1 == i || importAccepts s i e.2)).map (fun e =>
              { e.2.back with kind := .revoke })
          ∧ RegsKept [.dmaRimpA i] s t) ∧
    (bitsOf v 63 63 = 1 → bitsOf v 59 55 < 12 → Rejects (.rimpWrite i false v) s (.dmaRimpA i)) := by
  have hsize := bitsOf_importWord s i v (f := F.dmaRimpA_SIZE) (by simp [Reg.fields]) rfl
  have hbase := bitsOf_importWord s i v (f := F.dmaRimpA_BASE) (by simp [Reg.fields]) rfl
  have hvalid := bitsOf_importWord s i v (f := F.dmaRimpA_VALID) (by simp [Reg.fields]) rfl
  change bitsOf (writtenWord s (.dmaRimpA i) v) 59 55 = bitsOf v 59 55 at hsize
  change bitsOf (writtenWord s (.dmaRimpA i) v) 47 0 = bitsOf v 47 0 at hbase
  refine ⟨fun _ hlo hhi halign => ?_, fun hv hlo => ?_⟩
  · rw [← hsize] at hlo hhi halign
    rw [← hbase] at halign
    have hown := writeImportA_revokes (s := s) (i := i) hlo hhi halign
    refine ⟨_, congrArg Host.Outcome.next (privWrite_done h (basic_rimpA i) hown), ?_, rfl, rfl, regsKept_setReg s _ List.mem_cons_self⟩
    rw [State.reg_setReg_same, writtenWord_rimpA]
  · exact congrArg Host.Outcome.next (privWrite_refused h (writeImportA_short (hvalid.trans hv) (hsize.trans_lt hlo)))

theorem window_requests (ring pos : Nat) (win : Fin 64) (route : Fin 4) (base size perm job : Nat) (p : RemotePkt)
    (hp : p = openReqOf s ring pos win route base size perm job) :
    (∀ i, (List.finRange 16).find? (fun i => pathAllowed s p && importAccepts s i p) = some i →
        Runs (.windowOpenRequest ring pos (win, route) base size perm job) s fun t =>
          t.accepted = s.accepted.filter (fun e => !(e.2.srcRing == ring && e.2.srcPos == pos && e.2.win == win.val)) ++ [(i, p)]
          ∧ t.remoteOut = s.remoteOut ++ [{ p.back with kind := .openRsp, status := 0 }] ∧ t.regs = s.regs ∧ t.mem = s.mem) ∧
    ((∀ i, importAccepts s i p = false) ∨ (route.val < 2 ∧ (ring ≠ s.ringId ∨ inArc s pos = false)) →
        Runs (.windowOpenRequest ring pos (win, route) base size perm job) s fun t => t.accepted = s.accepted
          ∧ t.remoteOut = s.remoteOut ++ [{ p.back with kind := .openRsp, status := 1 }] ∧ t.regs = s.regs ∧ t.mem = s.mem) := by
  subst hp
  refine ⟨fun i hi => ⟨_, congrArg Host.Outcome.next (openRequest_accepted hi), rfl, rfl, rfl, rfl⟩, fun hno => ?_⟩
  have hno := hno.imp_right fun ⟨hroute, harc⟩ => pathAllowed_eq_false (win := win) (base := base) (size := size) (perm := perm)
    (job := job) hroute harc
  exact ⟨_, congrArg Host.Outcome.next (openRequest_refused hno), rfl, rfl, rfl, rfl⟩

end

end Sys2Proof.Machine
end

section
/-! ### What a descriptor puts on its way (R277, R289) -/

namespace Sys2Proof.Machine

/-- What a reflexive and transitive relation says of each step of a fold it says of the fold. -/
theorem foldl_relates {α : Type} {R : State → State → Prop} (hrefl : ∀ s, R s s) (htrans : ∀ s t u, R s t → R t u → R s u)
    {f : State → α → State} (l : List α) (hf : ∀ t, ∀ a ∈ l, R t (f t a)) (s : State) : R s (l.foldl f s) := by
  induction l generalizing s with
  | nil => exact hrefl s
  | cons a l ih => exact htrans _ _ _ (hf s a List.mem_cons_self) (ih (fun t b hb => hf t b (List.mem_cons_of_mem _ hb)) _)

/-- What each step of a fold establishes for its element, and the later steps keep, holds at its end for every element. -/
theorem foldl_establishes {α : Type} {R : State → State → Prop} (hrefl : ∀ s, R s s) (htrans : ∀ s t u, R s t → R t u → R s u)
    {f : State → α → State} {P : α → State → Prop} (hf : ∀ t a, R t (f t a)) (hP : ∀ t a, P a (f t a))
    (hkept : ∀ a t u, P a t → R t u → P a u) (l : List α) (s : State) : ∀ a ∈ l, P a (l.foldl f s) := by
  induction l generalizing s with
  | nil => simp
  | cons b l ih =>
    have hb := hkept b (f s b) _ (hP s b) (foldl_relates hrefl htrans l (fun t a _ => hf t a) _)
    exact List.forall_mem_cons.mpr ⟨hb, ih (f s b)⟩

/-- From s to t only dies and DMAs have changed: accesses and transactions of a die have joined the others, every queue is as
it was, and the running descriptors are those of the same posts. -/
structure Moved (d : Die) (s t : State) : Prop where
  rest : ∃ dies dmas, t = { s with dies := dies, dmas := dmas }
  accs : (s.die d).accs ⊆ (t.die d).accs
  txns : (s.die d).txns ⊆ (t.die d).txns
  queues : ∀ e c, (t.dma e c).queue = (s.dma e c).queue
  posts : ∀ e c, (t.dma e c).active.map Running.post = (s.dma e c).active.map Running.post

section
variable {d : Die} {s t u : State}

theorem moved_refl (d : Die) (s : State) : Moved d s s := ⟨⟨_, _, rfl⟩, fun _ h => h, fun _ h => h, fun _ _ => rfl, fun _ _ => rfl⟩

theorem moved_trans (h : Moved d s t) (k : Moved d t u) : Moved d s u where
  rest := by
    obtain ⟨_, _, rfl⟩ := h.rest
    obtain ⟨dies, dmas, rfl⟩ := k.rest
    exact ⟨dies, dmas, rfl⟩
  accs := List.Subset.trans h.accs k.accs
  txns := List.Subset.trans h.txns k.txns
  queues e c := (k.queues e c).trans (h.queues e c)
  posts e c := (k.posts e c).trans (h.posts e c)

theorem moved_foldl {α : Type} {f : State → α → State} (l : List α) (hf : ∀ t, ∀ a ∈ l, Moved d t (f t a)) (s : State) :
    Moved d s (l.foldl f s) := foldl_relates (moved_refl d) (fun _ _ _ => moved_trans) l hf s

theorem moved_regs (h : Moved d s t) : t.regs = s.regs := by
  obtain ⟨_, _, rfl⟩ := h.rest
  rfl

theorem moved_ctxs (h : Moved d s t) : t.ctxs = s.ctxs := by
  obtain ⟨_, _, rfl⟩ := h.rest
  rfl

theorem moved_cores (h : Moved d s t) : t.cores = s.cores := by
  obtain ⟨_, _, rfl⟩ := h.rest
  rfl

theorem moved_reports (h : Moved d s t) : t.reports = s.reports := by
  obtain ⟨_, _, rfl⟩ := h.rest
  rfl

theorem moved_stores (h : Moved d s t) : StoresKept s t := by
  obtain ⟨_, _, rfl⟩ := h.rest
  exact ⟨rfl, rfl, rfl, rfl⟩

/-- A die whose accesses and transactions have been added to. -/
theorem moved_setDie {x : DieSt} (haccs : (s.die d).accs ⊆ x.accs) (htxns : (s.die d).txns ⊆ x.txns) : Moved d s (s.setDie d x) where
  rest := ⟨_, _, rfl⟩
  accs := by simpa using haccs
  txns := by simpa using htxns
  queues _ _ := rfl
  posts _ _ := rfl

theorem moved_bump (d : Die) (s : State) : Moved d s (s.bump d) := moved_setDie (fun _ h => h) fun _ h => h

theorem moved_pushAccess (d : Die) (s : State) (k : AccKind) (a n : Nat) (data : List (Byte × Bool)) (dest : AccDest) :
    Moved d s (pushAccess s d k a n data dest) :=
  moved_trans (t := s.setDie d { s.die d with accs := (s.die d).accs ++ [_] })
    (moved_setDie (List.subset_append_left _ _) fun _ h => h) (moved_bump d _)

theorem moved_addTxn (d : Die) (s : State) (t : Txn) : Moved d s (addTxn s d t) :=
  moved_trans (t := s.setDie d { s.die d with txns := (s.die d).txns ++ [_] })
    (moved_setDie (fun _ h => h) (List.subset_append_left _ _)) (moved_bump d _)

theorem moved_dmaPiece (d : Die) (s : State) (c : Cluster) (number a n : Nat) (k : AccKind) (data : List (Byte × Bool))
    (into : Option (Nat × AccKind)) : Moved d s (dmaPiece s d c number a n k data into) := by
  rw [dmaPiece]
  split
  · exact moved_pushAccess ..
  · exact moved_addTxn ..

theorem moved_onRunning (d e : Die) (s : State) (c : Cluster) (number : Nat) {f : Running → Running}
    (hf : ∀ r, (f r).post = r.post := by exact fun _ => rfl) : Moved d s (onRunning s e c number f) where
  rest := ⟨_, _, rfl⟩
  accs := fun _ h => h
  txns := fun _ h => h
  queues e' c' := by
    rw [onRunning]
    by_cases h : (e', c') = (e, c)
    · obtain ⟨rfl, rfl⟩ := Prod.mk.inj h
      simp
    · simp [State.dma_setDma_ne _ _ h]
  posts e' c' := by
    rw [onRunning]
    by_cases h : (e', c') = (e, c)
    · obtain ⟨rfl, rfl⟩ := Prod.mk.inj h
      rw [State.dma_setDma_same, List.map_map]
      refine List.map_congr_left fun r _ => ?_
      simp only [Function.comp]
      split
      · exact hf r
      · rfl
    · simp [State.dma_setDma_ne _ _ h]

/-- What is on its way stays so while accesses and transactions join it. -/
theorem moves_of_moved {c : Cluster} {n a size : Nat} {k : AccKind} {data : List (Byte × Bool)} {into : Option (Nat × AccKind)}
    (h : Moves d c n k a size data into s) (hm : Moved d s t) : Moves d c n k a size data into t := by
  rw [Moves] at h ⊢
  by_cases hown : ownStore d a = true
  · rw [if_pos hown] at h ⊢
    obtain ⟨b, hb, hrest⟩ := h
    exact ⟨b, hm.accs hb, hrest⟩
  · rw [if_neg hown] at h ⊢
    obtain ⟨x, hx, hrest⟩ := h
    exact ⟨x, hm.txns hx, hrest⟩

theorem moves_dmaPiece (d : Die) (s : State) (c : Cluster) (number a n : Nat) (k : AccKind) (data : List (Byte × Bool))
    (into : Option (Nat × AccKind)) : Moves d c number k a n data into (dmaPiece s d c number a n k data into) := by
  rw [Moves, dmaPiece]
  split
  · exact ⟨{ stamp := s.nextStamp d, kind := k, addr := directAddr a, size := n, data := data, dest := .dma d c number into, portB := false
             issue := s.beat d, ret := 0, served := false },
      by simp [pushAccess, State.bump], rfl, rfl, rfl, rfl, rfl, rfl⟩
  · exact ⟨{ Txn.waiting (.dma c) number 0 k a n data none into with stamp := s.nextStamp d },
      by simp [addTxn, State.bump], rfl, rfl, rfl, rfl, rfl, rfl, rfl, rfl⟩

section
variable (d : Die) (s : State) (c : Cluster) (number a n : Nat) (k : AccKind) (into : Option (Nat × AccKind)) (data : List (Byte × Bool))

/-- A list of pieces, each on its way. -/
theorem moves_foldl_dmaPiece (l : List (Nat × Nat)) (bytes : Nat × Nat → List (Byte × Bool)) (dest : Nat × Nat → Option (Nat × AccKind)) :
    ∀ g ∈ l, Moves d c number k g.1 g.2 (bytes g) (dest g)
      (l.foldl (fun s g => dmaPiece s d c number g.1 g.2 k (bytes g) (dest g)) s) := by
  refine foldl_establishes (moved_refl d) (fun _ _ _ => moved_trans) (P := fun g t => Moves d c number k g.1 g.2 (bytes g) (dest g) t)
    (fun t g => ?_) (fun t g => ?_) (fun g t u h hm => ?_) l s
  · exact moved_dmaPiece ..
  · exact moves_dmaPiece ..
  · exact moves_of_moved h hm

theorem moved_dmaRead : Moved d s (dmaRead s d c number a n into) := moved_foldl _ (fun _ _ _ => moved_dmaPiece ..) s

theorem moves_dmaRead : ∀ g ∈ pieces d a n,
    Moves d c number .read g.1 g.2 [] (into.map fun t => (t.1 + (g.1 - a), t.2)) (dmaRead s d c number a n into) := by
  rw [dmaRead]
  intro g hg
  have h := moves_foldl_dmaPiece d s c number .read (pieces d a n) (fun _ => []) (fun g => into.map fun t => (t.1 + (g.1 - a), t.2)) g hg
  exact h

/-- The state in which a descriptor's bytes are written: it has met their poison (R282). -/
def metPoison : State := if data.any Prod.snd then meetPoison s d c number else s

theorem moved_dmaWrite : Moved d (metPoison d s c number data) (dmaWrite s d c number a k data) :=
  moved_foldl _ (fun _ _ _ => moved_dmaPiece ..) _

theorem movesAll_dmaWrite : MovesAll d c number k a data (dmaWrite s d c number a k data) := by
  rw [dmaWrite]
  exact moves_foldl_dmaPiece d _ c number k (pieces d a data.length) (fun g => (data.drop (g.1 - a)).take g.2) fun _ => none

variable {data} in
theorem metPoison_clean (h : data.any Prod.snd = false) : metPoison d s c number data = s := by rw [metPoison, h]; rfl

variable {data} in
theorem moved_dmaWrite_clean (h : data.any Prod.snd = false) : Moved d s (dmaWrite s d c number a k data) :=
  (metPoison_clean d s c number h ▸ moved_dmaWrite d s c number a k data :)

theorem moved_nextStretch : Moved d s (nextStretch s d c number) := by
  rw [nextStretch]
  split
  · exact moved_trans (moved_onRunning d d s c number) (moved_dmaRead ..)
  · exact moved_onRunning d d s c number

end

theorem movesAll_of_moved {c : Cluster} {n a : Nat} {k : AccKind} {data : List (Byte × Bool)} (h : MovesAll d c n k a data s)
    (hm : Moved d s t) : MovesAll d c n k a data t := fun g hg => moves_of_moved (h g hg) hm

/-- The next stretch of a descriptor is read, and gathered (R277). -/
theorem gathers_nextStretch {c : Cluster} {number a n : Nat} {rest : List (Nat × Nat)}
    (h : (runningOf s d c number).map Running.rows = some ((a, n) :: rest)) : Gathers d c number a n (nextStretch s d c number) := by
  rw [nextStretch, h]
  exact moves_dmaRead d _ c number a n none

end

end Sys2Proof.Machine
end

section
/-! ### What the loss of a window spares (R283, R286) -/

namespace Sys2Proof.Machine

/-- What the giving up of accesses keeps: memory, the reports raised, a LOST window lost, and no new descriptor runs. -/
structure Spares (s t : State) : Prop where
  mem : t.mem = s.mem
  reports : s.reports <+: t.reports
  lost : ∀ w, s.fld (.dmaRwinA w) F.dmaRwinA_STATE = 5 → t.fld (.dmaRwinA w) F.dmaRwinA_STATE = 5
  posts : ∀ d c, ∀ r ∈ (t.dma d c).active, r.post ∈ (s.dma d c).active.map Running.post

/-- A die's part of the giving up of everything through a window (R283, R286). -/
def dropWindowOf (w : Fin 64) (cause : Nat) (s : State) (d : Die) : State :=
  let s := (List.finRange 8).foldl (fun s c =>
    ((s.dma d c).active.filter (fun r => r.post.uses w)).foldl (fun s r => abortDesc s d c r.number cause) s) s
  let cores := (s.die d).txns.filter (fun t => slotOfAddr t.addr == some w)
  let x := s.die d
  let s := s.setDie d { x with txns := x.txns.filter (fun t => slotOfAddr t.addr != some w) }
  cores.foldl (fun s t => match t.kind with
    | .read => landRead s d t (List.replicate t.size (0, true)) | _ => s) s

theorem dropWindowTxns_eq (s : State) (w : Fin 64) (cause : Nat) :
    dropWindowTxns s w cause = (List.finRange 2).foldl (dropWindowOf w cause) s := rfl

section
variable {s t u : State}

theorem spares_refl (s : State) : Spares s s := ⟨rfl, List.prefix_rfl, fun _ h => h, fun _ _ _ h => List.mem_map_of_mem h⟩

theorem spares_trans (h : Spares s t) (k : Spares t u) : Spares s u where
  mem := k.mem.trans h.mem
  reports := h.reports.trans k.reports
  lost w hw := k.lost w (h.lost w hw)
  posts d c r hr := by
    obtain ⟨r', hr', hpost⟩ := List.mem_map.mp (k.posts d c r hr)
    exact hpost ▸ h.posts d c r' hr'

theorem spares_foldl {α : Type} {f : State → α → State} (l : List α) (hf : ∀ t, ∀ a ∈ l, Spares t (f t a)) (s : State) :
    Spares s (l.foldl f s) := foldl_relates spares_refl (fun _ _ _ => spares_trans) l hf s

/-- Changes of dies, contexts and cores. -/
theorem spares_of_same (hmem : t.mem = s.mem) (hreports : t.reports = s.reports) (hregs : t.regs = s.regs) (hdmas : t.dmas = s.dmas) :
    Spares s t where
  mem := hmem
  reports := by rw [hreports]
  lost w hw := (fld_of_regs hregs _ _).trans hw
  posts d c r hr := by
    have hdma : t.dma d c = s.dma d c := by simp only [State.dma, hdmas]
    exact List.mem_map_of_mem (hdma ▸ hr)

theorem spares_of_moved {d : Die} (h : Moved d s t) : Spares s t where
  mem := (moved_stores h).1
  reports := by rw [moved_reports h]
  lost w hw := (fld_of_regs (moved_regs h) _ _).trans hw
  posts e c r hr := h.posts e c ▸ List.mem_map_of_mem hr

theorem spares_setDie (s : State) (d : Die) (x : DieSt) : Spares s (s.setDie d x) := spares_of_same rfl rfl rfl rfl

theorem spares_raise (s : State) (r : Report) : Spares s (s.raise r) where
  mem := rfl
  reports := List.prefix_append _ _
  lost _ h := h
  posts _ _ _ h := List.mem_map_of_mem h

/-- A register other than a window's A word. -/
theorem spares_setFld (s : State) {r : Reg} (f : Fld) (v : Nat) (h : ∀ w, Reg.dmaRwinA w ≠ r) : Spares s (s.setFld r f v) where
  mem := State.setFld_mem ..
  reports := by rw [State.setFld_reports]
  lost w hw := (State.fld_setFld_ne _ _ _ _ (h w)).trans hw
  posts d c r hr := List.mem_map_of_mem (by simpa using hr)

theorem spares_closeWindow (s : State) (w : Fin 64) : Spares s (closeWindow s w) := by
  rw [closeWindow]
  split
  case isFalse => exact spares_refl s
  case isTrue h =>
    refine ⟨State.setFld_mem .., by rw [State.setFld_reports], fun u hu => ?_, fun d c r hr => List.mem_map_of_mem (by simpa using hr)⟩
    have hne : Reg.dmaRwinA u ≠ .dmaRwinA w := fun he => by
      rw [he, h.1] at hu
      exact absurd hu (by decide)
    exact (State.fld_setFld_ne _ _ _ _ hne).trans hu

theorem spares_closeUsed (s : State) (p : Post) : Spares s (closeUsed s p) := by
  refine spares_foldl _ (fun t w _ => ?_) s
  split
  · exact spares_closeWindow t w
  · exact spares_refl t

/-- A DMA with fewer running descriptors. -/
theorem spares_setDma (s : State) (d : Die) (c : Cluster) {m : Dma} (h : m.active ⊆ (s.dma d c).active) : Spares s (s.setDma d c m) where
  mem := rfl
  reports := List.prefix_rfl
  lost _ h := h
  posts e p r hr := by
    by_cases he : (e, p) = (d, c)
    · obtain ⟨rfl, rfl⟩ := Prod.mk.inj he
      rw [State.dma_setDma_same] at hr
      exact List.mem_map_of_mem (h hr)
    · rw [State.dma_setDma_ne _ _ he] at hr
      exact List.mem_map_of_mem hr

theorem spares_dropDesc (s : State) (d : Die) (c : Cluster) (r : Running) : Spares s (dropDesc s d c r) := by
  rw [dropDesc]
  refine spares_trans (spares_setDie s d _) (spares_trans (spares_setDma _ d c ?_) (spares_closeUsed _ _))
  exact fun o ho => (List.mem_filter.mp ho).1

theorem spares_descError (s : State) (d : Die) (c : Cluster) (addr cause : Nat) : Spares s (descError s d c addr cause) := by
  rw [descError]
  refine spares_trans (spares_setFld s _ _ ?_) (spares_trans (spares_setFld _ _ _ ?_) (spares_trans (spares_setFld _ _ _ ?_)
    (spares_raise _ _))) <;> simp

theorem spares_abortDesc (s : State) (d : Die) (c : Cluster) (number cause : Nat) : Spares s (abortDesc s d c number cause) := by
  rw [abortDesc]
  split
  · exact spares_refl s
  · exact spares_trans (spares_dropDesc ..) (spares_descError ..)

theorem spares_metPoison (d : Die) (s : State) (c : Cluster) (number : Nat) (data : List (Byte × Bool)) :
    Spares s (metPoison d s c number data) := by
  rw [metPoison]
  split
  · exact spares_trans (spares_of_moved (moved_onRunning d d s c number)) (spares_setFld _ _ _ (by simp))
  · exact spares_refl s

theorem spares_dmaWrite (s : State) (d : Die) (c : Cluster) (number a : Nat) (k : AccKind) (data : List (Byte × Bool)) :
    Spares s (dmaWrite s d c number a k data) := spares_trans (spares_metPoison d s c number data) (spares_of_moved (moved_dmaWrite ..))

theorem spares_nextStretch (s : State) (d : Die) (c : Cluster) (number : Nat) : Spares s (nextStretch s d c number) :=
  spares_of_moved (moved_nextStretch d s c number)

/-- The next stretch of a descriptor whose stretches are given anew. -/
theorem spares_stretches (s : State) (d : Die) (c : Cluster) (number : Nat) {f : Running → Running}
    (hf : ∀ r, (f r).post = r.post := by exact fun _ => rfl) : Spares s (nextStretch (onRunning s d c number f) d c number) :=
  spares_trans (spares_of_moved (moved_onRunning d d s c number hf)) (spares_nextStretch ..)

theorem spares_moveBytes (s : State) (d : Die) (c : Cluster) (number : Nat) (p : Post) (tbl : List Nat) :
    Spares s (moveBytes s d c number p tbl) := by
  rw [moveBytes]
  split
  · exact spares_refl s
  · split
    · exact spares_foldl _ (fun _ _ _ => spares_of_moved (moved_dmaRead ..)) s
    · exact spares_foldl _ (fun _ _ _ => spares_dmaWrite ..) s
    · exact spares_stretches ..
    · exact spares_stretches ..

theorem spares_judgeTable (s : State) (d : Die) (c : Cluster) (r : Running) (tbl : Option (List Nat)) :
    Spares s (judgeTable s d c r tbl) := by
  rw [judgeTable]
  split
  · exact spares_abortDesc ..
  · exact spares_trans (spares_of_moved (moved_onRunning d d s c r.number)) (spares_moveBytes ..)

theorem spares_gotTable (s : State) (d : Die) (c : Cluster) (r : Running) (got : List (Byte × Bool)) : Spares s (gotTable s d c r got) := by
  simp only [gotTable]
  split
  · exact spares_judgeTable ..
  · split
    · split
      · exact spares_stretches ..
      · exact spares_judgeTable ..
    · exact spares_judgeTable ..

theorem spares_placeBlock (s : State) (d : Die) (c : Cluster) (r : Running) (blk : List (Byte × Bool)) :
    Spares s (placeBlock s d c r blk) := by
  rw [placeBlock]
  exact spares_trans (spares_of_moved (moved_onRunning d d s c r.number)) (spares_trans (spares_dmaWrite ..) (spares_nextStretch ..))

theorem spares_gotStretch (s : State) (d : Die) (c : Cluster) (r : Running) (got : List (Byte × Bool)) :
    Spares s (gotStretch s d c r got) := by
  simp only [gotStretch]
  split
  · exact spares_gotTable ..
  · split
    · exact spares_placeBlock ..
    · refine spares_trans ?_ (spares_placeBlock ..)
      split
      · exact spares_refl s
      · exact spares_raise ..

theorem spares_dmaGot (s : State) (d : Die) (c : Cluster) (number : Nat) (into : Option (Nat × AccKind)) (data : List (Byte × Bool)) :
    Spares s (dmaGot s d c number into data) := by
  unfold dmaGot
  split
  · exact spares_dmaWrite ..
  · exact spares_refl s
  · dsimp only
    split
    · exact spares_of_moved (moved_onRunning d d s c number)
    · exact spares_gotStretch ..

/-- A delivery to a core changes contexts and cores only. -/
theorem deliver_cores (s : State) (a : Access) : ∃ ctxs cores, deliver s a = { s with ctxs := ctxs, cores := cores } := by
  rw [deliver]
  split
  case h_5 =>
    unfold stageDone
    split
    · exact ⟨_, _, rfl⟩
    · split
      · exact ⟨_, _, rfl⟩
      · exact ⟨_, _, rfl⟩
  all_goals exact ⟨_, _, rfl⟩

theorem spares_landRead (s : State) (d : Die) (t : Txn) (data : List (Byte × Bool)) : Spares s (landRead s d t data) := by
  rw [landRead]
  split
  · obtain ⟨ctxs, cores, h⟩ := deliver_cores s _
    rw [h]
    exact spares_of_same rfl rfl rfl rfl
  · exact spares_dmaGot ..
  · exact spares_refl s

theorem spares_dropWindowOf (s : State) (d : Die) (w : Fin 64) (cause : Nat) : Spares s (dropWindowOf w cause s d) := by
  rw [dropWindowOf]
  refine spares_trans ?_ (spares_trans (spares_setDie ..) (spares_foldl _ (fun t x _ => ?_) _))
  · exact spares_foldl _ (fun t c _ => spares_foldl _ (fun _ _ _ => spares_abortDesc ..) t) s
  · split
    · exact spares_landRead ..
    · exact spares_refl t

end

end Sys2Proof.Machine
end

section
/-! ### A window lost, and packets refused (R283, R286, R287) -/

namespace Sys2Proof.Machine

section
variable {s t : State} {d : Die} {c : Cluster} {w : Fin 64}

/-- No running descriptor of a cluster's DMA uses the window. -/
def NoneUses (w : Fin 64) (d : Die) (c : Cluster) (s : State) : Prop := ∀ r ∈ (s.dma d c).active, r.post.uses w = false

theorem noneUses_of_spares (h : NoneUses w d c s) (k : Spares s t) : NoneUses w d c t := by
  intro r hr
  obtain ⟨r', hr', hpost⟩ := List.mem_map.mp (k.posts d c r hr)
  exact hpost ▸ h r' hr'

theorem closeWindow_regs (s : State) (w : Fin 64) : ∃ regs, closeWindow s w = { s with regs := regs } := by
  rw [closeWindow]
  split
  · exact ⟨_, rfl⟩
  · exact ⟨_, rfl⟩

theorem closeUsed_regs (s : State) (p : Post) : ∃ regs, closeUsed s p = { s with regs := regs } := by
  refine foldl_relates (R := fun s t => ∃ regs, t = { s with regs := regs }) (fun _ => ⟨_, rfl⟩) (fun _ _ _ h k => ?_) _ (fun t w _ => ?_) s
  · obtain ⟨_, rfl⟩ := h
    obtain ⟨regs, rfl⟩ := k
    exact ⟨regs, rfl⟩
  · split
    · exact closeWindow_regs t w
    · exact ⟨_, rfl⟩

/-- A descriptor dropped: what is left of it but the windows that close. -/
theorem dropDesc_regs (s : State) (d : Die) (c : Cluster) (r : Running) : ∃ regs, dropDesc s d c r = { (s.setDie d { s.die d with
      txns := (s.die d).txns.filter (fun t => !t.ofDesc c r.number), accs := (s.die d).accs.filter (fun a => !a.ofDesc d c r.number) }).setDma
        d c { s.dma d c with active := (s.dma d c).active.filter (fun o => o.number ≠ r.number) } with regs := regs } :=
  closeUsed_regs _ _

theorem dma_descError (s : State) (d : Die) (c : Cluster) (addr cause : Nat) (e : Die) (p : Cluster) :
    (descError s d c addr cause).dma e p = s.dma e p := by simp [descError]

theorem die_descError (s : State) (d : Die) (c : Cluster) (addr cause : Nat) (e : Die) :
    (descError s d c addr cause).die e = s.die e := by simp [descError]

theorem mem_descError (s : State) (d : Die) (c : Cluster) (addr cause : Nat) : (descError s d c addr cause).mem = s.mem := by
  simp [descError]

/-- An abort takes a descriptor off its DMA. -/
theorem active_abortDesc (s : State) (d : Die) (c : Cluster) (number cause : Nat) :
    ((abortDesc s d c number cause).dma d c).active = (s.dma d c).active.filter (fun r => r.number ≠ number) := by
  rw [abortDesc]
  split
  case h_1 hnone =>
    refine (List.filter_eq_self.mpr fun r hr => ?_).symm
    simpa using List.find?_eq_none.mp hnone r hr
  case h_2 r hr =>
    have hnumber : r.number = number := by simpa using List.find?_some hr
    obtain ⟨regs, hdrop⟩ := dropDesc_regs s d c r
    rw [dma_descError, hdrop, ← hnumber]
    exact congrArg Dma.active (State.dma_setDma_same ..)

/-- Once descriptors have aborted one after another, those that run still ran before and have other numbers. -/
theorem mem_active_aborts (l : List Running) (cause : Nat) (s : State) {x : Running}
    (hx : x ∈ ((l.foldl (fun s r => abortDesc s d c r.number cause) s).dma d c).active) :
    x ∈ (s.dma d c).active ∧ ∀ r ∈ l, x.number ≠ r.number := by
  induction l generalizing s with
  | nil => exact ⟨hx, by simp⟩
  | cons r l ih =>
    obtain ⟨hmem, hne⟩ := ih _ hx
    rw [active_abortDesc, List.mem_filter] at hmem
    exact ⟨hmem.1, List.forall_mem_cons.mpr ⟨by simpa using hmem.2, hne⟩⟩

theorem noneUses_aborts (s : State) (cause : Nat) :
    NoneUses w d c (((s.dma d c).active.filter (fun r => r.post.uses w)).foldl (fun s r => abortDesc s d c r.number cause) s) := by
  intro x hx
  obtain ⟨hmem, hne⟩ := mem_active_aborts _ cause s hx
  by_contra huses
  exact hne x (List.mem_filter.mpr ⟨hmem, by simpa using huses⟩) rfl

theorem noneUses_dropWindowOf (s : State) (cause : Nat) (c : Cluster) : NoneUses w d c (dropWindowOf w cause s d) := by
  have hclusters := foldl_establishes spares_refl (fun _ _ _ => spares_trans) (P := NoneUses w d)
    (f := fun s c => ((s.dma d c).active.filter (fun r => r.post.uses w)).foldl (fun s r => abortDesc s d c r.number cause) s)
    (fun t c => spares_foldl _ (fun _ _ _ => spares_abortDesc ..) t) (fun t c => noneUses_aborts t cause)
    (fun c t u h hs => noneUses_of_spares h hs) (List.finRange 8) s c (List.mem_finRange c)
  refine noneUses_of_spares hclusters (spares_trans (spares_setDie ..) (spares_foldl _ (fun t x _ => ?_) _))
  split
  · exact spares_landRead ..
  · exact spares_refl t

theorem spares_dropWindowTxns (s : State) (w : Fin 64) (cause : Nat) : Spares s (dropWindowTxns s w cause) := by
  rw [dropWindowTxns_eq]
  exact spares_foldl _ (fun t d _ => spares_dropWindowOf t d w cause) s

theorem noneUses_dropWindowTxns (s : State) (w : Fin 64) (cause : Nat) (d : Die) (c : Cluster) :
    NoneUses w d c (dropWindowTxns s w cause) := by
  rw [dropWindowTxns_eq]
  exact foldl_establishes spares_refl (fun _ _ _ => spares_trans) (P := fun d t => ∀ c, NoneUses w d c t)
    (fun t d => spares_dropWindowOf t d w cause) (fun t _ => noneUses_dropWindowOf t cause) (fun _ _ _ h hs c => noneUses_of_spares (h c) hs)
    (List.finRange 2) s d (List.mem_finRange d) c

/-- A window that carries accesses or waits for its answer is lost (R286). -/
theorem loseWindow_loses (hst : s.fld (.dmaRwinA w) F.dmaRwinA_STATE = 1 ∨ s.fld (.dmaRwinA w) F.dmaRwinA_STATE = 2
      ∨ s.fld (.dmaRwinA w) F.dmaRwinA_STATE = 4) :
    (loseWindow s w).fld (.dmaRwinA w) F.dmaRwinA_STATE = 5 ∧ Raised s (loseWindow s w) (Report.plain .windowLost 2 0 .dma 0)
      ∧ (loseWindow s w).mem = s.mem ∧ ∀ d c, NoneUses w d c (loseWindow s w) := by
  rw [loseWindow]
  simp only [if_pos hst]
  generalize hlost : (s.setFld (.dmaRwinA w) F.dmaRwinA_STATE 5).raise (Report.plain .windowLost 2 0 .dma 0) = u
  have hspares := spares_dropWindowTxns u w 10
  have hstate : u.fld (.dmaRwinA w) F.dmaRwinA_STATE = 5 := hlost ▸ State.fld_setFld_same s (.dmaRwinA w) F.dmaRwinA_STATE 5 (by decide)
  have hraise : Raises s u [Report.plain .windowLost 2 0 .dma 0] :=
    hlost ▸ raises_raise_of (State.setFld_reports s _ _ _) (now_setRwinA s w _) _
  have hmem : u.mem = s.mem := hlost ▸ State.setFld_mem s (.dmaRwinA w) F.dmaRwinA_STATE 5
  refine ⟨hspares.lost w hstate, ?_, hspares.mem.trans hmem, noneUses_dropWindowTxns u w 10⟩
  obtain ⟨bs, hbs⟩ := hspares.reports
  exact ⟨[], bs, by rw [← hbs, hraise]; simp⟩

/-! ### The clauses of revocations and refusals -/

theorem window_revoked (ring pos base : Nat) (hring : bitsOf (s.reg (.dmaRwinA w)) 40 38 = ring)
    (hpos : bitsOf (s.reg (.dmaRwinA w)) 49 41 = pos) (hbase : bitsOf (s.reg (.dmaRwinB w)) 47 0 = base) :
    (s.fld (.dmaRwinA w) F.dmaRwinA_STATE = 1 ∨ s.fld (.dmaRwinA w) F.dmaRwinA_STATE = 2 ∨ s.fld (.dmaRwinA w) F.dmaRwinA_STATE = 4 →
        Runs (.revokeNotify ring pos w base) s fun t =>
          t.fld (.dmaRwinA w) F.dmaRwinA_STATE = 5 ∧ Raised s t (Report.plain .windowLost 2 0 .dma 0) ∧ t.mem = s.mem
          ∧ ∀ d c r, r ∈ (t.dma d c).active → r.post.uses w = false) ∧
    (∀ r q a, (r, q, a) ≠ (ring, pos, base) → exec (.revokeNotify r q w a) s = .next s) := by
  refine ⟨fun hst => ⟨_, congrArg Host.Outcome.next (if_pos ⟨hring, hpos, hbase⟩), loseWindow_loses hst⟩, fun r q a hne => ?_⟩
  refine congrArg Host.Outcome.next (if_neg fun ⟨hr, hq, ha⟩ => hne ?_)
  rw [← hring, ← hpos, ← hbase, hr, hq, ha]

theorem qstatus_fld_descError (s : State) (d : Die) (c : Cluster) (addr cause : Nat) :
    (descError s d c addr cause).fld (.dmaQstatus d c) F.dmaQstatus_CAUSE = cause % 16
      ∧ (descError s d c addr cause).fld (.dmaQstatus d c) F.dmaQstatus_ERROR = 1
      ∧ (descError s d c addr cause).fld (.dmaErrDesc d c) F.dmaErrDesc_ADDR = addr % 2 ^ 48 := by
  rw [descError]
  refine ⟨?_, ?_, ?_⟩
  · refine (State.fld_setFld_ne _ _ _ _ (by simp)).trans ((State.fld_setFld_apart _ _ _ _ _ (by decide)).trans ?_)
    exact State.fld_setFld_same _ _ _ _ (by decide)
  · exact (State.fld_setFld_ne _ _ _ _ (by simp)).trans (State.fld_setFld_same _ _ _ _ (by decide))
  · exact State.fld_setFld_same _ _ _ _ (by decide)

/-- The record of a descriptor's error, whatever registers of the DMA and its windows changed before. -/
theorem raises_descError (s : State) (d : Die) (c : Cluster) (addr cause : Nat) :
    Raises s (descError s d c addr cause) [{ Report.plain (causeSource cause) d.val c.val .dma addr with detail := cause }] := by
  rw [descError]
  refine raises_raise_of (by simp) ?_ _
  have hkept : RegsKept [.dmaQstatus d c, .dmaErrDesc d c] s (((s.setFld (.dmaQstatus d c) F.dmaQstatus_CAUSE cause).setFld
      (.dmaQstatus d c) F.dmaQstatus_ERROR 1).setFld (.dmaErrDesc d c) F.dmaErrDesc_ADDR addr) := by
    refine regsKept_trans (regsKept_trans (regsKept_setFld _ _ _ ?_) (regsKept_setFld _ _ _ ?_)) (regsKept_setFld _ _ _ ?_) <;> simp
  exact now_of_regsKept hkept (by simp)

theorem regsKept_closeUsed (s : State) (p : Post) : RegsKept ((List.finRange 64).map Reg.dmaRwinA) s (closeUsed s p) := by
  refine regsKept_foldl (fun t w _ => ?_) s
  split
  · exact fun k hk => regsKept_closeWindow t w k fun hmem => hk (List.mem_map.mpr ⟨w, List.mem_finRange w, (List.mem_singleton.mp hmem).symm⟩)
  · exact regsKept_refl t _

theorem raises_dropDesc (s : State) (d : Die) (c : Cluster) (r : Running) : Raises s (dropDesc s d c r) [] := by
  obtain ⟨regs, h⟩ := dropDesc_regs s d c r
  rw [h]
  exact raises_of_reports rfl

theorem now_dropDesc (s : State) (d : Die) (c : Cluster) (r : Running) : (dropDesc s d c r).now = s.now := by
  rw [dropDesc]
  exact now_of_regsKept (regsKept_closeUsed _ _) (by simp)

theorem die_dropDesc (s : State) (d : Die) (c : Cluster) (r : Running) : (dropDesc s d c r).die d = { s.die d with
    txns := (s.die d).txns.filter (fun t => !t.ofDesc c r.number), accs := (s.die d).accs.filter (fun a => !a.ofDesc d c r.number) } := by
  obtain ⟨regs, h⟩ := dropDesc_regs s d c r
  rw [h]
  exact State.die_setDie_same ..

theorem abortDesc_of_running {number : Nat} {r : Running} (h : runningOf s d c number = some r) (cause : Nat) :
    abortDesc s d c number cause = descError (dropDesc s d c r) d c r.post.addr cause := by
  rw [abortDesc, h]

/-- The refusal of a packet of a running descriptor (R283). -/
theorem packet_refused_running {xfer pkt : Nat} {r : Running} (hx : 8 ≤ xfer) (hc : c.val = xfer % 8)
    (hr : runningOf s d c xfer = some r) : Runs (.packetRefusal d w xfer pkt) s fun t =>
      t.fld (.dmaQstatus d c) F.dmaQstatus_CAUSE = 11 ∧ t.fld (.dmaQstatus d c) F.dmaQstatus_ERROR = 1
      ∧ Raises s t [{ Report.plain .dmaDesc d.val c.val .dma r.post.addr with detail := 11 }]
      ∧ (t.dma d c).active = (s.dma d c).active.filter (fun r => r.number ≠ xfer)
      ∧ (∀ y ∈ (t.die d).txns, ¬(y.owner = .dma c ∧ y.number = xfer)) ∧ t.mem = s.mem := by
  obtain rfl : c = ⟨xfer % 8, Nat.mod_lt _ (by decide)⟩ := Fin.ext hc
  have hrun : exec (.packetRefusal d w xfer pkt) s = .next (abortDesc s d ⟨xfer % 8, Nat.mod_lt _ (by decide)⟩ xfer 11) := by
    refine congrArg Host.Outcome.next ?_
    rw [packetRefusal, if_pos hx, refuseDesc, hr]
  have hnumber : r.number = xfer := by simpa using List.find?_some hr
  refine ⟨_, hrun, ?_⟩
  have hactive := active_abortDesc s d ⟨xfer % 8, Nat.mod_lt _ (by decide)⟩ xfer 11
  have hmem := (spares_abortDesc s d ⟨xfer % 8, Nat.mod_lt _ (by decide)⟩ xfer 11).mem
  rw [abortDesc_of_running hr] at hactive hmem ⊢
  obtain ⟨hcause, herror, -⟩ := qstatus_fld_descError (dropDesc s d ⟨xfer % 8, Nat.mod_lt _ (by decide)⟩ r) d
    ⟨xfer % 8, Nat.mod_lt _ (by decide)⟩ r.post.addr 11
  refine ⟨hcause, herror, raises_trans (raises_dropDesc ..) (raises_descError ..) (now_dropDesc ..), hactive, fun y hy => ?_, hmem⟩
  rw [die_descError, die_dropDesc, List.mem_filter, hnumber] at hy
  exact fun ⟨howner, hxfer⟩ => by simp [Txn.ofDesc, howner, hxfer] at hy

/-- The refusal of the signal of a descriptor that has completed (R283, R360). -/
theorem packet_refused_signalled {xfer pkt addr : Nat} (hx : 8 ≤ xfer) (hc : c.val = xfer % 8) (hr : runningOf s d c xfer = none)
    (hsig : (s.dma d c).signalled.find xfer = some addr) : Runs (.packetRefusal d w xfer pkt) s fun t =>
      t.fld (.dmaQstatus d c) F.dmaQstatus_CAUSE = 11
      ∧ t.fld (.dmaErrDesc d c) F.dmaErrDesc_ADDR = addr % 2 ^ 48 ∧ (t.dma d c).signalled.find xfer = none
      ∧ Raises s t [{ Report.plain .dmaDesc d.val c.val .dma addr with detail := 11 }] ∧ t.mem = s.mem := by
  obtain rfl : c = ⟨xfer % 8, Nat.mod_lt _ (by decide)⟩ := Fin.ext hc
  generalize hu : s.setDma d ⟨xfer % 8, Nat.mod_lt _ (by decide)⟩ { s.dma d ⟨xfer % 8, Nat.mod_lt _ (by decide)⟩ with
    signalled := (s.dma d ⟨xfer % 8, Nat.mod_lt _ (by decide)⟩).signalled.drop_ xfer } = u
  have hrun : exec (.packetRefusal d w xfer pkt) s = .next (descError u d ⟨xfer % 8, Nat.mod_lt _ (by decide)⟩ addr 11) := by
    refine congrArg Host.Outcome.next ?_
    rw [packetRefusal, if_pos hx, refuseDesc, hr, hsig, ← hu]
  obtain ⟨hcause, -, haddr⟩ := qstatus_fld_descError u d ⟨xfer % 8, Nat.mod_lt _ (by decide)⟩ addr 11
  refine ⟨_, hrun, hcause, haddr, ?_, ?_, (mem_descError ..).trans (hu ▸ rfl)⟩
  · rw [dma_descError, ← hu, State.dma_setDma_same]
    exact Assoc.find_drop_same ..
  · exact raises_trans (raises_of_reports (hu ▸ rfl)) (raises_descError ..) (hu ▸ rfl)

/-- Zeros load as zero (R10). -/
theorem loadValue_zeros (n : Nat) (bad sx : Bool) : loadValue (List.replicate n (0, bad)) sx = 0 := by
  have hzero : ofLe (List.replicate n (0 : Byte)) = 0 := by
    induction n with
    | zero => rfl
    | succ n ih => rw [List.replicate_succ, ofLe, ih]; rfl
  simp only [loadValue, List.map_replicate, hzero, toSigned, Nat.two_pow_pos, if_true]
  split <;> rfl

theorem any_zeros_marked {n : Nat} (h : 0 < n) : (List.replicate n ((0 : Byte), true)).any Prod.snd = true :=
  List.any_eq_true.mpr ⟨_, List.mem_replicate.mpr ⟨h.ne', rfl⟩, rfl⟩

/-- The refusal of a scalar access that no transaction awaits (R360). -/
theorem packet_refused_unknown {xfer pkt : Nat} (hx : xfer < 8) (htxns : (s.die d).txns = []) :
    Runs (.packetRefusal d w xfer pkt) s fun t =>
      t = { s with reports := t.reports } ∧ Raises s t [Report.plain .windowRefused d.val 0 .sync 0] := by
  have hrun : exec (.packetRefusal d w xfer pkt) s = .next (s.raise (Report.plain .windowRefused d.val 0 .sync 0)) := by
    refine congrArg Host.Outcome.next ?_
    rw [packetRefusal, if_neg (by omega), refuseScalar, htxns]
    rfl
  exact ⟨_, hrun, rfl, raises_raise ..⟩

/-- The refusal of a scalar load (R10, R283). -/
theorem packet_refused_load {i xfer pkt : Nat} {x : Txn} {e : Die} {q : CoreId} {y : SlotId} {rd : Fin 32} {sx : Bool} (hx : xfer < 8)
    (hfind : (s.die d).txns.zipIdx.find? (fun e =>
      slotOfAddr e.1.addr == some w && decide (e.1.owner = .cores) && e.1.issued && e.1.pkt == pkt) = some (x, i))
    (hkind : x.kind = .read) (hdest : x.dest = some (.scalar e q y rd sx)) (hsize : 0 < x.size) :
    Runs (.packetRefusal d w xfer pkt) s fun t =>
      (t.ctx e q y).rd rd = 0 ∧ rd ∈ (t.ctx e q y).bad ∧ (t.die d).txns = (s.die d).txns.eraseIdx i
      ∧ Raises s t [Report.plain .windowRefused d.val 0 .dma x.addr] ∧ t.mem = s.mem := by
  generalize hu : (s.setDie d { s.die d with txns := (s.die d).txns.eraseIdx i }).setCtx e q y
    ((s.ctx e q y).wrMark rd (loadValue (List.replicate x.size (0, true)) sx) ((List.replicate x.size ((0 : Byte), true)).any Prod.snd)) = u
  have hrun : exec (.packetRefusal d w xfer pkt) s = .next (closeWindow (u.raise (Report.plain .windowRefused d.val 0 .dma x.addr)) w) := by
    refine congrArg Host.Outcome.next ?_
    rw [packetRefusal, if_neg (by omega), refuseScalar, hfind, ← hu]
    simp only [hkind, landRead, hdest]
    rfl
  obtain ⟨regs, hclose⟩ := closeWindow_regs (u.raise (Report.plain .windowRefused d.val 0 .dma x.addr)) w
  refine ⟨_, hrun, ?_⟩
  rw [hclose]
  have hctx : u.ctx e q y = (s.ctx e q y).wrMark rd 0 true := by
    rw [← hu, State.ctx_setCtx_same, loadValue_zeros, any_zeros_marked hsize]
  have hraises : Raises s u [] := raises_of_reports (hu ▸ rfl)
  refine ⟨?_, ?_, ?_, raises_trans hraises (raises_raise ..) (hu ▸ rfl), hu ▸ rfl⟩
  · exact (congrArg (Ctx.rd · rd) hctx).trans (rd_wrMark_same ..)
  · exact (congrArg (rd ∈ Ctx.bad ·) hctx).mpr ((mem_bad_wrMark ..).mpr rfl)
  · show (u.die d).txns = _
    rw [← hu]
    exact congrArg DieSt.txns (State.die_setDie_same ..)

end

end Sys2Proof.Machine
end

section
namespace Sys2Proof.Machine

/-- Settles O38: the window's register rule gives the opening and the close, the import's the revocation; a lost window spares
memory and leaves no descriptor that uses it, since what its transactions bring starts none; a refusal aborts one descriptor or
ends one scalar access. -/
theorem remoteWindows : Obligations.RemoteWindows := by
  intro s w
  refine ⟨fun v h hst hok hroute => ⟨windowOpen_sends h hst hok hroute, windowOpen_refused h hst hok hroute⟩,
    fun ring pos win route base size perm job p hp => window_requests ring pos win route base size perm job p hp, window_replies,
    window_closes, fun i v => import_writes i v, window_revoked,
    fun d xfer pkt => ⟨packet_refused_unknown, fun i x e q y rd sx => packet_refused_load, fun c r => packet_refused_running,
      fun c addr => packet_refused_signalled⟩⟩

end Sys2Proof.Machine
end

section
/-! ### Posts (R212, R275, R297) -/

namespace Sys2Proof.Machine

section
variable {s : State} {d : Die} {c : Cluster} {q : CoreId} {x : SlotId} {sA : Fin 32} {m : Nat}

/-- A post stands in its cluster's queue, and the access that reads it before the die's stores. -/
theorem pushPost_posts (s : State) (d : Die) (c : Cluster) (a : Nat) (q : Option CoreId) (x : Option Ctx) :
    ((pushPost s d c a q x).dma d c).queue = (s.dma d c).queue ++ [Post.unread a x (s.die d).stamp]
      ∧ ((pushPost s d c a q x).dma d c).active = (s.dma d c).active
      ∧ ∃ b, ((pushPost s d c a q x).die d).accs = (s.die d).accs ++ [b] ∧ b.kind = .read ∧ b.addr = directAddr a ∧ b.size = 64
          ∧ b.dest = .post d c q ∧ b.stamp = (s.die d).stamp := by
  have hdma : (pushPost s d c a q x).dma d c = _ := State.dma_setDma_same s d c
    { s.dma d c with queue := (s.dma d c).queue ++ [Post.unread a x (s.nextStamp d)] }
  refine ⟨congrArg Dma.queue hdma, by rw [hdma], ⟨s.nextStamp d, .read, directAddr a, 64, [], .post d c q, false, s.beat d, 0, false⟩, ?_,
    rfl, rfl, rfl, rfl, rfl⟩
  simp only [pushPost, pushAccess, State.bump, State.die_setDie_same]
  rfl

theorem dpost_posts (h : Issues s d q x [sA]) (ht : (s.ctx d q x).translate (bitsOf ((s.ctx d q x).rd sA) 47 0) 64 .r = some m)
    (hok : postAddrOk d (clusterOf q) m = true) (hroom : queueHasRoom s d q 4 = true) :
    exec (.dpost d q sA) s
      = .next (advance (pushPost s d (clusterOf q) (directAddr m) (some q) (some (s.ctx d q x))) d q x) := by
  refine exec_of_issues h rfl ?_
  simp only [ht, hok, hroom]
  rfl

theorem dpost_waits (h : Issues s d q x [sA]) (ht : (s.ctx d q x).translate (bitsOf ((s.ctx d q x).rd sA) 47 0) 64 .r = some m)
    (hok : postAddrOk d (clusterOf q) m = true) (hfull : queueHasRoom s d q 4 = false) :
    exec (.dpost d q sA) s = .next (parkFull s d q x 4 0) := by
  refine exec_of_issues h rfl ?_
  simp only [ht, hok, hfull]
  rfl

theorem dpost_rejects (h : Issues s d q x [sA]) (ht : (s.ctx d q x).translate (bitsOf ((s.ctx d q x).rd sA) 47 0) 64 .r = some m)
    (hbad : postAddrOk d (clusterOf q) m = false) : exec (.dpost d q sA) s = .next (feedReject s d q x m) := by
  refine exec_of_issues h rfl ?_
  simp only [ht, hbad]
  rfl

theorem dmas_parkFull (s : State) (d : Die) (q : CoreId) (x : SlotId) (which stall : Nat) :
    (parkFull s d q x which stall).dmas = s.dmas := by
  simp only [parkFull, chargeStall]
  split
  · rfl
  · split <;> rfl

/-- DPOST (R212, R275). -/
theorem dpost_clause (h : Issues s d q x [sA]) (hc : c = clusterOf q)
    (ht : (s.ctx d q x).translate (bitsOf ((s.ctx d q x).rd sA) 47 0) 64 .r = some m) :
    (postAddrOk d c m = true → queueHasRoom s d q 4 = true → Runs (.dpost d q sA) s fun t =>
        (t.dma d c).queue = (s.dma d c).queue ++ [Post.unread (directAddr m) (some (s.ctx d q x)) (s.die d).stamp]
          ∧ (t.dma d c).active = (s.dma d c).active
          ∧ (∃ a, (t.die d).accs = (s.die d).accs ++ [a] ∧ a.kind = .read ∧ a.addr = directAddr (directAddr m) ∧ a.size = 64
              ∧ a.dest = .post d c (some q) ∧ a.stamp = (s.die d).stamp)
          ∧ (t.ctx d q x).pc = nextPc s d q x ∧ OtherCtxs d q x s t ∧ t.regs = s.regs ∧ StoresKept s t) ∧
      (postAddrOk d c m = true → queueHasRoom s d q 4 = false → Runs (.dpost d q sA) s fun t => t.dmas = s.dmas
        ∧ (t.ctx d q x).st = .wait ∧ (t.ctx d q x).waiting = some (.queueFull 4) ∧ (t.ctx d q x).pc = (s.ctx d q x).pc) ∧
      (postAddrOk d c m = false → Runs (.dpost d q sA) s (FeedRejected d q x m s)) := by
  subst hc
  refine ⟨fun hok hroom => ⟨_, dpost_posts h ht hok hroom, ?_⟩, fun hok hfull => ⟨_, dpost_waits h ht hok hfull, ?_⟩,
    fun hbad => ⟨_, dpost_rejects h ht hbad, feedReject_rejects d q x s m⟩⟩
  · obtain ⟨hqueue, hactive, b, haccs, hb⟩ := pushPost_posts s d (clusterOf q) (directAddr m) (some q) (some (s.ctx d q x))
    obtain ⟨-, -, -, hdie, -⟩ := onlyIssued_advance (pushPost s d (clusterOf q) (directAddr m) (some q) (some (s.ctx d q x))) d q x
    obtain ⟨hpc, -, hothers, hregs, hstores⟩ := wentOn_advance (s := s) d q x
      (u := pushPost s d (clusterOf q) (directAddr m) (some q) (some (s.ctx d q x))) rfl rfl ⟨rfl, rfl, rfl, rfl⟩
    refine ⟨hqueue, hactive, ⟨b, ?_, hb⟩, hpc, hothers, hregs, hstores⟩
    rw [hdie]
    exact haccs
  · obtain ⟨-, hst, hwaiting, hpc⟩ := parkFull_waits d q x s 4 0
    exact ⟨dmas_parkFull .., hst, hwaiting, hpc⟩

/-- A post through the register of a cluster (R297). -/
theorem dmaPost_clause {a : Nat} (h : WriteReady s (.dmaPost d c)) (ha : a < 2 ^ 48) :
    (postAddrOk d c a = true → (s.dma d c).queue.length < 32 → Runs (.dmaPost d c a) s fun t =>
        (t.dma d c).queue = (s.dma d c).queue ++ [Post.unread (directAddr a) none (s.die d).stamp] ∧ t.regs = s.regs ∧ StoresKept s t
          ∧ ∃ b, (t.die d).accs = (s.die d).accs ++ [b] ∧ b.kind = .read ∧ b.size = 64 ∧ b.dest = .post d c none) ∧
      (postAddrOk d c a = false ∨ 32 ≤ (s.dma d c).queue.length → Rejects (.dmaPost d c a) s (.dmaPost d c)) := by
  have hmem : F.dmaPost_ADDR ∈ (Reg.dmaPost d c).fields := by simp [Reg.fields]
  have hword : bitsOf (writtenWord s (.dmaPost d c) (fieldWord s (.dmaPost d c) F.dmaPost_ADDR a)) 47 0 = a :=
    (bitsOf_writtenWord_wo hmem s _ rfl).trans ((bitsOf_putBits_same _ _ _ _ (by decide)).trans (Nat.mod_eq_of_lt ha))
  have hbasic : (Reg.dmaPost d c).Basic := ⟨by simp [Reg.fields, F.dmaPost_ADDR], by simp [Reg.unlock, Reg.block]⟩
  have hown : ownWrite s (.dmaPost d c) (writtenWord s (.dmaPost d c) (fieldWord s (.dmaPost d c) F.dmaPost_ADDR a))
      = postPrivileged d c a s := congrArg (postPrivileged d c · s) hword
  refine ⟨fun hok hroom => ?_, fun hbad => ?_⟩
  · obtain ⟨hqueue, -, b, haccs, hkind, -, hsize, hdest, -⟩ := pushPost_posts s d c (directAddr a) none none
    have hdone := privWrite_done h hbasic (hown.trans (if_pos ⟨hok, hroom⟩))
    exact ⟨_, congrArg Host.Outcome.next hdone, hqueue, rfl, ⟨rfl, rfl, rfl, rfl⟩, b, haccs, hkind, hsize, hdest⟩
  · have hno : ¬(postAddrOk d c a = true ∧ (s.dma d c).queue.length < 32) := by
      rintro ⟨hok, hroom⟩
      rcases hbad with hbad | hbad
      · rw [hok] at hbad
        cases hbad
      · omega
    exact congrArg Host.Outcome.next (privWrite_refused h (hown.trans (if_neg hno)))

end

end Sys2Proof.Machine
end

section
/-! ### What returns to a descriptor (R166, R277, R282) -/

namespace Sys2Proof.Machine

section
variable {s : State} {d : Die} {c : Cluster}

/-- A meeting with poison is noted in the DMA and its status only. -/
theorem metPoison_notes (d : Die) (s : State) (c : Cluster) (number : Nat) (data : List (Byte × Bool)) :
    StoresKept s (metPoison d s c number data) ∧ Raises s (metPoison d s c number data) [] := by
  rw [metPoison]
  split
  · exact ⟨⟨by simp [meetPoison, onRunning], by simp [meetPoison, onRunning], by simp [meetPoison, onRunning],
      by simp [meetPoison, onRunning]⟩, raises_of_reports (by simp [meetPoison, onRunning])⟩
  · exact ⟨storesKept_refl s, raises_of_reports rfl⟩

theorem dmaWrite_notes (s : State) (d : Die) (c : Cluster) (number a : Nat) (k : AccKind) (data : List (Byte × Bool)) :
    StoresKept s (dmaWrite s d c number a k data) ∧ Raises s (dmaWrite s d c number a k data) [] := by
  obtain ⟨hstores, hraises⟩ := metPoison_notes d s c number data
  have hmoved := moved_dmaWrite d s c number a k data
  exact ⟨storesKept_trans hstores (moved_stores hmoved), raises_of_reports ((moved_reports hmoved).trans (hraises.trans (by simp)))⟩

theorem fld_poison_dmaWrite (s : State) (d : Die) (c : Cluster) (number a : Nat) (k : AccKind) {data : List (Byte × Bool)}
    (h : data.any Prod.snd = true) : (dmaWrite s d c number a k data).fld (.dmaQstatus d c) F.dmaQstatus_POISON = 1 := by
  rw [fld_of_regs (moved_regs (moved_dmaWrite ..)), metPoison, if_pos h]
  exact State.fld_setFld_same _ _ _ _ (by decide)

/-- A stored block goes to the destination (R277). -/
theorem placeBlock_places (s : State) (d : Die) (c : Cluster) (r : Running) (blk : List (Byte × Bool)) :
    MovesAll d c r.number (writeKind r.post.dst 0) r.dst blk (placeBlock s d c r blk) ∧ StoresKept s (placeBlock s d c r blk)
      ∧ Raises s (placeBlock s d c r blk) [] := by
  rw [placeBlock]
  generalize hu : onRunning s d c r.number (fun r => { r with dst := r.dst + blk.length, done := r.done + 1 }) = u
  have hmoved : Moved d s u := hu ▸ moved_onRunning d d s c r.number
  have hnext := moved_nextStretch d (dmaWrite u d c r.number r.dst (writeKind r.post.dst 0) blk) c r.number
  obtain ⟨hstores, hraises⟩ := dmaWrite_notes u d c r.number r.dst (writeKind r.post.dst 0) blk
  refine ⟨movesAll_of_moved (movesAll_dmaWrite d u c r.number r.dst (writeKind r.post.dst 0) blk) hnext,
    storesKept_trans (moved_stores hmoved) (storesKept_trans hstores (moved_stores hnext)), raises_of_reports ?_⟩
  rw [moved_reports hnext, hraises, moved_reports hmoved]
  simp

theorem dmaGot_into (s : State) (d : Die) (c : Cluster) (number a : Nat) (k : AccKind) (data : List (Byte × Bool)) :
    dmaGot s d c number (some (a, k)) data = dmaWrite s d c number a k data := rfl

/-- A stretch read whole, its reads in order: the state in which it is used is that of the access's return. -/
theorem dmaGot_whole {number : Nat} {r : Running} {data : List (Byte × Bool)} (hr : runningOf s d c number = some r)
    (hwhole : (r.got ++ data).length = r.need) : dmaGot s d c number none data = gotStretch s d c r (r.got ++ data) := by
  unfold dmaGot
  rw [hr]
  exact if_neg (by omega)

theorem gotStretch_packs {r : Running} {got : List (Byte × Bool)} (hchecked : r.checking = false) (hop : r.post.op = 2) :
    gotStretch s d c r got
      = placeBlock s d c r ((packRow s d r.post r.done (got.map Prod.fst)).map (fun b => (b, got.any Prod.snd))) := by
  simp only [gotStretch, hchecked, hop, Bool.false_eq_true, if_false, if_true]

theorem gotStretch_verifies {r : Running} {got : List (Byte × Bool)} (hchecked : r.checking = false) (hop : r.post.op = 3) :
    gotStretch s d c r got
      = placeBlock (if blockPasses (got.map Prod.fst) then s else s.raise (Report.plain .blockCheck d.val c.val .dma r.dst)) d c r
          (got.map (fun b => (b.1, b.2 || !blockPasses (got.map Prod.fst)))) := by
  simp [gotStretch, hchecked, hop]

section
variable {i : Nat} {a : Access} (ha : (s.die d).accs[i]? = some a) (hserved : a.served = true) (hret : a.ret ≤ s.beat d)
  (horder : ((s.die d).accs.take i).any (fun b => sameOrder b a) = false)
include ha hserved hret horder

theorem post_returns {dp : Die} {q : Option CoreId} (hdest : a.dest = .post dp c q) : Runs (.storeReadReturn d i) s fun t =>
    StoresKept s t ∧ t.regs = s.regs
      ∧ (t.dma d c).queue = (s.dma d c).queue.map (fun p => if p.stamp = a.stamp ∧ p.ready = false then p.fill a.data else p) := by
  have hrun := storeReadReturn_returns ha hserved hret horder (by rw [hdest]; simp)
  simp only [accessBack, hdest] at hrun
  refine ⟨_, hrun, ⟨rfl, rfl, rfl, rfl⟩, rfl, ?_⟩
  rw [fillPost, State.dma_setDma_same]
  rfl

theorem copy_returns {dp : Die} {n dst : Nat} {k : AccKind} (hdest : a.dest = .dma dp c n (some (dst, k))) (hkind : a.kind = .read) :
    Runs (.storeReadReturn d i) s fun t => MovesAll d c n k dst a.data t ∧ StoresKept s t
      ∧ (a.data.any Prod.snd = true → t.fld (.dmaQstatus d c) F.dmaQstatus_POISON = 1)
      ∧ (a.data.any Prod.snd = false → t.regs = s.regs) := by
  have hrun := storeReadReturn_returns ha hserved hret horder (by rw [hdest]; simp)
  simp only [accessBack, hdest, hkind, dmaGot_into] at hrun
  refine ⟨_, hrun, movesAll_dmaWrite d _ c n dst k a.data, (dmaWrite_notes ..).1, fun hbad => fld_poison_dmaWrite _ _ _ _ _ _ hbad,
    fun hclean => ?_⟩
  rw [moved_regs (moved_dmaWrite_clean d _ c n dst k hclean)]
  rfl

theorem stretch_returns {dp : Die} {n : Nat} {r : Running} (hdest : a.dest = .dma dp c n none) (hkind : a.kind = .read)
    (hr : runningOf s d c n = some r) (hwhole : (r.got ++ a.data).length = r.need) :
    exec (.storeReadReturn d i) s
      = .next (gotStretch (s.setDie d { s.die d with accs := (s.die d).accs.eraseIdx i }) d c r (r.got ++ a.data)) := by
  have hrun := storeReadReturn_returns ha hserved hret horder (by rw [hdest]; simp)
  simp only [accessBack, hdest, hkind] at hrun
  exact hrun.trans (congrArg Host.Outcome.next (dmaGot_whole hr hwhole))

theorem stretch_clause {dp : Die} {n : Nat} {r : Running} {got : List (Byte × Bool)} (hdest : a.dest = .dma dp c n none)
    (hkind : a.kind = .read) (hr : runningOf s d c n = some r) (hgot : got = r.got ++ a.data) (hchecked : r.checking = false)
    (hwhole : got.length = r.need) :
    (∀ blk, r.post.op = 2 → blk = (packRow s d r.post r.done (got.map Prod.fst)).map (fun b => (b, got.any Prod.snd)) →
          Runs (.storeReadReturn d i) s fun t => MovesAll d c n (writeKind r.post.dst 0) r.dst blk t ∧ StoresKept s t ∧ Raises s t []) ∧
    (∀ blk, r.post.op = 3 → blk = got.map (fun b => (b.1, b.2 || !blockPasses (got.map Prod.fst))) →
          Runs (.storeReadReturn d i) s fun t => MovesAll d c n (writeKind r.post.dst 0) r.dst blk t ∧ StoresKept s t
            ∧ (blockPasses (got.map Prod.fst) = true → Raises s t [])
            ∧ (blockPasses (got.map Prod.fst) = false → Raises s t [Report.plain .blockCheck d.val c.val .dma r.dst])) := by
  subst hgot
  have hrun := stretch_returns ha hserved hret horder hdest hkind hr hwhole
  have hnumber : r.number = n := by simpa using List.find?_some hr
  refine ⟨fun blk hop hblk => ?_, fun blk hop hblk => ?_⟩
  · rw [gotStretch_packs hchecked hop] at hrun
    refine ⟨_, hrun, ?_⟩
    obtain ⟨hmoves, hstores, hraises⟩ := placeBlock_places (s.setDie d { s.die d with accs := (s.die d).accs.eraseIdx i }) d c r blk
    subst hblk hnumber
    exact ⟨hmoves, hstores, hraises⟩
  · rw [gotStretch_verifies hchecked hop, ← hblk] at hrun
    refine ⟨_, hrun, ?_⟩
    subst hnumber
    cases blockPasses ((r.got ++ a.data).map Prod.fst) with
    | true =>
      obtain ⟨hmoves, hstores, hraises⟩ := placeBlock_places (s.setDie d { s.die d with accs := (s.die d).accs.eraseIdx i }) d c r blk
      exact ⟨hmoves, hstores, fun _ => hraises, nofun⟩
    | false =>
      obtain ⟨hmoves, hstores, hraises⟩ := placeBlock_places ((s.setDie d { s.die d with accs := (s.die d).accs.eraseIdx i }).raise
        (Report.plain .blockCheck d.val c.val .dma r.dst)) d c r blk
      refine ⟨hmoves, hstores, nofun, fun _ => ?_⟩
      exact raises_trans (raises_raise _ _) hraises rfl

end

end

end Sys2Proof.Machine
end

section
/-! ### Descriptors that start (R277 to R279, R284) -/

namespace Sys2Proof.Machine

section
variable {s t : State} {d : Die} {c : Cluster} {p : Post} {rest : List Post} {mine : Nat → Bool}

/-- A descriptor that starts, as its DMA first holds it. -/
def firstRun (s : State) (d : Die) (c : Cluster) (p : Post) : Running :=
  { post := p, number := nextXfer s d c, start := s.beat d, bridged := 0, frames := 0, met := false, remotePoison := false
    checking := readsTable s p, rows := [], got := [], need := 0, dst := p.dst, done := 0 }

/-- The state in which a descriptor has left the queue and runs. -/
def startedState (s : State) (d : Die) (c : Cluster) (p : Post) (rest : List Post) : State :=
  s.setDma d c { s.dma d c with
    queue := rest, active := (s.dma d c).active ++ [firstRun s d c p], nextNumber := (s.dma d c).nextNumber + 1 }

/-- The head of a queue starts: BLOCKS reads its table; any other is judged, and runs or is rejected. -/
theorem startHead_eq (h : AtHead s d c p rest) (hmine : mine p.op = true) :
    startHead d c mine s =
      if readsTable s p then
        nextStretch (onRunning (startedState s d c p rest) d c (nextXfer s d c) (fun r => { r with rows := [(p.arg, 4)] })) d c (nextXfer s d c)
      else match postCause s p none with
        | some cause => descError (s.setDma d c { s.dma d c with queue := rest }) d c p.addr cause
        | none => moveBytes (startedState s d c p rest) d c (nextXfer s d c) p [] := by
  obtain ⟨hqueue, hready, hroom, hfence, hup⟩ := h
  have hfenced : (p.fence && !(s.dma d c).active.isEmpty) = false := by
    cases hf : p.fence with
    | false => rfl
    | true => simp [hfence hf]
  have hmay : (!p.ready || !mine p.op || decide (4 ≤ (s.dma d c).active.length) || (p.fence && !(s.dma d c).active.isEmpty)
      || !s.dieUp d) = false := by simp [hready, hmine, hfenced, hup, Nat.not_le.mpr hroom]
  rw [startHead, hqueue]
  dsimp only
  rw [if_neg (by simp [hmay])]
  rfl

theorem startHead_moves (h : AtHead s d c p rest) (hmine : mine p.op = true) (htable : readsTable s p = false)
    (hcause : postCause s p none = none) : startHead d c mine s = moveBytes (startedState s d c p rest) d c (nextXfer s d c) p [] := by
  rw [startHead_eq h hmine, htable, hcause]
  rfl

theorem startHead_rejects (h : AtHead s d c p rest) (hmine : mine p.op = true) (htable : readsTable s p = false) {cause : Nat}
    (hcause : postCause s p none = some cause) :
    startHead d c mine s = descError (s.setDma d c { s.dma d c with queue := rest }) d c p.addr cause := by
  rw [startHead_eq h hmine, htable, hcause]
  rfl

theorem startHead_reads (h : AtHead s d c p rest) (hmine : mine p.op = true) (htable : readsTable s p = true) :
    startHead d c mine s = nextStretch (onRunning (startedState s d c p rest) d c (nextXfer s d c)
      (fun r => { r with rows := [(p.arg, 4)] })) d c (nextXfer s d c) := by
  rw [startHead_eq h hmine, if_pos htable]

theorem started_of_moved (h : Moved d (startedState s d c p rest) t) : Started d c p rest s t := by
  refine ⟨(h.queues d c).trans ?_, (h.posts d c).trans ?_, (moved_regs h).trans rfl, (moved_ctxs h).trans rfl,
    (moved_cores h).trans rfl,
    storesKept_trans (t := startedState s d c p rest) ⟨rfl, rfl, rfl, rfl⟩ (moved_stores h),
    raises_of_reports ((moved_reports h).trans rfl)⟩
  · rw [startedState, State.dma_setDma_same]
  · rw [startedState, State.dma_setDma_same, List.map_append]
    rfl

/-- The running descriptor with a number, after a change that keeps its number. -/
theorem runningOf_onRunning (s : State) (d : Die) (c : Cluster) (number : Nat) {f : Running → Running} (hf : ∀ r, (f r).number = r.number) :
    runningOf (onRunning s d c number f) d c number = (runningOf s d c number).map f := by
  have hkept (r : Running) : (if r.number = number then f r else r).number = r.number := by
    split
    · exact hf r
    · rfl
  rw [runningOf, onRunning, State.dma_setDma_same, List.find?_map]
  simp only [Function.comp_def, hkept]
  rw [runningOf]
  cases hr : (s.dma d c).active.find? (fun r => decide (r.number = number)) with
  | none => rfl
  | some r =>
    have hnumber : r.number = number := by simpa using List.find?_some hr
    simp [hnumber]

theorem runningOf_started (s : State) (d : Die) (c : Cluster) (p : Post) (rest : List Post) :
    ∃ r, runningOf (startedState s d c p rest) d c (nextXfer s d c) = some r := by
  refine Option.isSome_iff_exists.mp (List.find?_isSome.mpr ⟨firstRun s d c p, ?_, decide_eq_true rfl⟩)
  rw [startedState, State.dma_setDma_same]
  exact List.mem_append_right _ (List.mem_singleton.mpr rfl)

/-- A descriptor that starts with stretches to gather reads the first one. -/
theorem started_gathers (s : State) (d : Die) (c : Cluster) (p : Post) (rest : List Post) {a n : Nat} (l : List (Nat × Nat)) :
    Started d c p rest s (nextStretch (onRunning (startedState s d c p rest) d c (nextXfer s d c)
        (fun r => { r with rows := (a, n) :: l })) d c (nextXfer s d c))
      ∧ Gathers d c (nextXfer s d c) a n (nextStretch (onRunning (startedState s d c p rest) d c (nextXfer s d c)
        (fun r => { r with rows := (a, n) :: l })) d c (nextXfer s d c)) := by
  obtain ⟨r, hr⟩ := runningOf_started s d c p rest
  refine ⟨started_of_moved (moved_trans (moved_onRunning d d _ c _) (moved_nextStretch ..)), gathers_nextStretch (rest := l) ?_⟩
  rw [runningOf_onRunning _ _ _ _ (by exact fun _ => rfl), hr]
  rfl

theorem any_fillRow (w : Word) (n : Nat) : (fillRow w n).any Prod.snd = false := by simp [fillRow]

section
variable (number : Nat)

theorem moveBytes_copy (hlen : 0 < p.len) (hop : p.op = 0) (tbl : List Nat) : Moved d s (moveBytes s d c number p tbl) ∧
    ∀ r, r < p.rows → ∀ g ∈ pieces d (p.src + r * p.srcStride) p.len, Moves d c number .read g.1 g.2 []
      (some (p.dst + r * p.dstStride + (g.1 - (p.src + r * p.srcStride)), writeKind p.dst p.etype)) (moveBytes s d c number p tbl) := by
  rw [moveBytes, if_neg (by omega), hop]
  refine ⟨moved_foldl _ (fun _ _ _ => moved_dmaRead ..) s, fun r hr => ?_⟩
  exact foldl_establishes (moved_refl d) (fun _ _ _ => moved_trans) (P := fun r t => ∀ g ∈ pieces d (p.src + r * p.srcStride) p.len,
      Moves d c number .read g.1 g.2 [] (some (p.dst + r * p.dstStride + (g.1 - (p.src + r * p.srcStride)), writeKind p.dst p.etype)) t)
    (fun _ _ => moved_dmaRead ..) (fun t r => moves_dmaRead d t c number _ _ (some _)) (fun r t u h hm g hg => moves_of_moved (h g hg) hm)
    (List.range p.rows) s r (List.mem_range.mpr hr)

theorem moveBytes_fill (hlen : 0 < p.len) (hop : p.op = 1) (tbl : List Nat) : Moved d s (moveBytes s d c number p tbl) ∧
    ∀ r, r < p.rows → MovesAll d c number (writeKind p.dst 0) (p.dst + r * p.dstStride) (fillRow (p.w 4) p.len)
      (moveBytes s d c number p tbl) := by
  rw [moveBytes, if_neg (by omega), hop]
  have hmoved (t : State) (r : Nat) : Moved d t (dmaWrite t d c number (p.dst + r * p.dstStride) (writeKind p.dst 0) (fillRow (p.w 4) p.len)) :=
    moved_dmaWrite_clean d t c number _ _ (any_fillRow _ _)
  refine ⟨moved_foldl _ (fun t r _ => hmoved t r) s, fun r hr => ?_⟩
  exact foldl_establishes (moved_refl d) (fun _ _ _ => moved_trans)
    (P := fun r t => MovesAll d c number (writeKind p.dst 0) (p.dst + r * p.dstStride) (fillRow (p.w 4) p.len) t)
    hmoved (fun t r => movesAll_dmaWrite d t c number _ _ _) (fun r t u h hm => movesAll_of_moved h hm)
    (List.range p.rows) s r (List.mem_range.mpr hr)

/-- The stretches of a PACK, its first row before the others. -/
theorem packStretches_cons (p : Post) :
    ∃ l, (List.range p.rows).map (fun i => (p.src + i * p.srcStride, p.len)) = (p.src, p.len) :: l := by
  have hrows : p.rows = bitsOf (p.w 0) 47 32 + 1 := rfl
  rw [hrows, List.range_succ_eq_map, List.map_cons, Nat.zero_mul]
  exact ⟨_, rfl⟩

theorem moveBytes_pack (hlen : 0 < p.len) (hop : p.op = 2) (tbl : List Nat) : ∃ l, moveBytes s d c number p tbl
    = nextStretch (onRunning s d c number (fun r => { r with rows := (p.src, p.len) :: l })) d c number := by
  obtain ⟨l, hl⟩ := packStretches_cons p
  refine ⟨l, ?_⟩
  rw [moveBytes, if_neg (by omega), hop, hl]
  rfl

end

/-- A rejected descriptor leaves its queue and moves nothing (R278). -/
theorem descError_rejects (s : State) (d : Die) (c : Cluster) (p : Post) (rest : List Post) (cause : Nat) {t : State}
    (ht : t = descError (s.setDma d c { s.dma d c with queue := rest }) d c p.addr cause) :
    t.dma d c = { s.dma d c with queue := rest } ∧ t.fld (.dmaQstatus d c) F.dmaQstatus_ERROR = 1
      ∧ t.fld (.dmaQstatus d c) F.dmaQstatus_CAUSE = cause % 16 ∧ t.fld (.dmaErrDesc d c) F.dmaErrDesc_ADDR = p.addr % 2 ^ 48
      ∧ Raises s t [{ Report.plain (causeSource cause) d.val c.val .dma p.addr with detail := cause }] ∧ StoresKept s t
      ∧ t.dies = s.dies := by
  subst ht
  generalize hu : s.setDma d c { s.dma d c with queue := rest } = u
  obtain ⟨hcause, herror, haddr⟩ := qstatus_fld_descError u d c p.addr cause
  refine ⟨?_, herror, hcause, haddr, ?_, ?_, ?_⟩
  · rw [dma_descError, ← hu, State.dma_setDma_same]
  · exact raises_trans (raises_of_reports (hu ▸ rfl)) (raises_descError ..) (hu ▸ rfl)
  · exact ⟨by simp [descError, ← hu], by simp [descError, ← hu], by simp [descError, ← hu], by simp [descError, ← hu]⟩
  · simp [descError, ← hu]

/-- A descriptor at the head of its queue, judged without a table (R277 to R279). -/
theorem start_clause (h : AtHead s d c p rest) (htable : readsTable s p = false) :
    (postCause s p none = none → 0 < p.len →
        (p.op = 0 → Runs (.dmaCopy d c) s fun t => Started d c p rest s t ∧ ∀ r, r < p.rows →
          ∀ g ∈ pieces d (p.src + r * p.srcStride) p.len, Moves d c (nextXfer s d c) .read g.1 g.2 []
            (some (p.dst + r * p.dstStride + (g.1 - (p.src + r * p.srcStride)), writeKind p.dst p.etype)) t) ∧
        (p.op = 1 → Runs (.dmaFill d c) s fun t => Started d c p rest s t ∧ ∀ r, r < p.rows →
          MovesAll d c (nextXfer s d c) (writeKind p.dst 0) (p.dst + r * p.dstStride) (fillRow (p.w 4) p.len) t) ∧
        (p.op = 2 → Runs (.dmaPack d c) s fun t => Started d c p rest s t ∧ Gathers d c (nextXfer s d c) p.src p.len t)) ∧
      (postCause s p none = none → p.len = 0 →
        ∀ k ∈ ([(.dmaCopy d c, 0), (.dmaFill d c, 1), (.dmaPack d c, 2), (.dmaBlocks d c, 3)] : List (Instr × Nat)), p.op = k.2 →
          Runs k.1 s fun t => Started d c p rest s t ∧ t.dies = s.dies) ∧
      (∀ cause, postCause s p none = some cause →
        ∀ k ∈ ([(.dmaCopy d c, [0, 4, 5, 6, 7, 8, 9, 10, 11, 12, 13, 14, 15]), (.dmaFill d c, [1]), (.dmaPack d c, [2]),
            (.dmaBlocks d c, [3])] : List (Instr × List Nat)), p.op ∈ k.2 →
          Runs k.1 s fun t => t.dma d c = { s.dma d c with queue := rest } ∧ t.fld (.dmaQstatus d c) F.dmaQstatus_ERROR = 1
            ∧ t.fld (.dmaQstatus d c) F.dmaQstatus_CAUSE = cause % 16 ∧ t.fld (.dmaErrDesc d c) F.dmaErrDesc_ADDR = p.addr % 2 ^ 48
            ∧ Raises s t [{ Report.plain (causeSource cause) d.val c.val .dma p.addr with detail := cause }] ∧ StoresKept s t
            ∧ t.dies = s.dies) := by
  refine ⟨fun hnone hlen => ⟨fun hop => ?_, fun hop => ?_, fun hop => ?_⟩, fun hnone hlen => ?_, fun cause hcause => ?_⟩
  · obtain ⟨hmoved, hrows⟩ := moveBytes_copy (s := startedState s d c p rest) (d := d) (c := c) (nextXfer s d c) hlen hop []
    exact ⟨_, congrArg Host.Outcome.next (startHead_moves h (by simp [hop]) htable hnone), started_of_moved hmoved, hrows⟩
  · obtain ⟨hmoved, hrows⟩ := moveBytes_fill (s := startedState s d c p rest) (d := d) (c := c) (nextXfer s d c) hlen hop []
    exact ⟨_, congrArg Host.Outcome.next (startHead_moves h (by simp [hop]) htable hnone), started_of_moved hmoved, hrows⟩
  · obtain ⟨l, hl⟩ := moveBytes_pack (s := startedState s d c p rest) (d := d) (c := c) (nextXfer s d c) hlen hop []
    exact ⟨_, congrArg Host.Outcome.next ((startHead_moves h (by simp [hop]) htable hnone).trans hl), started_gathers s d c p rest l⟩
  · have hrun {mine : Nat → Bool} (hmine : mine p.op = true) : startHead d c mine s = startedState s d c p rest := by
      rw [startHead_moves h hmine htable hnone, moveBytes, if_pos hlen]
    have hstarted : Started d c p rest s (startedState s d c p rest) ∧ (startedState s d c p rest).dies = s.dies :=
      ⟨started_of_moved (moved_refl d _), rfl⟩
    simp only [List.forall_mem_cons, List.not_mem_nil, false_implies, implies_true, and_true]
    exact ⟨fun hop => ⟨_, congrArg Host.Outcome.next (hrun (by simp [hop])), hstarted⟩,
      fun hop => ⟨_, congrArg Host.Outcome.next (hrun (by simp [hop])), hstarted⟩,
      fun hop => ⟨_, congrArg Host.Outcome.next (hrun (by simp [hop])), hstarted⟩,
      fun hop => ⟨_, congrArg Host.Outcome.next (hrun (by simp [hop])), hstarted⟩⟩
  · have hrun {mine : Nat → Bool} (hmine : mine p.op = true) := startHead_rejects h hmine htable hcause
    have hrejects := descError_rejects s d c p rest cause rfl
    simp only [List.forall_mem_cons, List.not_mem_nil, false_implies, implies_true, and_true]
    refine ⟨fun hop => ⟨_, congrArg Host.Outcome.next (hrun ?_), hrejects⟩, fun hop => ⟨_, congrArg Host.Outcome.next (hrun ?_), hrejects⟩,
      fun hop => ⟨_, congrArg Host.Outcome.next (hrun ?_), hrejects⟩, fun hop => ⟨_, congrArg Host.Outcome.next (hrun ?_), hrejects⟩⟩
    · simp only [List.mem_cons, List.not_mem_nil, or_false] at hop
      simp only [Bool.or_eq_true, beq_iff_eq, decide_eq_true_eq]
      omega
    · simpa using hop
    · simpa using hop
    · simpa using hop

theorem table_clause (h : AtHead s d c p rest) (htable : readsTable s p = true) : Runs (.dmaBlocks d c) s fun t =>
    Started d c p rest s t ∧ Gathers d c (nextXfer s d c) p.arg 4 t := by
  have hop : p.op = 3 := by
    simp only [readsTable, Bool.and_eq_true, beq_iff_eq] at htable
    exact htable.1.1.1.1
  exact ⟨_, congrArg Host.Outcome.next (startHead_reads h (by simp [hop]) htable), started_gathers s d c p rest []⟩

end

end Sys2Proof.Machine
end

section
/-! ### Memory outside the stores, where no error waits (R203, R446) -/

namespace Sys2Proof.Machine

theorem spread_clean (bs : List Byte) : spread (bs.map (·, false)) = bs.map (·, false) := by simp [spread]

section
variable {s : State} (hlatent : s.latent = [])
include hlatent

theorem readAt_of_latent (a n : Nat) : readAt s a n = s := by
  have hword (k w : Nat) : readHbmWord s k w = s := by simp [readHbmWord, hlatent]
  rw [readAt]
  split
  · exact List.foldl_fixed' (fun _ => hword _ _) _
  · exact readStore_of_latent hlatent _ _
  · rfl

theorem readEnds_of_latent (a n : Nat) : readEnds s a n = s := by
  simp only [readEnds, readAt_of_latent hlatent, ite_self]

/-- Clean bytes written outside the stores, where memory still serves. -/
theorem writeAt_clean {a : Nat} (bs : List Byte) (hplace : ∀ d st u w off, placeOf a ≠ .store d st u w off)
    (hholds : tierHolds s a bs.length = true) : writeAt s a .write (bs.map (·, false)) = s.pokeClean a bs := by
  rw [writeAt, List.length_map, if_pos hholds]
  split
  case h_1 hstore => exact absurd hstore (hplace _ _ _ _ _)
  case h_2 => rw [readEnds_of_latent hlatent, spread_clean, State.pokeClean]
  case h_3 => rw [State.pokeClean]

end

/-- What clean bytes written at an address leave: the bytes there, and all else as it was. -/
theorem pokeClean_writes {s : State} (hwf : Mem.wf s.mem = true) (a : Nat) (bs : List Byte) :
    (s.pokeClean a bs).bytes a bs.length = bs ∧ MemKeptBut a bs.length s (s.pokeClean a bs) := by
  refine ⟨?_, memKeptBut_write hwf (pokeClean_mem s a bs)⟩
  rw [State.bytes, pokeClean_mem]
  exact Mem.read_write hwf a bs

end Sys2Proof.Machine
end

section
/-! ### Descriptors that complete (R279, R281) -/

namespace Sys2Proof.Machine

section
variable {s t : State} {d : Die} {c : Cluster} {i : Nat} {r : Running}

theorem closeUsed_idle {p : Post} (h : ∀ w, p.uses w = true → s.fld (.dmaRwinA w) F.dmaRwinA_STATE ≠ 4) : closeUsed s p = s := by
  refine List.foldl_fixed' (fun w => ?_) _
  by_cases huses : p.uses w = true
  · rw [if_pos huses, closeWindow, if_neg fun hclosing => h w huses hclosing.1]
  · rw [if_neg huses]

theorem regsKept_mono {L M : List Reg} (h : RegsKept L s t) (hL : L ⊆ M) : RegsKept M s t := fun k hk => h k fun hmem => hk (hL hmem)

theorem regsKept_syncFault (s : State) (d : Die) (code phys : Nat) (src : Source) (ctx : Option CtxRef) (unit : Nat) :
    RegsKept [.syncStatus d] s (syncFault s d code phys src ctx unit) := by
  intro k hk
  have hne : k ≠ .syncStatus d := by simpa using hk
  rw [syncFault, State.reg_raise, State.reg_setFld_ne _ _ _ hne, State.reg_setFld_ne _ _ _ hne]

theorem regsKept_ctrAdd (s : State) (d : Die) (n amt : Nat) : RegsKept [.syncStatus d, ctrReg d n] s (ctrAdd s d n amt) := by
  have hctr (w : Word) : RegsKept [.syncStatus d, ctrReg d n] s (s.setReg (ctrReg d n) w) := regsKept_setReg s w (by simp)
  rw [ctrAdd]
  dsimp only
  split
  · split
    · exact hctr _
    · exact regsKept_trans (hctr _) (regsKept_mono (regsKept_syncFault _ d 3 n .ctrSat none 0) (by simp))
  · exact hctr _

theorem regsKept_syncMisuse (s : State) (d : Die) (phys : Nat) (ctx : Option CtxRef) (unit : Nat) :
    RegsKept [.syncStatus d] s (syncMisuse s d phys ctx unit) := by
  rw [syncMisuse]
  exact regsKept_trans (regsKept_addFld s _ _ List.mem_cons_self) (regsKept_syncFault _ d 1 phys .misuse ctx unit)

/-- A descriptor's signal changes no register but its counter and the status of its unit. -/
theorem regsKept_postSignal (s : State) (d : Die) (c : Cluster) (r : Running) :
    RegsKept [.syncStatus d, ctrReg d r.post.sigPhys] s (postSignal s d c r) := by
  rw [postSignal]
  dsimp only
  split
  · exact regsKept_refl s _
  · split
    · split
      · exact regsKept_ctrAdd s d _ _
      · exact regsKept_mono (regsKept_syncMisuse s d _ none 0) (by simp)
    · exact regsKept_of_regs rfl
    · exact regsKept_of_regs rfl

theorem storesKept_ctrAdd (s : State) (d : Die) (n amt : Nat) : StoresKept s (ctrAdd s d n amt) := by
  rw [ctrAdd]
  dsimp only
  split
  · split
    · exact ⟨rfl, rfl, rfl, rfl⟩
    · exact ⟨rfl, rfl, rfl, rfl⟩
  · exact ⟨rfl, rfl, rfl, rfl⟩

theorem dmas_ctrAdd (s : State) (d : Die) (n amt : Nat) : (ctrAdd s d n amt).dmas = s.dmas := by
  rw [ctrAdd]
  dsimp only
  split
  · split
    · rfl
    · rfl
  · rfl

theorem dma_sendSig (s : State) (d : Die) (route ring pos win addr : Nat) (p : SigPacket) (xfer : Nat) (e : Die) (c : Cluster) :
    (sendSig s d route ring pos win addr p xfer).dma e c = s.dma e c := rfl

theorem postSignal_keeps (s : State) (d : Die) (c : Cluster) (r : Running) :
    StoresKept s (postSignal s d c r) ∧ ((postSignal s d c r).dma d c).active = (s.dma d c).active := by
  rw [postSignal]
  dsimp only
  split
  · exact ⟨storesKept_refl s, rfl⟩
  · split
    · split
      · exact ⟨storesKept_ctrAdd .., by rw [State.dma, dmas_ctrAdd, State.dma]⟩
      · exact ⟨⟨rfl, rfl, rfl, rfl⟩, rfl⟩
    · exact ⟨⟨rfl, rfl, rfl, rfl⟩, rfl⟩
    · refine ⟨⟨rfl, rfl, rfl, rfl⟩, ?_⟩
      rw [dma_sendSig, State.dma_setDma_same]

/-- A counter that does not saturate takes what is added to it (R344). -/
theorem counterValue_ctrAdd {n amt : Nat} (hn : n < 8192) (h : counterValue s d n + amt < 2 ^ 48) :
    counterValue (ctrAdd s d n amt) d n = counterValue s d n + amt := by
  have hreg : ctrReg d n = .syncCtr d ⟨n, hn⟩ := by simp only [ctrReg, Nat.mod_eq_of_lt hn]
  simp only [counterValue, dif_pos hn] at h ⊢
  rw [ctrAdd, hreg]
  dsimp only
  rw [if_neg (by omega), State.reg_setReg_same, bitsOf_putBits_same _ _ _ _ (by decide)]
  exact Nat.mod_eq_of_lt h

theorem signalable_of_regsKept {L : List Reg} {phys : Nat} (h : RegsKept L s t) (hmap : ∀ i, Reg.syncCrdMap d i ∉ L) :
    signalable t d phys = signalable s d phys := by
  have hpair : (creditPair t d (phys / 2)).1 = (creditPair s d (phys / 2)).1 := by
    simp only [creditPair]
    split
    · exact congrArg (bitsOf · _ _ == 1) (h _ (hmap _))
    · rfl
  rw [signalable, hpair, signalable]

/-- The state in which a descriptor has completed: it runs no more, and is counted (R281). -/
def countedState (s : State) (d : Die) (c : Cluster) (i : Nat) : State :=
  (s.setDma d c { s.dma d c with active := (s.dma d c).active.eraseIdx i }).addFld (.dmaDoneCount d c) F.dmaDoneCount_COUNT 1

theorem regsKept_countedState (s : State) (d : Die) (c : Cluster) (i : Nat) : RegsKept [.dmaDoneCount d c] s (countedState s d c i) :=
  regsKept_addFld _ _ _ List.mem_cons_self

section
variable (hr : (s.dma d c).active[i]? = some r)
include hr

theorem descComplete_completes (hstart : r.start < s.beat d) (hchecked : r.checking = false) (hneed : r.need = 0)
    (htxns : (s.die d).txns.any (fun t => t.ofDesc c r.number) = false)
    (haccs : (s.die d).accs.any (fun a => a.ofDesc d c r.number) = false) :
    descComplete d c i s = closeUsed (postSignal (countedState s d c i) d c r) r.post := by
  rw [descComplete]
  simp only [hr, hchecked, hneed, htxns, haccs, Nat.not_le.mpr hstart, decide_false, Bool.or_false, ne_eq, not_true, Bool.false_eq_true,
    if_false]
  rfl

theorem descComplete_waits (h : s.beat d ≤ r.start ∨ (s.die d).txns.any (fun t => t.ofDesc c r.number) = true
    ∨ (s.die d).accs.any (fun a => a.ofDesc d c r.number) = true) : descComplete d c i s = s := by
  rw [descComplete]
  simp only [hr]
  refine if_pos ?_
  rcases h with h | h | h <;> simp [h]

theorem complete_clause :
    (r.start < s.beat d → r.checking = false → r.need = 0 → (s.die d).txns.any (fun t => t.ofDesc c r.number) = false →
        (s.die d).accs.any (fun a => a.ofDesc d c r.number) = false →
        (∀ w, r.post.uses w = true → s.fld (.dmaRwinA w) F.dmaRwinA_STATE ≠ 4) → Runs (.dmaDescriptorComplete d c i) s fun t =>
          (t.dma d c).active = (s.dma d c).active.eraseIdx i
          ∧ t.fld (.dmaDoneCount d c) F.dmaDoneCount_COUNT = min (s.fld (.dmaDoneCount d c) F.dmaDoneCount_COUNT + 1) (2 ^ 48 - 1)
          ∧ StoresKept s t
          ∧ (r.post.sig = false → RegsKept [.dmaDoneCount d c] s t)
          ∧ (r.post.sig = true → r.post.scope = 0 → signalable s d r.post.sigPhys = true →
              counterValue s d r.post.sigPhys + r.post.inc < 2 ^ 48 →
              counterValue t d r.post.sigPhys = counterValue s d r.post.sigPhys + r.post.inc)) ∧
      (s.beat d ≤ r.start ∨ (s.die d).txns.any (fun t => t.ofDesc c r.number) = true
          ∨ (s.die d).accs.any (fun a => a.ofDesc d c r.number) = true → exec (.dmaDescriptorComplete d c i) s = .next s) := by
  refine ⟨fun hstart hchecked hneed htxns haccs hopen => ?_, fun h => congrArg Host.Outcome.next (descComplete_waits hr h)⟩
  have hdone := descComplete_completes hr hstart hchecked hneed htxns haccs
  have hcounted := regsKept_countedState s d c i
  have hsignal := regsKept_postSignal (countedState s d c i) d c r
  have hidle : closeUsed (postSignal (countedState s d c i) d c r) r.post = postSignal (countedState s d c i) d c r := by
    refine closeUsed_idle fun w huses => ?_
    have hreg : (postSignal (countedState s d c i) d c r).reg (.dmaRwinA w) = s.reg (.dmaRwinA w) :=
      (hsignal _ (by simp [ctrReg])).trans (hcounted _ (by simp))
    rw [State.fld, hreg]
    exact hopen w huses
  rw [hidle] at hdone
  obtain ⟨hstores, hactive⟩ := postSignal_keeps (countedState s d c i) d c r
  refine ⟨_, congrArg Host.Outcome.next hdone, ?_, ?_, ?_, fun hsig => ?_, fun hsig hscope hmay hfits => ?_⟩
  · rw [hactive, countedState, State.dma_addFld, State.dma_setDma_same]
  · rw [State.fld, hsignal _ (by simp [ctrReg])]
    exact State.fld_addFld_same _ _ _ _ (by decide)
  · exact storesKept_trans (t := countedState s d c i) ⟨rfl, rfl, rfl, rfl⟩ hstores
  · rw [postSignal, hsig]
    exact hcounted
  · have hmay' : signalable (countedState s d c i) d r.post.sigPhys = true := (signalable_of_regsKept hcounted (by simp)).trans hmay
    have hn : r.post.sigPhys < 8192 := by
      simp only [signalable, Bool.and_eq_true, decide_eq_true_eq] at hmay
      omega
    have hvalue : counterValue (countedState s d c i) d r.post.sigPhys = counterValue s d r.post.sigPhys := by
      simp only [counterValue, dif_pos hn, hcounted (.syncCtr d ⟨r.post.sigPhys, hn⟩) (by simp)]
    have hadded : postSignal (countedState s d c i) d c r = ctrAdd (countedState s d c i) d r.post.sigPhys r.post.inc := by
      simp only [postSignal, hsig, hscope, hmay', Bool.true_eq_false, if_false, if_true]
    rw [hadded, counterValue_ctrAdd hn (by rw [hvalue]; exact hfits), hvalue]

end

end

end Sys2Proof.Machine
end

section
/-! ### Transactions issued (R288 to R290) -/

namespace Sys2Proof.Machine

section
variable {s : State} {d : Die} {i : Nat} {x : Txn}

theorem slotOfAddr_of_store {a : Nat} {e : Die} {st : Store} {u w off : Nat} (h : placeOf a = .store e st u w off) : slotOfAddr a = none := by
  rw [slotOfAddr, h]

theorem windowCarries_of_slotless (s : State) (h : slotOfAddr x.addr = none) : windowCarries s x = true := by rw [windowCarries, h]

section
variable (hx : (s.die d).txns[i]? = some x)
include hx

theorem txnIssue_stands (h : x.issued = true ∨ windowCarries s x = false ∨ freeEntryFor s d x = none) : txnIssue d i s = s := by
  rw [txnIssue, hx]
  dsimp only
  split
  · rfl
  · next hmay =>
    simp only [Bool.or_eq_true, Bool.not_eq_true', not_or, Bool.not_eq_true, Bool.not_eq_false] at hmay
    rcases h with h | h | h
    · exact absurd h (by simp [hmay.1])
    · exact absurd h (by simp [hmay.2])
    · rw [h]

theorem txnIssue_sends (hissued : x.issued = false) (hcarries : windowCarries s x = true) {pool : Bool}
    (hfree : freeEntryFor s d x = some pool) : txnIssue d i s = sendTxn s d i { x with fromPool := pool } := by
  rw [txnIssue, hx]
  simp only [hissued, hcarries, hfree, Bool.not_true, Bool.or_self, Bool.false_eq_true, if_false]

end

/-- A transaction to memory has its entry, and needs nothing sent. -/
theorem sendTxn_memory {t : Txn} (hslot : slotOfAddr t.addr = none) (hanswers : t.answers = false) :
    sendTxn s d i t = setTxn s d i { t with issued := true } := by
  rw [sendTxn, hslot]
  dsimp only
  split
  · next hstore => rw [Txn.answers, hstore] at hanswers; cases hanswers
  · rfl

/-- One to the other die's stores goes before them as an access (R93, R198). -/
theorem sendTxn_store {t : Txn} {e : Die} {st : Store} {u w off : Nat} (hplace : placeOf t.addr = .store e st u w off) :
    ∃ a : Access, a.kind = t.kind ∧ a.addr = directAddr t.addr ∧ a.size = t.size ∧ a.data = t.data ∧ a.stamp = t.stamp ∧
      sendTxn s d i t = (setTxn s d i { t with issued := true }).setDie e { (setTxn s d i { t with issued := true }).die e with
        accs := ((setTxn s d i { t with issued := true }).die e).accs ++ [a] } := by
  rw [sendTxn, slotOfAddr_of_store hplace]
  simp only [hplace]
  exact ⟨_, rfl, rfl, rfl, rfl, rfl, rfl⟩

/-- One of a core through a window is sent as its frames (R288, R289, R405). -/
theorem sendTxn_window {t : Txn} {w : Fin 64} (hslot : slotOfAddr t.addr = some w) (howner : t.owner = .cores) :
    sendTxn s d i t = { setTxn s d i { t with issued := true } with remoteOut := s.remoteOut ++ remoteFrames s d w t t.pkt } := by
  rw [sendTxn, hslot]
  simp only [howner]
  rw [← howner]
  rfl

theorem txns_setTxn (s : State) (d : Die) (i : Nat) (t : Txn) : ((setTxn s d i t).die d).txns = (s.die d).txns.set i t := by
  rw [setTxn, State.die_setDie_same]

theorem freeEntryFor_reserved (h : (s.die d).txns.countP (fun u => u.issued && !u.fromPool && decide (u.owner = x.owner)) < reserveOf s d x.owner) :
    freeEntryFor s d x = some false := if_pos h

section
variable (h : reserveOf s d x.owner ≤ (s.die d).txns.countP (fun u => u.issued && !u.fromPool && decide (u.owner = x.owner)))
include h

theorem freeEntryFor_pool (hpool : poolUsed s d < 8192 - reserves s d) : freeEntryFor s d x = some true :=
  (if_neg (Nat.not_lt.mpr h)).trans (if_pos hpool)

theorem freeEntryFor_none (hpool : 8192 - reserves s d ≤ poolUsed s d) : freeEntryFor s d x = none :=
  (if_neg (Nat.not_lt.mpr h)).trans (if_neg (Nat.not_lt.mpr hpool))

end

theorem issue_clause (hx : (s.die d).txns[i]? = some x) (hissued : x.issued = false) :
    (∀ pool, freeEntryFor s d x = some pool →
        (slotOfAddr x.addr = none → x.answers = false → Runs (.transactionIssue d i) s fun t =>
          (t.die d).txns = (s.die d).txns.set i { x with issued := true, fromPool := pool } ∧ t.regs = s.regs ∧ t.mem = s.mem
            ∧ t.remoteOut = s.remoteOut) ∧
        (∀ e st u w off, placeOf x.addr = .store e st u w off → e ≠ d → Runs (.transactionIssue d i) s fun t =>
          (t.die d).txns = (s.die d).txns.set i { x with issued := true, fromPool := pool } ∧ t.regs = s.regs ∧ t.mem = s.mem
            ∧ ∃ a, (t.die e).accs = (s.die e).accs ++ [a] ∧ a.kind = x.kind ∧ a.addr = directAddr x.addr ∧ a.size = x.size
                ∧ a.data = x.data ∧ a.stamp = x.stamp) ∧
        (∀ w, slotOfAddr x.addr = some w → windowCarries s x = true → x.owner = .cores → Runs (.transactionIssue d i) s fun t =>
          (t.die d).txns = (s.die d).txns.set i { x with issued := true, fromPool := pool } ∧ t.regs = s.regs ∧ t.mem = s.mem
            ∧ t.remoteOut = s.remoteOut ++ remoteFrames s d w x x.pkt)) ∧
      ((s.die d).txns.countP (fun u => u.issued && !u.fromPool && decide (u.owner = x.owner)) < reserveOf s d x.owner →
        freeEntryFor s d x = some false) ∧
      (reserveOf s d x.owner ≤ (s.die d).txns.countP (fun u => u.issued && !u.fromPool && decide (u.owner = x.owner)) →
        (poolUsed s d < 8192 - reserves s d → freeEntryFor s d x = some true) ∧
        (8192 - reserves s d ≤ poolUsed s d → exec (.transactionIssue d i) s = .next s)) ∧
      (windowCarries s x = false → exec (.transactionIssue d i) s = .next s) := by
  refine ⟨fun pool hfree => ⟨fun hslot hanswers => ?_, fun e st u w off hplace he => ?_, fun w hslot hcarries howner => ?_⟩,
    freeEntryFor_reserved, fun hfull => ⟨freeEntryFor_pool hfull, fun hpool =>
      congrArg Host.Outcome.next (txnIssue_stands hx (.inr (.inr (freeEntryFor_none hfull hpool))))⟩,
    fun hno => congrArg Host.Outcome.next (txnIssue_stands hx (.inr (.inl hno)))⟩
  · have hsend := (txnIssue_sends hx hissued (windowCarries_of_slotless s hslot) hfree).trans
      (sendTxn_memory (s := s) (d := d) (i := i) (t := { x with fromPool := pool }) hslot hanswers)
    exact ⟨_, congrArg Host.Outcome.next hsend, txns_setTxn .., rfl, rfl, rfl⟩
  · have hsend := txnIssue_sends hx hissued (windowCarries_of_slotless s (slotOfAddr_of_store hplace)) hfree
    obtain ⟨a, hkind, haddr, hsize, hdata, hstamp, hsent⟩ := sendTxn_store (s := s) (d := d) (i := i)
      (t := { x with fromPool := pool }) hplace
    refine ⟨_, congrArg Host.Outcome.next (hsend.trans hsent), ?_, rfl, rfl, a, ?_, hkind, haddr, hsize, hdata, hstamp⟩
    · rw [State.die_setDie_ne _ _ he.symm, txns_setTxn]
    · rw [State.die_setDie_same, setTxn, State.die_setDie_ne _ _ he]
  · have hsend := (txnIssue_sends hx hissued hcarries hfree).trans
      (sendTxn_window (s := s) (d := d) (i := i) (t := { x with fromPool := pool }) hslot howner)
    exact ⟨_, congrArg Host.Outcome.next hsend, txns_setTxn .., rfl, rfl, rfl⟩

end

end Sys2Proof.Machine
end

section
/-! ### Transactions of cores that complete (R289, R290, R454) -/

namespace Sys2Proof.Machine

section
variable {s : State} {d : Die} {i : Nat} {x : Txn}

theorem noteRequest_tier (s : State) (a : Nat) : ∃ tier, noteRequest s a = { s with tier := tier } := by
  rw [noteRequest]
  split
  · exact ⟨_, rfl⟩
  · exact ⟨_, rfl⟩

/-- What only registers decide of a place. -/
theorem tierHolds_of_regs {s t : State} (h : t.regs = s.regs) (a n : Nat) : tierHolds t a n = tierHolds s a n := by
  simp only [tierHolds, tierServes, stackState, fld_of_regs h]
  rfl

/-- The state in which a transaction takes effect, its entry freed. -/
def freedState (s : State) (d : Die) (i : Nat) (a : Nat) : State :=
  noteRequest (s.setDie d { s.die d with txns := (s.die d).txns.eraseIdx i }) a

section
variable (hx : (s.die d).txns[i]? = some x)
include hx

theorem txnComplete_stands (hanswers : x.answers = true) (hreturned : x.returned = false) (u : Upset) : txnComplete d i u s = s := by
  rw [txnComplete, hx]
  simp only [hanswers, hreturned]
  exact if_pos (by simp)

theorem txnComplete_completes (hissued : x.issued = true) (howner : x.owner = .cores) (hidle : stepBusy s x.addr = false)
    (hback : x.answers = false ∨ x.returned = true) : txnComplete d i ⟨[], 0⟩ s
      = match slotOfAddr x.addr with
        | some w => closeWindow (txnEffect (freedState s d i x.addr) d x) w
        | none => txnEffect (freedState s d i x.addr) d x := by
  have hno : (!x.issued || (decide (x.owner ≠ .cores) && ((s.die d).txns.take i).any (fun o => decide (o.owner = x.owner ∧ o.number = x.number)))
      || (x.answers && !x.returned) || stepBusy s x.addr) = false := by
    rcases hback with h | h <;> simp [hissued, howner, hidle, h]
  rw [txnComplete, hx]
  dsimp only
  rw [hno]
  rfl

end

/-- A scalar load brought by a transaction (R289, R531). -/
theorem landRead_scalar {e : Die} {q : CoreId} {y : SlotId} {rd : Fin 32} {sx : Bool} (hdest : x.dest = some (.scalar e q y rd sx)) (u : State)
    (data : List (Byte × Bool)) :
    landRead u d x data = u.setCtx e q y ((u.ctx e q y).wrMark rd (loadValue data sx) (data.any Prod.snd)) := by
  rw [landRead, hdest]
  rfl

theorem freedState_tier (s : State) (d : Die) (i a : Nat) : ∃ tier, freedState s d i a
    = { s.setDie d { s.die d with txns := (s.die d).txns.eraseIdx i } with tier := tier } := noteRequest_tier _ a

/-- What a load to a scalar register leaves, once its transaction's entry is freed. -/
theorem scalar_lands {e : Die} {q : CoreId} {y : SlotId} {rd : Fin 32} {a : Nat} {v : Word} {bad : Bool} {t : State}
    (ht : t = (freedState s d i a).setCtx e q y ((s.ctx e q y).wrMark rd v bad)) :
    (t.die d).txns = (s.die d).txns.eraseIdx i ∧ (t.ctx e q y).rd rd = v ∧ (rd ∈ (t.ctx e q y).bad ↔ bad = true)
      ∧ OtherScalars rd (s.ctx e q y) (t.ctx e q y) ∧ OtherCtxs e q y s t ∧ t.mem = s.mem ∧ t.regs = s.regs := by
  obtain ⟨tier, hfreed⟩ := freedState_tier s d i a
  rw [hfreed] at ht
  have hctx : t.ctx e q y = (s.ctx e q y).wrMark rd v bad := ht ▸ State.ctx_setCtx_same ..
  refine ⟨?_, ?_, ?_, ?_, fun e' p z hne => ?_, ht ▸ rfl, ht ▸ rfl⟩
  · rw [ht]
    exact congrArg DieSt.txns (State.die_setDie_same s d _)
  · rw [hctx, rd_wrMark_same]
  · rw [hctx, mem_bad_wrMark]
  · rw [hctx]
    exact otherScalars_wrMark ..
  · rw [ht]
    exact State.ctx_setCtx_ne _ _ hne

theorem slotOfAddr_of_answerless {t : Txn} (h : t.answers = false) : slotOfAddr t.addr = none := by
  rw [slotOfAddr]
  split
  · next hremote => rw [Txn.answers, hremote] at h; cases h
  · rfl

theorem place_of_answerless {t : Txn} (h : t.answers = false) (e : Die) (st : Store) (u w off : Nat) :
    placeOf t.addr ≠ .store e st u w off := fun hstore => by
  rw [Txn.answers, hstore] at h
  cases h

section
variable (hx : (s.die d).txns[i]? = some x) (hissued : x.issued = true) (howner : x.owner = .cores) (hidle : stepBusy s x.addr = false)
include hx hissued howner hidle

/-- A load whose answer has come (R289). -/
theorem answered_load_completes {e : Die} {q : CoreId} {y : SlotId} {rd : Fin 32} {sx : Bool} (hkind : x.kind = .read)
    (hdest : x.dest = some (.scalar e q y rd sx)) (hreturned : x.returned = true) :
    Runs (.transactionComplete d i ⟨[], 0⟩) s fun t => (t.die d).txns = (s.die d).txns.eraseIdx i
      ∧ (t.ctx e q y).rd rd = loadValue x.data sx ∧ (rd ∈ (t.ctx e q y).bad ↔ x.data.any Prod.snd = true)
      ∧ OtherScalars rd (s.ctx e q y) (t.ctx e q y) ∧ OtherCtxs e q y s t ∧ t.mem = s.mem := by
  obtain ⟨tier, hfreed⟩ := freedState_tier s d i x.addr
  have hctx : (freedState s d i x.addr).ctx e q y = s.ctx e q y := by rw [hfreed]; rfl
  have heffect : txnEffect (freedState s d i x.addr) d x
      = (freedState s d i x.addr).setCtx e q y ((s.ctx e q y).wrMark rd (loadValue x.data sx) (x.data.any Prod.snd)) := by
    simp only [txnEffect, hkind, hreturned, if_true]
    rw [landRead_scalar hdest, hctx]
  obtain ⟨htxns, hrd, hbad, hothers, hctxs, hmem, -⟩ := scalar_lands heffect
  have hdone := txnComplete_completes hx hissued howner hidle (.inr hreturned)
  cases hslot : slotOfAddr x.addr with
  | none =>
    rw [hslot] at hdone
    exact ⟨_, congrArg Host.Outcome.next hdone, htxns, hrd, hbad, hothers, hctxs, hmem⟩
  | some w =>
    rw [hslot] at hdone
    refine ⟨_, congrArg Host.Outcome.next hdone, ?_⟩
    obtain ⟨regs, hclose⟩ := closeWindow_regs (txnEffect (freedState s d i x.addr) d x) w
    dsimp only
    rw [hclose]
    exact ⟨htxns, hrd, hbad, hothers, hctxs, hmem⟩

section
variable (hanswers : x.answers = false)
include hanswers

theorem memory_completes : txnComplete d i ⟨[], 0⟩ s = txnEffect (freedState s d i x.addr) d x := by
  rw [txnComplete_completes hx hissued howner hidle (.inl hanswers), slotOfAddr_of_answerless hanswers]

variable (hreturned : x.returned = false) (hlatent : s.latent = [])
include hreturned hlatent

/-- A load from memory (R289, R454). -/
theorem memory_load_completes {e : Die} {q : CoreId} {y : SlotId} {rd : Fin 32} {sx : Bool} (hkind : x.kind = .read)
    (hdest : x.dest = some (.scalar e q y rd sx)) : Runs (.transactionComplete d i ⟨[], 0⟩) s fun t =>
      (t.die d).txns = (s.die d).txns.eraseIdx i ∧ (t.ctx e q y).rd rd = loadValue (fetchAt s x.addr x.size) sx
        ∧ OtherScalars rd (s.ctx e q y) (t.ctx e q y) ∧ OtherCtxs e q y s t ∧ t.mem = s.mem ∧ t.regs = s.regs := by
  obtain ⟨tier, hfreed⟩ := freedState_tier s d i x.addr
  have hctx : (freedState s d i x.addr).ctx e q y = s.ctx e q y := by rw [hfreed]; rfl
  have hclean : (freedState s d i x.addr).latent = [] := by rw [hfreed]; exact hlatent
  have hfetch : fetchAt (freedState s d i x.addr) x.addr x.size = fetchAt s x.addr x.size := by
    rw [fetchAt, tierHolds_of_regs (s := s) (by rw [hfreed]; rfl), hfreed]
    rfl
  have heffect : txnEffect (freedState s d i x.addr) d x = (freedState s d i x.addr).setCtx e q y
      ((s.ctx e q y).wrMark rd (loadValue (fetchAt s x.addr x.size) sx) ((fetchAt s x.addr x.size).any Prod.snd)) := by
    simp only [txnEffect, hkind, hreturned, Bool.false_eq_true, if_false, readAt_of_latent hclean]
    rw [landRead_scalar hdest, hctx, hfetch]
  obtain ⟨htxns, hrd, -, hothers, hctxs, hmem, hregs⟩ := scalar_lands heffect
  exact ⟨_, congrArg Host.Outcome.next (memory_completes hx hissued howner hidle hanswers), htxns, hrd, hothers, hctxs,
    hmem, hregs⟩

/-- A store to memory (R289). -/
theorem memory_store_completes (hwf : Mem.wf s.mem = true) (hkind : x.kind = .write) (hdata : ∀ b ∈ x.data, b.2 = false)
    (hholds : tierHolds s x.addr x.size = true) (hsize : x.size = x.data.length) : Runs (.transactionComplete d i ⟨[], 0⟩) s fun t =>
      (t.die d).txns = (s.die d).txns.eraseIdx i ∧ t.bytes x.addr x.data.length = x.data.map Prod.fst
        ∧ MemKeptBut x.addr x.data.length s t ∧ t.ctxs = s.ctxs ∧ t.regs = s.regs := by
  obtain ⟨bs, hbs⟩ : ∃ bs : List Byte, x.data = bs.map (·, false) :=
    ⟨x.data.map Prod.fst, by rw [List.map_map]; exact (List.map_id _).symm.trans (List.map_congr_left fun b hb => Prod.ext rfl (hdata b hb))⟩
  obtain ⟨tier, hfreed⟩ := freedState_tier s d i x.addr
  have hclean : (freedState s d i x.addr).latent = [] := by rw [hfreed]; exact hlatent
  have hmem : (freedState s d i x.addr).mem = s.mem := by rw [hfreed]; rfl
  have hlen : x.data.length = bs.length := by rw [hbs, List.length_map]
  have hstill : tierHolds (freedState s d i x.addr) x.addr bs.length = true := by
    rw [tierHolds_of_regs (s := s) (by rw [hfreed]; rfl), ← hlen, ← hsize, hholds]
  have heffect : txnEffect (freedState s d i x.addr) d x = (freedState s d i x.addr).pokeClean x.addr bs := by
    simp only [txnEffect, hkind, hreturned, howner, Bool.false_eq_true, if_false, countBridge]
    rw [hbs, writeAt_clean hclean bs (place_of_answerless hanswers) hstill]
  obtain ⟨hbytes, hkept⟩ := pokeClean_writes (by rw [hmem]; exact hwf) x.addr bs
  refine ⟨_, congrArg Host.Outcome.next ((memory_completes hx hissued howner hidle hanswers).trans heffect), ?_, ?_, ?_,
    ?_, ?_⟩
  · show ((freedState s d i x.addr).die d).txns = _
    rw [hfreed]
    exact congrArg DieSt.txns (State.die_setDie_same s d _)
  · rw [hlen, hbytes, hbs, List.map_map]
    exact (List.map_id'' (fun b => rfl) _).symm
  · rw [hlen]
    exact fun a ha => (hkept a ha).trans (by rw [hmem])
  · show (freedState s d i x.addr).ctxs = _
    rw [hfreed]
    rfl
  · show (freedState s d i x.addr).regs = _
    rw [hfreed]
    rfl

end

end

end

end Sys2Proof.Machine
end

section
namespace Sys2Proof.Machine

/-- Settles O37: what a descriptor makes only joins what is on its way, so that each piece of each of its rows stands there in
the end; completions and transactions follow from what their state keeps of registers and memory. -/
theorem dmaDescriptors : Obligations.DmaDescriptors := by
  intro s d c
  refine ⟨fun q x sA m h hc ht => dpost_clause h hc ht, fun a h ha => dmaPost_clause h ha, fun i a ha hserved hret horder =>
    ⟨fun dp q => post_returns ha hserved hret horder, fun dp n dst k => copy_returns ha hserved hret horder,
      fun dp n r got hdest hkind hr hgot hchecked hwhole => stretch_clause ha hserved hret horder hdest hkind hr hgot hchecked hwhole⟩,
    fun p rest h htable => start_clause h htable, fun p rest h htable => table_clause h htable, fun i r hr => complete_clause hr,
    fun i x hx hissued => issue_clause hx hissued, fun i x hx hissued howner hidle => ⟨fun e q y rd sx hkind hdest hreturned =>
      answered_load_completes hx hissued howner hidle hkind hdest hreturned, fun hanswers hreturned hlatent hwf => ⟨?_, ?_⟩, ?_⟩⟩
  · exact fun e q y rd sx hkind hdest => memory_load_completes hx hissued howner hidle hanswers hreturned hlatent hkind hdest
  · exact fun hkind hdata hholds hsize =>
      memory_store_completes hx hissued howner hidle hanswers hreturned hlatent hwf hkind hdata hholds hsize
  · exact fun hanswers hreturned => congrArg Host.Outcome.next (txnComplete_stands hx hanswers hreturned _)

end Sys2Proof.Machine
end

section
/-! ### Frames of the remote path, as the link layer hands them on (R397, R405, R407, R661) -/

namespace Sys2Proof.Machine

/-- One more credit is owed for its entry, and nothing else has changed (R402). -/
theorem owed_oweCredit (s : State) (p : Port) (e : Nat) : ((oweCredit s p e).port p).owed.at_ 0 e = (s.port p).owed.at_ 0 e + 1 := by
  rw [oweCredit]
  simp only [State.setPort, State.port, Assoc.at_put_same]

theorem flushHeld_none {s : State} (h : s.circ.heldRemote = []) : flushHeld s = s := by
  rw [flushHeld]
  split
  · rfl
  · rw [h, List.foldl_nil, ← h]

section
variable {s u : State} {h : RxHead} {lane : Option Nat} {e : Nat} {p : RemotePkt} (hrecv : receive s h false = .yes u lane)
  (hmatch : partMatch u h lane = some e)
include hrecv hmatch

theorem remoteFrame_bad (eot : Bool) : remoteFrame h false eot p s = oweCredit (portFault u .frameBad h.port 0) h.port e := by
  rw [remoteFrame, hrecv]
  simp only [hmatch, if_true]

variable (hring : p.tgtRing = u.ringId) (hpos : p.tgtPos = u.position)
include hring hpos

theorem remoteFrame_held (hwaits : remoteWaits u h = true) (eot : Bool) : remoteFrame h true eot p s
    = { u with circ := { u.circ with heldRemote := u.circ.heldRemote ++ [{ head := h, entry := e, eot := eot, pkt := p }] } } := by
  rw [remoteFrame, hrecv]
  simp only [hmatch, hring, hpos, hwaits, Bool.true_eq_false, and_self, if_true, if_false]

theorem remoteFrame_lands (hwaits : remoteWaits u h = false) (hnone : u.circ.heldRemote = []) (eot : Bool) :
    remoteFrame h true eot p s = oweCredit (landPacket u h p eot) h.port e := by
  rw [remoteFrame, hrecv]
  simp only [hmatch, hring, hpos, hwaits, Bool.true_eq_false, Bool.false_eq_true, and_self, if_true, if_false, flushHeld_none hnone]

end

/-! ### What a frame brings to its target -/

section
variable {u : State} {h : RxHead} {p : RemotePkt}

theorem accs_countPacket (s : State) (e : Die) (id : XferId) (n : Nat) (d : Die) : ((countPacket s e id n).die d).accs = (s.die d).accs := by
  rw [countPacket]
  by_cases hd : d = e
  · rw [hd, State.die_setDie_same]
  · rw [State.die_setDie_ne _ _ hd]

theorem accs_countRemote (s : State) (port : Port) (p : RemotePkt) (d : Die) : ((countRemote s port p).die d).accs = (s.die d).accs :=
  (accs_countPacket ..).trans (accs_countPacket ..)

/-- A write that has taken effect: only the dies' counts, and the answer to the last frame of its transaction, are new. -/
theorem wrote_answers (u : State) (port : Port) (p : RemotePkt) (eot : Bool) :
    (∃ dies out, wrote u port p eot = { u with dies := dies, remoteOut := out })
    ∧ (eot = true → Answers u (wrote u port p eot) p 0 []) ∧ (eot = false → (wrote u port p eot).remoteOut = u.remoteOut)
    ∧ ∀ d, ((wrote u port p eot).die d).accs = (u.die d).accs := by
  cases eot with
  | true => exact ⟨⟨_, _, rfl⟩, fun _ => ⟨_, rfl, rfl, rfl, rfl, rfl, rfl, rfl⟩, nofun, accs_countRemote u port p⟩
  | false => exact ⟨⟨_, _, rfl⟩, nofun, fun _ => rfl, accs_countRemote u port p⟩

/-- The data of a read that fits one frame (R405). -/
theorem replyRead_short {port : Port} {data : List (Byte × Bool)} (hlen : (hideMarks data).length ≤ 224) :
    replyRead u port p data = replyTo u port p 0 2 (hideMarks data) := if_pos hlen

theorem length_hideMarks (data : List (Byte × Bool)) : (hideMarks data).length = data.length := by simp [hideMarks]

theorem length_fetchAt (s : State) (a n : Nat) : (fetchAt s a n).length = n := by
  rw [fetchAt]
  split
  · simp [State.peek]
  · simp

/-! #### Writes and accumulates -/

theorem landWrite_rejected {eot : Bool} {src : Option Source} (hreject : landReject u p p.data.length 4 (landKind p p.data.length) = some src) :
    landWrite u h p eot = refusePacket u h.port p src 3 eot := by
  simp only [landWrite, hreject]

theorem landWrite_store {eot : Bool} {k : AccKind} {d : Die} {st : Store} {a w off : Nat}
    (hreject : landReject u p p.data.length 4 (landKind p p.data.length) = none) (hkind : landKind p p.data.length = some k)
    (hplace : placeOf p.addr = .store d st a w off) :
    landWrite u h p eot = landStore u d h.port p eot k p.data.length (p.data.map (·, false)) := by
  rw [hkind] at hreject
  simp only [landWrite, hkind, hreject, hplace]

theorem landWrite_memory {eot : Bool} {k : AccKind} (hreject : landReject u p p.data.length 4 (landKind p p.data.length) = none)
    (hkind : landKind p p.data.length = some k) (hplace : ∀ d st a w off, placeOf p.addr ≠ .store d st a w off) :
    landWrite u h p eot = wrote (writeAt u p.addr k (p.data.map (·, false))) h.port p eot := by
  rw [hkind] at hreject
  simp only [landWrite, hkind, hreject]

end

end Sys2Proof.Machine
end

section
/-! ### The clauses of frames that arrive -/

namespace Sys2Proof.Machine

/-! #### Heads whose OP is that of their frame (R405) -/

section
variable (s : State) (h : RxHead) {p : RemotePkt}

theorem exec_rwr (hop : p.op < 2) (hlen : p.data.length ≤ 224) (eot : Bool) :
    exec (.rwr h true eot p) s = .next (remoteFrame h true eot { p with kind := .rwr } s) := by
  have hgood : (true && (p.op == 0 || p.op == 1 || p.op == 5)) = true := by
    have hops : p.op = 0 ∨ p.op = 1 := by omega
    rcases hops with hop | hop <;> simp [hop]
  show Host.Outcome.next (remoteFrame h (true && (p.op == 0 || p.op == 1 || p.op == 5)) eot { p with kind := .rwr, data := p.data.take 224 } s) = _
  rw [hgood, List.take_of_length_le hlen]

theorem exec_rrd (hop : p.op = 2) : exec (.rrd h true p) s = .next (remoteFrame h true true { p with kind := .rrd } s) := by
  have hgood : (true && p.op == 2) = true := by simp [hop]
  exact congrArg (fun good => Host.Outcome.next (remoteFrame h good true { p with kind := .rrd } s)) hgood

theorem exec_rrsp (hop : p.op = 2 ∨ p.op = 3) : exec (.rrsp h true p) s = .next (remoteFrame h true true { p with kind := .rrsp } s) := by
  have hgood : (true && (p.op == 2 || p.op == 3 || p.op == 4)) = true := by rcases hop with hop | hop <;> simp [hop]
  exact congrArg (fun good => Host.Outcome.next (remoteFrame h good true { p with kind := .rrsp } s)) hgood

theorem exec_sig (hop : p.op = 4) : exec (.sig h true p) s = .next (remoteFrame h true true { p with kind := .sig } s) := by
  have hgood : (true && p.op == 4) = true := by simp [hop]
  exact congrArg (fun good => Host.Outcome.next (remoteFrame h good true { p with kind := .sig } s)) hgood

end

section
variable {s u : State} {h : RxHead} {lane : Option Nat} {e : Nat} {p : RemotePkt} (hrecv : receive s h false = .yes u lane)
  (hmatch : partMatch u h lane = some e)
include hrecv hmatch

/-- A bad head is discarded with a LINK fault (R405). -/
theorem badHead_clause : ∀ c ∈ ([.rwr h false true p, .rrd h false p, .rrsp h false p, .sig h false p] : List Instr), Runs c s fun t =>
    Raises u t [Report.plain .frameBad 2 h.port.val .circ 0] ∧ t.mem = u.mem ∧ t.remoteOut = u.remoteOut
      ∧ (t.port h.port).owed.at_ 0 e = (u.port h.port).owed.at_ 0 e + 1 := by
  have hbad (q : RemotePkt) : remoteFrame h false true q s = oweCredit (portFault u .frameBad h.port 0) h.port e :=
    remoteFrame_bad hrecv hmatch true
  have hleaves : Raises u (oweCredit (portFault u .frameBad h.port 0) h.port e) [Report.plain .frameBad 2 h.port.val .circ 0]
      ∧ (oweCredit (portFault u .frameBad h.port 0) h.port e).mem = u.mem
      ∧ (oweCredit (portFault u .frameBad h.port 0) h.port e).remoteOut = u.remoteOut
      ∧ ((oweCredit (portFault u .frameBad h.port 0) h.port e).port h.port).owed.at_ 0 e = (u.port h.port).owed.at_ 0 e + 1 :=
    ⟨rfl, rfl, rfl, owed_oweCredit _ _ _⟩
  simp only [List.forall_mem_cons, List.not_mem_nil, false_implies, implies_true, and_true]
  exact ⟨⟨_, congrArg Host.Outcome.next (hbad _), hleaves⟩, ⟨_, congrArg Host.Outcome.next (hbad _), hleaves⟩,
    ⟨_, congrArg Host.Outcome.next (hbad _), hleaves⟩, ⟨_, congrArg Host.Outcome.next (hbad _), hleaves⟩⟩

variable (hring : p.tgtRing = u.ringId) (hpos : p.tgtPos = u.position)
include hring hpos

section
variable (hlen : p.data.length ≤ 224)
include hlen

theorem rwr_held (hop : p.op = 0) (hwaits : remoteWaits u h = true) : Runs (.rwr h true true p) s fun t =>
    t = { u with circ := { u.circ with heldRemote := u.circ.heldRemote ++
      [{ head := h, entry := e, eot := true, pkt := { p with kind := .rwr } }] } } := by
  have hheld := remoteFrame_held (p := { p with kind := .rwr }) hrecv hmatch hring hpos hwaits true
  exact ⟨_, (exec_rwr s h (by omega) hlen true).trans (congrArg Host.Outcome.next hheld), rfl⟩

end

variable (hwaits : remoteWaits u h = false) (hnone : u.circ.heldRemote = [])
include hwaits hnone

/-- An RWR frame that is taken, for this module, with a head that is good. -/
theorem rwr_lands (hlen : p.data.length ≤ 224) (hop : p.op < 2) (eot : Bool) : exec (.rwr h true eot p) s
    = .next (oweCredit (landWrite u h { p with kind := .rwr } eot) h.port e) := by
  have hlands := remoteFrame_lands (p := { p with kind := .rwr }) hrecv hmatch hring hpos hwaits hnone eot
  have hwrite : landPacket u h { p with kind := .rwr } eot = landWrite u h { p with kind := .rwr } eot :=
    if_neg fun hstage : p.op = 5 => by omega
  rw [exec_rwr s h hop hlen eot, hlands, hwrite]

/-- A write through an accepted window to memory (R287, R405). -/
theorem rwr_memory (hlen : p.data.length ≤ 224) (hop : p.op < 2) (eot : Bool)
    (hreject : landReject u p p.data.length 4 (landKind p p.data.length) = none) (hkind : landKind p p.data.length = some .write)
    (hplace : ∀ d st a w off, placeOf p.addr ≠ .store d st a w off) (hholds : tierHolds u p.addr p.data.length = true)
    (hlatent : u.latent = []) (hwf : Mem.wf u.mem = true) : Runs (.rwr h true eot p) s fun t =>
      t.bytes p.addr p.data.length = p.data ∧ MemKeptBut p.addr p.data.length u t
      ∧ (t.port h.port).owed.at_ 0 e = (u.port h.port).owed.at_ 0 e + 1
      ∧ (eot = true → Answers u t p 0 []) ∧ (eot = false → t.remoteOut = u.remoteOut) ∧ Raises u t [] := by
  have hrun := rwr_lands hrecv hmatch hring hpos hwaits hnone hlen hop eot
  have hland : landWrite u h { p with kind := .rwr } eot = wrote (u.pokeClean p.addr p.data) h.port { p with kind := .rwr } eot :=
    (landWrite_memory (p := { p with kind := .rwr }) hreject hkind hplace).trans
      (congrArg (wrote · h.port { p with kind := .rwr } eot) (writeAt_clean hlatent p.data hplace hholds))
  rw [hland] at hrun
  obtain ⟨hbytes, hkept⟩ := pokeClean_writes hwf p.addr p.data
  obtain ⟨⟨dies, out, hwrote⟩, hanswers, hquiet, -⟩ := wrote_answers (u.pokeClean p.addr p.data) h.port { p with kind := .rwr } eot
  refine ⟨_, hrun, ?_, ?_, ?_, hanswers, hquiet, ?_⟩
  · rw [hwrote]
    exact hbytes
  · rw [hwrote]
    exact hkept
  · rw [owed_oweCredit, hwrote]
    rfl
  · rw [hwrote]
    exact raises_of_reports rfl

/-- A write through an accepted window to the die's stores (R93, R287). -/
theorem rwr_store (hlen : p.data.length ≤ 224) (hop : p.op < 2) (eot : Bool) {k : AccKind}
    (hreject : landReject u p p.data.length 4 (landKind p p.data.length) = none) (hkind : landKind p p.data.length = some k)
    {d : Die} {st : Store} {a w off : Nat} (hplace : placeOf p.addr = .store d st a w off) : Runs (.rwr h true eot p) s fun t =>
      (∃ b, (t.die d).accs = (u.die d).accs ++ [b] ∧ b.dest = .remote ∧ b.kind = k ∧ b.addr = directAddr p.addr
        ∧ b.data = p.data.map (fun x => (x, false))
        ∧ t.inbound = u.inbound ++ [{ die := d, stamp := b.stamp, port := h.port, pkt := { p with kind := .rwr }, eot := eot }])
      ∧ t.remoteOut = u.remoteOut ∧ t.mem = u.mem ∧ Raises u t [] := by
  have hrun := rwr_lands hrecv hmatch hring hpos hwaits hnone hlen hop eot
  rw [landWrite_store (p := { p with kind := .rwr }) hreject hkind hplace] at hrun
  refine ⟨_, hrun, ⟨⟨u.nextStamp d, k, directAddr p.addr, p.data.length, p.data.map (·, false), .remote, false, u.beat d, 0, false⟩, ?_,
    rfl, rfl, rfl, rfl, rfl⟩, rfl, rfl, raises_of_reports rfl⟩
  show ((landStore u d h.port { p with kind := .rwr } eot k p.data.length (p.data.map (·, false))).die d).accs = _
  simp only [landStore, pushAccess, State.bump, State.die_setDie_same]
  rfl

/-- A write that no window admits, or of a bad place or shape (R10, R283). -/
theorem rwr_refused (hlen : p.data.length ≤ 224) (hop : p.op < 2) {src : Option Source}
    (hreject : landReject u p p.data.length 4 (landKind p p.data.length) = some src) : Runs (.rwr h true true p) s fun t =>
      StoresKept u t ∧ Answers u t p 1 [] ∧ Raises u t (src.toList.map (fun f => Report.plain f 2 0 .dma p.addr)) := by
  have hrun := rwr_lands hrecv hmatch hring hpos hwaits hnone hlen hop true
  rw [landWrite_rejected (p := { p with kind := .rwr }) hreject] at hrun
  cases src with
  | none => exact ⟨_, hrun, ⟨rfl, rfl, rfl, rfl⟩, ⟨_, rfl, rfl, rfl, rfl, rfl, rfl, rfl⟩, raises_of_reports rfl⟩
  | some f => exact ⟨_, hrun, ⟨rfl, rfl, rfl, rfl⟩, ⟨_, rfl, rfl, rfl, rfl, rfl, rfl, rfl⟩, rfl⟩

/-- A read of memory is answered with its bytes (R287, R405, R533). -/
theorem rrd_answers (hop : p.op = 2) (hlen : p.len ≤ 224) (hreject : landReject u p p.len 2 (some .read) = none) (hlatent : u.latent = [])
    (hplace : ∀ d st a w off, placeOf p.addr ≠ .store d st a w off) : Runs (.rrd h true p) s fun t =>
      t.mem = u.mem ∧ Answers u t p 0 (hideMarks (fetchAt u p.addr p.len)) := by
  have hlands := remoteFrame_lands (p := { p with kind := .rrd }) hrecv hmatch hring hpos hwaits hnone true
  have hland : landPacket u h { p with kind := .rrd } true = replyTo u h.port { p with kind := .rrd } 0 2 (hideMarks (fetchAt u p.addr p.len)) := by
    have hmin : min p.len 256 = p.len := by omega
    show landRrd u h { p with kind := .rrd } = _
    have hreject' : landReject u { p with kind := .rrd } p.len 2 (some .read) = none := hreject
    simp only [landRrd, hmin, hreject', readAt_of_latent hlatent]
    exact replyRead_short (by rw [length_hideMarks, length_fetchAt]; exact hlen)
  rw [hland] at hlands
  exact ⟨_, (exec_rrd s h hop).trans (congrArg Host.Outcome.next hlands), rfl, _, rfl, rfl, rfl, rfl, rfl, rfl, rfl⟩

/-- An answer reaches its transaction (R289, R405). -/
theorem rrsp_reaches {i : Nat} {x : Txn} {w : Fin 64} (hop : p.op = 2 ∨ p.op = 3) (hstatus : p.status = 0)
    (hanswered : answered u ⟨p.srcDie % 2, Nat.mod_lt _ (by decide)⟩ p = some (i, x, w)) : Runs (.rrsp h true p) s fun t =>
      t.mem = u.mem ∧ ((t.die ⟨p.srcDie % 2, Nat.mod_lt _ (by decide)⟩).txns
        = (u.die ⟨p.srcDie % 2, Nat.mod_lt _ (by decide)⟩).txns.set i (if x.kind = .read then
            { x with data := x.data ++ p.data.map (fun b => (b, false)),
                     returned := decide (x.size ≤ (x.data ++ p.data.map (fun b => (b, false))).length) }
          else { x with returned := true })) := by
  have hlands := remoteFrame_lands (p := { p with kind := .rrsp }) hrecv hmatch hring hpos hwaits hnone true
  have hne : ¬ p.op = 4 := by omega
  have hgood : ¬ p.status = 1 := by omega
  have hanswered' : answered u ⟨p.srcDie % 2, Nat.mod_lt _ (by decide)⟩ { p with kind := .rrsp } = some (i, x, w) := hanswered
  have hland : landPacket u h { p with kind := .rrsp } true = setTxn u ⟨p.srcDie % 2, Nat.mod_lt _ (by decide)⟩ i
      (if x.kind = .read then
            { x with data := x.data ++ p.data.map (fun b => (b, false)),
                     returned := decide (x.size ≤ (x.data ++ p.data.map (fun b => (b, false))).length) }
          else { x with returned := true }) := by
    show landRrsp u { p with kind := .rrsp } = _
    simp only [landRrsp, hne, hanswered', hgood, if_false]
    split
    · next hread => rw [if_pos hread]
    · next hother => rw [if_neg hother]
  rw [hland] at hlands
  exact ⟨_, (exec_rrsp s h hop).trans (congrArg Host.Outcome.next hlands), rfl, txns_setTxn ..⟩

section
variable {g : SigPacket} (hop : p.op = 4) (hpacket : p.packet = some g) (hkind : g.kind = 0)
include hop hpacket hkind

theorem sig_lands : exec (.sig h true p) s = .next (oweCredit (if admitted u p p.addr 1 1 then
      toBridge u (sigDie p.addr) g ⟨if 4 ≤ h.port.val then 2 else 1, p.srcRing * 1024 + p.srcPos * 2 + p.srcDie, p.xfer⟩
    else replyTo u h.port { p with kind := .sig } 1 4 []) h.port e) := by
  have hlands := remoteFrame_lands (p := { p with kind := .sig }) hrecv hmatch hring hpos hwaits hnone true
  have hland : landPacket u h { p with kind := .sig } true = if admitted u p p.addr 1 1 then
      toBridge u (sigDie p.addr) g ⟨if 4 ≤ h.port.val then 2 else 1, p.srcRing * 1024 + p.srcPos * 2 + p.srcDie, p.xfer⟩
    else replyTo u h.port { p with kind := .sig } 1 4 [] := by
    show landSig u h { p with kind := .sig } = _
    simp only [landSig, hpacket]
    exact if_neg (by simp [hkind])
  rw [exec_sig s h hop, hlands, hland]

/-- A signal packet goes before its die's unit (R358). -/
theorem sig_admitted (hok : admitted u p p.addr 1 1 = true) : Runs (.sig h true p) s fun t =>
    (t.die (sigDie p.addr)).bridge.map (fun b => b.packet) = (u.die (sigDie p.addr)).bridge.map (fun b => b.packet) ++ [g]
      ∧ t.mem = u.mem ∧ Raises u t [] := by
  have hrun := sig_lands hrecv hmatch hring hpos hwaits hnone hop hpacket hkind
  rw [if_pos hok] at hrun
  refine ⟨_, hrun, ?_, rfl, raises_of_reports rfl⟩
  show (((toBridge u (sigDie p.addr) g _).die (sigDie p.addr)).bridge.map fun b => b.packet) = _
  rw [toBridge, State.die_setDie_same, List.map_append]
  rfl

/-- One that no window admits is refused (R360). -/
theorem sig_refused (hno : admitted u p p.addr 1 1 = false) : Runs (.sig h true p) s fun t =>
    StoresKept u t ∧ Answers u t p 1 [] ∧ Raises u t [] := by
  have hrun := sig_lands hrecv hmatch hring hpos hwaits hnone hop hpacket hkind
  rw [if_neg (by simp [hno])] at hrun
  exact ⟨_, hrun, ⟨rfl, rfl, rfl, rfl⟩, ⟨_, rfl, rfl, rfl, rfl, rfl, rfl, rfl⟩, raises_of_reports rfl⟩

end

end

/-! ### An access of a remote frame returns from the stores -/

section
variable {s : State} {d : Die} {i : Nat} {a : Access} {b : Inbound} (ha : (s.die d).accs[i]? = some a) (hdest : a.dest = .remote)
  (hserved : a.served = true) (hret : a.ret ≤ s.beat d) (hfind : s.inbound.find? (fun e => e.die = d ∧ e.stamp = a.stamp) = some b)
include ha hdest hserved hret hfind

/-- The state in which the frame's effect is answered. -/
def returnedState (s : State) (d : Die) (i : Nat) (a : Access) : State :=
  { s.setDie d { s.die d with accs := (s.die d).accs.eraseIdx i } with
    inbound := s.inbound.filter (fun o => !(o.die == d && o.stamp == a.stamp)) }

theorem remote_returns : exec (.storeReadReturn d i) s = .next (match a.kind with
    | .read => replyRead (returnedState s d i a) b.port b.pkt a.data
    | _ => wrote (returnedState s d i a) b.port b.pkt b.eot) := by
  have hfind' : (s.setDie d { s.die d with accs := (s.die d).accs.eraseIdx i }).inbound.find? (fun e => e.die = d ∧ e.stamp = a.stamp)
      = some b := hfind
  show Host.Outcome.next _ = _
  simp only [ha, hdest, hserved, Nat.not_lt.mpr hret, Bool.not_true, decide_false, Bool.or_self, Bool.false_eq_true, if_true, if_false,
    remoteBack, hfind']
  rfl

theorem remote_return_clause : Runs (.storeReadReturn d i) s fun t =>
    (a.kind = .read → (hideMarks a.data).length ≤ 224 → Answers s t b.pkt 0 (hideMarks a.data))
      ∧ (a.kind ≠ .read → b.eot = true → Answers s t b.pkt 0 []) ∧ (a.kind ≠ .read → b.eot = false → t.remoteOut = s.remoteOut)
      ∧ (t.die d).accs = (s.die d).accs.eraseIdx i ∧ StoresKept s t ∧ t.regs = s.regs ∧ t.ctxs = s.ctxs := by
  have hrun := remote_returns ha hdest hserved hret hfind
  have haccs : ((returnedState s d i a).die d).accs = (s.die d).accs.eraseIdx i := congrArg DieSt.accs (State.die_setDie_same s d _)
  by_cases hread : a.kind = .read
  · have hreply : ∃ out, replyRead (returnedState s d i a) b.port b.pkt a.data = { returnedState s d i a with remoteOut := out } := by
      rw [replyRead]
      dsimp only
      split
      · exact ⟨_, rfl⟩
      · exact ⟨_, rfl⟩
    rw [hread] at hrun
    refine ⟨_, hrun, fun _ hlen => ?_, fun hno => absurd hread hno, fun hno => absurd hread hno, ?_⟩
    · rw [replyRead_short hlen]
      exact ⟨_, rfl, rfl, rfl, rfl, rfl, rfl, rfl⟩
    · obtain ⟨out, hreply⟩ := hreply
      dsimp only
      rw [hreply]
      exact ⟨haccs, ⟨rfl, rfl, rfl, rfl⟩, rfl, rfl⟩
  · obtain ⟨⟨dies, out, hwrote⟩, hanswers, hquiet, hkept⟩ := wrote_answers (returnedState s d i a) b.port b.pkt b.eot
    have hwrite : exec (.storeReadReturn d i) s = .next (wrote (returnedState s d i a) b.port b.pkt b.eot) := by
      refine hrun.trans (congrArg Host.Outcome.next ?_)
      split
      · next hkind => exact absurd hkind hread
      · rfl
    refine ⟨_, hwrite, fun hno => absurd hno hread, fun _ => hanswers, fun _ => hquiet, (hkept d).trans haccs, ?_⟩
    rw [hwrote]
    exact ⟨⟨rfl, rfl, rfl, rfl⟩, rfl, rfl⟩

end

end Sys2Proof.Machine
end

section
namespace Sys2Proof.Machine.RemotePath

/-- Settles O39: a frame that is taken and that nothing holds back is one call of the rule of its kind, whose credit is owed
afterwards; each rule is judged by its check of the import, and what it leaves is read off its own equation. -/
theorem remoteFrames : Obligations.RemoteFrames := by
  refine ⟨fun s u h lane e p hrecv hmatch => ⟨badHead_clause hrecv hmatch, fun hring hpos hlen =>
    ⟨rwr_held hrecv hmatch hring hpos hlen, fun hwaits hnone => ⟨fun eot k hop hreject hkind => ⟨?_, ?_⟩, ?_, ?_, ?_, ?_, ?_⟩⟩⟩,
    fun s d i a b ha hdest hserved hret hfind => remote_return_clause ha hdest hserved hret hfind⟩
  · rintro rfl hplace hholds hlatent hwf
    exact rwr_memory hrecv hmatch hring hpos hwaits hnone hlen hop eot hreject hkind hplace hholds hlatent hwf
  · exact fun d st a w off hplace => rwr_store hrecv hmatch hring hpos hwaits hnone hlen hop eot hreject hkind hplace
  · exact fun src hop hreject => rwr_refused hrecv hmatch hring hpos hwaits hnone hlen hop hreject
  · exact fun hop hshort hreject hlatent hplace => rrd_answers hrecv hmatch hring hpos hwaits hnone hop hshort hreject hlatent hplace
  · exact fun i x w hop hstatus hanswered => rrsp_reaches hrecv hmatch hring hpos hwaits hnone hop hstatus hanswered
  · exact fun g hop hpacket hkind hok => sig_admitted hrecv hmatch hring hpos hwaits hnone hop hpacket hkind hok
  · exact fun g hop hpacket hkind hno => sig_refused hrecv hmatch hring hpos hwaits hnone hop hpacket hkind hno

end Sys2Proof.Machine.RemotePath
end
